-- ==== Sys2Proof/Word.lean ====
section
/-! DEFINITION. The word types of the machine. -/

namespace Sys2Proof

/-- A byte of memory. -/
abbrev Byte := BitVec 8
/-- A 32-bit word: an instruction, a block header, a grid lane, a token queue's token. -/
abbrev W32 := BitVec 32
/-- A 64-bit word: a scalar register, a control register, a record word. -/
abbrev W64 := BitVec 64

end Sys2Proof
end

