-- ==== Sys2Proof/Machine/Bits.lean ====
section
/-! DEFINITION. Bit fields of words and the small list operations the meanings share. -/

namespace Sys2Proof.Machine

/-- Bits [hi:lo] of a number (R5). -/
def bitsAt (x hi lo : Nat) : Nat := (x >>> lo) % 2 ^ (hi + 1 - lo)

/-- Bit `i` of a number. -/
def bitAt (x i : Nat) : Bool := x.testBit i

/-- `x` with bits [hi:lo] replaced by the low bits of `v`. -/
def setBits (x hi lo v : Nat) : Nat :=
  x - (bitsAt x hi lo <<< lo) + ((v % 2 ^ (hi + 1 - lo)) <<< lo)

/-- 1 for true, 0 for false. -/
def b2n (b : Bool) : Nat := if b then 1 else 0

/-- The two's-complement value of the low `n` bits of `x`. -/
def sintOf (n x : Nat) : Int :=
  let y := x % 2 ^ n
  if y < 2 ^ (n - 1) then (y : Int) else (y : Int) - (2 : Int) ^ n

/-- The low `n` bits that hold the integer `v` in two's complement. -/
def natOfInt (n : Nat) (v : Int) : Nat := (v % ((2 : Int) ^ n)).toNat

/-- The number of bits of `x`: 0 for 0. -/
def bitLen (x : Nat) : Nat := if x = 0 then 0 else x.log2 + 1

/-- The number of set bits among bits [n-1:0]. -/
def popCount (x : Nat) : Nat → Nat
  | 0 => 0
  | n + 1 => popCount x n + b2n (x.testBit n)

/-- The lowest index `i` in [lo, lo + n) with `p i`. -/
def findFrom (p : Nat → Bool) (lo : Nat) : Nat → Option Nat
  | 0 => none
  | n + 1 => if p lo then some lo else findFrom p (lo + 1) n

/-- The numbers `lo .. lo + n - 1`. -/
def rangeFrom (lo : Nat) : Nat → List Nat
  | 0 => []
  | n + 1 => lo :: rangeFrom (lo + 1) n

/-- The set bit positions of `x` below `n`, rising. -/
def setPositions (x n : Nat) : List Nat := (rangeFrom 0 n).filter fun i => x.testBit i

/-- Element `i` of a list, or `d`. -/
def nth {α : Type} (d : α) : List α → Nat → α
  | [], _ => d
  | x :: _, 0 => x
  | _ :: r, n + 1 => nth d r n

/-- The list with element `i` replaced; unchanged where `i` is past its end. -/
def setNth {α : Type} : List α → Nat → α → List α
  | [], _, _ => []
  | _ :: r, 0, v => v :: r
  | x :: r, n + 1, v => x :: setNth r n v

/-- The number that `n` little-endian bytes hold (R5). -/
def ofBytesLE : List Byte → Nat
  | [] => 0
  | b :: r => b.toNat + 256 * ofBytesLE r

/-- The `n` little-endian bytes of a number (R5). -/
def toBytesLE (x : Nat) : Nat → List Byte
  | 0 => []
  | n + 1 => BitVec.ofNat 8 x :: toBytesLE (x / 256) n

/-- The 32-bit words of a number, `n` of them, lowest first. -/
def words32 (x : Nat) : Nat → List W32
  | 0 => []
  | n + 1 => BitVec.ofNat 32 x :: words32 (x / 2 ^ 32) n

/-- The number that 32-bit words hold, lowest first. -/
def ofWords32 : List W32 → Nat
  | [] => 0
  | w :: r => w.toNat + 2 ^ 32 * ofWords32 r

/-- Every element admitted, as far as the list goes. -/
def allB {α : Type} (p : α → Bool) : List α → Bool
  | [] => true
  | x :: r => p x && allB p r

/-- Some element admitted. -/
def anyB {α : Type} (p : α → Bool) : List α → Bool
  | [] => false
  | x :: r => p x || anyB p r

end Sys2Proof.Machine
end

