-- ==== Sys2Proof/Machine/Numbers.lean ====
section
/-! DEFINITION. The number formats of chapter 02: floating point of every width, rounding in the six modes, integers and
residues, and the conversions between formats. Element bits are natural numbers below 2^width; an operation answers
the result's bits and the flags it raises. -/

namespace Sys2Proof.Machine

/-- The sticky flags, in the places of FFLAGS (R58): MR SAT NX UF OF DZ NV. -/
abbrev Flags := BitVec 7
def flNone : Flags := 0#7
def flNV : Flags := 1#7
def flDZ : Flags := 2#7
def flOF : Flags := 4#7
def flUF : Flags := 8#7
def flNX : Flags := 16#7
def flSAT : Flags := 32#7
def flMR : Flags := 64#7

/-- The floating-point formats (R36). -/
inductive Fmt where
  | f64 | f32 | f16 | b16 | e4 | e5
  deriving DecidableEq, Repr

/-- The rounding modes (R53). -/
inductive Rm where
  | rne | rz | rdn | rup | rna | sr
  deriving DecidableEq, Repr

/-- The mode of a 3-bit rounding code; 6 and 7 are reserved (R53). -/
def Rm.ofCode : Nat → Option Rm
  | 0 => some .rne | 1 => some .rz | 2 => some .rdn | 3 => some .rup | 4 => some .rna | 5 => some .sr
  | _ => none

/-- The mode of a brick stage's two-bit rounding code (R53). -/
def Rm.ofBrickCode : Nat → Rm
  | 0 => .rne | 1 => .rz | 2 => .rna | _ => .sr

/-- Fraction bits (R36). -/
def Fmt.frac : Fmt → Nat
  | .f64 => 52 | .f32 => 23 | .f16 => 10 | .b16 => 7 | .e4 => 3 | .e5 => 2
/-- Exponent bits (R36). -/
def Fmt.expBits : Fmt → Nat
  | .f64 => 11 | .f32 => 8 | .f16 => 5 | .b16 => 8 | .e4 => 4 | .e5 => 5
/-- Exponent bias (R36). -/
def Fmt.bias : Fmt → Nat
  | .f64 => 1023 | .f32 => 127 | .f16 => 15 | .b16 => 127 | .e4 => 7 | .e5 => 15
/-- Width in bits (R36). -/
def Fmt.width (f : Fmt) : Nat := f.frac + f.expBits + 1
/-- The bits of the largest finite magnitude (R36). -/
def Fmt.maxFinite : Fmt → Nat
  | .e4 => 0x7E
  | f => (2 ^ f.expBits - 2) * 2 ^ f.frac + (2 ^ f.frac - 1)
/-- The bits of +infinity; E4M3 has none and its largest finite stands here (R36). -/
def Fmt.infBits : Fmt → Nat
  | .e4 => 0x7E
  | f => (2 ^ f.expBits - 1) * 2 ^ f.frac
/-- The canonical NaN (R38). -/
def Fmt.nan : Fmt → Nat
  | .f64 => 0x7FF8000000000000 | .f32 => 0x7FC00000 | .f16 => 0x7E00 | .b16 => 0x7FC0 | .e4 => 0x7F | .e5 => 0x7E
/-- The exponent of the smallest subnormal: 1 - bias - frac (R36). -/
def Fmt.tiny (f : Fmt) : Int := 1 - (f.bias : Int) - (f.frac : Int)

/-- A floating-point value: `fin neg m e` is (-1)^neg * m * 2^e. -/
inductive Fv where
  | nan (signalling : Bool)
  | inf (neg : Bool)
  | fin (neg : Bool) (m : Nat) (e : Int)
  deriving DecidableEq, Repr

/-- The sign bit of format bits. -/
def Fmt.signOf (f : Fmt) (w : Nat) : Bool := w.testBit (f.width - 1)

/-- The value of format bits (R36). -/
def Fmt.value (f : Fmt) (w : Nat) : Fv :=
  let neg := f.signOf w
  let ex := bitsAt w (f.frac + f.expBits - 1) f.frac
  let fr := w % 2 ^ f.frac
  if f = .e4 then
    if ex = 15 ∧ fr = 7 then .nan false
    else if ex = 0 then .fin neg fr f.tiny
    else .fin neg (2 ^ f.frac + fr) (f.tiny + (ex : Int) - 1)
  else if ex = 2 ^ f.expBits - 1 then
    if fr = 0 then .inf neg else .nan (!fr.testBit (f.frac - 1))
  else if ex = 0 then .fin neg fr f.tiny
  else .fin neg (2 ^ f.frac + fr) (f.tiny + (ex : Int) - 1)

/-- `w` with the sign bit of format `f` set to `neg`. -/
def Fmt.withSign (f : Fmt) (neg : Bool) (w : Nat) : Nat := w % 2 ^ (f.width - 1) + b2n neg * 2 ^ (f.width - 1)

def Fv.isNan : Fv → Bool
  | .nan _ => true
  | _ => false
def Fv.isSNan : Fv → Bool
  | .nan s => s
  | _ => false
def Fv.isZero : Fv → Bool
  | .fin _ m _ => m = 0
  | _ => false
def Fv.isInf : Fv → Bool
  | .inf _ => true
  | _ => false
def Fv.neg : Fv → Bool
  | .nan _ => false
  | .inf n => n
  | .fin n _ _ => n
def Fv.negate : Fv → Fv
  | .nan s => .nan s
  | .inf n => .inf (!n)
  | .fin n m e => .fin (!n) m e

/-- One round of the counter mix of R55. -/
def srRound (x : W64) : W64 :=
  let x := x ^^^ (x >>> 30)
  let x := x * 0xBF58476D1CE4E5B9#64
  let x := x ^^^ (x >>> 27)
  let x := x * 0x94D049BB133111EB#64
  x ^^^ (x >>> 31)

/-- The 32 random bits of stochastic rounding for a key and a counter (R55). -/
def srBits (key counter : W64) : Nat := (srRound (srRound (srRound (counter ^^^ key)))).toNat % 2 ^ 32

/-- Whether the magnitude `n + rem / 2^k` rounds up to `n + 1` (R53, R56): `r` is the 32 random bits. -/
def roundsUp (rm : Rm) (r : Nat) (neg : Bool) (n rem k : Nat) : Bool :=
  if rem = 0 then false
  else match rm with
    | .rne => decide (2 * rem > 2 ^ k) || (decide (2 * rem = 2 ^ k) && n % 2 == 1)
    | .rz => false
    | .rdn => neg
    | .rup => !neg
    | .rna => decide (2 * rem ≥ 2 ^ k)
    | .sr => decide ((rem <<< 32) >>> k + r ≥ 2 ^ 32)

/-- A magnitude m * 2^e cut at the quantum 2^u: quotient, remainder, remainder width. -/
def cutAt (m : Nat) (e u : Int) : Nat × Nat × Nat :=
  if e ≥ u then (m <<< (e - u).toNat, 0, 0)
  else
    let k := (u - e).toNat
    (m >>> k, m % 2 ^ k, k)

/-- The bits of n * 2^u, for n below 2^(frac+1) and u the quantum of its binade. -/
def Fmt.pack (f : Fmt) (neg : Bool) (n : Nat) (u : Int) : Nat :=
  let ex := if n < 2 ^ f.frac then 0 else (u - f.tiny).toNat + 1
  f.withSign neg (ex * 2 ^ f.frac + n % 2 ^ f.frac)

/-- The result of a finite magnitude beyond the largest finite value (R58, R59): E4M3 has no infinity, E5M2 goes to ±∞ in
every mode, and the wider formats as IEEE 754-2019 has the mode. -/
def Fmt.overflow (f : Fmt) (rm : Rm) (sat neg : Bool) : Nat × Flags :=
  if f = .e4 then (f.withSign neg f.maxFinite, flOF ||| flNX)
  else if sat then (f.withSign neg f.maxFinite, flSAT ||| flNX)
  else
    let toInf := f = .e5 || match rm with
      | .rne | .rna | .sr => true
      | .rz => false
      | .rdn => neg
      | .rup => !neg
    (f.withSign neg (if toInf then f.infBits else f.maxFinite), flOF ||| flNX)

/-- The exact value (-1)^neg * m * 2^e rounded once to the format (R39, R53, R56, R59): with `sat`, an overflow gives the
largest finite with SAT. -/
def Fmt.round (f : Fmt) (rm : Rm) (r : Nat) (sat neg : Bool) (m : Nat) (e : Int) : Nat × Flags :=
  if m = 0 then (f.withSign neg 0, flNone)
  else
    let top : Int := (m.log2 : Int) + e
    let u : Int := max (top - (f.frac : Int)) f.tiny
    let (n, rem, k) := cutAt m e u
    let n := if roundsUp rm r neg n rem k then n + 1 else n
    let (n, u) := if n ≥ 2 ^ (f.frac + 1) then (n / 2, u + 1) else (n, u)
    let nx := if rem = 0 then flNone else flNX
    -- the format's bits as a magnitude; above the largest finite it overflows
    let ex := if n < 2 ^ f.frac then 0 else (u - f.tiny).toNat + 1
    if ex * 2 ^ f.frac + n % 2 ^ f.frac > f.maxFinite then f.overflow rm sat neg
    else
      let uf := if rem ≠ 0 ∧ n ≠ 0 ∧ n < 2 ^ f.frac then flUF else flNone
      (f.pack neg n u, nx ||| uf)

/-- The sign of an exact zero sum: minus only in RDN, unless both terms agree (IEEE 754-2019, R39). -/
def zeroSign (rm : Rm) (n1 n2 : Bool) : Bool := if n1 = n2 then n1 else rm = .rdn

/-- The exact sum of two finite values. -/
def addFin (rm : Rm) (n1 : Bool) (m1 : Nat) (e1 : Int) (n2 : Bool) (m2 : Nat) (e2 : Int) : Fv :=
  let e := min e1 e2
  let a : Int := ((m1 <<< (e1 - e).toNat : Nat) : Int)
  let b : Int := ((m2 <<< (e2 - e).toNat : Nat) : Int)
  let s := (if n1 then -a else a) + (if n2 then -b else b)
  if s = 0 then .fin (if m1 = 0 ∧ m2 = 0 then zeroSign rm n1 n2 else rm = .rdn) 0 0
  else .fin (s < 0) s.natAbs e

/-- Exact sum of two values: a NaN term gives NaN, and infinity minus infinity is the invalid operation (R38). -/
def addEx (rm : Rm) (a b : Fv) : Fv × Flags :=
  match a, b with
  | .nan s, _ => (.nan s, flNone)
  | _, .nan s => (.nan s, flNone)
  | .inf n1, .inf n2 => if n1 = n2 then (.inf n1, flNone) else (.nan false, flNV)
  | .inf n1, _ => (.inf n1, flNone)
  | _, .inf n2 => (.inf n2, flNone)
  | .fin n1 m1 e1, .fin n2 m2 e2 => (addFin rm n1 m1 e1 n2 m2 e2, flNone)

/-- Exact product of two values that are no NaN; zero times infinity is the invalid operation (R38). -/
def mulEx (a b : Fv) : Fv × Flags :=
  let neg := a.neg != b.neg
  match a, b with
  | .fin _ m1 e1, .fin _ m2 e2 => (.fin neg (m1 * m2) (e1 + e2), flNone)
  | .inf _, .fin _ m _ => if m = 0 then (.nan false, flNV) else (.inf neg, flNone)
  | .fin _ m _, .inf _ => if m = 0 then (.nan false, flNV) else (.inf neg, flNone)
  | .inf _, .inf _ => (.inf neg, flNone)
  | _, _ => (.nan false, flNone)

/-- A quotient m1 / m2 to at least 120 bits, the bits below kept as one sticky bit: mantissa and exponent. -/
def quoFin (m1 : Nat) (e1 : Int) (m2 : Nat) (e2 : Int) : Nat × Int :=
  let k := 120 + bitLen m2
  let q := (m1 <<< k) / m2
  let rem := (m1 <<< k) % m2
  (2 * q + b2n (rem ≠ 0), e1 - e2 - (k : Int) - 1)

/-- Exact quotient of two values that are no NaN (R155, R172). -/
def divEx (a b : Fv) : Fv × Flags :=
  let neg := a.neg != b.neg
  match a, b with
  | .fin _ m1 e1, .fin _ m2 e2 =>
    if m2 = 0 then (if m1 = 0 then (.nan false, flNV) else (.inf neg, flDZ))
    else if m1 = 0 then (.fin neg 0 0, flNone)
    else let (m, e) := quoFin m1 e1 m2 e2; (.fin neg m e, flNone)
  | .inf _, .fin _ _ _ => (.inf neg, flNone)
  | .fin _ _ _, .inf _ => (.fin neg 0 0, flNone)
  | .inf _, .inf _ => (.nan false, flNV)
  | _, _ => (.nan false, flNone)

/-- The integer square root of `x`, tried bit by bit from bit `n - 1` down. -/
def isqrtGo (x acc : Nat) : Nat → Nat
  | 0 => acc
  | n + 1 => let t := acc + 2 ^ n; isqrtGo x (if t * t ≤ x then t else acc) n
def isqrt (x : Nat) : Nat := isqrtGo x 0 (bitLen x / 2 + 1)

/-- The square root of m * 2^e to at least 120 bits with a sticky bit. -/
def sqrtFin (m : Nat) (e : Int) : Nat × Int :=
  let (m, e) := if e % 2 = 0 then (m, e) else (2 * m, e - 1)
  let x := m <<< 240
  let r := isqrt x
  (2 * r + b2n (r * r ≠ x), e / 2 - 121)

/-- √a for a value that is no NaN (R155, R172). -/
def sqrtEx (a : Fv) : Fv × Flags :=
  match a with
  | .nan s => (.nan s, flNone)
  | .inf neg => if neg then (.nan false, flNV) else (.inf false, flNone)
  | .fin neg m e =>
    if m = 0 then (.fin neg 0 0, flNone)
    else if neg then (.nan false, flNV)
    else let (m', e') := sqrtFin m e; (.fin false m' e', flNone)

/-- 1/√a for a value that is no NaN (R172). -/
def rsqEx (a : Fv) : Fv × Flags :=
  match a with
  | .nan s => (.nan s, flNone)
  | .inf neg => if neg then (.nan false, flNV) else (.fin false 0 0, flNone)
  | .fin neg m e =>
    if m = 0 then (.inf neg, flDZ)
    else if neg then (.nan false, flNV)
    else
      let (m, e) := if e % 2 = 0 then (m, e) else (2 * m, e - 1)
      let j := 150 + bitLen m
      let s := isqrt (2 ^ (2 * j) / m)
      (.fin false (2 * s + b2n (s * s * m ≠ 2 ^ (2 * j))) (-(e / 2) - (j : Int) - 1), flNone)

/-- 1/a for a value that is no NaN (R172). -/
def rcpEx (a : Fv) : Fv × Flags :=
  match a with
  | .nan s => (.nan s, flNone)
  | .inf neg => (.fin neg 0 0, flNone)
  | .fin neg m e =>
    if m = 0 then (.inf neg, flDZ)
    else let (m', e') := quoFin 1 0 m e; (.fin neg m' e', flNone)

/-- 2^f for the fraction f whose bits after the point are the low `n` bits of `x`, highest first, times `acc`; `c` is
2^(2^-i) for the next bit; every value carries 256 bits after the point. -/
def exp2Go (x acc c : Nat) : Nat → Nat
  | 0 => acc
  | n + 1 => exp2Go x (if x.testBit n then (acc * c) >>> 256 else acc) (isqrt (c <<< 256)) n

/-- 2^a for a value that is no NaN, rounded later (R172): exact for an integer a, and else 256 bits with a sticky bit. An
exponent beyond any format's range stands for itself as ±2^13. -/
def exp2Ex (a : Fv) : Fv × Flags :=
  match a with
  | .nan s => (.nan s, flNone)
  | .inf neg => if neg then (.fin false 0 0, flNone) else (.inf false, flNone)
  | .fin neg m e =>
    if m = 0 then (.fin false 1 0, flNone)
    else if (m.log2 : Int) + e ≥ 13 then (.fin false 1 (if neg then -8192 else 8192), flNone)
    else if (m.log2 : Int) + e < -200 then
      -- 1 plus or minus less than 2^-200: one sticky bit beside 1
      (.fin false (if neg then 2 ^ 200 - 1 else 2 ^ 200 + 1) (-200), flNone)
    else if e ≥ 0 then
      let v : Int := ((m <<< e.toNat : Nat) : Int)
      (.fin false 1 (if neg then -v else v), flNone)
    else
      let k := (-e).toNat
      let v : Int := if neg then -(m : Int) else (m : Int)
      let i := v / ((2 : Int) ^ k)
      let fr := (v % ((2 : Int) ^ k)).toNat
      if fr = 0 then (.fin false 1 i, flNone)
      else
        let c1 := isqrt (2 ^ 513)
        (.fin false (2 * exp2Go fr (2 ^ 256) c1 k + 1) (i - 257), flNone)

/-- A value rounded to format bits: the canonical NaN, an infinity, or one rounding (R38, R39). -/
def Fmt.ofFv (f : Fmt) (rm : Rm) (r : Nat) (sat : Bool) (x : Fv × Flags) : Nat × Flags :=
  match x.1 with
  | .nan _ => (f.nan, x.2)
  | .inf neg => if f = .e4 then (f.withSign neg f.maxFinite, x.2 ||| flOF ||| flNX) else (f.withSign neg f.infBits, x.2)
  | .fin neg m e => let (w, fl) := f.round rm r sat neg m e; (w, x.2 ||| fl)

/-- NV where some operand is a signalling NaN (R38). -/
def sNanFlag (xs : List Fv) : Flags := if anyB Fv.isSNan xs then flNV else flNone

/-- A two-operand operation: a NaN operand gives the canonical NaN, otherwise the exact result rounded once (R38, R39). -/
def fpBin (f : Fmt) (rm : Rm) (r : Nat) (sat : Bool) (op : Fv → Fv → Fv × Flags) (a b : Nat) : Nat × Flags :=
  let x := f.value a
  let y := f.value b
  if x.isNan || y.isNan then (f.nan, sNanFlag [x, y]) else f.ofFv rm r sat (op x y)

/-- A one-operand operation, likewise. -/
def fpUn (f : Fmt) (rm : Rm) (r : Nat) (op : Fv → Fv × Flags) (a : Nat) : Nat × Flags :=
  let x := f.value a
  if x.isNan then (f.nan, sNanFlag [x]) else f.ofFv rm r false (op x)

def fpAddS (f : Fmt) (rm : Rm) (r : Nat) (sat : Bool) (a b : Nat) : Nat × Flags := fpBin f rm r sat (addEx rm) a b
def fpSubS (f : Fmt) (rm : Rm) (r : Nat) (sat : Bool) (a b : Nat) : Nat × Flags :=
  fpBin f rm r sat (fun x y => addEx rm x y.negate) a b
def fpMulS (f : Fmt) (rm : Rm) (r : Nat) (sat : Bool) (a b : Nat) : Nat × Flags := fpBin f rm r sat mulEx a b
def fpAdd (f : Fmt) (rm : Rm) (r : Nat) (a b : Nat) : Nat × Flags := fpAddS f rm r false a b
def fpSub (f : Fmt) (rm : Rm) (r : Nat) (a b : Nat) : Nat × Flags := fpSubS f rm r false a b
def fpMul (f : Fmt) (rm : Rm) (r : Nat) (a b : Nat) : Nat × Flags := fpMulS f rm r false a b
def fpDiv (f : Fmt) (rm : Rm) (r : Nat) (a b : Nat) : Nat × Flags := fpBin f rm r false divEx a b
def fpSqrt (f : Fmt) (rm : Rm) (r : Nat) (a : Nat) : Nat × Flags := fpUn f rm r sqrtEx a
def fpRsq (f : Fmt) (rm : Rm) (r : Nat) (a : Nat) : Nat × Flags := fpUn f rm r rsqEx a
def fpRcp (f : Fmt) (rm : Rm) (r : Nat) (a : Nat) : Nat × Flags := fpUn f rm r rcpEx a
def fpExp2 (f : Fmt) (rm : Rm) (r : Nat) (a : Nat) : Nat × Flags := fpUn f rm r exp2Ex a

/-- ±(a × b) ± c rounded once (R39, R157, R173); 0 × ∞ gives NaN and NV whatever c is. -/
def fpFma (f : Fmt) (rm : Rm) (r : Nat) (sat negP negC : Bool) (a b c : Nat) : Nat × Flags :=
  let x := f.value a
  let y := f.value b
  let z := f.value c
  if (x.isInf && y.isZero) || (x.isZero && y.isInf) then (f.nan, flNV)
  else if x.isNan || y.isNan || z.isNan then (f.nan, sNanFlag [x, y, z])
  else
    let p := (mulEx x y).1
    let p := if negP then p.negate else p
    let z := if negC then z.negate else z
    f.ofFv rm r sat (addEx rm p z)

/-- The order of two values that are no NaN: negative, zero or positive as a is below, equal to or above b; -0 = +0. -/
def cmpEx (a b : Fv) : Int :=
  match a, b with
  | .inf n1, .inf n2 => if n1 = n2 then 0 else if n1 then -1 else 1
  | .inf n1, _ => if n1 then -1 else 1
  | _, .inf n2 => if n2 then 1 else -1
  | .fin n1 m1 e1, .fin n2 m2 e2 =>
    let e := min e1 e2
    let x : Int := ((m1 <<< (e1 - e).toNat : Nat) : Int)
    let y : Int := ((m2 <<< (e2 - e).toNat : Nat) : Int)
    (if n1 then -x else x) - (if n2 then -y else y)
  | _, _ => 0

/-- IEEE minimumNumber (`mx` false) and maximumNumber (`mx` true) as R62 gives them: a number wins over a NaN, and -0
ranks below +0. -/
def fpMinMax (f : Fmt) (mx : Bool) (a b : Nat) : Nat × Flags :=
  let x := f.value a
  let y := f.value b
  let fl := sNanFlag [x, y]
  match x.isNan, y.isNan with
  | true, true => (f.nan, fl)
  | true, false => (b, fl)
  | false, true => (a, fl)
  | false, false =>
    let c := cmpEx x y
    let aLow := if c = 0 then x.neg else decide (c < 0)
    (if aLow != mx then a else b, fl)

/-- The relations of fcmp and vcmp (R155, R176). -/
inductive Rel where
  | eq | ne | lt | le | gt | ge | un
  deriving DecidableEq, Repr

def Rel.ofCode : Nat → Rel
  | 0 => .eq | 1 => .ne | 2 => .lt | 3 => .le | 4 => .gt | 5 => .ge | _ => .un

/-- The relation on a difference's sign. -/
def Rel.holds (r : Rel) (c : Int) : Bool :=
  match r with
  | .eq => c = 0
  | .ne => c ≠ 0
  | .lt => c < 0
  | .le => c ≤ 0
  | .gt => c > 0
  | .ge => c ≥ 0
  | .un => false

/-- A floating-point comparison: ordered relations signal on any NaN, the others on a signalling NaN (R155, R176). -/
def fpRel (f : Fmt) (rel : Rel) (a b : Nat) : Bool × Flags :=
  let x := f.value a
  let y := f.value b
  if x.isNan || y.isNan then
    let ordered := rel = .lt || rel = .le || rel = .gt || rel = .ge
    (rel = .ne || rel = .un, if ordered then flNV else sNanFlag [x, y])
  else (rel.holds (cmpEx x y), flNone)

/-- The class code of R172. -/
def fpClass (f : Fmt) (a : Nat) : Nat :=
  match f.value a with
  | .nan s => if s then 8 else 9
  | .inf n => if n then 0 else 7
  | .fin n m _ =>
    if m = 0 then (if n then 3 else 4)
    else if m < 2 ^ f.frac then (if n then 2 else 5)
    else if n then 1 else 6

/-! ### Integers and residues -/

/-- The range of an integer format. -/
def intLo (signed : Bool) (w : Nat) : Int := if signed then -((2 : Int) ^ (w - 1)) else 0
def intHi (signed : Bool) (w : Nat) : Int := if signed then (2 : Int) ^ (w - 1) - 1 else (2 : Int) ^ w - 1

/-- An integer clamped to a format's range, with `fl` where it is clamped. -/
def clampInt (signed : Bool) (w : Nat) (fl : Flags) (v : Int) : Nat × Flags :=
  if v < intLo signed w then (natOfInt w (intLo signed w), fl)
  else if v > intHi signed w then (natOfInt w (intHi signed w), fl)
  else (natOfInt w v, flNone)

/-- The integer a word holds in a format. -/
def intOf (signed : Bool) (w x : Nat) : Int := if signed then sintOf w x else ((x % 2 ^ w : Nat) : Int)

/-- The well-formed modulus pairs of R41. -/
def modPairOk (q qi : Nat) : Bool := q % 2 == 1 && decide (3 ≤ q) && decide (q ≤ 2 ^ 31 - 1) && (q * qi + 1) % 2 ^ 32 == 0

/-- A modular operand reduced before use, with MR where it was q or above (R42). -/
def modRed (q x : Nat) : Nat × Flags := if x ≥ q then (x % q, flMR) else (x, flNone)

def modAdd (q a b : Nat) : Nat × Flags :=
  let (x, f1) := modRed q a
  let (y, f2) := modRed q b
  ((x + y) % q, f1 ||| f2)
def modSub (q a b : Nat) : Nat × Flags :=
  let (x, f1) := modRed q a
  let (y, f2) := modRed q b
  ((x + q - y) % q, f1 ||| f2)
def modMul (q a b : Nat) : Nat × Flags :=
  let (x, f1) := modRed q a
  let (y, f2) := modRed q b
  ((x * y) % q, f1 ||| f2)

/-! ### Conversions (R59) -/

/-- A value to a floating-point format: NaN canonical, NV for a signalling one; infinity into E4M3 or saturating E5M2
clamps. The saturate bit acts on E5M2 alone. -/
def cvtToFp (dst : Fmt) (rm : Rm) (r : Nat) (sat : Bool) (x : Fv) : Nat × Flags :=
  match x with
  | .nan s => (dst.nan, if s then flNV else flNone)
  | .inf neg =>
    if dst = .e4 then (dst.withSign neg dst.maxFinite, flOF ||| flNX)
    else if dst = .e5 ∧ sat then (dst.withSign neg dst.maxFinite, flSAT ||| flNX)
    else (dst.withSign neg dst.infBits, flNone)
  | .fin neg m e => dst.round rm r (sat && dst = .e5) neg m e

/-- A finite value rounded to an integer in a mode, and whether it was inexact. -/
def roundInt (rm : Rm) (r : Nat) (neg : Bool) (m : Nat) (e : Int) : Int × Bool :=
  let (n, rem, k) := cutAt m e 0
  let n := if roundsUp rm r neg n rem k then n + 1 else n
  (if neg then -(n : Int) else (n : Int), rem ≠ 0)

/-- A value to an integer format. -/
def cvtToInt (signed : Bool) (w : Nat) (rm : Rm) (r : Nat) (x : Fv) : Nat × Flags :=
  match x with
  | .nan _ => (0, flNV)
  | .inf neg => (natOfInt w (if neg then intLo signed w else intHi signed w), flNV)
  | .fin neg m e =>
    -- a magnitude of 2^128 and more is out of every range
    if m ≠ 0 ∧ (m.log2 : Int) + e ≥ 128 then (natOfInt w (if neg then intLo signed w else intHi signed w), flNV)
    else
      let (v, nx) := roundInt rm r neg m e
      if v < intLo signed w ∨ v > intHi signed w then clampInt signed w flNV v
      else (natOfInt w v, if nx then flNX else flNone)

/-- An integer to a floating-point format. -/
def cvtIntToFp (dst : Fmt) (rm : Rm) (r : Nat) (sat : Bool) (v : Int) : Nat × Flags :=
  dst.round rm r (sat && dst = .e5) (v < 0) v.natAbs 0

/-- What an element format code holds (R35). -/
inductive Kind where
  | fp (f : Fmt)
  | int (signed : Bool) (w : Nat)
  | mod
  | q4
  deriving DecidableEq, Repr

/-- The kind of a format code; 15 is reserved (R35). -/
def kindOf : Nat → Option Kind
  | 0 => some (.fp .f32) | 1 => some (.fp .f16) | 2 => some (.fp .b16) | 3 => some (.fp .e4) | 4 => some (.fp .e5)
  | 5 => some (.int true 8) | 6 => some (.int true 16) | 7 => some (.int true 32) | 8 => some (.int true 64)
  | 9 => some (.int false 8) | 10 => some (.int false 16) | 11 => some (.int false 32) | 12 => some (.int false 64)
  | 13 => some .mod | 14 => some .q4
  | _ => none

/-- The width in bits of a format code; 0 for the codes that have no element width. -/
def widthOf (c : Nat) : Nat :=
  match kindOf c with
  | some (.fp f) => f.width
  | some (.int _ w) => w
  | some .mod => 32
  | _ => 0

/-- Whether a pair of kinds is converted at all (R59): floating point and residues are not. -/
def cvtOffered : Kind → Kind → Bool
  | .fp _, .mod => false
  | .mod, .fp _ => false
  | _, _ => true

/-- An element converted between kinds under R59; `q` is the modulus of a residue side. Equal kinds copy, a NaN made
canonical (R178); q4 converts by its own rule (R51, R52). -/
def convert (src dst : Kind) (rm : Rm) (r : Nat) (sat : Bool) (q : Nat) (x : Nat) : Nat × Flags :=
  match src, dst with
  | .fp f, .fp g =>
    if f = g then
      match f.value x with
      | .nan s => (f.nan, if s then flNV else flNone)
      | _ => (x, flNone)
    else cvtToFp g rm r sat (f.value x)
  | .fp f, .int s w => cvtToInt s w rm r (f.value x)
  | .int s w, .fp g => cvtIntToFp g rm r sat (intOf s w x)
  | .int s w, .int s' w' => if s = s' ∧ w = w' then (x, flNone) else clampInt s' w' flSAT (intOf s w x)
  | .int s w, .mod => (((intOf s w x) % (q : Int)).toNat, flNone)
  | .mod, .int s w =>
    let (y, fl) := modRed q x
    let (z, fl') := clampInt s w flSAT (y : Int)
    (z, fl ||| fl')
  | .mod, .mod => (x, flNone)
  | _, _ => (x, flNone)

end Sys2Proof.Machine
end

