-- ==== Sys2Proof/Machine/Blocks.lean ====
section
/-! DEFINITION. Block formats of chapter 02: Q4N super-blocks (R49 to R52), BFP16 blocks and butterflies (R44 to R48), and
the ordered sums of R60 to R63. FP32 values are given by their bits. -/

namespace Sys2Proof.Machine

/-! ### Q4N -/

/-- The level of a Q4N code, times 128 (R49). -/
def q4Level (code : Nat) : Int :=
  nth 0 [-128, -92, -70, -53, -39, -26, -13, 0, 11, 22, 33, 45, 59, 75, 96, 128] code

/-- RoundRNE32(c × S′) with the flags of the multiplication (R51). -/
def q4Scale (c super : Nat) : Nat × Flags := fpMul .f32 .rne 0 (cvtIntToFp .f32 .rne 0 false (c : Int)).1 super

/-- The level of a code as FP32 bits. -/
def q4LevelBits (code : Nat) : Nat :=
  let l := q4Level code
  (Fmt.f32.round .rne 0 false (l < 0) l.natAbs (-7)).1

/-- RoundRNE32(Level × m); code 7 gives +0, the product's flags stand (R51, R57). -/
def q4Value (code m : Nat) : Nat × Flags :=
  let (v, fl) := fpMul .f32 .rne 0 (q4LevelBits code) m
  (if code = 7 then 0 else v, fl)

/-- An element dequantised from its code, its block's scale code and the super-scale (R51). -/
def q4Deq (code c super : Nat) : Nat × Flags :=
  if c = 0 then (0, flNone)
  else
    let (m, f1) := q4Scale c super
    let (v, f2) := q4Value code m
    (v, f1 ||| f2)

/-- A finite FP32 value as an integer times 2^-149. -/
def f32Int (w : Nat) : Option Int :=
  match Fmt.f32.value w with
  | .fin neg m e =>
    let v : Int := ((m <<< (e + 149).toNat : Nat) : Int)
    some (if neg then -v else v)
  | _ => none

/-- Whether RoundRNE32(c × S′) is at least the magnitude `a` (R52 step 3). -/
def q4ScaleOk (a : Nat) (super c : Nat) : Bool :=
  match Fmt.f32.value (q4Scale c super).1 with
  | .inf neg => !neg
  | .fin neg m e => !(neg && m ≠ 0) && (m <<< (e + 149).toNat) ≥ a
  | .nan _ => false

/-- The scale code of a block whose largest magnitude is `a` times 2^-149: the smallest c in 1..255 that reaches it, or
255 (R52 step 3). -/
def q4ScaleCode (a super : Nat) : Nat := (findFrom (q4ScaleOk a super) 1 255).getD 255

/-- The code whose dequantised value lies nearest `v`, ties to the level of smaller magnitude (R52 step 4), and whether
the value differs. `n` codes are still to be tried, code `16 - n` next. -/
def q4NearestGo (m : Nat) (v : Int) (best : Option (Nat × Nat × Nat)) : Nat → Option (Nat × Nat × Nat)
  | 0 => best
  | n + 1 =>
    let code := 15 - n
    match f32Int (q4Value code m).1 with
    | none => q4NearestGo m v best n
    | some d =>
      let dist := (v - d).natAbs
      let lev := (q4Level code).natAbs
      let better := match best with
        | none => true
        | some (bd, bl, _) => dist < bd || (dist == bd && lev < bl)
      q4NearestGo m v (if better then some (dist, lev, code) else best) n

/-- One element quantised against m: code and flags (R52 steps 1 and 4). -/
def q4Code (m x : Nat) : Nat × Flags :=
  match f32Int x with
  | none => (7, flNV)
  | some v =>
    match q4NearestGo m v none 16 with
    | none => (7, flNX)
    | some (dist, _, code) => (code, if dist = 0 then flNone else flNX)

/-- The largest magnitude of a list of FP32 values, times 2^149, NaN and infinity as 0. -/
def f32MaxAbs (xs : List Nat) : Nat :=
  xs.foldl (fun a x => match f32Int x with | some v => max a v.natAbs | none => a) 0

/-- A block quantised: scale code, codes and flags (R52). -/
def q4Block (super : Nat) (xs : List Nat) : Nat × List Nat × Flags :=
  let c := q4ScaleCode (f32MaxAbs xs) super
  let m := (q4Scale c super).1
  let cs := xs.map (q4Code m)
  (c, cs.map (·.1), (cs.map (·.2)).foldl (· ||| ·) flNone)

/-- The FP32 bits of an integer multiple of 2^-149 that is itself an FP32 value. -/
def f32OfInt (v : Nat) : Nat := (Fmt.f32.round .rne 0 false false v (-149)).1

/-- The super-scale of a super-block: RoundRNE32(A / 255), whose rounding raises no flag (R52 step 2). -/
def q4Super (xs : List Nat) : Nat := (fpDiv .f32 .rne 0 (f32OfInt (f32MaxAbs xs)) 0x437F0000).1

/-- A list cut into pieces of `n`, `k` of them. -/
def piecesOf {α : Type} (n : Nat) (xs : List α) : Nat → List (List α)
  | 0 => []
  | k + 1 => xs.take n :: piecesOf n (xs.drop n) k

/-- The bytes of 4-bit codes, two a byte, the first in [3:0] (R50). -/
def packNibbles : List Nat → List Byte
  | a :: b :: r => BitVec.ofNat 8 (a + 16 * b) :: packNibbles r
  | [a] => [BitVec.ofNat 8 a]
  | [] => []

/-- A super-block of 8,704 bytes from 16,384 FP32 values, and its flags (R50, R52). -/
def q4Quant (xs : List Nat) : List Byte × Flags :=
  let super := q4Super xs
  let bs := (piecesOf 64 xs 256).map (q4Block super)
  ((bs.map fun b => packNibbles b.2.1).flatten ++ bs.map (fun b => BitVec.ofNat 8 b.1) ++ toBytesLE super 4
    ++ List.replicate 252 0#8,
   (bs.map (·.2.2)).foldl (· ||| ·) flNone)

/-! ### BFP16 -/

/-- RoundRNE(c / 2^k); a left shift for a negative k. -/
def rneShr (c k : Int) : Int :=
  let (n, rem, w) := cutAt c.natAbs 0 k
  let n := if roundsUp .rne 0 false n rem w then n + 1 else n
  if c < 0 then -(n : Int) else (n : Int)

/-- Whether c / 2^k is inexact. -/
def shrInexact (c k : Int) : Bool := k > 0 && c.natAbs % 2 ^ k.toNat ≠ 0

/-- A mantissa clamped to [-32767, 32767]. -/
def clampMant (v : Int) : Int := if v > 32767 then 32767 else if v < -32767 then -32767 else v

/-- The least exponent at which a finite non-zero component fits (R46). -/
def bfpNeed (m : Nat) (e : Int) : Int :=
  let ee := (bitLen m : Int) + e
  if (rneShr (m : Int) (ee - 15 - e)).natAbs > 32767 then ee + 1 else ee

/-- A block of FP32 values entering BFP16: mantissas, exponent, flags (R46). NaN and infinite components take no part in the
exponent, which is 0 where no other component is non-zero (the model's choice, log 11). -/
def bfpEnter (xs : List Nat) : List Int × Int × Flags :=
  let vs := xs.map Fmt.f32.value
  let nv := if anyB (fun v => v.isNan || v.isInf) vs then flNV else flNone
  let need := vs.foldl (fun (a : Option Int) v => match v with
    | .fin _ m e => if m = 0 then a else match a with | none => some (bfpNeed m e) | some b => some (max b (bfpNeed m e))
    | _ => a) none
  match need with
  | none => (vs.map fun _ => 0, 0, nv)
  | some n =>
    let e := min (max n (-128)) 127
    let big := decide (n > 127)
    let one := fun (v : Fv) => match v with
      | .fin neg m ex =>
        let sh := e - 15 - ex
        let q := rneShr (m : Int) sh
        let q := if big then clampMant q else q
        let fl := if shrInexact (m : Int) sh then flNX else flNone
        let fl := if e = -128 ∧ m ≠ 0 ∧ q = 0 then fl ||| flUF ||| flNX else fl
        (if neg then -q else q, fl)
      | _ => ((0 : Int), flNone)
    let rs := vs.map one
    (rs.map (·.1), e, (rs.map (·.2)).foldl (· ||| ·) (if big then nv ||| flOF ||| flNX else nv))

/-- The FP32 value of a mantissa at an exponent: m × 2^(e − 15), always exact (R44, R46). -/
def bfpValue (m e : Int) : Nat := (Fmt.f32.round .rne 0 false (m < 0) m.natAbs (e - 15)).1

/-- The product of a complex mantissa and a Q2.14 twiddle, each part rounded once (R47). -/
def bfpTwiddle (br bi tr ti : Int) : Int × Int := (rneShr (br * tr - bi * ti) 14, rneShr (br * ti + bi * tr) 14)

/-- The smallest k ≥ 0 with |RoundRNE(c / 2^k)| < 2^15 for every c, among the next `n` values (R47). -/
def adaptShift (cs : List Int) (k : Nat) : Nat → Nat
  | 0 => k
  | n + 1 => if allB (fun c => (rneShr c (k : Int)).natAbs < 32768) cs then k else adaptShift cs (k + 1) n

/-- The growth of a stage: ADAPT (`fixed` none) or FIXED by a shift (R47, R48). -/
def bfpGrow (cs : List Int) (e : Int) (fixed : Option Nat) : List Int × Int × Flags :=
  let k : Int := match fixed with
    | none => (adaptShift cs 0 24 : Int)
    | some s => (s : Int)
  let big := decide (e + k > 127)
  let k := if big then max 0 (127 - e) else k
  let one := fun (c : Int) =>
    let v := rneShr c k
    let cl := clampMant v
    (cl, (if shrInexact c k then flNX else flNone) ||| (if cl ≠ v ∧ fixed.isSome then flSAT else flNone))
  let rs := cs.map one
  (rs.map (·.1), if big then 127 else e + k,
   (rs.map (·.2)).foldl (· ||| ·) (if big then flOF ||| flNX else flNone))

/-! ### Ordered sums -/

/-- A product inside a block sum (R63): an exact value, or NaN with NV, whose operands are values. -/
def blockProd (a b : Fv) : Fv × Flags :=
  if a.isNan || b.isNan then (.nan false, flNV) else mulEx a b

/-- The exact sum of a group of products: NaN and NV for a NaN product or ∞ − ∞ (R63). A zero sum is +0, that of products all −0 too:
R63 gives no sign of it (the model's choice, log 51). -/
def groupSum (ps : List (Fv × Flags)) : Fv × Flags :=
  let go := fun (acc : Fv × Flags) (p : Fv × Flags) =>
    if acc.1.isNan || p.1.isNan then (Fv.nan false, acc.2 ||| p.2)
    else let (s, f) := addEx .rne acc.1 p.1; (s, acc.2 ||| p.2 ||| f)
  ps.foldl go (.fin false 0 0, flNone)

/-- A running FP32 sum plus an exact value, rounded once by RNE (R63). -/
def addRounded (s : Fv) (g : Fv × Flags) : Nat × Flags :=
  if s.isNan || g.1.isNan then (Fmt.f32.nan, g.2)
  else Fmt.f32.ofFv .rne 0 false (let (x, f) := addEx .rne s g.1; (x, g.2 ||| f))

/-- The groups after the first, each added and rounded (R63). -/
def blockSumGo (s : Nat × Flags) : List (List (Fv × Flags)) → Nat × Flags
  | [] => s
  | g :: r =>
    let (w, f) := addRounded (Fmt.f32.value s.1) (groupSum g)
    blockSumGo (w, s.2 ||| f) r

/-- The ordered sum of groups of products and an FP32 accumulator input (R63); with no group, +0 + acc. -/
def blockSum (groups : List (List (Fv × Flags))) (acc : Nat) : Nat × Flags :=
  let s : Nat × Flags := match groups with
    | [] => (0, flNone)
    | g :: r =>
      let x := groupSum g
      blockSumGo (Fmt.f32.ofFv .rne 0 false x) r
  let a := Fmt.f32.value acc
  let (y, f) := addRounded (Fmt.f32.value s.1) (a, if a.isSNan then flNV else flNone)
  (y, s.2 ||| f)

end Sys2Proof.Machine
end

