-- ==== Sys2Proof/Syntax.lean ====
section
/-! DEFINITION. The steps of the machine: one constructor per row of spec/opcode_table.json. The 213 instruction
words carry the fields of their encoding under the field names of the table, the stall count (R116, [25:23]) as `st`;
the 107 rows without bits are the steps of the package's other agents (spec/95_what_each_step_holds.md) and carry the
names of the agent or object they are about. -/

namespace Sys2Proof

inductive Instr where
  /-- ADD (R140): Writes s(d) := s(a) + s(b) modulo 2^64. -/
  | add (st : BitVec 3) (d a b : BitVec 5)
  /-- SUB (R140): Writes s(d) := s(a) − s(b) modulo 2^64. -/
  | sub (st : BitVec 3) (d a b : BitVec 5)
  /-- AND (R140): Writes the bitwise AND of s(a) and s(b) to s(d). -/
  | and (st : BitVec 3) (d a b : BitVec 5)
  /-- OR (R140): Writes the bitwise OR of s(a) and s(b) to s(d). -/
  | or (st : BitVec 3) (d a b : BitVec 5)
  /-- XOR (R140): Writes the bitwise XOR of s(a) and s(b) to s(d). -/
  | xor (st : BitVec 3) (d a b : BitVec 5)
  /-- ANDN (R140): Writes s(a) AND NOT s(b) to s(d). -/
  | andn (st : BitVec 3) (d a b : BitVec 5)
  /-- SLL (R140): Shifts s(a) left by s(b)[5:0], shifting in zeros. -/
  | sll (st : BitVec 3) (d a b : BitVec 5)
  /-- SRL (R140): Shifts s(a) right logically by s(b)[5:0]. -/
  | srl (st : BitVec 3) (d a b : BitVec 5)
  /-- SRA (R140): Shifts s(a) right arithmetically by s(b)[5:0]. -/
  | sra (st : BitVec 3) (d a b : BitVec 5)
  /-- ROL (R140): Rotates s(a) left by s(b)[5:0]. -/
  | rol (st : BitVec 3) (d a b : BitVec 5)
  /-- MIN (R140): Writes the signed minimum of s(a) and s(b). -/
  | min (st : BitVec 3) (d a b : BitVec 5)
  /-- MAX (R140): Writes the signed maximum of s(a) and s(b). -/
  | max (st : BitVec 3) (d a b : BitVec 5)
  /-- MINN (R140): Writes the unsigned minimum of s(a) and s(b). -/
  | minn (st : BitVec 3) (d a b : BitVec 5)
  /-- MAXN (R140): Writes the unsigned maximum of s(a) and s(b). -/
  | maxn (st : BitVec 3) (d a b : BitVec 5)
  /-- SLT (R140): Writes 1 if s(a) < s(b) signed, else 0. -/
  | slt (st : BitVec 3) (d a b : BitVec 5)
  /-- SLTN (R140): Writes 1 if s(a) < s(b) unsigned, else 0. -/
  | sltn (st : BitVec 3) (d a b : BitVec 5)
  /-- SEQ (R140): Writes 1 if s(a) = s(b), else 0. -/
  | seq (st : BitVec 3) (d a b : BitVec 5)
  /-- MUL (R140): Writes the low 64 bits of the product, landing at L = 4. -/
  | mul (st : BitVec 3) (d a b : BitVec 5)
  /-- MULH (R140): Writes the high 64 bits of the signed 128-bit product. -/
  | mulh (st : BitVec 3) (d a b : BitVec 5)
  /-- MULHN (R140): Writes the high 64 bits of the unsigned 128-bit product. -/
  | mulhn (st : BitVec 3) (d a b : BitVec 5)
  /-- CLZ (R140): Writes the number of leading zero bits of s(a). -/
  | clz (st : BitVec 3) (d a : BitVec 5)
  /-- CTZ (R140): Writes the number of trailing zero bits of s(a). -/
  | ctz (st : BitVec 3) (d a : BitVec 5)
  /-- POPC (R140): Writes the number of set bits of s(a). -/
  | popc (st : BitVec 3) (d a : BitVec 5)
  /-- CSEL (R140): Writes s(b) to s(d) when s(a) is non-zero, otherwise leaves s(d) unchanged. -/
  | csel (st : BitVec 3) (d a b : BitVec 5)
  /-- ADDI (R141): Adds a sign-extended 13-bit immediate to s(a). -/
  | addi (st : BitVec 3) (d a : BitVec 5) (i : BitVec 13)
  /-- ANDI (R141): ANDs s(a) with a zero-extended immediate. -/
  | andi (st : BitVec 3) (d a : BitVec 5) (i : BitVec 13)
  /-- ORI (R141): ORs s(a) with a zero-extended immediate. -/
  | ori (st : BitVec 3) (d a : BitVec 5) (i : BitVec 13)
  /-- XORI (R141): XORs s(a) with a zero-extended immediate. -/
  | xori (st : BitVec 3) (d a : BitVec 5) (i : BitVec 13)
  /-- SLLI (R141): Shifts s(a) left by an immediate amount. -/
  | slli (st : BitVec 3) (d a : BitVec 5) (h : BitVec 6)
  /-- SRLI (R141): Shifts s(a) right logically by an immediate amount. -/
  | srli (st : BitVec 3) (d a : BitVec 5) (h : BitVec 6)
  /-- SRAI (R141): Shifts s(a) right arithmetically by an immediate amount. -/
  | srai (st : BitVec 3) (d a : BitVec 5) (h : BitVec 6)
  /-- ROLI (R141): Rotates s(a) left by an immediate amount. -/
  | roli (st : BitVec 3) (d a : BitVec 5) (h : BitVec 6)
  /-- SLTI (R141): Writes 1 if s(a) is below the sign-extended immediate, compared signed. -/
  | slti (st : BitVec 3) (d a : BitVec 5) (i : BitVec 13)
  /-- SLTNI (R141): Writes 1 if s(a) is below the sign-extended immediate, compared unsigned. -/
  | sltni (st : BitVec 3) (d a : BitVec 5) (i : BitVec 13)
  /-- LI (R142): Writes a sign-extended 18-bit immediate to s(d). -/
  | li (st : BitVec 3) (d : BitVec 5) (i : BitVec 18)
  /-- LEXT (R142): Writes s(d) := (s(d) << 18) OR the zero-extended 18-bit immediate. -/
  | lext (st : BitVec 3) (d : BitVec 5) (i : BitVec 18)
  /-- LEA (R143): Writes PC plus a sign-extended byte offset to s(d). -/
  | lea (st : BitVec 3) (d : BitVec 5) (i : BitVec 18)
  /-- DIV (R144): Writes the signed quotient, truncated toward zero, as an interlocked result. -/
  | div (st : BitVec 3) (d a b : BitVec 5)
  /-- DIVN (R144): Writes the unsigned quotient as an interlocked result. -/
  | divn (st : BitVec 3) (d a b : BitVec 5)
  /-- REM (R144): Writes the signed remainder as an interlocked result. -/
  | rem (st : BitVec 3) (d a b : BitVec 5)
  /-- REMN (R144): Writes the unsigned remainder as an interlocked result. -/
  | remn (st : BitVec 3) (d a b : BitVec 5)
  /-- LD (R145): Loads a scalar of the coded size from s(a) plus a scaled offset and extends it into s(d). -/
  | ld (st : BitVec 3) (d a : BitVec 5) (z : BitVec 3) (o : BitVec 10)
  /-- ST (R145): Stores the low bytes of s(d) at s(a) plus a scaled offset. -/
  | st (st : BitVec 3) (d a : BitVec 5) (z : BitVec 2) (o : BitVec 10)
  /-- LDX (R146): Loads a scalar from s(a) + s(b) × size. -/
  | ldx (st : BitVec 3) (d a b : BitVec 5) (z : BitVec 3)
  /-- STX (R146): Stores the low bytes of s(d) at s(a) + s(b) × size. -/
  | stx (st : BitVec 3) (d a b : BitVec 5) (z : BitVec 2)
  /-- LDACQ (R352): Loads from s(a) and then acquires at the named scope. -/
  | ldacq (st : BitVec 3) (d a : BitVec 5) (c z : BitVec 3)
  /-- STREL (R353): Releases at the named scope and then stores the low bytes of s(d) at s(a). -/
  | strel (st : BitVec 3) (d a : BitVec 5) (c : BitVec 3) (z : BitVec 2)
  /-- AMO_ADD (R355): Atomically adds s(b) at s(a) and returns the old value. -/
  | amoAdd (st : BitVec 3) (d a b : BitVec 5) (z : BitVec 1) (c : BitVec 3)
  /-- AMO_ADDS (R355): Atomically adds s(b) with signed saturation at s(a), setting SAT when it clamps. -/
  | amoAdds (st : BitVec 3) (d a b : BitVec 5) (z : BitVec 1) (c : BitVec 3)
  /-- AMO_AND (R355): Atomically ANDs s(b) into the location. -/
  | amoAnd (st : BitVec 3) (d a b : BitVec 5) (z : BitVec 1) (c : BitVec 3)
  /-- AMO_OR (R355): Atomically ORs s(b) into the location. -/
  | amoOr (st : BitVec 3) (d a b : BitVec 5) (z : BitVec 1) (c : BitVec 3)
  /-- AMO_XOR (R355): Atomically XORs s(b) into the location. -/
  | amoXor (st : BitVec 3) (d a b : BitVec 5) (z : BitVec 1) (c : BitVec 3)
  /-- AMO_MIN (R355): Atomically stores the signed minimum. -/
  | amoMin (st : BitVec 3) (d a b : BitVec 5) (z : BitVec 1) (c : BitVec 3)
  /-- AMO_MAX (R355): Atomically stores the signed maximum. -/
  | amoMax (st : BitVec 3) (d a b : BitVec 5) (z : BitVec 1) (c : BitVec 3)
  /-- AMO_MINN (R355): Atomically stores the unsigned minimum. -/
  | amoMinn (st : BitVec 3) (d a b : BitVec 5) (z : BitVec 1) (c : BitVec 3)
  /-- AMO_MAXN (R355): Atomically stores the unsigned maximum. -/
  | amoMaxn (st : BitVec 3) (d a b : BitVec 5) (z : BitVec 1) (c : BitVec 3)
  /-- AMO_SWAP (R355): Atomically swaps s(b) into the location. -/
  | amoSwap (st : BitVec 3) (d a b : BitVec 5) (z : BitVec 1) (c : BitVec 3)
  /-- AMO_FADD (R355): Atomically adds in FP32 or f64 with RNE. -/
  | amoFadd (st : BitVec 3) (d a b : BitVec 5) (z : BitVec 1) (c : BitVec 3)
  /-- CAS (R357): Atomically compares the location with s(d) and writes s(b) on a match, returning the old value. -/
  | cas (st : BitVec 3) (d a b : BitVec 5) (z : BitVec 1) (c : BitVec 3)
  /-- FENCE_FULL (R354): Acquires and releases at the scope and joins the total fence order. -/
  | fenceFull (st c : BitVec 3)
  /-- FENCE_ACQ (R354): Makes every earlier read of the thread an acquire at the scope. -/
  | fenceAcq (st c : BitVec 3)
  /-- FENCE_REL (R354): Makes the first later write of the thread a release at the scope. -/
  | fenceRel (st c : BitVec 3)
  /-- FENCE_ENG (R354): Waits for every earlier copy and remote operation of the thread, then acts as fence.full. -/
  | fenceEng (st c : BitVec 3)
  /-- BR (R149): Branches unconditionally to PC + 4 × imm18. -/
  | br (st : BitVec 3) (i : BitVec 18)
  /-- CALL (R149): Branches to PC + 4 × imm18 and writes s31 := PC + 4. -/
  | call (st : BitVec 3) (i : BitVec 18)
  /-- JR (R150): Jumps to s(a) + 4 × imm13 and writes the link to s(d). -/
  | jr (st : BitVec 3) (d a : BitVec 5) (i : BitVec 13)
  /-- BEQ (R151): Branches when s(a) = s(b). -/
  | beq (st : BitVec 3) (a b : BitVec 5) (o : BitVec 13)
  /-- BNE (R151): Branches when s(a) ≠ s(b). -/
  | bne (st : BitVec 3) (a b : BitVec 5) (o : BitVec 13)
  /-- BLT (R151): Branches when s(a) < s(b) signed. -/
  | blt (st : BitVec 3) (a b : BitVec 5) (o : BitVec 13)
  /-- BGE (R151): Branches when s(a) ≥ s(b) signed. -/
  | bge (st : BitVec 3) (a b : BitVec 5) (o : BitVec 13)
  /-- BLTN (R151): Branches when s(a) < s(b) unsigned. -/
  | bltn (st : BitVec 3) (a b : BitVec 5) (o : BitVec 13)
  /-- BGEN (R151): Branches when s(a) ≥ s(b) unsigned. -/
  | bgen (st : BitVec 3) (a b : BitVec 5) (o : BitVec 13)
  /-- LOOP (R152): Decrements s(a) and branches while the result is non-zero. -/
  | loop (st : BitVec 3) (a : BitVec 5) (o : BitVec 13)
  /-- FADD (R155): Scalar floating-point add in f32 or f64, rounded by FRM. -/
  | fadd (st : BitVec 3) (d a b : BitVec 5) (p : BitVec 1)
  /-- FSUB (R155): Scalar floating-point subtract. -/
  | fsub (st : BitVec 3) (d a b : BitVec 5) (p : BitVec 1)
  /-- FMUL (R155): Scalar floating-point multiply. -/
  | fmul (st : BitVec 3) (d a b : BitVec 5) (p : BitVec 1)
  /-- FDIV (R155): Scalar floating-point divide, interlocked. -/
  | fdiv (st : BitVec 3) (d a b : BitVec 5) (p : BitVec 1)
  /-- FSQRT (R155): Scalar floating-point square root, interlocked. -/
  | fsqrt (st : BitVec 3) (d a : BitVec 5) (p : BitVec 1)
  /-- FMIN (R155): Scalar IEEE minimumNumber. -/
  | fmin (st : BitVec 3) (d a b : BitVec 5) (p : BitVec 1)
  /-- FMAX (R155): Scalar IEEE maximumNumber. -/
  | fmax (st : BitVec 3) (d a b : BitVec 5) (p : BitVec 1)
  /-- FCMP (R155): Compares two scalar floating-point values under the condition code and writes 1 or 0. -/
  | fcmp (st : BitVec 3) (d a b : BitVec 5) (p : BitVec 1) (c : BitVec 2)
  /-- FCVT (R156): Converts between scalar floating-point and integer formats by the kind field. -/
  | fcvt (st : BitVec 3) (d a : BitVec 5) (p : BitVec 1) (k : BitVec 3)
  /-- FMV (R155): Copies a raw floating-point value unchanged. -/
  | fmv (st : BitVec 3) (d a : BitVec 5) (p : BitVec 1)
  /-- FMV_NEG (R155): Copies a value with its sign bit inverted. -/
  | fmvNeg (st : BitVec 3) (d a : BitVec 5) (p : BitVec 1)
  /-- FMV_ABS (R155): Copies a value with its sign bit cleared. -/
  | fmvAbs (st : BitVec 3) (d a : BitVec 5) (p : BitVec 1)
  /-- FMV_SGN (R155): Copies the magnitude of a with the sign bit of b. -/
  | fmvSgn (st : BitVec 3) (d a b : BitVec 5) (p : BitVec 1)
  /-- FFMA (R157): Scalar fused a × b + c with one rounding. -/
  | ffma (st : BitVec 3) (d a b c : BitVec 5) (p : BitVec 1)
  /-- FFMS (R157): Scalar fused a × b − c. -/
  | ffms (st : BitVec 3) (d a b c : BitVec 5) (p : BitVec 1)
  /-- FFNMA (R157): Scalar fused −(a × b) − c. -/
  | ffnma (st : BitVec 3) (d a b c : BitVec 5) (p : BitVec 1)
  /-- FFNMS (R157): Scalar fused −(a × b) + c. -/
  | ffnms (st : BitVec 3) (d a b c : BitVec 5) (p : BitVec 1)
  /-- CSRR (R158): Reads a control register into s(d), serialising. -/
  | csrr (st : BitVec 3) (d : BitVec 5) (e : BitVec 10)
  /-- CSRW (R158): Writes s(a) into a control register and returns the old value. -/
  | csrw (st : BitVec 3) (d a : BitVec 5) (e : BitVec 10)
  /-- CSRS (R158): Sets the bits of s(a) in a control register. -/
  | csrs (st : BitVec 3) (d a : BitVec 5) (e : BitVec 10)
  /-- CSRC (R158): Clears the bits of s(a) in a control register. -/
  | csrc (st : BitVec 3) (d a : BitVec 5) (e : BitVec 10)
  /-- TRAP (R403): Raises software trap 0x0E with TVAL := s(a) and the code in TCAUSE.CODE. -/
  | trap (st : BitVec 3) (a : BitVec 5) (e : BitVec 10)
  /-- ERET (R403): Reloads claimed vector state, restores privilege and IE, performs a pending full switch, or resumes at TPC. -/
  | eret (st : BitVec 3)
  /-- WFE (R403): Waits for a watched write, a reply, a limit or a pending cause and writes the wake reasons. -/
  | wfe (st : BitVec 3) (d a : BitVec 5)
  /-- YIELD (R403): Makes the thread not ready until each other ready thread has issued or 8 C-cycles pass. -/
  | yield (st : BitVec 3)
  /-- CLAIM (R403): Writes the victim's vector state to the save area and unfreezes the vector unit. -/
  | claim (st : BitVec 3)
  /-- NOP (R159): Takes one issue slot and changes no other state. -/
  | nop (st : BitVec 3)
  /-- DONE (R415): Ends the iteration: releases, triggers, drains its regions, leaves groups, frees resources and reports the end. -/
  | done (st : BitVec 3)
  /-- DONE_ERR (R415): Ends the iteration with error, recording the handled trap cause or 0x0E. -/
  | doneErr (st : BitVec 3)
  /-- ETRIG (R416): Releases at the scope and marks the iteration triggered. -/
  | etrig (st c : BitVec 3)
  /-- LAUNCH (R161): Releases earlier writes and appends the job record at s(a) to the queue its CTL names, returning its placement position. -/
  | launch (st : BitVec 3) (a b : BitVec 5)
  /-- JOIN (R361): Adds the thread to a group slot and returns the member count. -/
  | join (st : BitVec 3) (a b : BitVec 5)
  /-- LEAVE (R362): Removes the thread and its arrival from a group slot. -/
  | leave (st : BitVec 3) (a : BitVec 5)
  /-- GBAR (R363): Releases, arrives at the group episode, waits for every member and acquires. -/
  | gbar (st : BitVec 3) (a : BitVec 5) (c : BitVec 3)
  /-- SETLEN (R162): Requests a vector length and format, sets STYPE and GLEN, and returns the grant. -/
  | setlen (st : BitVec 3) (d a : BitVec 5) (g : BitVec 2) (f : BitVec 4)
  /-- VADD (R172): Vector floating-point add over active elements. -/
  | vadd (st : BitVec 3) (d a b : BitVec 5) (k : BitVec 3)
  /-- VSUB (R172): Vector floating-point subtract. -/
  | vsub (st : BitVec 3) (d a b : BitVec 5) (k : BitVec 3)
  /-- VMUL (R172): Vector floating-point multiply. -/
  | vmul (st : BitVec 3) (d a b : BitVec 5) (k : BitVec 3)
  /-- VDIV (R172): Vector floating-point divide. -/
  | vdiv (st : BitVec 3) (d a b : BitVec 5) (k : BitVec 3)
  /-- VMIN (R172): Vector IEEE minimumNumber. -/
  | vmin (st : BitVec 3) (d a b : BitVec 5) (k : BitVec 3)
  /-- VMAX (R172): Vector IEEE maximumNumber. -/
  | vmax (st : BitVec 3) (d a b : BitVec 5) (k : BitVec 3)
  /-- VABS (R172): Clears the sign bit of each active element. -/
  | vabs (st : BitVec 3) (d a : BitVec 5) (k : BitVec 3)
  /-- VNEG (R172): Inverts the sign bit of each active element. -/
  | vneg (st : BitVec 3) (d a : BitVec 5) (k : BitVec 3)
  /-- VSQRT (R172): Vector square root. -/
  | vsqrt (st : BitVec 3) (d a : BitVec 5) (k : BitVec 3)
  /-- VRSQ (R172): Vector reciprocal square root, rounded once. -/
  | vrsq (st : BitVec 3) (d a : BitVec 5) (k : BitVec 3)
  /-- VRCP (R172): Vector reciprocal, rounded once. -/
  | vrcp (st : BitVec 3) (d a : BitVec 5) (k : BitVec 3)
  /-- VEXP2 (R172): Vector 2^a, rounded once. -/
  | vexp2 (st : BitVec 3) (d a : BitVec 5) (k : BitVec 3)
  /-- VCLASS (R172): Writes the class code of each active element. -/
  | vclass (st : BitVec 3) (d a : BitVec 5) (k : BitVec 3)
  /-- VFMA (R173): Vector fused a × b + d. -/
  | vfma (st : BitVec 3) (d a b : BitVec 5) (k : BitVec 3)
  /-- VFMS (R173): Vector fused a × b − d. -/
  | vfms (st : BitVec 3) (d a b : BitVec 5) (k : BitVec 3)
  /-- VFNMA (R173): Vector fused −(a × b) − d. -/
  | vfnma (st : BitVec 3) (d a b : BitVec 5) (k : BitVec 3)
  /-- VFNMS (R173): Vector fused −(a × b) + d. -/
  | vfnms (st : BitVec 3) (d a b : BitVec 5) (k : BitVec 3)
  /-- VIADD (R174): Vector integer add modulo 2^W. -/
  | viadd (st : BitVec 3) (d a b : BitVec 5) (k : BitVec 3)
  /-- VISUB (R174): Vector integer subtract modulo 2^W. -/
  | visub (st : BitVec 3) (d a b : BitVec 5) (k : BitVec 3)
  /-- VIMUL (R174): Low W bits of the vector integer product. -/
  | vimul (st : BitVec 3) (d a b : BitVec 5) (k : BitVec 3)
  /-- VIMULH (R174): High W bits of the vector integer product. -/
  | vimulh (st : BitVec 3) (d a b : BitVec 5) (k : BitVec 3)
  /-- VAND (R174): Vector bitwise AND. -/
  | vand (st : BitVec 3) (d a b : BitVec 5) (k : BitVec 3)
  /-- VOR (R174): Vector bitwise OR. -/
  | vor (st : BitVec 3) (d a b : BitVec 5) (k : BitVec 3)
  /-- VXOR (R174): Vector bitwise XOR. -/
  | vxor (st : BitVec 3) (d a b : BitVec 5) (k : BitVec 3)
  /-- VSLL (R174): Vector shift left by B mod W. -/
  | vsll (st : BitVec 3) (d a b : BitVec 5) (k : BitVec 3)
  /-- VSRL (R174): Vector logical shift right. -/
  | vsrl (st : BitVec 3) (d a b : BitVec 5) (k : BitVec 3)
  /-- VSRA (R174): Vector arithmetic shift right. -/
  | vsra (st : BitVec 3) (d a b : BitVec 5) (k : BitVec 3)
  /-- VIMIN (R174): Vector signed minimum. -/
  | vimin (st : BitVec 3) (d a b : BitVec 5) (k : BitVec 3)
  /-- VIMAX (R174): Vector signed maximum. -/
  | vimax (st : BitVec 3) (d a b : BitVec 5) (k : BitVec 3)
  /-- VMINN (R174): Vector unsigned minimum. -/
  | vminn (st : BitVec 3) (d a b : BitVec 5) (k : BitVec 3)
  /-- VMAXN (R174): Vector unsigned maximum. -/
  | vmaxn (st : BitVec 3) (d a b : BitVec 5) (k : BitVec 3)
  /-- VIADDS (R174): Vector saturating add, setting SAT on clamp. -/
  | viadds (st : BitVec 3) (d a b : BitVec 5) (k : BitVec 3)
  /-- VISUBS (R174): Vector saturating subtract, setting SAT on clamp. -/
  | visubs (st : BitVec 3) (d a b : BitVec 5) (k : BitVec 3)
  /-- VMADD (R175): Vector modular add modulo MODQ. -/
  | vmadd (st : BitVec 3) (d a b : BitVec 5) (k : BitVec 3)
  /-- VMSUB (R175): Vector modular subtract. -/
  | vmsub (st : BitVec 3) (d a b : BitVec 5) (k : BitVec 3)
  /-- VMMUL (R175): Vector modular multiply. -/
  | vmmul (st : BitVec 3) (d a b : BitVec 5) (k : BitVec 3)
  /-- VMRED (R175): Reduces each n32 word modulo q. -/
  | vmred (st : BitVec 3) (d a : BitVec 5) (k : BitVec 3)
  /-- VCMP (R176): Compares elements under the condition code and writes mask bits. -/
  | vcmp (st d : BitVec 3) (a b : BitVec 5) (k c : BitVec 3)
  /-- MAND (R177): Mask AND over bits below GLEN. -/
  | mand (st d a b : BitVec 3)
  /-- MOR (R177): Mask OR. -/
  | mor (st d a b : BitVec 3)
  /-- MXOR (R177): Mask XOR. -/
  | mxor (st d a b : BitVec 3)
  /-- MANDN (R177): Mask AND NOT. -/
  | mandn (st d a b : BitVec 3)
  /-- MNOT (R177): Mask NOT. -/
  | mnot (st d a : BitVec 3)
  /-- MPOPC (R177): Counts set mask bits under mk into s(d). -/
  | mpopc (st : BitVec 3) (d : BitVec 5) (a k : BitVec 3)
  /-- MFIRST (R177): Writes the lowest set mask bit index, or all ones. -/
  | mfirst (st : BitVec 3) (d : BitVec 5) (a k : BitVec 3)
  /-- MSET (R177): Sets mask bits below s(a). -/
  | mset (st d : BitVec 3) (a : BitVec 5)
  /-- VCVT (R178): Converts each active element from the source format to the STYPE format. -/
  | vcvt (st : BitVec 3) (d a : BitVec 5) (k : BitVec 3) (t : BitVec 1) (f : BitVec 4)
  /-- VREDSUM (R60): Pairwise-tree sum of present elements plus the seed. -/
  | vredsum (st : BitVec 3) (d a b : BitVec 5) (k : BitVec 3)
  /-- VREDSUMO (R61): Sequential ordered sum of present elements. -/
  | vredsumo (st : BitVec 3) (d a b : BitVec 5) (k : BitVec 3)
  /-- VREDMAX (R179): Maximum reduction into s(d). -/
  | vredmax (st : BitVec 3) (d a b : BitVec 5) (k : BitVec 3)
  /-- VREDMIN (R179): Minimum reduction into s(d). -/
  | vredmin (st : BitVec 3) (d a b : BitVec 5) (k : BitVec 3)
  /-- VREDAND (R179): AND of raw bits reduction. -/
  | vredand (st : BitVec 3) (d a b : BitVec 5) (k : BitVec 3)
  /-- VREDOR (R179): OR of raw bits reduction. -/
  | vredor (st : BitVec 3) (d a b : BitVec 5) (k : BitVec 3)
  /-- VPERM (R181): Permutes elements within each slice rank by index. -/
  | vperm (st : BitVec 3) (d a b : BitVec 5) (k : BitVec 3)
  /-- VSLUP (R181): Slides elements up within a rank by s(b). -/
  | vslup (st : BitVec 3) (d a b : BitVec 5) (k : BitVec 3)
  /-- VSLDN (R181): Slides elements down within a rank by s(b). -/
  | vsldn (st : BitVec 3) (d a b : BitVec 5) (k : BitVec 3)
  /-- VMERGE (R182): Selects between va and vb by mk. -/
  | vmerge (st : BitVec 3) (d a b : BitVec 5) (k : BitVec 3)
  /-- VCOMPRESS (R183): Packs selected lanes within each rank. -/
  | vcompress (st : BitVec 3) (d a : BitVec 5) (k : BitVec 3)
  /-- VEXPAND (R183): Expands packed elements into selected lanes. -/
  | vexpand (st : BitVec 3) (d a : BitVec 5) (k : BitVec 3)
  /-- VIOTA (R184): Writes prefix counts of mask bits per rank. -/
  | viota (st : BitVec 3) (d : BitVec 5) (k : BitVec 3)
  /-- VBCAST (R185): Broadcasts the low W bits of s(a) to active elements. -/
  | vbcast (st : BitVec 3) (d a : BitVec 5) (k : BitVec 3)
  /-- VEXTRACT (R185): Extracts element s(b) of va into s(d). -/
  | vextract (st : BitVec 3) (d a b : BitVec 5)
  /-- VXCH (R186): Exchanges elements between slice ranks s and s XOR D. -/
  | vxch (st : BitVec 3) (d a : BitVec 5) (k : BitVec 3)
  /-- VXCH_ROT (R186): Rotates elements between slice ranks by D. -/
  | vxchRot (st : BitVec 3) (d a : BitVec 5) (k : BitVec 3)
  /-- VLD (R322): Unit-stride vector load in groups of 16, cut back on fault. -/
  | vld (st : BitVec 3) (d a : BitVec 5) (k : BitVec 3)
  /-- VLDS (R322): Strided vector load. -/
  | vlds (st : BitVec 3) (d a b : BitVec 5) (k : BitVec 3)
  /-- VLDX (R322): Indexed vector load, optionally scaled. -/
  | vldx (st : BitVec 3) (d a b : BitVec 5) (k : BitVec 3) (x : BitVec 1)
  /-- VLDXA (R324): Indexed vector load performed at the home of the named scope, marking sync-page misses in m7. -/
  | vldxa (st : BitVec 3) (d a b : BitVec 5) (k c : BitVec 3)
  /-- VST (R322): Unit-stride vector store. -/
  | vst (st : BitVec 3) (d a : BitVec 5) (k : BitVec 3)
  /-- VSTS (R322): Strided vector store. -/
  | vsts (st : BitVec 3) (d a b : BitVec 5) (k : BitVec 3)
  /-- VSTX (R322): Indexed vector store. -/
  | vstx (st : BitVec 3) (d a b : BitVec 5) (k : BitVec 3) (x : BitVec 1)
  /-- VSTXA (R324): Indexed vector store at the home of the named scope. -/
  | vstxa (st : BitVec 3) (d a b : BitVec 5) (k c : BitVec 3)
  /-- VAPPEND (R326): Atomically reserves space at a cursor and stores active elements compacted. -/
  | vappend (st : BitVec 3) (v a x : BitVec 5) (k c : BitVec 3)
  /-- VQ4DQ (R188): Dequantises a packed Q4N register to FP32 elements. -/
  | vq4dq (st : BitVec 3) (d a b : BitVec 5) (k : BitVec 3)
  /-- VQ4Q (R189): Quantises FP32 elements into a packed Q4N register. -/
  | vq4q (st : BitVec 3) (d a b : BitVec 5) (k : BitVec 3)
  /-- CFGLOAD (R237): Fetches and checks a configuration image and, once accepted, loads its planes over the region. -/
  | cfgload (st : BitVec 3) (a b : BitVec 5)
  /-- CFGSEL (R240): Checks and begins making plane N active over the region, optionally draining first. -/
  | cfgsel (st : BitVec 3) (a : BitVec 5) (p : BitVec 2) (e : BitVec 1)
  /-- CFGCK (R239): Applies every cfgload check to an image and returns the first failure or 0. -/
  | cfgck (st : BitVec 3) (a b : BitVec 5)
  /-- GRESUME (R252): Lifts a region's freeze and restarts its quiet count and stopped streams. -/
  | gresume (st : BitVec 3) (a : BitVec 5)
  /-- GDRAIN (R253): Empties a region, ends its streams and completes its barrier with DRN. -/
  | gdrain (st : BitVec 3) (a : BitVec 5)
  /-- GQUERY (R254): Returns region status, flags, stream status or barrier status by selector. -/
  | gquery (st : BitVec 3) (a b : BitVec 5) (e : BitVec 2)
  /-- STRM (R249): Reads a stream specification and sends an address-generator message for port N. -/
  | strm (st : BitVec 3) (a b : BitVec 5) (c : BitVec 3) (q l : BitVec 1) (p : BitVec 3)
  /-- START (R241): Queues a run of the region with completion barrier K. -/
  | start (st : BitVec 3) (a b : BitVec 5) (k : BitVec 3)
  /-- CTOK (R245): Queues delivery of control tokens to a position or the Factor Engine. -/
  | ctok (st : BitVec 3) (a b : BitVec 5)
  /-- SBAR_CFG (R251): Holds later strm and start until earlier loads and selects complete. -/
  | sbarCfg (st : BitVec 3)
  /-- SBAR_STRM (R251): Holds later cfgsel and active-plane cfgload until earlier streams finish. -/
  | sbarStrm (st : BitVec 3)
  /-- SBAR_MEM (R251): Holds later strm until earlier output writes are visible at the scope. -/
  | sbarMem (st c : BitVec 3)
  /-- SBAR_COND (R251): Holds the next n commands until barrier K completes, then runs or discards them by RES. -/
  | sbarCond (st : BitVec 3) (n : BitVec 5) (k : BitVec 3)
  /-- SWAIT (R244): Waits for barrier K's latest run, acquires, ORs flags and returns its status. -/
  | swait (st : BitVec 3) (b : BitVec 5) (c k : BitVec 3)
  /-- TOKQ (R255): Sends a 32-bit token to a token queue, optionally releasing first. -/
  | tokq (st : BitVec 3) (a b : BitVec 5) (c : BitVec 3) (l : BitVec 1)
  /-- QARM (R256): Arms a copy template on a token queue. -/
  | qarm (st : BitVec 3) (a b : BitVec 5)
  /-- QDISARM (R257): Returns the armed template and disarms the queue. -/
  | qdisarm (st : BitVec 3) (a b : BitVec 5)
  /-- COPY (R327): Sends a copy message for a copy descriptor on channel N. -/
  | copy (st : BitVec 3) (a : BitVec 5) (c : BitVec 3) (q l : BitVec 1) (n : BitVec 4)
  /-- DRAIN (R337): Waits for channel N's copies, ORs flags, reports one error by trap 0x10, and acquires. -/
  | drain (st : BitVec 3) (b : BitVec 5) (c : BitVec 3) (n : BitVec 4)
  /-- RLD (R375): Loads from a remote address and writes the value, trapping 0x15 on error. -/
  | rld (st : BitVec 3) (a b : BitVec 5) (c : BitVec 3) (q : BitVec 1) (z : BitVec 3)
  /-- RST (R376): Stores to a remote address, optionally carrying a dependency and allocating a token. -/
  | rst (st : BitVec 3) (a b : BitVec 5) (c : BitVec 3) (l e h : BitVec 1) (z : BitVec 2)
  /-- RAMO_INV (R383): Invokes an atomic handler entry on a remote location. -/
  | ramoInv (st : BitVec 3) (a b : BitVec 5) (c : BitVec 3) (q l : BitVec 1)
  /-- RAMO_BEGIN (R383): Puts a handler entry into UPDATING. -/
  | ramoBegin (st : BitVec 3) (a b : BitVec 5) (c : BitVec 3) (q l : BitVec 1)
  /-- RAMO_BODY (R383): Writes a handler body image into an UPDATING entry. -/
  | ramoBody (st : BitVec 3) (a b : BitVec 5) (c : BitVec 3) (q l : BitVec 1)
  /-- RAMO_VALID (R383): Makes an UPDATING handler entry VALID. -/
  | ramoValid (st : BitVec 3) (a b : BitVec 5) (c : BitVec 3) (q l : BitVec 1)
  /-- RAMO_CLEAR (R383): Makes a handler entry EMPTY. -/
  | ramoClear (st : BitVec 3) (a b : BitVec 5) (c : BitVec 3) (q l : BitVec 1)
  /-- RFADD (R379): Adds s(b) to a remote 8-byte location and returns the prior value. -/
  | rfadd (st : BitVec 3) (a b : BitVec 5) (c : BitVec 3) (q l : BitVec 1)
  /-- TOKWAIT (R393): Waits for a token's outcome or all remote operations, reports errors, and acquires at system scope. -/
  | tokwait (st : BitVec 3) (a b : BitVec 5)
  /-- TLBINV (R312): Releases and sends an invalidation of a virtual range and ASID to holders in scope. -/
  | tlbinv (st : BitVec 3) (a b : BitVec 5) (c : BitVec 3) (g : BitVec 1)
  /-- TLBSYNC (R315): Waits for every holder's acknowledgement of earlier tlbinv and acquires. -/
  | tlbsync (st : BitVec 3)
  /-- TAILP_WRITE (R69): A doorbell write to TAILP appends a reference or is refused with BADREF or FULL. -/
  | tailpWrite (p q : Nat) (v : W64)
  /-- QSTAT_WRITE (R68): A write to QSTAT clears its W1C bits. -/
  | qstatWrite (p q : Nat) (v : W64)
  /-- PCMK_WRITE (R92): A write to a partition course mask takes effect or is refused with CONF. -/
  | pcmkWrite (p k : Nat) (v : W64)
  /-- PASID_WRITE (R92): A write to a partition's ASID range takes effect or is refused with CONF. -/
  | pasidWrite (p : Nat) (v : W64)
  /-- REGISTER_WRITE (R7): A write to a device register without behaviour of its own stores its RW fields. -/
  | registerWrite (pa : Nat) (v : W64)
  /-- ASID_ROOT_ENTRY_WRITE (R288): A write to an ASID root table entry takes effect only from an agent of the owning partition. -/
  | asidRootEntryWrite (asid : Nat) (writer : Option Nat) (v : W64)
  /-- IMAP_WRITE (R298): A write of an interleave scheme takes effect for later accesses. -/
  | imapWrite (g : Nat) (v : W64)
  /-- RCHK_WRITE (R426): Commits the recovery staging buffer as chunk IDX. -/
  | rchkWrite (v : W64)
  /-- RGO_WRITE (R426): Verifies the staged image and boots from it or records WHY. -/
  | rgoWrite (v : W64)
  /-- VREG_IMAGE_WRITE (R293): A window write to a vector register image lands, is refused or is ignored. -/
  | vregImageWrite (slot off size : Nat) (v : W64)
  /-- LINTEL_HOST_ACCESS (R87): A host read or write over Lintel is performed in link order. -/
  | lintelHostAccess (wr : Bool) (pa size : Nat) (v : W64)
  /-- ATTESTATION_REQUEST (R427): Builds and signs a 512-byte attestation report over a host nonce. -/
  | attestationRequest (nonce : BitVec 256)
  /-- PCAP_UPDATE (R103): The power controller writes PCAP for every thread on a die. -/
  | pcapUpdate (die v : Nat)
  /-- APPEND (R69): The queue manager accepts one reference into the ring, including an append that waited for room. -/
  | append (p q : Nat)
  /-- JOB_ACTIVATE (R71): A job becomes active, its record and header are read and checked, and its ordinals are handed to slices. -/
  | jobActivate (p q : Nat)
  /-- ITERATION_DISPATCH (R96): A slice places the chosen job's lowest ordinal on a free course and starts the thread. -/
  | iterationDispatch (die p : Nat)
  /-- STEAL (R98): A DRY slice takes part of the busiest slice's range or becomes SPENT. -/
  | steal (die job : Nat)
  /-- AGING_TIMER_EXPIRY (R73): A queue's aging timer reaches 10 ms and lifts its priority for one dispatch. -/
  | agingTimerExpiry (p q : Nat)
  /-- EARLY_TRIGGER (R417): A job's early-trigger condition comes to hold and its same-queue OVL successor becomes active. -/
  | earlyTrigger (job : Nat)
  /-- JOB_RETIRE (R419): A job whose iterations and operations are done writes STATUS, releases, decrements successors and sends its token. -/
  | jobRetire (job : Nat)
  /-- PROGC_ADVANCE (R70): PROGC advances once every earlier-placed job has retired. -/
  | progcAdvance (p q : Nat)
  /-- PARTITION_SWITCH_OUT (R74): A partition's queues are switched out and their state saved in QSAVE. -/
  | partitionSwitchOut (p : Nat)
  /-- PARTITION_SWITCH_IN (R74): A partition's queues are restored and staged appends accepted. -/
  | partitionSwitchIn (p : Nat)
  /-- TEMPLATE_FIRE (R78): A copy template fires with payload p, adjusting bases and sending a copy message. -/
  | templateFire (f : Nat)
  /-- TEMPLATE_GRAPH_COMPLETE (R78): A graph firing's copy completes: STATUS, release, successor decrements and token. -/
  | templateGraphComplete (f : Nat)
  /-- TOKEN_ARRIVAL (R82): A token enters a token queue and, when armed, fires the template. -/
  | tokenArrival (p t : Nat)
  /-- TOKEN_FIRING_COMPLETE (R82): A token firing's copy completes, sending its token or setting ERR and disarming. -/
  | tokenFiringComplete (f : Nat)
  /-- ENGINE_MESSAGE_ACCEPT (R85): A 64-byte message is accepted into an engine inbox when a slot is free. -/
  | engineMessageAccept (n e : Nat)
  /-- REPLY (R86): A 16-byte reply reaches its thread channel or token queue. -/
  | reply (n : Nat)
  /-- COPY_ACCEPT (R327): A copy engine reads and checks the copy and tensor descriptors. -/
  | copyAccept (e : Nat)
  /-- COPY_PIECE (R334): A copy engine translates, checks and performs one piece of up to 256 indices. -/
  | copyPiece (id : Nat)
  /-- COPY_COMPLETE (R336): A copy releases, replies and sends its completion token. -/
  | copyComplete (id : Nat)
  /-- STREAM_ACCEPT (R249): An address generator accepts a stream message and reads its tensor descriptor. -/
  | streamAccept (c port : Nat)
  /-- STREAM_BEAT_IN (R247): An input stream emits one token or its EOS marker to its port. -/
  | streamBeatIn (c port : Nat)
  /-- STREAM_TOKEN_OUT (R248): An output stream takes a token and writes its valid lanes, ending at EOS or full traversals. -/
  | streamTokenOut (c port : Nat)
  /-- TOKEN_HOP (R198): A token moves from a switch output into the next input FIFO. -/
  | tokenHop (c pos out : Nat)
  /-- BRICK_FIRING (R202): A brick firing enters stage 0 and later emits its results. -/
  | brickFiring (c pos : Nat)
  /-- CONTROL_TOKEN_ARRIVAL (R212): A control token reaches a brick's CIN and advances its mode between firings. -/
  | controlTokenArrival (c pos : Nat)
  /-- CONTROL_TOKEN_DELIVER (R245): One control token of a ctok enters its control channel. -/
  | controlTokenDeliver (slot : Nat)
  /-- NODE_END (R194): A node whose consumed inputs all hold EOS consumes them, emits EOS and ends. -/
  | nodeEnd (c pos : Nat)
  /-- TILE_ACCESS (R220): A tile performs one SCRATCH, QUEUE or ACCUM access. -/
  | tileAccess (c pos : Nat)
  /-- TILE_RMW_FIRING (R221): A tile in RMW mode combines one key and value token into its words. -/
  | tileRmwFiring (c pos : Nat)
  /-- SPILL_OUT (R223): A token arriving at a full spillable FIFO goes to its spill ring. -/
  | spillOut (c pos out : Nat)
  /-- SPILL_RETURN (R223): A record moves from the spill ring back into the FIFO. -/
  | spillReturn (c pos fifo : Nat)
  /-- POSITION_WAKE (R228): A gated position or course wakes on an arriving token. -/
  | positionWake (c pos : Nat)
  /-- BACKSTOP_STALL (R232): WIN quiet A-cycles expire and the region freezes with trap 0x11. -/
  | backstopStall (run : Nat)
  /-- CFGLOAD_COMPLETE (R226): The accepted planes finish loading and become LOADED. -/
  | cfgloadComplete (slot n : Nat)
  /-- CFGSEL_TAKE_EFFECT (R225): The new plane becomes active 8 A-cycles after the region is quiescent. -/
  | cfgselTakeEffect (slot n : Nat)
  /-- RUN_BEGIN (R241): A start begins once the previous run ended: resets the barrier and nodes and sends start tokens. -/
  | runBegin (slot n : Nat)
  /-- BARRIER_COMPLETE (R242): A completion barrier completes: release, RES, DONE and token. -/
  | barrierComplete (run : Nat)
  /-- POWER_GRANT (R107): The die power controller grants a class request. -/
  | powerGrant (n : Nat)
  /-- GRANT_OFFER_LOWER (R107): A request unmet for 60,000 C-cycles is offered one class lower. -/
  | grantOfferLower (n : Nat)
  /-- ENGINE_FRAME (R267): The Factor Engine consumes and computes one frame and emits its outputs. -/
  | engineFrame (c : Nat)
  /-- PASS_END (R268): The current pass ends by frame count, EOS or control token and the next entry begins. -/
  | passEnd (c : Nat)
  /-- WEIGHT_ROW_LOAD (R271): A load pipe fetches a row of weights into a buffer. -/
  | weightRowLoad (c buf : Nat)
  /-- WEIGHT_FAULT (R272): A needed weight row faults, freezing the region with trap 0x14. -/
  | weightFault (c : Nat)
  /-- WEIGHT_STEP_SWAP (R271): After WFR frames the weight buffers swap in stepped mode. -/
  | weightStepSwap (c : Nat)
  /-- REFRESH_ROW_GROUP (R299): A row group is refreshed or its refresh skipped. -/
  | refreshRowGroup (stack rg : Nat)
  /-- STACK_HEARTBEAT (R300): The stack manager sends its heartbeat with deadlines. -/
  | stackHeartbeat (stack : Nat)
  /-- REFRESH_TAKEOVER (R300): After two missed heartbeats the port die takes over refresh. -/
  | refreshTakeover (stack : Nat)
  /-- CXL_ENUMERATION (R451): Firmware enumerates a CXL port and sets CXLCAPj. -/
  | cxlEnumeration (port : Nat) (cap : Option Nat)
  /-- INVALIDATION_RECEIVE (R314): A holder withdraws translations, drains accesses using them, and acknowledges. -/
  | invalidationReceive (inv holder : Nat)
  /-- PARKED_ACCESS_RESOLVE (R317): A parked miss's walk ends and the access is sent or faulted. -/
  | parkedAccessResolve (holder asid : Nat) (va : W64)
  /-- TRAP_ENTRY (R398): A trap is taken at an instruction boundary, saving state and jumping to TVEC. -/
  | trapEntry (slot : Nat)
  /-- PREEMPTION_REQUEST (R404): A pre-emption request for a thread arises with a reason. -/
  | preemptionRequest (slot reason : Nat)
  /-- FORCED_SWITCH_TIMEOUT (R404): 24,000 C-cycles pass without IE or eret and the switch is forced. -/
  | forcedSwitchTimeout (slot : Nat)
  /-- SCAP_TIMEOUT (R105): A victim issues no setlen within 24,000 C-cycles of a lowered SCAP. -/
  | scapTimeout (slot : Nat)
  /-- FULL_SWITCH (R406): Saves a thread and everything it owns into its context record and reserves its resources. -/
  | fullSwitch (slot : Nat)
  /-- CONTEXT_RESTORE (R408): Restores a switched-out context and resumes it. -/
  | contextRestore (slot : Nat)
  /-- SLICE_DETACH (R102): A span slice detaches and its register contents are lost. -/
  | sliceDetach (slot num : Nat)
  /-- DIE_RESET (R411): A die is marked RESETTING, quiesced, reset and reloaded. -/
  | dieReset (die : Nat)
  /-- QUIESCE_ACK (R411): A linked die acknowledges quiesce after its links drain. -/
  | quiesceAck (die peer : Nat)
  /-- DIE_RETURN (R411): The reset die's links reopen and its courses become free. -/
  | dieReturn (die : Nat)
  /-- COURSE_GATE (R423): An idle course enters GATED or DARK. -/
  | courseGate (c : Nat) (dark : Bool)
  /-- PACKAGE_STANDBY (R423): The idle package enters STANDBY. -/
  | packageStandby
  /-- PACKAGE_PARKED (R423): The idle package enters PARKED and loses SRAM contents. -/
  | packageParked
  /-- WAKE (R424): A wake cause brings the package or course back to ACTIVE. -/
  | wake (c : Option Nat)
  /-- POWER_ON_BOOT (R425): The boot ROM verifies the firmware image, measures it and loads every die. -/
  | powerOnBoot
  /-- LINK_KEY_EXCHANGE (R369): The two ends of a hop exchange signed keys and derive per-direction keys. -/
  | linkKeyExchange (port : Nat) (peerKey sig : BitVec 512)
  /-- REKEY_COUNTER_LIMIT (R369): A hop's flit counter reaches 2^39 and a new exchange begins. -/
  | rekeyCounterLimit (port : Nat) (dir : Bool)
  /-- FLIT_RECEIVE (R367): A flit is received, checked, and forwarded or dropped. -/
  | flitReceive (port : Nat) (flit : BitVec 1024)
  /-- FLIT_REPLAY (R370): A failed or missing flit is requested and resent. -/
  | flitReplay (port ctr : Nat)
  /-- LINK_RETRAIN (R370): After 16 consecutive failures a link retrains or goes down. -/
  | linkRetrain (port : Nat)
  /-- PORT_DOWN (R394): A bond port or plane goes down and outstanding operations are resent or fail with 0x0C. -/
  | portDown (port : Nat)
  /-- REMOTE_OP_AT_TARGET (R374): A remote operation is performed at its home on the target package and replied to. -/
  | remoteOpAtTarget (n : Nat)
  /-- TRANSLATION_REQUEST (R385): A target port die walks a page for a remote source and records it as holder. -/
  | translationRequest (n : Nat)
  /-- TARGET_INVALIDATION (R386): A system-scope invalidation reaches remote holders of a page. -/
  | targetInvalidation (inv : Nat)
  /-- SWITCH_COMBINE (R380): A bond switch combines rfadd requests to one address. -/
  | switchCombine (plane i j : Nat)
  /-- COMBINED_REPLY_SPLIT (R380): A combined rfadd reply is split among its requesters. -/
  | combinedReplySplit (plane i : Nat)
  /-- HANDLER_INVOCATION (R384): An atomic handler fires atomically on a location at its home. -/
  | handlerInvocation (n : Nat)
  /-- HANDLER_HOLD_EXPIRY (R384): An invocation held on an UPDATING entry for 4,096 A-cycles gives status 0x07. -/
  | handlerHoldExpiry (n : Nat)
  /-- DEPENDENT_STORE_ARRIVAL (R389): A dependent store reaches its destination and is performed or held with a watch sent. -/
  | dependentStoreArrival (n : Nat)
  /-- LANDED_RECORD (R390): The destination of a token-allocating store records the token as LANDED or FAILED. -/
  | landedRecord (n : Nat)
  /-- WATCH_ARRIVAL (R390): A watch reaches the landing package and is answered, recorded or refused. -/
  | watchArrival (n : Nat)
  /-- WATCH_ANSWER (R391): A watch answer releases or discards a held store. -/
  | watchAnswer (n : Nat)
  /-- WATCH_RESEND (R390): A refused watch is resent after 1 µs. -/
  | watchResend (n : Nat)
  /-- WATCH_ENTRY_DROP (R390): A watch entry is dropped 400 µs after it was made. -/
  | watchEntryDrop (n : Nat)
  /-- HELD_STORE_EXPIRY (R391): A store held 400 µs is discarded with status 0x0A. -/
  | heldStoreExpiry (n : Nat)
  /-- REMOTE_STORE_COMPLETION (R377): A remote store's completion reaches its source and updates the token table. -/
  | remoteStoreCompletion (n : Nat)
  /-- GATEWAY_METER_WINDOW (R94): A port die gateway's 1,024-A-cycle metering window ends and beats held over a partition's share may pass in the new window. -/
  | gatewayMeterWindow (pd : Nat)
  /-- STACK_MANAGER_RESET (R300): Management resets a stack manager, ending the port die's refresh takeover and restoring refresh skipping. -/
  | stackManagerReset (stack : Nat)
  /-- MANAGEMENT_PORT_RETRAIN (R395): Management retrains a bond port that is down, and its plane returns to the choice of R373. -/
  | managementPortRetrain (port : Nat)
  /-- POSITION_CLOCK_GATE (R228): An idle position of an ACTIVE course has its clocks stopped and becomes clock-gated. -/
  | positionClockGate (c pos : Nat)
  /-- WFE_LIMIT_EXPIRY (R403): 2,400 C-cycles pass in a waiting wfe, and it wakes with reason bit [2]. -/
  | wfeLimitExpiry (slot : Nat)
  /-- TOKWAIT_WATCH_TIMEOUT (R393): A tokwait's watch goes unanswered for 400 µs, and the tokwait gives status 0x0A. -/
  | tokwaitWatchTimeout (slot : Nat)
  /-- TARGET_PACKAGE_RESET (R394): A remote target or landing package resets, and every operation outstanding to it completes with status 0x08 or expires. -/
  | targetPackageReset (pkg : Nat)
  /-- LANDED_ENTRY_AGING (R390): A landed-table entry passes 200 µs of age, and a store that was waiting for a free entry may be performed and recorded. -/
  | landedEntryAging (n : Nat)
  deriving DecidableEq, Repr

end Sys2Proof
end

