-- ==== Sys2Proof/WellFormed.lean ====
section
/-! DEFINITION. Which instructions are well formed: the reserved values of fields that the fixed bits of an encoding do
not exclude (R124 step 1 and the rule each arm cites). A row without bits is a step of an agent and is always well
formed. -/

namespace Sys2Proof

/-- The CSR numbers R126 assigns. -/
def csrNumbers : List Nat :=
  [0x000, 0x001, 0x002, 0x003, 0x004, 0x005, 0x010, 0x011, 0x012, 0x013, 0x014, 0x020, 0x021, 0x022, 0x023, 0x024,
   0x025, 0x030, 0x031, 0x040, 0x041, 0x050]

/-- R126: every sel value outside the table is unassigned. -/
def csrAssigned (e : BitVec 10) : Bool := csrNumbers.contains e.toNat

/-- R371: the scope is 1 to 4 when acquire or release is set, and 0 when neither is. -/
def flagScope (flag : Bool) (c : BitVec 3) : Bool :=
  if flag then decide (1 ≤ c ∧ c ≤ 4) else decide (c = 0)

/-- R234, R255, R327: a scope of 0 to 4 is required with acquire or release; without them the field is not used and is 0
(R117). -/
def ordScope (flag : Bool) (c : BitVec 3) : Bool := if flag then decide (c ≤ 4) else decide (c = 0)

/-- Well-formedness of an instruction: no field holds a value its rule reserves. -/
def WellFormed : Instr → Bool
  | .add _ _ _ _ => true
  | .sub _ _ _ _ => true
  | .and _ _ _ _ => true
  | .or _ _ _ _ => true
  | .xor _ _ _ _ => true
  | .andn _ _ _ _ => true
  | .sll _ _ _ _ => true
  | .srl _ _ _ _ => true
  | .sra _ _ _ _ => true
  | .rol _ _ _ _ => true
  | .min _ _ _ _ => true
  | .max _ _ _ _ => true
  | .minn _ _ _ _ => true
  | .maxn _ _ _ _ => true
  | .slt _ _ _ _ => true
  | .sltn _ _ _ _ => true
  | .seq _ _ _ _ => true
  | .mul _ _ _ _ => true
  | .mulh _ _ _ _ => true
  | .mulhn _ _ _ _ => true
  | .clz _ _ _ => true
  | .ctz _ _ _ => true
  | .popc _ _ _ => true
  | .csel _ _ _ _ => true
  | .addi _ _ _ _ => true
  | .andi _ _ _ _ => true
  | .ori _ _ _ _ => true
  | .xori _ _ _ _ => true
  | .slli _ _ _ _ => true
  | .srli _ _ _ _ => true
  | .srai _ _ _ _ => true
  | .roli _ _ _ _ => true
  | .slti _ _ _ _ => true
  | .sltni _ _ _ _ => true
  | .li _ _ _ => true
  | .lext _ _ _ => true
  | .lea _ _ _ => true
  | .div _ _ _ _ => true
  | .divn _ _ _ _ => true
  | .rem _ _ _ _ => true
  | .remn _ _ _ _ => true
  | .ld _ _ _ z _ => decide (z ≠ 7)
  | .st _ _ _ _ _ => true
  | .ldx _ _ _ _ z => decide (z ≠ 7)
  | .stx _ _ _ _ _ => true
  | .ldacq _ _ _ c z => decide (z ≠ 7 ∧ c ≤ 4)
  | .strel _ _ _ c _ => decide (c ≤ 4)
  | .amoAdd _ _ _ _ _ c => decide (c ≤ 4)
  | .amoAdds _ _ _ _ _ c => decide (c ≤ 4)
  | .amoAnd _ _ _ _ _ c => decide (c ≤ 4)
  | .amoOr _ _ _ _ _ c => decide (c ≤ 4)
  | .amoXor _ _ _ _ _ c => decide (c ≤ 4)
  | .amoMin _ _ _ _ _ c => decide (c ≤ 4)
  | .amoMax _ _ _ _ _ c => decide (c ≤ 4)
  | .amoMinn _ _ _ _ _ c => decide (c ≤ 4)
  | .amoMaxn _ _ _ _ _ c => decide (c ≤ 4)
  | .amoSwap _ _ _ _ _ c => decide (c ≤ 4)
  | .amoFadd _ _ _ _ _ c => decide (c ≤ 4)
  | .cas _ _ _ _ _ c => decide (c ≤ 4)
  | .fenceFull _ c => decide (c ≤ 4)
  | .fenceAcq _ c => decide (c ≤ 4)
  | .fenceRel _ c => decide (c ≤ 4)
  | .fenceEng _ c => decide (c ≤ 4)
  | .br _ _ => true
  | .call _ _ => true
  | .jr _ _ _ _ => true
  | .beq _ _ _ _ => true
  | .bne _ _ _ _ => true
  | .blt _ _ _ _ => true
  | .bge _ _ _ _ => true
  | .bltn _ _ _ _ => true
  | .bgen _ _ _ _ => true
  | .loop _ a _ => decide (a ≠ 0)
  | .fadd _ _ _ _ _ => true
  | .fsub _ _ _ _ _ => true
  | .fmul _ _ _ _ _ => true
  | .fdiv _ _ _ _ _ => true
  | .fsqrt _ _ _ _ => true
  | .fmin _ _ _ _ _ => true
  | .fmax _ _ _ _ _ => true
  | .fcmp _ _ _ _ _ _ => true
  | .fcvt _ _ _ _ k => decide (k ≠ 7)
  | .fmv _ _ _ _ => true
  | .fmvNeg _ _ _ _ => true
  | .fmvAbs _ _ _ _ => true
  | .fmvSgn _ _ _ _ _ => true
  | .ffma _ _ _ _ _ _ => true
  | .ffms _ _ _ _ _ _ => true
  | .ffnma _ _ _ _ _ _ => true
  | .ffnms _ _ _ _ _ _ => true
  | .csrr _ _ e => csrAssigned e
  | .csrw _ _ _ e => csrAssigned e
  | .csrs _ _ _ e => csrAssigned e
  | .csrc _ _ _ e => csrAssigned e
  | .trap _ _ _ => true
  | .eret _ => true
  | .wfe _ _ _ => true
  | .yield _ => true
  | .claim _ => true
  | .nop _ => true
  | .done _ => true
  | .doneErr _ => true
  | .etrig _ c => decide (1 ≤ c ∧ c ≤ 4)
  | .launch _ _ _ => true
  | .join _ _ _ => true
  | .leave _ _ => true
  | .gbar _ _ c => decide (c = 2 ∨ c = 3)
  | .setlen _ _ _ _ _ => true
  | .vadd _ _ _ _ _ => true
  | .vsub _ _ _ _ _ => true
  | .vmul _ _ _ _ _ => true
  | .vdiv _ _ _ _ _ => true
  | .vmin _ _ _ _ _ => true
  | .vmax _ _ _ _ _ => true
  | .vabs _ _ _ _ => true
  | .vneg _ _ _ _ => true
  | .vsqrt _ _ _ _ => true
  | .vrsq _ _ _ _ => true
  | .vrcp _ _ _ _ => true
  | .vexp2 _ _ _ _ => true
  | .vclass _ _ _ _ => true
  | .vfma _ _ _ _ _ => true
  | .vfms _ _ _ _ _ => true
  | .vfnma _ _ _ _ _ => true
  | .vfnms _ _ _ _ _ => true
  | .viadd _ _ _ _ _ => true
  | .visub _ _ _ _ _ => true
  | .vimul _ _ _ _ _ => true
  | .vimulh _ _ _ _ _ => true
  | .vand _ _ _ _ _ => true
  | .vor _ _ _ _ _ => true
  | .vxor _ _ _ _ _ => true
  | .vsll _ _ _ _ _ => true
  | .vsrl _ _ _ _ _ => true
  | .vsra _ _ _ _ _ => true
  | .vimin _ _ _ _ _ => true
  | .vimax _ _ _ _ _ => true
  | .vminn _ _ _ _ _ => true
  | .vmaxn _ _ _ _ _ => true
  | .viadds _ _ _ _ _ => true
  | .visubs _ _ _ _ _ => true
  | .vmadd _ _ _ _ _ => true
  | .vmsub _ _ _ _ _ => true
  | .vmmul _ _ _ _ _ => true
  | .vmred _ _ _ _ => true
  | .vcmp _ _ _ _ _ c => decide (c ≠ 7)
  | .mand _ _ _ _ => true
  | .mor _ _ _ _ => true
  | .mxor _ _ _ _ => true
  | .mandn _ _ _ _ => true
  | .mnot _ _ _ => true
  | .mpopc _ _ _ _ => true
  | .mfirst _ _ _ _ => true
  | .mset _ _ _ => true
  | .vcvt _ _ _ _ _ _ => true
  | .vredsum _ _ _ _ _ => true
  | .vredsumo _ _ _ _ _ => true
  | .vredmax _ _ _ _ _ => true
  | .vredmin _ _ _ _ _ => true
  | .vredand _ _ _ _ _ => true
  | .vredor _ _ _ _ _ => true
  | .vperm _ _ _ _ _ => true
  | .vslup _ _ _ _ _ => true
  | .vsldn _ _ _ _ _ => true
  | .vmerge _ _ _ _ _ => true
  | .vcompress _ _ _ _ => true
  | .vexpand _ _ _ _ => true
  | .viota _ _ _ => true
  | .vbcast _ _ _ _ => true
  | .vextract _ _ _ _ => true
  | .vxch _ _ _ _ => true
  | .vxchRot _ _ _ _ => true
  | .vld _ _ _ _ => true
  | .vlds _ _ _ _ _ => true
  | .vldx _ _ _ _ _ _ => true
  | .vldxa _ _ _ _ _ c => decide (c ≤ 4)
  | .vst _ _ _ _ => true
  | .vsts _ _ _ _ _ => true
  | .vstx _ _ _ _ _ _ => true
  | .vstxa _ _ _ _ _ c => decide (c ≤ 4)
  | .vappend _ _ _ _ _ c => decide (c ≤ 4)
  | .vq4dq _ _ _ _ _ => true
  | .vq4q _ _ _ _ _ => true
  | .cfgload _ _ _ => true
  | .cfgsel _ _ _ _ => true
  | .cfgck _ _ _ => true
  | .gresume _ _ => true
  | .gdrain _ _ => true
  | .gquery _ _ _ _ => true
  | .strm _ _ _ c q l _ => ordScope (q == 1 || l == 1) c
  | .start _ _ _ _ => true
  | .ctok _ _ _ => true
  | .sbarCfg _ => true
  | .sbarStrm _ => true
  | .sbarMem _ c => decide (c ≤ 4)
  | .sbarCond _ _ _ => true
  | .swait _ _ c _ => decide (c ≤ 4)
  | .tokq _ _ _ c l => ordScope (l == 1) c
  | .qarm _ _ _ => true
  | .qdisarm _ _ _ => true
  | .copy _ _ c q l _ => ordScope (q == 1 || l == 1) c
  | .drain _ _ c _ => decide (c ≤ 4)
  | .rld _ _ _ c q z => decide (z ≠ 7) && flagScope (q == 1) c
  | .rst _ _ _ c l _ _ _ => flagScope (l == 1) c
  | .ramoInv _ _ _ c q l => flagScope (q == 1 || l == 1) c
  | .ramoBegin _ _ _ c q l => flagScope (q == 1 || l == 1) c
  | .ramoBody _ _ _ c q l => flagScope (q == 1 || l == 1) c
  | .ramoValid _ _ _ c q l => flagScope (q == 1 || l == 1) c
  | .ramoClear _ _ _ c q l => flagScope (q == 1 || l == 1) c
  | .rfadd _ _ _ c q l => flagScope (q == 1 || l == 1) c
  | .tokwait _ _ _ => true
  | .tlbinv _ _ _ c _ => decide (1 ≤ c ∧ c ≤ 4)
  | .tlbsync _ => true
  | .tailpWrite _ _ _ => true
  | .qstatWrite _ _ _ => true
  | .pcmkWrite _ _ _ => true
  | .pasidWrite _ _ => true
  | .registerWrite _ _ => true
  | .asidRootEntryWrite _ _ _ => true
  | .imapWrite _ _ => true
  | .rchkWrite _ => true
  | .rgoWrite _ => true
  | .vregImageWrite _ _ _ _ => true
  | .lintelHostAccess _ _ _ _ => true
  | .attestationRequest _ => true
  | .pcapUpdate _ _ => true
  | .append _ _ => true
  | .jobActivate _ _ => true
  | .iterationDispatch _ _ => true
  | .steal _ _ => true
  | .agingTimerExpiry _ _ => true
  | .earlyTrigger _ => true
  | .jobRetire _ => true
  | .progcAdvance _ _ => true
  | .partitionSwitchOut _ => true
  | .partitionSwitchIn _ => true
  | .templateFire _ => true
  | .templateGraphComplete _ => true
  | .tokenArrival _ _ => true
  | .tokenFiringComplete _ => true
  | .engineMessageAccept _ _ => true
  | .reply _ => true
  | .copyAccept _ => true
  | .copyPiece _ => true
  | .copyComplete _ => true
  | .streamAccept _ _ => true
  | .streamBeatIn _ _ => true
  | .streamTokenOut _ _ => true
  | .tokenHop _ _ _ => true
  | .brickFiring _ _ => true
  | .controlTokenArrival _ _ => true
  | .controlTokenDeliver _ => true
  | .nodeEnd _ _ => true
  | .tileAccess _ _ => true
  | .tileRmwFiring _ _ => true
  | .spillOut _ _ _ => true
  | .spillReturn _ _ _ => true
  | .positionWake _ _ => true
  | .backstopStall _ => true
  | .cfgloadComplete _ _ => true
  | .cfgselTakeEffect _ _ => true
  | .runBegin _ _ => true
  | .barrierComplete _ => true
  | .powerGrant _ => true
  | .grantOfferLower _ => true
  | .engineFrame _ => true
  | .passEnd _ => true
  | .weightRowLoad _ _ => true
  | .weightFault _ => true
  | .weightStepSwap _ => true
  | .refreshRowGroup _ _ => true
  | .stackHeartbeat _ => true
  | .refreshTakeover _ => true
  | .cxlEnumeration _ _ => true
  | .invalidationReceive _ _ => true
  | .parkedAccessResolve _ _ _ => true
  | .trapEntry _ => true
  | .preemptionRequest _ _ => true
  | .forcedSwitchTimeout _ => true
  | .scapTimeout _ => true
  | .fullSwitch _ => true
  | .contextRestore _ => true
  | .sliceDetach _ _ => true
  | .dieReset _ => true
  | .quiesceAck _ _ => true
  | .dieReturn _ => true
  | .courseGate _ _ => true
  | .packageStandby => true
  | .packageParked => true
  | .wake _ => true
  | .powerOnBoot => true
  | .linkKeyExchange _ _ _ => true
  | .rekeyCounterLimit _ _ => true
  | .flitReceive _ _ => true
  | .flitReplay _ _ => true
  | .linkRetrain _ => true
  | .portDown _ => true
  | .remoteOpAtTarget _ => true
  | .translationRequest _ => true
  | .targetInvalidation _ => true
  | .switchCombine _ _ _ => true
  | .combinedReplySplit _ _ => true
  | .handlerInvocation _ => true
  | .handlerHoldExpiry _ => true
  | .dependentStoreArrival _ => true
  | .landedRecord _ => true
  | .watchArrival _ => true
  | .watchAnswer _ => true
  | .watchResend _ => true
  | .watchEntryDrop _ => true
  | .heldStoreExpiry _ => true
  | .remoteStoreCompletion _ => true
  | .gatewayMeterWindow _ => true
  | .stackManagerReset _ => true
  | .managementPortRetrain _ => true
  | .positionClockGate _ _ => true
  | .wfeLimitExpiry _ => true
  | .tokwaitWatchTimeout _ => true
  | .targetPackageReset _ => true
  | .landedEntryAging _ => true

/-- Is the instruction a word of the opcode table (a row with bits)? -/
def isWord : Instr → Bool
  | .add _ _ _ _ => true
  | .sub _ _ _ _ => true
  | .and _ _ _ _ => true
  | .or _ _ _ _ => true
  | .xor _ _ _ _ => true
  | .andn _ _ _ _ => true
  | .sll _ _ _ _ => true
  | .srl _ _ _ _ => true
  | .sra _ _ _ _ => true
  | .rol _ _ _ _ => true
  | .min _ _ _ _ => true
  | .max _ _ _ _ => true
  | .minn _ _ _ _ => true
  | .maxn _ _ _ _ => true
  | .slt _ _ _ _ => true
  | .sltn _ _ _ _ => true
  | .seq _ _ _ _ => true
  | .mul _ _ _ _ => true
  | .mulh _ _ _ _ => true
  | .mulhn _ _ _ _ => true
  | .clz _ _ _ => true
  | .ctz _ _ _ => true
  | .popc _ _ _ => true
  | .csel _ _ _ _ => true
  | .addi _ _ _ _ => true
  | .andi _ _ _ _ => true
  | .ori _ _ _ _ => true
  | .xori _ _ _ _ => true
  | .slli _ _ _ _ => true
  | .srli _ _ _ _ => true
  | .srai _ _ _ _ => true
  | .roli _ _ _ _ => true
  | .slti _ _ _ _ => true
  | .sltni _ _ _ _ => true
  | .li _ _ _ => true
  | .lext _ _ _ => true
  | .lea _ _ _ => true
  | .div _ _ _ _ => true
  | .divn _ _ _ _ => true
  | .rem _ _ _ _ => true
  | .remn _ _ _ _ => true
  | .ld _ _ _ _ _ => true
  | .st _ _ _ _ _ => true
  | .ldx _ _ _ _ _ => true
  | .stx _ _ _ _ _ => true
  | .ldacq _ _ _ _ _ => true
  | .strel _ _ _ _ _ => true
  | .amoAdd _ _ _ _ _ _ => true
  | .amoAdds _ _ _ _ _ _ => true
  | .amoAnd _ _ _ _ _ _ => true
  | .amoOr _ _ _ _ _ _ => true
  | .amoXor _ _ _ _ _ _ => true
  | .amoMin _ _ _ _ _ _ => true
  | .amoMax _ _ _ _ _ _ => true
  | .amoMinn _ _ _ _ _ _ => true
  | .amoMaxn _ _ _ _ _ _ => true
  | .amoSwap _ _ _ _ _ _ => true
  | .amoFadd _ _ _ _ _ _ => true
  | .cas _ _ _ _ _ _ => true
  | .fenceFull _ _ => true
  | .fenceAcq _ _ => true
  | .fenceRel _ _ => true
  | .fenceEng _ _ => true
  | .br _ _ => true
  | .call _ _ => true
  | .jr _ _ _ _ => true
  | .beq _ _ _ _ => true
  | .bne _ _ _ _ => true
  | .blt _ _ _ _ => true
  | .bge _ _ _ _ => true
  | .bltn _ _ _ _ => true
  | .bgen _ _ _ _ => true
  | .loop _ _ _ => true
  | .fadd _ _ _ _ _ => true
  | .fsub _ _ _ _ _ => true
  | .fmul _ _ _ _ _ => true
  | .fdiv _ _ _ _ _ => true
  | .fsqrt _ _ _ _ => true
  | .fmin _ _ _ _ _ => true
  | .fmax _ _ _ _ _ => true
  | .fcmp _ _ _ _ _ _ => true
  | .fcvt _ _ _ _ _ => true
  | .fmv _ _ _ _ => true
  | .fmvNeg _ _ _ _ => true
  | .fmvAbs _ _ _ _ => true
  | .fmvSgn _ _ _ _ _ => true
  | .ffma _ _ _ _ _ _ => true
  | .ffms _ _ _ _ _ _ => true
  | .ffnma _ _ _ _ _ _ => true
  | .ffnms _ _ _ _ _ _ => true
  | .csrr _ _ _ => true
  | .csrw _ _ _ _ => true
  | .csrs _ _ _ _ => true
  | .csrc _ _ _ _ => true
  | .trap _ _ _ => true
  | .eret _ => true
  | .wfe _ _ _ => true
  | .yield _ => true
  | .claim _ => true
  | .nop _ => true
  | .done _ => true
  | .doneErr _ => true
  | .etrig _ _ => true
  | .launch _ _ _ => true
  | .join _ _ _ => true
  | .leave _ _ => true
  | .gbar _ _ _ => true
  | .setlen _ _ _ _ _ => true
  | .vadd _ _ _ _ _ => true
  | .vsub _ _ _ _ _ => true
  | .vmul _ _ _ _ _ => true
  | .vdiv _ _ _ _ _ => true
  | .vmin _ _ _ _ _ => true
  | .vmax _ _ _ _ _ => true
  | .vabs _ _ _ _ => true
  | .vneg _ _ _ _ => true
  | .vsqrt _ _ _ _ => true
  | .vrsq _ _ _ _ => true
  | .vrcp _ _ _ _ => true
  | .vexp2 _ _ _ _ => true
  | .vclass _ _ _ _ => true
  | .vfma _ _ _ _ _ => true
  | .vfms _ _ _ _ _ => true
  | .vfnma _ _ _ _ _ => true
  | .vfnms _ _ _ _ _ => true
  | .viadd _ _ _ _ _ => true
  | .visub _ _ _ _ _ => true
  | .vimul _ _ _ _ _ => true
  | .vimulh _ _ _ _ _ => true
  | .vand _ _ _ _ _ => true
  | .vor _ _ _ _ _ => true
  | .vxor _ _ _ _ _ => true
  | .vsll _ _ _ _ _ => true
  | .vsrl _ _ _ _ _ => true
  | .vsra _ _ _ _ _ => true
  | .vimin _ _ _ _ _ => true
  | .vimax _ _ _ _ _ => true
  | .vminn _ _ _ _ _ => true
  | .vmaxn _ _ _ _ _ => true
  | .viadds _ _ _ _ _ => true
  | .visubs _ _ _ _ _ => true
  | .vmadd _ _ _ _ _ => true
  | .vmsub _ _ _ _ _ => true
  | .vmmul _ _ _ _ _ => true
  | .vmred _ _ _ _ => true
  | .vcmp _ _ _ _ _ _ => true
  | .mand _ _ _ _ => true
  | .mor _ _ _ _ => true
  | .mxor _ _ _ _ => true
  | .mandn _ _ _ _ => true
  | .mnot _ _ _ => true
  | .mpopc _ _ _ _ => true
  | .mfirst _ _ _ _ => true
  | .mset _ _ _ => true
  | .vcvt _ _ _ _ _ _ => true
  | .vredsum _ _ _ _ _ => true
  | .vredsumo _ _ _ _ _ => true
  | .vredmax _ _ _ _ _ => true
  | .vredmin _ _ _ _ _ => true
  | .vredand _ _ _ _ _ => true
  | .vredor _ _ _ _ _ => true
  | .vperm _ _ _ _ _ => true
  | .vslup _ _ _ _ _ => true
  | .vsldn _ _ _ _ _ => true
  | .vmerge _ _ _ _ _ => true
  | .vcompress _ _ _ _ => true
  | .vexpand _ _ _ _ => true
  | .viota _ _ _ => true
  | .vbcast _ _ _ _ => true
  | .vextract _ _ _ _ => true
  | .vxch _ _ _ _ => true
  | .vxchRot _ _ _ _ => true
  | .vld _ _ _ _ => true
  | .vlds _ _ _ _ _ => true
  | .vldx _ _ _ _ _ _ => true
  | .vldxa _ _ _ _ _ _ => true
  | .vst _ _ _ _ => true
  | .vsts _ _ _ _ _ => true
  | .vstx _ _ _ _ _ _ => true
  | .vstxa _ _ _ _ _ _ => true
  | .vappend _ _ _ _ _ _ => true
  | .vq4dq _ _ _ _ _ => true
  | .vq4q _ _ _ _ _ => true
  | .cfgload _ _ _ => true
  | .cfgsel _ _ _ _ => true
  | .cfgck _ _ _ => true
  | .gresume _ _ => true
  | .gdrain _ _ => true
  | .gquery _ _ _ _ => true
  | .strm _ _ _ _ _ _ _ => true
  | .start _ _ _ _ => true
  | .ctok _ _ _ => true
  | .sbarCfg _ => true
  | .sbarStrm _ => true
  | .sbarMem _ _ => true
  | .sbarCond _ _ _ => true
  | .swait _ _ _ _ => true
  | .tokq _ _ _ _ _ => true
  | .qarm _ _ _ => true
  | .qdisarm _ _ _ => true
  | .copy _ _ _ _ _ _ => true
  | .drain _ _ _ _ => true
  | .rld _ _ _ _ _ _ => true
  | .rst _ _ _ _ _ _ _ _ => true
  | .ramoInv _ _ _ _ _ _ => true
  | .ramoBegin _ _ _ _ _ _ => true
  | .ramoBody _ _ _ _ _ _ => true
  | .ramoValid _ _ _ _ _ _ => true
  | .ramoClear _ _ _ _ _ _ => true
  | .rfadd _ _ _ _ _ _ => true
  | .tokwait _ _ _ => true
  | .tlbinv _ _ _ _ _ => true
  | .tlbsync _ => true
  | .tailpWrite _ _ _ => false
  | .qstatWrite _ _ _ => false
  | .pcmkWrite _ _ _ => false
  | .pasidWrite _ _ => false
  | .registerWrite _ _ => false
  | .asidRootEntryWrite _ _ _ => false
  | .imapWrite _ _ => false
  | .rchkWrite _ => false
  | .rgoWrite _ => false
  | .vregImageWrite _ _ _ _ => false
  | .lintelHostAccess _ _ _ _ => false
  | .attestationRequest _ => false
  | .pcapUpdate _ _ => false
  | .append _ _ => false
  | .jobActivate _ _ => false
  | .iterationDispatch _ _ => false
  | .steal _ _ => false
  | .agingTimerExpiry _ _ => false
  | .earlyTrigger _ => false
  | .jobRetire _ => false
  | .progcAdvance _ _ => false
  | .partitionSwitchOut _ => false
  | .partitionSwitchIn _ => false
  | .templateFire _ => false
  | .templateGraphComplete _ => false
  | .tokenArrival _ _ => false
  | .tokenFiringComplete _ => false
  | .engineMessageAccept _ _ => false
  | .reply _ => false
  | .copyAccept _ => false
  | .copyPiece _ => false
  | .copyComplete _ => false
  | .streamAccept _ _ => false
  | .streamBeatIn _ _ => false
  | .streamTokenOut _ _ => false
  | .tokenHop _ _ _ => false
  | .brickFiring _ _ => false
  | .controlTokenArrival _ _ => false
  | .controlTokenDeliver _ => false
  | .nodeEnd _ _ => false
  | .tileAccess _ _ => false
  | .tileRmwFiring _ _ => false
  | .spillOut _ _ _ => false
  | .spillReturn _ _ _ => false
  | .positionWake _ _ => false
  | .backstopStall _ => false
  | .cfgloadComplete _ _ => false
  | .cfgselTakeEffect _ _ => false
  | .runBegin _ _ => false
  | .barrierComplete _ => false
  | .powerGrant _ => false
  | .grantOfferLower _ => false
  | .engineFrame _ => false
  | .passEnd _ => false
  | .weightRowLoad _ _ => false
  | .weightFault _ => false
  | .weightStepSwap _ => false
  | .refreshRowGroup _ _ => false
  | .stackHeartbeat _ => false
  | .refreshTakeover _ => false
  | .cxlEnumeration _ _ => false
  | .invalidationReceive _ _ => false
  | .parkedAccessResolve _ _ _ => false
  | .trapEntry _ => false
  | .preemptionRequest _ _ => false
  | .forcedSwitchTimeout _ => false
  | .scapTimeout _ => false
  | .fullSwitch _ => false
  | .contextRestore _ => false
  | .sliceDetach _ _ => false
  | .dieReset _ => false
  | .quiesceAck _ _ => false
  | .dieReturn _ => false
  | .courseGate _ _ => false
  | .packageStandby => false
  | .packageParked => false
  | .wake _ => false
  | .powerOnBoot => false
  | .linkKeyExchange _ _ _ => false
  | .rekeyCounterLimit _ _ => false
  | .flitReceive _ _ => false
  | .flitReplay _ _ => false
  | .linkRetrain _ => false
  | .portDown _ => false
  | .remoteOpAtTarget _ => false
  | .translationRequest _ => false
  | .targetInvalidation _ => false
  | .switchCombine _ _ _ => false
  | .combinedReplySplit _ _ => false
  | .handlerInvocation _ => false
  | .handlerHoldExpiry _ => false
  | .dependentStoreArrival _ => false
  | .landedRecord _ => false
  | .watchArrival _ => false
  | .watchAnswer _ => false
  | .watchResend _ => false
  | .watchEntryDrop _ => false
  | .heldStoreExpiry _ => false
  | .remoteStoreCompletion _ => false
  | .gatewayMeterWindow _ => false
  | .stackManagerReset _ => false
  | .managementPortRetrain _ => false
  | .positionClockGate _ _ => false
  | .wfeLimitExpiry _ => false
  | .tokwaitWatchTimeout _ => false
  | .targetPackageReset _ => false
  | .landedEntryAging _ => false

end Sys2Proof
end

