-- ==== Sys2Proof/Decode.lean ====
section
/-! DEFINITION. Decoding and encoding of instruction words (R116, R117, R123, R124 step 1). `decode` is total on 32-bit
words: it answers none for every word that R124 step 1 makes an illegal instruction whatever block it stands in. An
instruction word is 32 bits, little-endian (R108). -/

namespace Sys2Proof

/-- Bits [lo + len - 1 : lo] of a word. -/
def fld {n : Nat} (w : BitVec n) (lo len : Nat) : BitVec len := w.extractLsb' lo len

/-- Major 0x01 (R123). -/
def decodeMajor01 (w : W32) : Option Instr :=
  if fld w 0 8 = 0 then
    some (.add (fld w 23 3) (fld w 18 5) (fld w 13 5) (fld w 8 5))
  else if fld w 0 8 = 1 then
    some (.sub (fld w 23 3) (fld w 18 5) (fld w 13 5) (fld w 8 5))
  else if fld w 0 8 = 2 then
    some (.and (fld w 23 3) (fld w 18 5) (fld w 13 5) (fld w 8 5))
  else if fld w 0 8 = 3 then
    some (.or (fld w 23 3) (fld w 18 5) (fld w 13 5) (fld w 8 5))
  else if fld w 0 8 = 4 then
    some (.xor (fld w 23 3) (fld w 18 5) (fld w 13 5) (fld w 8 5))
  else if fld w 0 8 = 5 then
    some (.andn (fld w 23 3) (fld w 18 5) (fld w 13 5) (fld w 8 5))
  else if fld w 0 8 = 6 then
    some (.sll (fld w 23 3) (fld w 18 5) (fld w 13 5) (fld w 8 5))
  else if fld w 0 8 = 7 then
    some (.srl (fld w 23 3) (fld w 18 5) (fld w 13 5) (fld w 8 5))
  else if fld w 0 8 = 8 then
    some (.sra (fld w 23 3) (fld w 18 5) (fld w 13 5) (fld w 8 5))
  else if fld w 0 8 = 9 then
    some (.rol (fld w 23 3) (fld w 18 5) (fld w 13 5) (fld w 8 5))
  else if fld w 0 8 = 10 then
    some (.min (fld w 23 3) (fld w 18 5) (fld w 13 5) (fld w 8 5))
  else if fld w 0 8 = 11 then
    some (.max (fld w 23 3) (fld w 18 5) (fld w 13 5) (fld w 8 5))
  else if fld w 0 8 = 12 then
    some (.minn (fld w 23 3) (fld w 18 5) (fld w 13 5) (fld w 8 5))
  else if fld w 0 8 = 13 then
    some (.maxn (fld w 23 3) (fld w 18 5) (fld w 13 5) (fld w 8 5))
  else if fld w 0 8 = 14 then
    some (.slt (fld w 23 3) (fld w 18 5) (fld w 13 5) (fld w 8 5))
  else if fld w 0 8 = 15 then
    some (.sltn (fld w 23 3) (fld w 18 5) (fld w 13 5) (fld w 8 5))
  else if fld w 0 8 = 16 then
    some (.seq (fld w 23 3) (fld w 18 5) (fld w 13 5) (fld w 8 5))
  else if fld w 0 8 = 17 then
    some (.mul (fld w 23 3) (fld w 18 5) (fld w 13 5) (fld w 8 5))
  else if fld w 0 8 = 18 then
    some (.mulh (fld w 23 3) (fld w 18 5) (fld w 13 5) (fld w 8 5))
  else if fld w 0 8 = 19 then
    some (.mulhn (fld w 23 3) (fld w 18 5) (fld w 13 5) (fld w 8 5))
  else if fld w 8 5 = 0 ∧ fld w 0 8 = 20 then
    some (.clz (fld w 23 3) (fld w 18 5) (fld w 13 5))
  else if fld w 8 5 = 0 ∧ fld w 0 8 = 21 then
    some (.ctz (fld w 23 3) (fld w 18 5) (fld w 13 5))
  else if fld w 8 5 = 0 ∧ fld w 0 8 = 22 then
    some (.popc (fld w 23 3) (fld w 18 5) (fld w 13 5))
  else if fld w 0 8 = 23 then
    some (.csel (fld w 23 3) (fld w 18 5) (fld w 13 5) (fld w 8 5))
  else none

/-- Major 0x02 (R123). -/
def decodeMajor02 (w : W32) : Option Instr :=
  some (.addi (fld w 23 3) (fld w 18 5) (fld w 13 5) (fld w 0 13))

/-- Major 0x03 (R123). -/
def decodeMajor03 (w : W32) : Option Instr :=
  some (.andi (fld w 23 3) (fld w 18 5) (fld w 13 5) (fld w 0 13))

/-- Major 0x04 (R123). -/
def decodeMajor04 (w : W32) : Option Instr :=
  some (.ori (fld w 23 3) (fld w 18 5) (fld w 13 5) (fld w 0 13))

/-- Major 0x05 (R123). -/
def decodeMajor05 (w : W32) : Option Instr :=
  some (.xori (fld w 23 3) (fld w 18 5) (fld w 13 5) (fld w 0 13))

/-- Major 0x06 (R123). -/
def decodeMajor06 (w : W32) : Option Instr :=
  if fld w 6 7 = 0 then
    some (.slli (fld w 23 3) (fld w 18 5) (fld w 13 5) (fld w 0 6))
  else if fld w 6 7 = 32 then
    some (.srli (fld w 23 3) (fld w 18 5) (fld w 13 5) (fld w 0 6))
  else if fld w 6 7 = 64 then
    some (.srai (fld w 23 3) (fld w 18 5) (fld w 13 5) (fld w 0 6))
  else if fld w 6 7 = 96 then
    some (.roli (fld w 23 3) (fld w 18 5) (fld w 13 5) (fld w 0 6))
  else none

/-- Major 0x07 (R123). -/
def decodeMajor07 (w : W32) : Option Instr :=
  some (.slti (fld w 23 3) (fld w 18 5) (fld w 13 5) (fld w 0 13))

/-- Major 0x08 (R123). -/
def decodeMajor08 (w : W32) : Option Instr :=
  some (.sltni (fld w 23 3) (fld w 18 5) (fld w 13 5) (fld w 0 13))

/-- Major 0x09 (R123). -/
def decodeMajor09 (w : W32) : Option Instr :=
  some (.li (fld w 23 3) (fld w 18 5) (fld w 0 18))

/-- Major 0x0A (R123). -/
def decodeMajor0A (w : W32) : Option Instr :=
  some (.lext (fld w 23 3) (fld w 18 5) (fld w 0 18))

/-- Major 0x0B (R123). -/
def decodeMajor0B (w : W32) : Option Instr :=
  some (.lea (fld w 23 3) (fld w 18 5) (fld w 0 18))

/-- Major 0x0C (R123). -/
def decodeMajor0C (w : W32) : Option Instr :=
  if fld w 0 8 = 0 then
    some (.div (fld w 23 3) (fld w 18 5) (fld w 13 5) (fld w 8 5))
  else if fld w 0 8 = 1 then
    some (.divn (fld w 23 3) (fld w 18 5) (fld w 13 5) (fld w 8 5))
  else if fld w 0 8 = 2 then
    some (.rem (fld w 23 3) (fld w 18 5) (fld w 13 5) (fld w 8 5))
  else if fld w 0 8 = 3 then
    some (.remn (fld w 23 3) (fld w 18 5) (fld w 13 5) (fld w 8 5))
  else none

/-- Major 0x0D (R123). -/
def decodeMajor0D (w : W32) : Option Instr :=
  some (.ld (fld w 23 3) (fld w 18 5) (fld w 13 5) (fld w 10 3) (fld w 0 10))

/-- Major 0x0E (R123). -/
def decodeMajor0E (w : W32) : Option Instr :=
  if fld w 12 1 = 0 then
    some (.st (fld w 23 3) (fld w 18 5) (fld w 13 5) (fld w 10 2) (fld w 0 10))
  else none

/-- Major 0x0F (R123). -/
def decodeMajor0F (w : W32) : Option Instr :=
  if fld w 3 5 = 0 then
    some (.ldx (fld w 23 3) (fld w 18 5) (fld w 13 5) (fld w 8 5) (fld w 0 3))
  else if fld w 3 5 = 1 ∧ fld w 2 1 = 0 then
    some (.stx (fld w 23 3) (fld w 18 5) (fld w 13 5) (fld w 8 5) (fld w 0 2))
  else none

/-- Major 0x10 (R123). -/
def decodeMajor10 (w : W32) : Option Instr :=
  if fld w 6 7 = 0 then
    some (.ldacq (fld w 23 3) (fld w 18 5) (fld w 13 5) (fld w 3 3) (fld w 0 3))
  else none

/-- Major 0x11 (R123). -/
def decodeMajor11 (w : W32) : Option Instr :=
  if fld w 6 7 = 0 ∧ fld w 2 1 = 0 then
    some (.strel (fld w 23 3) (fld w 18 5) (fld w 13 5) (fld w 3 3) (fld w 0 2))
  else none

/-- Major 0x12 (R123). -/
def decodeMajor12 (w : W32) : Option Instr :=
  if fld w 4 4 = 0 then
    some (.amoAdd (fld w 23 3) (fld w 18 5) (fld w 13 5) (fld w 8 5) (fld w 3 1) (fld w 0 3))
  else if fld w 4 4 = 1 then
    some (.amoAdds (fld w 23 3) (fld w 18 5) (fld w 13 5) (fld w 8 5) (fld w 3 1) (fld w 0 3))
  else if fld w 4 4 = 2 then
    some (.amoAnd (fld w 23 3) (fld w 18 5) (fld w 13 5) (fld w 8 5) (fld w 3 1) (fld w 0 3))
  else if fld w 4 4 = 3 then
    some (.amoOr (fld w 23 3) (fld w 18 5) (fld w 13 5) (fld w 8 5) (fld w 3 1) (fld w 0 3))
  else if fld w 4 4 = 4 then
    some (.amoXor (fld w 23 3) (fld w 18 5) (fld w 13 5) (fld w 8 5) (fld w 3 1) (fld w 0 3))
  else if fld w 4 4 = 5 then
    some (.amoMin (fld w 23 3) (fld w 18 5) (fld w 13 5) (fld w 8 5) (fld w 3 1) (fld w 0 3))
  else if fld w 4 4 = 6 then
    some (.amoMax (fld w 23 3) (fld w 18 5) (fld w 13 5) (fld w 8 5) (fld w 3 1) (fld w 0 3))
  else if fld w 4 4 = 7 then
    some (.amoMinn (fld w 23 3) (fld w 18 5) (fld w 13 5) (fld w 8 5) (fld w 3 1) (fld w 0 3))
  else if fld w 4 4 = 8 then
    some (.amoMaxn (fld w 23 3) (fld w 18 5) (fld w 13 5) (fld w 8 5) (fld w 3 1) (fld w 0 3))
  else if fld w 4 4 = 9 then
    some (.amoSwap (fld w 23 3) (fld w 18 5) (fld w 13 5) (fld w 8 5) (fld w 3 1) (fld w 0 3))
  else if fld w 4 4 = 10 then
    some (.amoFadd (fld w 23 3) (fld w 18 5) (fld w 13 5) (fld w 8 5) (fld w 3 1) (fld w 0 3))
  else none

/-- Major 0x13 (R123). -/
def decodeMajor13 (w : W32) : Option Instr :=
  if fld w 4 4 = 0 then
    some (.cas (fld w 23 3) (fld w 18 5) (fld w 13 5) (fld w 8 5) (fld w 3 1) (fld w 0 3))
  else none

/-- Major 0x14 (R123). -/
def decodeMajor14 (w : W32) : Option Instr :=
  if fld w 3 20 = 0 then
    some (.fenceFull (fld w 23 3) (fld w 0 3))
  else if fld w 3 20 = 128 then
    some (.fenceAcq (fld w 23 3) (fld w 0 3))
  else if fld w 3 20 = 256 then
    some (.fenceRel (fld w 23 3) (fld w 0 3))
  else if fld w 3 20 = 384 then
    some (.fenceEng (fld w 23 3) (fld w 0 3))
  else none

/-- Major 0x15 (R123). -/
def decodeMajor15 (w : W32) : Option Instr :=
  if fld w 18 5 = 0 then
    some (.br (fld w 23 3) (fld w 0 18))
  else if fld w 18 5 = 31 then
    some (.call (fld w 23 3) (fld w 0 18))
  else none

/-- Major 0x16 (R123). -/
def decodeMajor16 (w : W32) : Option Instr :=
  some (.jr (fld w 23 3) (fld w 18 5) (fld w 13 5) (fld w 0 13))

/-- Major 0x17 (R123). -/
def decodeMajor17 (w : W32) : Option Instr :=
  some (.beq (fld w 23 3) (fld w 18 5) (fld w 13 5) (fld w 0 13))

/-- Major 0x18 (R123). -/
def decodeMajor18 (w : W32) : Option Instr :=
  some (.bne (fld w 23 3) (fld w 18 5) (fld w 13 5) (fld w 0 13))

/-- Major 0x19 (R123). -/
def decodeMajor19 (w : W32) : Option Instr :=
  some (.blt (fld w 23 3) (fld w 18 5) (fld w 13 5) (fld w 0 13))

/-- Major 0x1A (R123). -/
def decodeMajor1A (w : W32) : Option Instr :=
  some (.bge (fld w 23 3) (fld w 18 5) (fld w 13 5) (fld w 0 13))

/-- Major 0x1B (R123). -/
def decodeMajor1B (w : W32) : Option Instr :=
  some (.bltn (fld w 23 3) (fld w 18 5) (fld w 13 5) (fld w 0 13))

/-- Major 0x1C (R123). -/
def decodeMajor1C (w : W32) : Option Instr :=
  some (.bgen (fld w 23 3) (fld w 18 5) (fld w 13 5) (fld w 0 13))

/-- Major 0x1D (R123). -/
def decodeMajor1D (w : W32) : Option Instr :=
  if fld w 13 5 = 0 then
    some (.loop (fld w 23 3) (fld w 18 5) (fld w 0 13))
  else none

/-- Major 0x1E (R123). -/
def decodeMajor1E (w : W32) : Option Instr :=
  if fld w 4 4 = 0 ∧ fld w 2 1 = 0 ∧ fld w 0 2 = 0 then
    some (.fadd (fld w 23 3) (fld w 18 5) (fld w 13 5) (fld w 8 5) (fld w 3 1))
  else if fld w 4 4 = 1 ∧ fld w 2 1 = 0 ∧ fld w 0 2 = 0 then
    some (.fsub (fld w 23 3) (fld w 18 5) (fld w 13 5) (fld w 8 5) (fld w 3 1))
  else if fld w 4 4 = 2 ∧ fld w 2 1 = 0 ∧ fld w 0 2 = 0 then
    some (.fmul (fld w 23 3) (fld w 18 5) (fld w 13 5) (fld w 8 5) (fld w 3 1))
  else if fld w 4 4 = 3 ∧ fld w 2 1 = 0 ∧ fld w 0 2 = 0 then
    some (.fdiv (fld w 23 3) (fld w 18 5) (fld w 13 5) (fld w 8 5) (fld w 3 1))
  else if fld w 8 5 = 0 ∧ fld w 4 4 = 4 ∧ fld w 2 1 = 0 ∧ fld w 0 2 = 0 then
    some (.fsqrt (fld w 23 3) (fld w 18 5) (fld w 13 5) (fld w 3 1))
  else if fld w 4 4 = 5 ∧ fld w 2 1 = 0 ∧ fld w 0 2 = 0 then
    some (.fmin (fld w 23 3) (fld w 18 5) (fld w 13 5) (fld w 8 5) (fld w 3 1))
  else if fld w 4 4 = 6 ∧ fld w 2 1 = 0 ∧ fld w 0 2 = 0 then
    some (.fmax (fld w 23 3) (fld w 18 5) (fld w 13 5) (fld w 8 5) (fld w 3 1))
  else if fld w 4 4 = 7 ∧ fld w 2 1 = 0 then
    some (.fcmp (fld w 23 3) (fld w 18 5) (fld w 13 5) (fld w 8 5) (fld w 3 1) (fld w 0 2))
  else if fld w 8 5 = 0 ∧ fld w 4 4 = 8 then
    some (.fcvt (fld w 23 3) (fld w 18 5) (fld w 13 5) (fld w 3 1) (fld w 0 3))
  else if fld w 8 5 = 0 ∧ fld w 4 4 = 9 ∧ fld w 2 1 = 0 ∧ fld w 0 2 = 0 then
    some (.fmv (fld w 23 3) (fld w 18 5) (fld w 13 5) (fld w 3 1))
  else if fld w 8 5 = 0 ∧ fld w 4 4 = 9 ∧ fld w 2 1 = 0 ∧ fld w 0 2 = 1 then
    some (.fmvNeg (fld w 23 3) (fld w 18 5) (fld w 13 5) (fld w 3 1))
  else if fld w 8 5 = 0 ∧ fld w 4 4 = 9 ∧ fld w 2 1 = 0 ∧ fld w 0 2 = 2 then
    some (.fmvAbs (fld w 23 3) (fld w 18 5) (fld w 13 5) (fld w 3 1))
  else if fld w 4 4 = 9 ∧ fld w 2 1 = 0 ∧ fld w 0 2 = 3 then
    some (.fmvSgn (fld w 23 3) (fld w 18 5) (fld w 13 5) (fld w 8 5) (fld w 3 1))
  else none

/-- Major 0x1F (R123). -/
def decodeMajor1F (w : W32) : Option Instr :=
  if fld w 0 2 = 0 then
    some (.ffma (fld w 23 3) (fld w 18 5) (fld w 13 5) (fld w 8 5) (fld w 3 5) (fld w 2 1))
  else if fld w 0 2 = 1 then
    some (.ffms (fld w 23 3) (fld w 18 5) (fld w 13 5) (fld w 8 5) (fld w 3 5) (fld w 2 1))
  else if fld w 0 2 = 2 then
    some (.ffnma (fld w 23 3) (fld w 18 5) (fld w 13 5) (fld w 8 5) (fld w 3 5) (fld w 2 1))
  else if fld w 0 2 = 3 then
    some (.ffnms (fld w 23 3) (fld w 18 5) (fld w 13 5) (fld w 8 5) (fld w 3 5) (fld w 2 1))
  else none

/-- Major 0x20 (R123). -/
def decodeMajor20 (w : W32) : Option Instr :=
  if fld w 13 5 = 0 ∧ fld w 10 3 = 0 then
    some (.csrr (fld w 23 3) (fld w 18 5) (fld w 0 10))
  else if fld w 10 3 = 1 then
    some (.csrw (fld w 23 3) (fld w 18 5) (fld w 13 5) (fld w 0 10))
  else if fld w 10 3 = 2 then
    some (.csrs (fld w 23 3) (fld w 18 5) (fld w 13 5) (fld w 0 10))
  else if fld w 10 3 = 3 then
    some (.csrc (fld w 23 3) (fld w 18 5) (fld w 13 5) (fld w 0 10))
  else none

/-- Major 0x21 (R123). -/
def decodeMajor21 (w : W32) : Option Instr :=
  if fld w 18 5 = 0 ∧ fld w 10 3 = 0 then
    some (.trap (fld w 23 3) (fld w 13 5) (fld w 0 10))
  else if fld w 18 5 = 0 ∧ fld w 13 5 = 0 ∧ fld w 10 3 = 1 ∧ fld w 3 7 = 0 ∧ fld w 0 3 = 0 then
    some (.eret (fld w 23 3))
  else if fld w 10 3 = 2 ∧ fld w 3 7 = 0 ∧ fld w 0 3 = 0 then
    some (.wfe (fld w 23 3) (fld w 18 5) (fld w 13 5))
  else if fld w 18 5 = 0 ∧ fld w 13 5 = 0 ∧ fld w 10 3 = 3 ∧ fld w 3 7 = 0 ∧ fld w 0 3 = 0 then
    some (.yield (fld w 23 3))
  else if fld w 18 5 = 0 ∧ fld w 13 5 = 0 ∧ fld w 10 3 = 4 ∧ fld w 3 7 = 0 ∧ fld w 0 3 = 0 then
    some (.claim (fld w 23 3))
  else if fld w 18 5 = 0 ∧ fld w 13 5 = 0 ∧ fld w 10 3 = 5 ∧ fld w 3 7 = 0 ∧ fld w 0 3 = 0 then
    some (.nop (fld w 23 3))
  else if fld w 18 5 = 0 ∧ fld w 13 5 = 0 ∧ fld w 10 3 = 6 ∧ fld w 3 7 = 0 ∧ fld w 0 3 = 0 then
    some (.done (fld w 23 3))
  else if fld w 18 5 = 0 ∧ fld w 13 5 = 0 ∧ fld w 10 3 = 6 ∧ fld w 3 7 = 0 ∧ fld w 0 3 = 1 then
    some (.doneErr (fld w 23 3))
  else if fld w 18 5 = 0 ∧ fld w 13 5 = 0 ∧ fld w 10 3 = 7 ∧ fld w 3 7 = 0 then
    some (.etrig (fld w 23 3) (fld w 0 3))
  else none

/-- Major 0x22 (R123). -/
def decodeMajor22 (w : W32) : Option Instr :=
  if fld w 10 3 = 0 ∧ fld w 0 10 = 0 then
    some (.launch (fld w 23 3) (fld w 18 5) (fld w 13 5))
  else if fld w 10 3 = 0 ∧ fld w 0 10 = 1 then
    some (.join (fld w 23 3) (fld w 18 5) (fld w 13 5))
  else if fld w 13 5 = 0 ∧ fld w 10 3 = 0 ∧ fld w 0 10 = 2 then
    some (.leave (fld w 23 3) (fld w 18 5))
  else if fld w 13 5 = 0 ∧ fld w 0 10 = 3 then
    some (.gbar (fld w 23 3) (fld w 18 5) (fld w 10 3))
  else none

/-- Major 0x23 (R123). -/
def decodeMajor23 (w : W32) : Option Instr :=
  if fld w 6 7 = 0 then
    some (.setlen (fld w 23 3) (fld w 18 5) (fld w 13 5) (fld w 4 2) (fld w 0 4))
  else none

/-- Major 0x24 (R123). -/
def decodeMajor24 (w : W32) : Option Instr :=
  if fld w 0 5 = 0 then
    some (.vadd (fld w 23 3) (fld w 18 5) (fld w 13 5) (fld w 8 5) (fld w 5 3))
  else if fld w 0 5 = 1 then
    some (.vsub (fld w 23 3) (fld w 18 5) (fld w 13 5) (fld w 8 5) (fld w 5 3))
  else if fld w 0 5 = 2 then
    some (.vmul (fld w 23 3) (fld w 18 5) (fld w 13 5) (fld w 8 5) (fld w 5 3))
  else if fld w 0 5 = 3 then
    some (.vdiv (fld w 23 3) (fld w 18 5) (fld w 13 5) (fld w 8 5) (fld w 5 3))
  else if fld w 0 5 = 4 then
    some (.vmin (fld w 23 3) (fld w 18 5) (fld w 13 5) (fld w 8 5) (fld w 5 3))
  else if fld w 0 5 = 5 then
    some (.vmax (fld w 23 3) (fld w 18 5) (fld w 13 5) (fld w 8 5) (fld w 5 3))
  else if fld w 8 5 = 0 ∧ fld w 0 5 = 6 then
    some (.vabs (fld w 23 3) (fld w 18 5) (fld w 13 5) (fld w 5 3))
  else if fld w 8 5 = 0 ∧ fld w 0 5 = 7 then
    some (.vneg (fld w 23 3) (fld w 18 5) (fld w 13 5) (fld w 5 3))
  else if fld w 8 5 = 0 ∧ fld w 0 5 = 8 then
    some (.vsqrt (fld w 23 3) (fld w 18 5) (fld w 13 5) (fld w 5 3))
  else if fld w 8 5 = 0 ∧ fld w 0 5 = 9 then
    some (.vrsq (fld w 23 3) (fld w 18 5) (fld w 13 5) (fld w 5 3))
  else if fld w 8 5 = 0 ∧ fld w 0 5 = 10 then
    some (.vrcp (fld w 23 3) (fld w 18 5) (fld w 13 5) (fld w 5 3))
  else if fld w 8 5 = 0 ∧ fld w 0 5 = 11 then
    some (.vexp2 (fld w 23 3) (fld w 18 5) (fld w 13 5) (fld w 5 3))
  else if fld w 8 5 = 0 ∧ fld w 0 5 = 12 then
    some (.vclass (fld w 23 3) (fld w 18 5) (fld w 13 5) (fld w 5 3))
  else none

/-- Major 0x25 (R123). -/
def decodeMajor25 (w : W32) : Option Instr :=
  if fld w 0 5 = 0 then
    some (.vfma (fld w 23 3) (fld w 18 5) (fld w 13 5) (fld w 8 5) (fld w 5 3))
  else if fld w 0 5 = 1 then
    some (.vfms (fld w 23 3) (fld w 18 5) (fld w 13 5) (fld w 8 5) (fld w 5 3))
  else if fld w 0 5 = 2 then
    some (.vfnma (fld w 23 3) (fld w 18 5) (fld w 13 5) (fld w 8 5) (fld w 5 3))
  else if fld w 0 5 = 3 then
    some (.vfnms (fld w 23 3) (fld w 18 5) (fld w 13 5) (fld w 8 5) (fld w 5 3))
  else none

/-- Major 0x26 (R123). -/
def decodeMajor26 (w : W32) : Option Instr :=
  if fld w 0 5 = 0 then
    some (.viadd (fld w 23 3) (fld w 18 5) (fld w 13 5) (fld w 8 5) (fld w 5 3))
  else if fld w 0 5 = 1 then
    some (.visub (fld w 23 3) (fld w 18 5) (fld w 13 5) (fld w 8 5) (fld w 5 3))
  else if fld w 0 5 = 2 then
    some (.vimul (fld w 23 3) (fld w 18 5) (fld w 13 5) (fld w 8 5) (fld w 5 3))
  else if fld w 0 5 = 3 then
    some (.vimulh (fld w 23 3) (fld w 18 5) (fld w 13 5) (fld w 8 5) (fld w 5 3))
  else if fld w 0 5 = 4 then
    some (.vand (fld w 23 3) (fld w 18 5) (fld w 13 5) (fld w 8 5) (fld w 5 3))
  else if fld w 0 5 = 5 then
    some (.vor (fld w 23 3) (fld w 18 5) (fld w 13 5) (fld w 8 5) (fld w 5 3))
  else if fld w 0 5 = 6 then
    some (.vxor (fld w 23 3) (fld w 18 5) (fld w 13 5) (fld w 8 5) (fld w 5 3))
  else if fld w 0 5 = 7 then
    some (.vsll (fld w 23 3) (fld w 18 5) (fld w 13 5) (fld w 8 5) (fld w 5 3))
  else if fld w 0 5 = 8 then
    some (.vsrl (fld w 23 3) (fld w 18 5) (fld w 13 5) (fld w 8 5) (fld w 5 3))
  else if fld w 0 5 = 9 then
    some (.vsra (fld w 23 3) (fld w 18 5) (fld w 13 5) (fld w 8 5) (fld w 5 3))
  else if fld w 0 5 = 10 then
    some (.vimin (fld w 23 3) (fld w 18 5) (fld w 13 5) (fld w 8 5) (fld w 5 3))
  else if fld w 0 5 = 11 then
    some (.vimax (fld w 23 3) (fld w 18 5) (fld w 13 5) (fld w 8 5) (fld w 5 3))
  else if fld w 0 5 = 12 then
    some (.vminn (fld w 23 3) (fld w 18 5) (fld w 13 5) (fld w 8 5) (fld w 5 3))
  else if fld w 0 5 = 13 then
    some (.vmaxn (fld w 23 3) (fld w 18 5) (fld w 13 5) (fld w 8 5) (fld w 5 3))
  else if fld w 0 5 = 14 then
    some (.viadds (fld w 23 3) (fld w 18 5) (fld w 13 5) (fld w 8 5) (fld w 5 3))
  else if fld w 0 5 = 15 then
    some (.visubs (fld w 23 3) (fld w 18 5) (fld w 13 5) (fld w 8 5) (fld w 5 3))
  else none

/-- Major 0x27 (R123). -/
def decodeMajor27 (w : W32) : Option Instr :=
  if fld w 0 5 = 0 then
    some (.vmadd (fld w 23 3) (fld w 18 5) (fld w 13 5) (fld w 8 5) (fld w 5 3))
  else if fld w 0 5 = 1 then
    some (.vmsub (fld w 23 3) (fld w 18 5) (fld w 13 5) (fld w 8 5) (fld w 5 3))
  else if fld w 0 5 = 2 then
    some (.vmmul (fld w 23 3) (fld w 18 5) (fld w 13 5) (fld w 8 5) (fld w 5 3))
  else if fld w 8 5 = 0 ∧ fld w 0 5 = 3 then
    some (.vmred (fld w 23 3) (fld w 18 5) (fld w 13 5) (fld w 5 3))
  else none

/-- Major 0x28 (R123). -/
def decodeMajor28 (w : W32) : Option Instr :=
  if fld w 21 2 = 0 ∧ fld w 3 2 = 0 then
    some (.vcmp (fld w 23 3) (fld w 18 3) (fld w 13 5) (fld w 8 5) (fld w 5 3) (fld w 0 3))
  else none

/-- Major 0x29 (R123). -/
def decodeMajor29 (w : W32) : Option Instr :=
  if fld w 21 2 = 0 ∧ fld w 16 2 = 0 ∧ fld w 11 2 = 0 ∧ fld w 5 3 = 0 ∧ fld w 0 5 = 0 then
    some (.mand (fld w 23 3) (fld w 18 3) (fld w 13 3) (fld w 8 3))
  else if fld w 21 2 = 0 ∧ fld w 16 2 = 0 ∧ fld w 11 2 = 0 ∧ fld w 5 3 = 0 ∧ fld w 0 5 = 1 then
    some (.mor (fld w 23 3) (fld w 18 3) (fld w 13 3) (fld w 8 3))
  else if fld w 21 2 = 0 ∧ fld w 16 2 = 0 ∧ fld w 11 2 = 0 ∧ fld w 5 3 = 0 ∧ fld w 0 5 = 2 then
    some (.mxor (fld w 23 3) (fld w 18 3) (fld w 13 3) (fld w 8 3))
  else if fld w 21 2 = 0 ∧ fld w 16 2 = 0 ∧ fld w 11 2 = 0 ∧ fld w 5 3 = 0 ∧ fld w 0 5 = 3 then
    some (.mandn (fld w 23 3) (fld w 18 3) (fld w 13 3) (fld w 8 3))
  else if fld w 21 2 = 0 ∧ fld w 16 2 = 0 ∧ fld w 11 2 = 0 ∧ fld w 8 3 = 0 ∧ fld w 5 3 = 0 ∧ fld w 0 5 = 4 then
    some (.mnot (fld w 23 3) (fld w 18 3) (fld w 13 3))
  else if fld w 16 2 = 0 ∧ fld w 11 2 = 0 ∧ fld w 8 3 = 0 ∧ fld w 0 5 = 5 then
    some (.mpopc (fld w 23 3) (fld w 18 5) (fld w 13 3) (fld w 5 3))
  else if fld w 16 2 = 0 ∧ fld w 11 2 = 0 ∧ fld w 8 3 = 0 ∧ fld w 0 5 = 6 then
    some (.mfirst (fld w 23 3) (fld w 18 5) (fld w 13 3) (fld w 5 3))
  else if fld w 21 2 = 0 ∧ fld w 11 2 = 0 ∧ fld w 8 3 = 0 ∧ fld w 5 3 = 0 ∧ fld w 0 5 = 7 then
    some (.mset (fld w 23 3) (fld w 18 3) (fld w 13 5))
  else none

/-- Major 0x2A (R123). -/
def decodeMajor2A (w : W32) : Option Instr :=
  if fld w 8 5 = 0 then
    some (.vcvt (fld w 23 3) (fld w 18 5) (fld w 13 5) (fld w 5 3) (fld w 4 1) (fld w 0 4))
  else none

/-- Major 0x2B (R123). -/
def decodeMajor2B (w : W32) : Option Instr :=
  if fld w 0 5 = 0 then
    some (.vredsum (fld w 23 3) (fld w 18 5) (fld w 13 5) (fld w 8 5) (fld w 5 3))
  else if fld w 0 5 = 1 then
    some (.vredsumo (fld w 23 3) (fld w 18 5) (fld w 13 5) (fld w 8 5) (fld w 5 3))
  else if fld w 0 5 = 2 then
    some (.vredmax (fld w 23 3) (fld w 18 5) (fld w 13 5) (fld w 8 5) (fld w 5 3))
  else if fld w 0 5 = 3 then
    some (.vredmin (fld w 23 3) (fld w 18 5) (fld w 13 5) (fld w 8 5) (fld w 5 3))
  else if fld w 0 5 = 4 then
    some (.vredand (fld w 23 3) (fld w 18 5) (fld w 13 5) (fld w 8 5) (fld w 5 3))
  else if fld w 0 5 = 5 then
    some (.vredor (fld w 23 3) (fld w 18 5) (fld w 13 5) (fld w 8 5) (fld w 5 3))
  else none

/-- Major 0x2C (R123). -/
def decodeMajor2C (w : W32) : Option Instr :=
  if fld w 0 5 = 0 then
    some (.vperm (fld w 23 3) (fld w 18 5) (fld w 13 5) (fld w 8 5) (fld w 5 3))
  else if fld w 0 5 = 1 then
    some (.vslup (fld w 23 3) (fld w 18 5) (fld w 13 5) (fld w 8 5) (fld w 5 3))
  else if fld w 0 5 = 2 then
    some (.vsldn (fld w 23 3) (fld w 18 5) (fld w 13 5) (fld w 8 5) (fld w 5 3))
  else if fld w 0 5 = 3 then
    some (.vmerge (fld w 23 3) (fld w 18 5) (fld w 13 5) (fld w 8 5) (fld w 5 3))
  else if fld w 8 5 = 0 ∧ fld w 0 5 = 4 then
    some (.vcompress (fld w 23 3) (fld w 18 5) (fld w 13 5) (fld w 5 3))
  else if fld w 8 5 = 0 ∧ fld w 0 5 = 5 then
    some (.vexpand (fld w 23 3) (fld w 18 5) (fld w 13 5) (fld w 5 3))
  else if fld w 13 5 = 0 ∧ fld w 8 5 = 0 ∧ fld w 0 5 = 6 then
    some (.viota (fld w 23 3) (fld w 18 5) (fld w 5 3))
  else if fld w 8 5 = 0 ∧ fld w 0 5 = 7 then
    some (.vbcast (fld w 23 3) (fld w 18 5) (fld w 13 5) (fld w 5 3))
  else if fld w 5 3 = 0 ∧ fld w 0 5 = 8 then
    some (.vextract (fld w 23 3) (fld w 18 5) (fld w 13 5) (fld w 8 5))
  else none

/-- Major 0x2D (R123). -/
def decodeMajor2D (w : W32) : Option Instr :=
  if fld w 8 5 = 0 ∧ fld w 0 5 = 0 then
    some (.vxch (fld w 23 3) (fld w 18 5) (fld w 13 5) (fld w 5 3))
  else if fld w 8 5 = 0 ∧ fld w 0 5 = 1 then
    some (.vxchRot (fld w 23 3) (fld w 18 5) (fld w 13 5) (fld w 5 3))
  else none

/-- Major 0x2E (R123). -/
def decodeMajor2E (w : W32) : Option Instr :=
  if fld w 8 5 = 0 ∧ fld w 3 2 = 0 ∧ fld w 2 1 = 0 ∧ fld w 0 2 = 0 then
    some (.vld (fld w 23 3) (fld w 18 5) (fld w 13 5) (fld w 5 3))
  else if fld w 3 2 = 0 ∧ fld w 2 1 = 0 ∧ fld w 0 2 = 1 then
    some (.vlds (fld w 23 3) (fld w 18 5) (fld w 13 5) (fld w 8 5) (fld w 5 3))
  else if fld w 3 2 = 0 ∧ fld w 0 2 = 2 then
    some (.vldx (fld w 23 3) (fld w 18 5) (fld w 13 5) (fld w 8 5) (fld w 5 3) (fld w 2 1))
  else if fld w 0 2 = 3 then
    some (.vldxa (fld w 23 3) (fld w 18 5) (fld w 13 5) (fld w 8 5) (fld w 5 3) (fld w 2 3))
  else none

/-- Major 0x2F (R123). -/
def decodeMajor2F (w : W32) : Option Instr :=
  if fld w 8 5 = 0 ∧ fld w 3 2 = 0 ∧ fld w 2 1 = 0 ∧ fld w 0 2 = 0 then
    some (.vst (fld w 23 3) (fld w 18 5) (fld w 13 5) (fld w 5 3))
  else if fld w 3 2 = 0 ∧ fld w 2 1 = 0 ∧ fld w 0 2 = 1 then
    some (.vsts (fld w 23 3) (fld w 18 5) (fld w 13 5) (fld w 8 5) (fld w 5 3))
  else if fld w 3 2 = 0 ∧ fld w 0 2 = 2 then
    some (.vstx (fld w 23 3) (fld w 18 5) (fld w 13 5) (fld w 8 5) (fld w 5 3) (fld w 2 1))
  else if fld w 0 2 = 3 then
    some (.vstxa (fld w 23 3) (fld w 18 5) (fld w 13 5) (fld w 8 5) (fld w 5 3) (fld w 2 3))
  else none

/-- Major 0x30 (R123). -/
def decodeMajor30 (w : W32) : Option Instr :=
  if fld w 3 2 = 0 then
    some (.vappend (fld w 23 3) (fld w 18 5) (fld w 13 5) (fld w 8 5) (fld w 5 3) (fld w 0 3))
  else none

/-- Major 0x31 (R123). -/
def decodeMajor31 (w : W32) : Option Instr :=
  if fld w 0 5 = 0 then
    some (.vq4dq (fld w 23 3) (fld w 18 5) (fld w 13 5) (fld w 8 5) (fld w 5 3))
  else if fld w 0 5 = 1 then
    some (.vq4q (fld w 23 3) (fld w 18 5) (fld w 13 5) (fld w 8 5) (fld w 5 3))
  else none

/-- Major 0x32 (R123). -/
def decodeMajor32 (w : W32) : Option Instr :=
  if fld w 8 5 = 0 ∧ fld w 6 2 = 0 ∧ fld w 5 1 = 0 ∧ fld w 4 1 = 0 ∧ fld w 0 4 = 0 then
    some (.cfgload (fld w 23 3) (fld w 18 5) (fld w 13 5))
  else if fld w 13 5 = 0 ∧ fld w 8 5 = 0 ∧ fld w 4 1 = 0 ∧ fld w 0 4 = 1 then
    some (.cfgsel (fld w 23 3) (fld w 18 5) (fld w 6 2) (fld w 5 1))
  else if fld w 8 5 = 0 ∧ fld w 6 2 = 0 ∧ fld w 5 1 = 0 ∧ fld w 4 1 = 0 ∧ fld w 0 4 = 2 then
    some (.cfgck (fld w 23 3) (fld w 18 5) (fld w 13 5))
  else if fld w 13 5 = 0 ∧ fld w 8 5 = 0 ∧ fld w 6 2 = 0 ∧ fld w 5 1 = 0 ∧ fld w 4 1 = 0 ∧ fld w 0 4 = 3 then
    some (.gresume (fld w 23 3) (fld w 18 5))
  else if fld w 13 5 = 0 ∧ fld w 8 5 = 0 ∧ fld w 6 2 = 0 ∧ fld w 5 1 = 0 ∧ fld w 4 1 = 0 ∧ fld w 0 4 = 4 then
    some (.gdrain (fld w 23 3) (fld w 18 5))
  else if fld w 8 5 = 0 ∧ fld w 6 2 = 0 ∧ fld w 0 4 = 5 then
    some (.gquery (fld w 23 3) (fld w 18 5) (fld w 13 5) (fld w 4 2))
  else none

/-- Major 0x33 (R123). -/
def decodeMajor33 (w : W32) : Option Instr :=
  if fld w 7 1 = 0 ∧ fld w 0 4 = 0 then
    some (.strm (fld w 23 3) (fld w 18 5) (fld w 13 5) (fld w 10 3) (fld w 9 1) (fld w 8 1) (fld w 4 3))
  else none

/-- Major 0x34 (R123). -/
def decodeMajor34 (w : W32) : Option Instr :=
  if fld w 10 3 = 0 ∧ fld w 7 3 = 0 ∧ fld w 0 4 = 0 then
    some (.start (fld w 23 3) (fld w 18 5) (fld w 13 5) (fld w 4 3))
  else if fld w 10 3 = 0 ∧ fld w 7 3 = 0 ∧ fld w 4 3 = 0 ∧ fld w 0 4 = 1 then
    some (.ctok (fld w 23 3) (fld w 18 5) (fld w 13 5))
  else if fld w 18 5 = 0 ∧ fld w 13 5 = 0 ∧ fld w 10 3 = 0 ∧ fld w 7 3 = 0 ∧ fld w 4 3 = 0 ∧ fld w 0 4 = 2 then
    some (.sbarCfg (fld w 23 3))
  else if fld w 18 5 = 0 ∧ fld w 13 5 = 0 ∧ fld w 10 3 = 0 ∧ fld w 7 3 = 0 ∧ fld w 4 3 = 1 ∧ fld w 0 4 = 2 then
    some (.sbarStrm (fld w 23 3))
  else if fld w 18 5 = 0 ∧ fld w 13 5 = 0 ∧ fld w 7 3 = 0 ∧ fld w 4 3 = 2 ∧ fld w 0 4 = 2 then
    some (.sbarMem (fld w 23 3) (fld w 10 3))
  else if fld w 13 5 = 0 ∧ fld w 7 3 = 0 ∧ fld w 4 3 = 3 ∧ fld w 0 4 = 2 then
    some (.sbarCond (fld w 23 3) (fld w 18 5) (fld w 10 3))
  else if fld w 18 5 = 0 ∧ fld w 7 3 = 0 ∧ fld w 0 4 = 3 then
    some (.swait (fld w 23 3) (fld w 13 5) (fld w 10 3) (fld w 4 3))
  else none

/-- Major 0x35 (R123). -/
def decodeMajor35 (w : W32) : Option Instr :=
  if fld w 9 1 = 0 ∧ fld w 0 8 = 0 then
    some (.tokq (fld w 23 3) (fld w 18 5) (fld w 13 5) (fld w 10 3) (fld w 8 1))
  else if fld w 10 3 = 0 ∧ fld w 9 1 = 0 ∧ fld w 8 1 = 0 ∧ fld w 0 8 = 1 then
    some (.qarm (fld w 23 3) (fld w 18 5) (fld w 13 5))
  else if fld w 10 3 = 0 ∧ fld w 9 1 = 0 ∧ fld w 8 1 = 0 ∧ fld w 0 8 = 2 then
    some (.qdisarm (fld w 23 3) (fld w 18 5) (fld w 13 5))
  else none

/-- Major 0x36 (R123). -/
def decodeMajor36 (w : W32) : Option Instr :=
  if fld w 13 5 = 0 ∧ fld w 0 4 = 0 then
    some (.copy (fld w 23 3) (fld w 18 5) (fld w 10 3) (fld w 9 1) (fld w 8 1) (fld w 4 4))
  else none

/-- Major 0x37 (R123). -/
def decodeMajor37 (w : W32) : Option Instr :=
  if fld w 18 5 = 0 ∧ fld w 8 2 = 0 ∧ fld w 0 4 = 0 then
    some (.drain (fld w 23 3) (fld w 13 5) (fld w 10 3) (fld w 4 4))
  else none

/-- Major 0x38 (R123). -/
def decodeMajor38 (w : W32) : Option Instr :=
  if fld w 8 1 = 0 ∧ fld w 7 1 = 0 ∧ fld w 0 4 = 0 then
    some (.rld (fld w 23 3) (fld w 18 5) (fld w 13 5) (fld w 10 3) (fld w 9 1) (fld w 4 3))
  else if fld w 9 1 = 0 ∧ fld w 0 4 = 1 then
    some (.rst (fld w 23 3) (fld w 18 5) (fld w 13 5) (fld w 10 3) (fld w 8 1) (fld w 7 1) (fld w 6 1) (fld w 4 2))
  else if fld w 7 1 = 0 ∧ fld w 6 1 = 0 ∧ fld w 4 2 = 0 ∧ fld w 0 4 = 2 then
    some (.ramoInv (fld w 23 3) (fld w 18 5) (fld w 13 5) (fld w 10 3) (fld w 9 1) (fld w 8 1))
  else if fld w 7 1 = 0 ∧ fld w 6 1 = 0 ∧ fld w 4 2 = 1 ∧ fld w 0 4 = 2 then
    some (.ramoBegin (fld w 23 3) (fld w 18 5) (fld w 13 5) (fld w 10 3) (fld w 9 1) (fld w 8 1))
  else if fld w 7 1 = 0 ∧ fld w 6 1 = 0 ∧ fld w 4 2 = 2 ∧ fld w 0 4 = 2 then
    some (.ramoBody (fld w 23 3) (fld w 18 5) (fld w 13 5) (fld w 10 3) (fld w 9 1) (fld w 8 1))
  else if fld w 7 1 = 0 ∧ fld w 6 1 = 0 ∧ fld w 4 2 = 3 ∧ fld w 0 4 = 2 then
    some (.ramoValid (fld w 23 3) (fld w 18 5) (fld w 13 5) (fld w 10 3) (fld w 9 1) (fld w 8 1))
  else if fld w 7 1 = 0 ∧ fld w 6 1 = 1 ∧ fld w 4 2 = 0 ∧ fld w 0 4 = 2 then
    some (.ramoClear (fld w 23 3) (fld w 18 5) (fld w 13 5) (fld w 10 3) (fld w 9 1) (fld w 8 1))
  else if fld w 7 1 = 0 ∧ fld w 6 1 = 0 ∧ fld w 4 2 = 0 ∧ fld w 0 4 = 3 then
    some (.rfadd (fld w 23 3) (fld w 18 5) (fld w 13 5) (fld w 10 3) (fld w 9 1) (fld w 8 1))
  else none

/-- Major 0x39 (R123). -/
def decodeMajor39 (w : W32) : Option Instr :=
  if fld w 0 13 = 0 then
    some (.tokwait (fld w 23 3) (fld w 18 5) (fld w 13 5))
  else none

/-- Major 0x3A (R123). -/
def decodeMajor3A (w : W32) : Option Instr :=
  if fld w 5 5 = 0 ∧ fld w 0 4 = 0 then
    some (.tlbinv (fld w 23 3) (fld w 18 5) (fld w 13 5) (fld w 10 3) (fld w 4 1))
  else if fld w 18 5 = 0 ∧ fld w 13 5 = 0 ∧ fld w 10 3 = 0 ∧ fld w 5 5 = 0 ∧ fld w 4 1 = 0 ∧ fld w 0 4 = 1 then
    some (.tlbsync (fld w 23 3))
  else none

/-- The instruction of a word by its fixed bits (R123); a reserved value of a field is left to `WellFormed`. -/
def decodeRaw (w : W32) : Option Instr :=
  match (fld w 26 6).toNat with
  | 0x01 => decodeMajor01 w
  | 0x02 => decodeMajor02 w
  | 0x03 => decodeMajor03 w
  | 0x04 => decodeMajor04 w
  | 0x05 => decodeMajor05 w
  | 0x06 => decodeMajor06 w
  | 0x07 => decodeMajor07 w
  | 0x08 => decodeMajor08 w
  | 0x09 => decodeMajor09 w
  | 0x0A => decodeMajor0A w
  | 0x0B => decodeMajor0B w
  | 0x0C => decodeMajor0C w
  | 0x0D => decodeMajor0D w
  | 0x0E => decodeMajor0E w
  | 0x0F => decodeMajor0F w
  | 0x10 => decodeMajor10 w
  | 0x11 => decodeMajor11 w
  | 0x12 => decodeMajor12 w
  | 0x13 => decodeMajor13 w
  | 0x14 => decodeMajor14 w
  | 0x15 => decodeMajor15 w
  | 0x16 => decodeMajor16 w
  | 0x17 => decodeMajor17 w
  | 0x18 => decodeMajor18 w
  | 0x19 => decodeMajor19 w
  | 0x1A => decodeMajor1A w
  | 0x1B => decodeMajor1B w
  | 0x1C => decodeMajor1C w
  | 0x1D => decodeMajor1D w
  | 0x1E => decodeMajor1E w
  | 0x1F => decodeMajor1F w
  | 0x20 => decodeMajor20 w
  | 0x21 => decodeMajor21 w
  | 0x22 => decodeMajor22 w
  | 0x23 => decodeMajor23 w
  | 0x24 => decodeMajor24 w
  | 0x25 => decodeMajor25 w
  | 0x26 => decodeMajor26 w
  | 0x27 => decodeMajor27 w
  | 0x28 => decodeMajor28 w
  | 0x29 => decodeMajor29 w
  | 0x2A => decodeMajor2A w
  | 0x2B => decodeMajor2B w
  | 0x2C => decodeMajor2C w
  | 0x2D => decodeMajor2D w
  | 0x2E => decodeMajor2E w
  | 0x2F => decodeMajor2F w
  | 0x30 => decodeMajor30 w
  | 0x31 => decodeMajor31 w
  | 0x32 => decodeMajor32 w
  | 0x33 => decodeMajor33 w
  | 0x34 => decodeMajor34 w
  | 0x35 => decodeMajor35 w
  | 0x36 => decodeMajor36 w
  | 0x37 => decodeMajor37 w
  | 0x38 => decodeMajor38 w
  | 0x39 => decodeMajor39 w
  | 0x3A => decodeMajor3A w
  | _ => none

/-- R124 step 1, apart from the atomic block: none is an illegal instruction, trap 0x01. -/
def decode (w : W32) : Option Instr :=
  match decodeRaw w with
  | some i => if WellFormed i then some i else none
  | none => none

/-- The word of an instruction, from the encoding tables of the spec (R116 and the template lines of each chapter); none
for a row without bits. -/
def encode : Instr → Option W32
  | .add st d a b => some ((1#6) ++ st ++ d ++ a ++ b ++ (0#8))
  | .sub st d a b => some ((1#6) ++ st ++ d ++ a ++ b ++ (1#8))
  | .and st d a b => some ((1#6) ++ st ++ d ++ a ++ b ++ (2#8))
  | .or st d a b => some ((1#6) ++ st ++ d ++ a ++ b ++ (3#8))
  | .xor st d a b => some ((1#6) ++ st ++ d ++ a ++ b ++ (4#8))
  | .andn st d a b => some ((1#6) ++ st ++ d ++ a ++ b ++ (5#8))
  | .sll st d a b => some ((1#6) ++ st ++ d ++ a ++ b ++ (6#8))
  | .srl st d a b => some ((1#6) ++ st ++ d ++ a ++ b ++ (7#8))
  | .sra st d a b => some ((1#6) ++ st ++ d ++ a ++ b ++ (8#8))
  | .rol st d a b => some ((1#6) ++ st ++ d ++ a ++ b ++ (9#8))
  | .min st d a b => some ((1#6) ++ st ++ d ++ a ++ b ++ (10#8))
  | .max st d a b => some ((1#6) ++ st ++ d ++ a ++ b ++ (11#8))
  | .minn st d a b => some ((1#6) ++ st ++ d ++ a ++ b ++ (12#8))
  | .maxn st d a b => some ((1#6) ++ st ++ d ++ a ++ b ++ (13#8))
  | .slt st d a b => some ((1#6) ++ st ++ d ++ a ++ b ++ (14#8))
  | .sltn st d a b => some ((1#6) ++ st ++ d ++ a ++ b ++ (15#8))
  | .seq st d a b => some ((1#6) ++ st ++ d ++ a ++ b ++ (16#8))
  | .mul st d a b => some ((1#6) ++ st ++ d ++ a ++ b ++ (17#8))
  | .mulh st d a b => some ((1#6) ++ st ++ d ++ a ++ b ++ (18#8))
  | .mulhn st d a b => some ((1#6) ++ st ++ d ++ a ++ b ++ (19#8))
  | .clz st d a => some ((1#6) ++ st ++ d ++ a ++ (20#13))
  | .ctz st d a => some ((1#6) ++ st ++ d ++ a ++ (21#13))
  | .popc st d a => some ((1#6) ++ st ++ d ++ a ++ (22#13))
  | .csel st d a b => some ((1#6) ++ st ++ d ++ a ++ b ++ (23#8))
  | .addi st d a i => some ((2#6) ++ st ++ d ++ a ++ i)
  | .andi st d a i => some ((3#6) ++ st ++ d ++ a ++ i)
  | .ori st d a i => some ((4#6) ++ st ++ d ++ a ++ i)
  | .xori st d a i => some ((5#6) ++ st ++ d ++ a ++ i)
  | .slli st d a h => some ((6#6) ++ st ++ d ++ a ++ (0#7) ++ h)
  | .srli st d a h => some ((6#6) ++ st ++ d ++ a ++ (32#7) ++ h)
  | .srai st d a h => some ((6#6) ++ st ++ d ++ a ++ (64#7) ++ h)
  | .roli st d a h => some ((6#6) ++ st ++ d ++ a ++ (96#7) ++ h)
  | .slti st d a i => some ((7#6) ++ st ++ d ++ a ++ i)
  | .sltni st d a i => some ((8#6) ++ st ++ d ++ a ++ i)
  | .li st d i => some ((9#6) ++ st ++ d ++ i)
  | .lext st d i => some ((10#6) ++ st ++ d ++ i)
  | .lea st d i => some ((11#6) ++ st ++ d ++ i)
  | .div st d a b => some ((12#6) ++ st ++ d ++ a ++ b ++ (0#8))
  | .divn st d a b => some ((12#6) ++ st ++ d ++ a ++ b ++ (1#8))
  | .rem st d a b => some ((12#6) ++ st ++ d ++ a ++ b ++ (2#8))
  | .remn st d a b => some ((12#6) ++ st ++ d ++ a ++ b ++ (3#8))
  | .ld st d a z o => some ((13#6) ++ st ++ d ++ a ++ z ++ o)
  | .st st d a z o => some ((14#6) ++ st ++ d ++ a ++ (0#1) ++ z ++ o)
  | .ldx st d a b z => some ((15#6) ++ st ++ d ++ a ++ b ++ (0#5) ++ z)
  | .stx st d a b z => some ((15#6) ++ st ++ d ++ a ++ b ++ (2#6) ++ z)
  | .ldacq st d a c z => some ((16#6) ++ st ++ d ++ a ++ (0#7) ++ c ++ z)
  | .strel st d a c z => some ((17#6) ++ st ++ d ++ a ++ (0#7) ++ c ++ (0#1) ++ z)
  | .amoAdd st d a b z c => some ((18#6) ++ st ++ d ++ a ++ b ++ (0#4) ++ z ++ c)
  | .amoAdds st d a b z c => some ((18#6) ++ st ++ d ++ a ++ b ++ (1#4) ++ z ++ c)
  | .amoAnd st d a b z c => some ((18#6) ++ st ++ d ++ a ++ b ++ (2#4) ++ z ++ c)
  | .amoOr st d a b z c => some ((18#6) ++ st ++ d ++ a ++ b ++ (3#4) ++ z ++ c)
  | .amoXor st d a b z c => some ((18#6) ++ st ++ d ++ a ++ b ++ (4#4) ++ z ++ c)
  | .amoMin st d a b z c => some ((18#6) ++ st ++ d ++ a ++ b ++ (5#4) ++ z ++ c)
  | .amoMax st d a b z c => some ((18#6) ++ st ++ d ++ a ++ b ++ (6#4) ++ z ++ c)
  | .amoMinn st d a b z c => some ((18#6) ++ st ++ d ++ a ++ b ++ (7#4) ++ z ++ c)
  | .amoMaxn st d a b z c => some ((18#6) ++ st ++ d ++ a ++ b ++ (8#4) ++ z ++ c)
  | .amoSwap st d a b z c => some ((18#6) ++ st ++ d ++ a ++ b ++ (9#4) ++ z ++ c)
  | .amoFadd st d a b z c => some ((18#6) ++ st ++ d ++ a ++ b ++ (10#4) ++ z ++ c)
  | .cas st d a b z c => some ((19#6) ++ st ++ d ++ a ++ b ++ (0#4) ++ z ++ c)
  | .fenceFull st c => some ((20#6) ++ st ++ (0#20) ++ c)
  | .fenceAcq st c => some ((20#6) ++ st ++ (128#20) ++ c)
  | .fenceRel st c => some ((20#6) ++ st ++ (256#20) ++ c)
  | .fenceEng st c => some ((20#6) ++ st ++ (384#20) ++ c)
  | .br st i => some ((21#6) ++ st ++ (0#5) ++ i)
  | .call st i => some ((21#6) ++ st ++ (31#5) ++ i)
  | .jr st d a i => some ((22#6) ++ st ++ d ++ a ++ i)
  | .beq st a b o => some ((23#6) ++ st ++ a ++ b ++ o)
  | .bne st a b o => some ((24#6) ++ st ++ a ++ b ++ o)
  | .blt st a b o => some ((25#6) ++ st ++ a ++ b ++ o)
  | .bge st a b o => some ((26#6) ++ st ++ a ++ b ++ o)
  | .bltn st a b o => some ((27#6) ++ st ++ a ++ b ++ o)
  | .bgen st a b o => some ((28#6) ++ st ++ a ++ b ++ o)
  | .loop st a o => some ((29#6) ++ st ++ a ++ (0#5) ++ o)
  | .fadd st d a b p => some ((30#6) ++ st ++ d ++ a ++ b ++ (0#4) ++ p ++ (0#3))
  | .fsub st d a b p => some ((30#6) ++ st ++ d ++ a ++ b ++ (1#4) ++ p ++ (0#3))
  | .fmul st d a b p => some ((30#6) ++ st ++ d ++ a ++ b ++ (2#4) ++ p ++ (0#3))
  | .fdiv st d a b p => some ((30#6) ++ st ++ d ++ a ++ b ++ (3#4) ++ p ++ (0#3))
  | .fsqrt st d a p => some ((30#6) ++ st ++ d ++ a ++ (4#9) ++ p ++ (0#3))
  | .fmin st d a b p => some ((30#6) ++ st ++ d ++ a ++ b ++ (5#4) ++ p ++ (0#3))
  | .fmax st d a b p => some ((30#6) ++ st ++ d ++ a ++ b ++ (6#4) ++ p ++ (0#3))
  | .fcmp st d a b p c => some ((30#6) ++ st ++ d ++ a ++ b ++ (7#4) ++ p ++ (0#1) ++ c)
  | .fcvt st d a p k => some ((30#6) ++ st ++ d ++ a ++ (8#9) ++ p ++ k)
  | .fmv st d a p => some ((30#6) ++ st ++ d ++ a ++ (9#9) ++ p ++ (0#3))
  | .fmvNeg st d a p => some ((30#6) ++ st ++ d ++ a ++ (9#9) ++ p ++ (1#3))
  | .fmvAbs st d a p => some ((30#6) ++ st ++ d ++ a ++ (9#9) ++ p ++ (2#3))
  | .fmvSgn st d a b p => some ((30#6) ++ st ++ d ++ a ++ b ++ (9#4) ++ p ++ (3#3))
  | .ffma st d a b c p => some ((31#6) ++ st ++ d ++ a ++ b ++ c ++ p ++ (0#2))
  | .ffms st d a b c p => some ((31#6) ++ st ++ d ++ a ++ b ++ c ++ p ++ (1#2))
  | .ffnma st d a b c p => some ((31#6) ++ st ++ d ++ a ++ b ++ c ++ p ++ (2#2))
  | .ffnms st d a b c p => some ((31#6) ++ st ++ d ++ a ++ b ++ c ++ p ++ (3#2))
  | .csrr st d e => some ((32#6) ++ st ++ d ++ (0#8) ++ e)
  | .csrw st d a e => some ((32#6) ++ st ++ d ++ a ++ (1#3) ++ e)
  | .csrs st d a e => some ((32#6) ++ st ++ d ++ a ++ (2#3) ++ e)
  | .csrc st d a e => some ((32#6) ++ st ++ d ++ a ++ (3#3) ++ e)
  | .trap st a e => some ((33#6) ++ st ++ (0#5) ++ a ++ (0#3) ++ e)
  | .eret st => some ((33#6) ++ st ++ (1024#23))
  | .wfe st d a => some ((33#6) ++ st ++ d ++ a ++ (2048#13))
  | .yield st => some ((33#6) ++ st ++ (3072#23))
  | .claim st => some ((33#6) ++ st ++ (4096#23))
  | .nop st => some ((33#6) ++ st ++ (5120#23))
  | .done st => some ((33#6) ++ st ++ (6144#23))
  | .doneErr st => some ((33#6) ++ st ++ (6145#23))
  | .etrig st c => some ((33#6) ++ st ++ (896#20) ++ c)
  | .launch st a b => some ((34#6) ++ st ++ a ++ b ++ (0#13))
  | .join st a b => some ((34#6) ++ st ++ a ++ b ++ (1#13))
  | .leave st a => some ((34#6) ++ st ++ a ++ (2#18))
  | .gbar st a c => some ((34#6) ++ st ++ a ++ (0#5) ++ c ++ (3#10))
  | .setlen st d a g f => some ((35#6) ++ st ++ d ++ a ++ (0#7) ++ g ++ f)
  | .vadd st d a b k => some ((36#6) ++ st ++ d ++ a ++ b ++ k ++ (0#5))
  | .vsub st d a b k => some ((36#6) ++ st ++ d ++ a ++ b ++ k ++ (1#5))
  | .vmul st d a b k => some ((36#6) ++ st ++ d ++ a ++ b ++ k ++ (2#5))
  | .vdiv st d a b k => some ((36#6) ++ st ++ d ++ a ++ b ++ k ++ (3#5))
  | .vmin st d a b k => some ((36#6) ++ st ++ d ++ a ++ b ++ k ++ (4#5))
  | .vmax st d a b k => some ((36#6) ++ st ++ d ++ a ++ b ++ k ++ (5#5))
  | .vabs st d a k => some ((36#6) ++ st ++ d ++ a ++ (0#5) ++ k ++ (6#5))
  | .vneg st d a k => some ((36#6) ++ st ++ d ++ a ++ (0#5) ++ k ++ (7#5))
  | .vsqrt st d a k => some ((36#6) ++ st ++ d ++ a ++ (0#5) ++ k ++ (8#5))
  | .vrsq st d a k => some ((36#6) ++ st ++ d ++ a ++ (0#5) ++ k ++ (9#5))
  | .vrcp st d a k => some ((36#6) ++ st ++ d ++ a ++ (0#5) ++ k ++ (10#5))
  | .vexp2 st d a k => some ((36#6) ++ st ++ d ++ a ++ (0#5) ++ k ++ (11#5))
  | .vclass st d a k => some ((36#6) ++ st ++ d ++ a ++ (0#5) ++ k ++ (12#5))
  | .vfma st d a b k => some ((37#6) ++ st ++ d ++ a ++ b ++ k ++ (0#5))
  | .vfms st d a b k => some ((37#6) ++ st ++ d ++ a ++ b ++ k ++ (1#5))
  | .vfnma st d a b k => some ((37#6) ++ st ++ d ++ a ++ b ++ k ++ (2#5))
  | .vfnms st d a b k => some ((37#6) ++ st ++ d ++ a ++ b ++ k ++ (3#5))
  | .viadd st d a b k => some ((38#6) ++ st ++ d ++ a ++ b ++ k ++ (0#5))
  | .visub st d a b k => some ((38#6) ++ st ++ d ++ a ++ b ++ k ++ (1#5))
  | .vimul st d a b k => some ((38#6) ++ st ++ d ++ a ++ b ++ k ++ (2#5))
  | .vimulh st d a b k => some ((38#6) ++ st ++ d ++ a ++ b ++ k ++ (3#5))
  | .vand st d a b k => some ((38#6) ++ st ++ d ++ a ++ b ++ k ++ (4#5))
  | .vor st d a b k => some ((38#6) ++ st ++ d ++ a ++ b ++ k ++ (5#5))
  | .vxor st d a b k => some ((38#6) ++ st ++ d ++ a ++ b ++ k ++ (6#5))
  | .vsll st d a b k => some ((38#6) ++ st ++ d ++ a ++ b ++ k ++ (7#5))
  | .vsrl st d a b k => some ((38#6) ++ st ++ d ++ a ++ b ++ k ++ (8#5))
  | .vsra st d a b k => some ((38#6) ++ st ++ d ++ a ++ b ++ k ++ (9#5))
  | .vimin st d a b k => some ((38#6) ++ st ++ d ++ a ++ b ++ k ++ (10#5))
  | .vimax st d a b k => some ((38#6) ++ st ++ d ++ a ++ b ++ k ++ (11#5))
  | .vminn st d a b k => some ((38#6) ++ st ++ d ++ a ++ b ++ k ++ (12#5))
  | .vmaxn st d a b k => some ((38#6) ++ st ++ d ++ a ++ b ++ k ++ (13#5))
  | .viadds st d a b k => some ((38#6) ++ st ++ d ++ a ++ b ++ k ++ (14#5))
  | .visubs st d a b k => some ((38#6) ++ st ++ d ++ a ++ b ++ k ++ (15#5))
  | .vmadd st d a b k => some ((39#6) ++ st ++ d ++ a ++ b ++ k ++ (0#5))
  | .vmsub st d a b k => some ((39#6) ++ st ++ d ++ a ++ b ++ k ++ (1#5))
  | .vmmul st d a b k => some ((39#6) ++ st ++ d ++ a ++ b ++ k ++ (2#5))
  | .vmred st d a k => some ((39#6) ++ st ++ d ++ a ++ (0#5) ++ k ++ (3#5))
  | .vcmp st d a b k c => some ((40#6) ++ st ++ (0#2) ++ d ++ a ++ b ++ k ++ (0#2) ++ c)
  | .mand st d a b => some ((41#6) ++ st ++ (0#2) ++ d ++ (0#2) ++ a ++ (0#2) ++ b ++ (0#8))
  | .mor st d a b => some ((41#6) ++ st ++ (0#2) ++ d ++ (0#2) ++ a ++ (0#2) ++ b ++ (1#8))
  | .mxor st d a b => some ((41#6) ++ st ++ (0#2) ++ d ++ (0#2) ++ a ++ (0#2) ++ b ++ (2#8))
  | .mandn st d a b => some ((41#6) ++ st ++ (0#2) ++ d ++ (0#2) ++ a ++ (0#2) ++ b ++ (3#8))
  | .mnot st d a => some ((41#6) ++ st ++ (0#2) ++ d ++ (0#2) ++ a ++ (4#13))
  | .mpopc st d a k => some ((41#6) ++ st ++ d ++ (0#2) ++ a ++ (0#5) ++ k ++ (5#5))
  | .mfirst st d a k => some ((41#6) ++ st ++ d ++ (0#2) ++ a ++ (0#5) ++ k ++ (6#5))
  | .mset st d a => some ((41#6) ++ st ++ (0#2) ++ d ++ a ++ (7#13))
  | .vcvt st d a k t f => some ((42#6) ++ st ++ d ++ a ++ (0#5) ++ k ++ t ++ f)
  | .vredsum st d a b k => some ((43#6) ++ st ++ d ++ a ++ b ++ k ++ (0#5))
  | .vredsumo st d a b k => some ((43#6) ++ st ++ d ++ a ++ b ++ k ++ (1#5))
  | .vredmax st d a b k => some ((43#6) ++ st ++ d ++ a ++ b ++ k ++ (2#5))
  | .vredmin st d a b k => some ((43#6) ++ st ++ d ++ a ++ b ++ k ++ (3#5))
  | .vredand st d a b k => some ((43#6) ++ st ++ d ++ a ++ b ++ k ++ (4#5))
  | .vredor st d a b k => some ((43#6) ++ st ++ d ++ a ++ b ++ k ++ (5#5))
  | .vperm st d a b k => some ((44#6) ++ st ++ d ++ a ++ b ++ k ++ (0#5))
  | .vslup st d a b k => some ((44#6) ++ st ++ d ++ a ++ b ++ k ++ (1#5))
  | .vsldn st d a b k => some ((44#6) ++ st ++ d ++ a ++ b ++ k ++ (2#5))
  | .vmerge st d a b k => some ((44#6) ++ st ++ d ++ a ++ b ++ k ++ (3#5))
  | .vcompress st d a k => some ((44#6) ++ st ++ d ++ a ++ (0#5) ++ k ++ (4#5))
  | .vexpand st d a k => some ((44#6) ++ st ++ d ++ a ++ (0#5) ++ k ++ (5#5))
  | .viota st d k => some ((44#6) ++ st ++ d ++ (0#10) ++ k ++ (6#5))
  | .vbcast st d a k => some ((44#6) ++ st ++ d ++ a ++ (0#5) ++ k ++ (7#5))
  | .vextract st d a b => some ((44#6) ++ st ++ d ++ a ++ b ++ (8#8))
  | .vxch st d a k => some ((45#6) ++ st ++ d ++ a ++ (0#5) ++ k ++ (0#5))
  | .vxchRot st d a k => some ((45#6) ++ st ++ d ++ a ++ (0#5) ++ k ++ (1#5))
  | .vld st d a k => some ((46#6) ++ st ++ d ++ a ++ (0#5) ++ k ++ (0#5))
  | .vlds st d a b k => some ((46#6) ++ st ++ d ++ a ++ b ++ k ++ (1#5))
  | .vldx st d a b k x => some ((46#6) ++ st ++ d ++ a ++ b ++ k ++ (0#2) ++ x ++ (2#2))
  | .vldxa st d a b k c => some ((46#6) ++ st ++ d ++ a ++ b ++ k ++ c ++ (3#2))
  | .vst st d a k => some ((47#6) ++ st ++ d ++ a ++ (0#5) ++ k ++ (0#5))
  | .vsts st d a b k => some ((47#6) ++ st ++ d ++ a ++ b ++ k ++ (1#5))
  | .vstx st d a b k x => some ((47#6) ++ st ++ d ++ a ++ b ++ k ++ (0#2) ++ x ++ (2#2))
  | .vstxa st d a b k c => some ((47#6) ++ st ++ d ++ a ++ b ++ k ++ c ++ (3#2))
  | .vappend st v a x k c => some ((48#6) ++ st ++ v ++ a ++ x ++ k ++ (0#2) ++ c)
  | .vq4dq st d a b k => some ((49#6) ++ st ++ d ++ a ++ b ++ k ++ (0#5))
  | .vq4q st d a b k => some ((49#6) ++ st ++ d ++ a ++ b ++ k ++ (1#5))
  | .cfgload st a b => some ((50#6) ++ st ++ a ++ b ++ (0#13))
  | .cfgsel st a p e => some ((50#6) ++ st ++ a ++ (0#10) ++ p ++ e ++ (1#5))
  | .cfgck st a b => some ((50#6) ++ st ++ a ++ b ++ (2#13))
  | .gresume st a => some ((50#6) ++ st ++ a ++ (3#18))
  | .gdrain st a => some ((50#6) ++ st ++ a ++ (4#18))
  | .gquery st a b e => some ((50#6) ++ st ++ a ++ b ++ (0#7) ++ e ++ (5#4))
  | .strm st a b c q l p => some ((51#6) ++ st ++ a ++ b ++ c ++ q ++ l ++ (0#1) ++ p ++ (0#4))
  | .start st a b k => some ((52#6) ++ st ++ a ++ b ++ (0#6) ++ k ++ (0#4))
  | .ctok st a b => some ((52#6) ++ st ++ a ++ b ++ (1#13))
  | .sbarCfg st => some ((52#6) ++ st ++ (2#23))
  | .sbarStrm st => some ((52#6) ++ st ++ (18#23))
  | .sbarMem st c => some ((52#6) ++ st ++ (0#10) ++ c ++ (34#10))
  | .sbarCond st n k => some ((52#6) ++ st ++ n ++ (0#5) ++ k ++ (50#10))
  | .swait st b c k => some ((52#6) ++ st ++ (0#5) ++ b ++ c ++ (0#3) ++ k ++ (3#4))
  | .tokq st a b c l => some ((53#6) ++ st ++ a ++ b ++ c ++ (0#1) ++ l ++ (0#8))
  | .qarm st a b => some ((53#6) ++ st ++ a ++ b ++ (1#13))
  | .qdisarm st a b => some ((53#6) ++ st ++ a ++ b ++ (2#13))
  | .copy st a c q l n => some ((54#6) ++ st ++ a ++ (0#5) ++ c ++ q ++ l ++ n ++ (0#4))
  | .drain st b c n => some ((55#6) ++ st ++ (0#5) ++ b ++ c ++ (0#2) ++ n ++ (0#4))
  | .rld st a b c q z => some ((56#6) ++ st ++ a ++ b ++ c ++ q ++ (0#2) ++ z ++ (0#4))
  | .rst st a b c l e h z => some ((56#6) ++ st ++ a ++ b ++ c ++ (0#1) ++ l ++ e ++ h ++ z ++ (1#4))
  | .ramoInv st a b c q l => some ((56#6) ++ st ++ a ++ b ++ c ++ q ++ l ++ (2#8))
  | .ramoBegin st a b c q l => some ((56#6) ++ st ++ a ++ b ++ c ++ q ++ l ++ (18#8))
  | .ramoBody st a b c q l => some ((56#6) ++ st ++ a ++ b ++ c ++ q ++ l ++ (34#8))
  | .ramoValid st a b c q l => some ((56#6) ++ st ++ a ++ b ++ c ++ q ++ l ++ (50#8))
  | .ramoClear st a b c q l => some ((56#6) ++ st ++ a ++ b ++ c ++ q ++ l ++ (66#8))
  | .rfadd st a b c q l => some ((56#6) ++ st ++ a ++ b ++ c ++ q ++ l ++ (3#8))
  | .tokwait st a b => some ((57#6) ++ st ++ a ++ b ++ (0#13))
  | .tlbinv st a b c g => some ((58#6) ++ st ++ a ++ b ++ c ++ (0#5) ++ g ++ (0#4))
  | .tlbsync st => some ((58#6) ++ st ++ (1#23))
  | .tailpWrite _ _ _ => none
  | .qstatWrite _ _ _ => none
  | .pcmkWrite _ _ _ => none
  | .pasidWrite _ _ => none
  | .registerWrite _ _ => none
  | .asidRootEntryWrite _ _ _ => none
  | .imapWrite _ _ => none
  | .rchkWrite _ => none
  | .rgoWrite _ => none
  | .vregImageWrite _ _ _ _ => none
  | .lintelHostAccess _ _ _ _ => none
  | .attestationRequest _ => none
  | .pcapUpdate _ _ => none
  | .append _ _ => none
  | .jobActivate _ _ => none
  | .iterationDispatch _ _ => none
  | .steal _ _ => none
  | .agingTimerExpiry _ _ => none
  | .earlyTrigger _ => none
  | .jobRetire _ => none
  | .progcAdvance _ _ => none
  | .partitionSwitchOut _ => none
  | .partitionSwitchIn _ => none
  | .templateFire _ => none
  | .templateGraphComplete _ => none
  | .tokenArrival _ _ => none
  | .tokenFiringComplete _ => none
  | .engineMessageAccept _ _ => none
  | .reply _ => none
  | .copyAccept _ => none
  | .copyPiece _ => none
  | .copyComplete _ => none
  | .streamAccept _ _ => none
  | .streamBeatIn _ _ => none
  | .streamTokenOut _ _ => none
  | .tokenHop _ _ _ => none
  | .brickFiring _ _ => none
  | .controlTokenArrival _ _ => none
  | .controlTokenDeliver _ => none
  | .nodeEnd _ _ => none
  | .tileAccess _ _ => none
  | .tileRmwFiring _ _ => none
  | .spillOut _ _ _ => none
  | .spillReturn _ _ _ => none
  | .positionWake _ _ => none
  | .backstopStall _ => none
  | .cfgloadComplete _ _ => none
  | .cfgselTakeEffect _ _ => none
  | .runBegin _ _ => none
  | .barrierComplete _ => none
  | .powerGrant _ => none
  | .grantOfferLower _ => none
  | .engineFrame _ => none
  | .passEnd _ => none
  | .weightRowLoad _ _ => none
  | .weightFault _ => none
  | .weightStepSwap _ => none
  | .refreshRowGroup _ _ => none
  | .stackHeartbeat _ => none
  | .refreshTakeover _ => none
  | .cxlEnumeration _ _ => none
  | .invalidationReceive _ _ => none
  | .parkedAccessResolve _ _ _ => none
  | .trapEntry _ => none
  | .preemptionRequest _ _ => none
  | .forcedSwitchTimeout _ => none
  | .scapTimeout _ => none
  | .fullSwitch _ => none
  | .contextRestore _ => none
  | .sliceDetach _ _ => none
  | .dieReset _ => none
  | .quiesceAck _ _ => none
  | .dieReturn _ => none
  | .courseGate _ _ => none
  | .packageStandby => none
  | .packageParked => none
  | .wake _ => none
  | .powerOnBoot => none
  | .linkKeyExchange _ _ _ => none
  | .rekeyCounterLimit _ _ => none
  | .flitReceive _ _ => none
  | .flitReplay _ _ => none
  | .linkRetrain _ => none
  | .portDown _ => none
  | .remoteOpAtTarget _ => none
  | .translationRequest _ => none
  | .targetInvalidation _ => none
  | .switchCombine _ _ _ => none
  | .combinedReplySplit _ _ => none
  | .handlerInvocation _ => none
  | .handlerHoldExpiry _ => none
  | .dependentStoreArrival _ => none
  | .landedRecord _ => none
  | .watchArrival _ => none
  | .watchAnswer _ => none
  | .watchResend _ => none
  | .watchEntryDrop _ => none
  | .heldStoreExpiry _ => none
  | .remoteStoreCompletion _ => none
  | .gatewayMeterWindow _ => none
  | .stackManagerReset _ => none
  | .managementPortRetrain _ => none
  | .positionClockGate _ _ => none
  | .wfeLimitExpiry _ => none
  | .tokwaitWatchTimeout _ => none
  | .targetPackageReset _ => none
  | .landedEntryAging _ => none

/-- A word of four bytes, least significant byte at the lowest address (R5, R108). -/
def wordOfBytes (b0 b1 b2 b3 : Byte) : W32 := b3 ++ b2 ++ b1 ++ b0

/-- Decoding bytes: the instruction and the bytes after it; none for an illegal word or fewer than four bytes. -/
def decodeBytes : List Byte → Option (Instr × List Byte)
  | b0 :: b1 :: b2 :: b3 :: rest =>
    match decode (wordOfBytes b0 b1 b2 b3) with
    | some i => some (i, rest)
    | none => none
  | _ => none

/-- The four bytes of a word in memory order. -/
def bytesOfWord (w : W32) : List Byte := [fld w 0 8, fld w 8 8, fld w 16 8, fld w 24 8]

/-- The instruction the decoder reads from a table word (bit 0 least significant; bits above nbits are zero). Every
instruction is one 32-bit word; a row of no bits has no word. -/
def decodeTableWord (nbits w : Nat) : Option Instr :=
  if nbits = 0 ∨ 32 < nbits then none
  else match decodeBytes (bytesOfWord (BitVec.ofNat 32 (w % 2 ^ nbits))) with
    | some (i, _) => some i
    | none => none

end Sys2Proof
end

