-- ==== Sys2Proof/Config.lean ====
section
/-! DEFINITION. What an implementation fixes and what the spec leaves open: constants without a body, so that nothing in
Lean can evaluate them or prove a value of them. -/

namespace Sys2Proof

/-- One move of the machine: which agent does its next thing, and how many C-cycles have passed since the move before it
(R2, R137). -/
inductive Action where
  /-- Thread slot `slot` (course × 4 + slot) has its turn of its course's issue stage (R137). -/
  | issue (slot dt : Nat)
  /-- A step of another agent: one of the opcode table's rows without bits. -/
  | event (e : Instr) (dt : Nat)
  /-- A holder keeps the leaf translation of a page it walked (R309). -/
  | tlbFill (holder asid va dt : Nat)
  /-- A holder drops a cached translation of its own accord (R309). -/
  | tlbEvict (holder idx dt : Nat)
  /-- A holder keeps the pointer entry at a level of a walk (R309). -/
  | ptrFill (holder asid va lvl dt : Nat)
  /-- A holder drops a pointer entry of its own accord (R309). -/
  | ptrEvict (holder idx dt : Nat)
  /-- A course's instruction cache keeps the code word at a virtual address of an address space (R114). -/
  | codeFill (course asid va dt : Nat)
  /-- A course's instruction cache drops a word of its own accord (R114). -/
  | codeDrop (course idx dt : Nat)
  /-- An access to an HBM location activates its row (R296, R299). -/
  | rowActivate (loc dt : Nat)
  /-- Thread slot `slot` has its turn, and a vector instruction of it issues and stands in the vector unit until its next turn
  (R102, R137, R169). -/
  | begin (slot dt : Nat)
  /-- The queue manager writes a thread's SCAP (R103, R405). -/
  | setScap (slot cap dt : Nat)
  /-- A memory location meets an uncorrectable error at its next access (R302). -/
  | memError (loc dt : Nat)
  /-- A soft error is corrected at a location of HBM or of an SRAM, or, with none, in a link (R302, R395). -/
  | softError (loc : Option Nat) (dt : Nat)
  /-- Thread slot `slot` has its turn, and its instruction's access to an address parks on a miss (R317). -/
  | park (slot va dt : Nat)
  /-- An access of a copy's next piece parks on a miss (R317). -/
  | parkPiece (copy va dt : Nat)
  deriving DecidableEq, Repr, Inhabited

namespace Config

/-- Which move comes next, where State.agenda names none: the spec orders the agents only by the conditions of their own
steps, so the order between them is free (log 1). -/
opaque schedule : Nat → Action

/-- A free 64-bit value, drawn by State.freeCnt: what a Lintel read of a hole or a dropped window load answers (log 8), the
form of a context record that is private to the device (R407, log 9), and every other value the spec leaves open. -/
opaque freeWord : Nat → W64

/-! Published algorithms that the spec names without stating them (R12, R367, R369, R425, R427; log 10). -/

/-- SHA-256. -/
opaque sha256 : List Byte → BitVec 256
/-- ECDSA over P-256: whether a signature over a hash verifies under a public key. -/
opaque ecdsaVerify : BitVec 512 → BitVec 256 → BitVec 512 → Bool
/-- The signature of the device's fused identity key over a hash. -/
opaque identitySign : BitVec 256 → BitVec 512
/-- The device's public identity key. -/
opaque identityKey : BitVec 512
/-- The hash of the firmware signing key fused into the security processor (R425). -/
opaque fusedKeyHash : BitVec 256
/-- The image in the firmware store when the device was made (R425). -/
opaque factoryImage : List Byte
/-- The device's ephemeral public key for its nth exchange on a port (R369). -/
opaque ephemeralKey : Nat → Nat → BitVec 512
/-- The ECDH secret that the device's nth key on a port shares with a peer's public key (R369). -/
opaque ecdhSecret : Nat → Nat → BitVec 512 → BitVec 256
/-- HKDF-SHA-256: 72 bytes from a salt and a secret (R369). -/
opaque hkdf72 : List Byte → BitVec 256 → BitVec 576
/-- AES-256-GCM: the ciphertext and the tag of a payload, under a key, a nonce and the header that is authenticated with it
(R367). -/
opaque gcmSeal : BitVec 256 → BitVec 96 → BitVec 128 → BitVec 768 → BitVec 768 × BitVec 128
/-- AES-256-GCM: the payload of a ciphertext under its header and tag, or nothing where the tag fails (R367). -/
opaque gcmOpen : BitVec 256 → BitVec 96 → BitVec 128 → BitVec 768 → BitVec 128 → Option (BitVec 768)
/-- The package number assigned when the links are brought up (R366). -/
opaque packageNumber : Nat
/-- The public identity keys of other packages that a link accepts (R369). -/
opaque peerIdentity : Nat → BitVec 512

end Config

end Sys2Proof
end

