-- ==== Sys2Proof/Machine/Maps.lean ====
section
/-! DEFINITION. Sparse maps as plain data: a list of (key, value) pairs with keys strictly rising. A key that is not
listed holds the default its reader names. -/

namespace Sys2Proof.Machine

/-- A sparse map from natural numbers: pairs in rising key order. -/
abbrev Map (α : Type) := List (Nat × α)

/-- The value at `k`, or `d` where `k` is not listed. -/
def Map.getD {α : Type} (d : α) : Map α → Nat → α
  | [], _ => d
  | (k', v) :: r, k => if k = k' then v else Map.getD d r k

/-- The value at `k`, if listed. -/
def Map.get? {α : Type} : Map α → Nat → Option α
  | [], _ => none
  | (k', v) :: r, k => if k = k' then some v else Map.get? r k

/-- The map with `v` at `k`. -/
def Map.set {α : Type} : Map α → Nat → α → Map α
  | [], k, v => [(k, v)]
  | (k', v') :: r, k, v =>
    if k = k' then (k, v) :: r
    else if k < k' then (k, v) :: (k', v') :: r
    else (k', v') :: Map.set r k v

/-- The map without `k`. -/
def Map.erase {α : Type} : Map α → Nat → Map α
  | [], _ => []
  | (k', v') :: r, k => if k = k' then r else (k', v') :: Map.erase r k

/-- The map with the value at `k` (or the default `d`) changed by `f`. -/
def Map.modify {α : Type} (d : α) (m : Map α) (k : Nat) (f : α → α) : Map α := m.set k (f (m.getD d k))

/-- The listed keys. -/
def Map.keys {α : Type} (m : Map α) : List Nat := m.map (·.1)

/-- The listed values. -/
def Map.vals {α : Type} (m : Map α) : List α := m.map (·.2)

/-- The map with every key that `p` admits dropped. -/
def Map.dropKeys {α : Type} (m : Map α) (p : Nat → Bool) : Map α := m.filter fun kv => !p kv.1

end Sys2Proof.Machine
end

