-- ==== Sys2Proof/Machine/State.lean ====
section
/-! DEFINITION. The state of the package as plain data: everything the spec gives the machine (INVENTORY.md, ## State),
the state right after reset, and the reasons a step could stop. -/

namespace Sys2Proof.Machine

/-- The reasons a step could stop with a fault. The spec gives every failure of this machine an effect (a trap, a reply
status, a retirement status), so no meaning raises one: the type is what the host's interface asks for. -/
inductive Fault where
  /-- Raised by nothing: the model has no behaviour that stops the machine. Safe. -/
  | stuck
  deriving DecidableEq, Repr

/-- The reasons a step could be refused. -/
inductive Refusal where
  /-- An instruction the model gives no meaning yet. Safe: nothing can be proved of a run that meets it. -/
  | notModelled (mnemonic : String)
  deriving DecidableEq, Repr

/-! ### The grid -/

/-- A token of the data network (R191). -/
structure Tok where
  lanes : BitVec 512 := 0#512
  vm : BitVec 16 := 0#16
  tag : Byte := 0#8
  eos : Bool := false
  deriving DecidableEq, Repr

/-- The states of a configuration plane (R224); a LOADED plane that is selected is ACTIVE. -/
inductive PlaneSt where
  | empty | loading | loaded
  deriving DecidableEq, Repr

/-- A plane of a position: its node's words (16 of a brick, 8 of a tile) and its switch's two. -/
structure Plane where
  st : PlaneSt := .empty
  node : List W64 := []
  sw : List W64 := []
  deriving DecidableEq, Repr

/-- Results of a brick on their way: the C-cycle at which they leave stage 5, and the tokens for O0 and O1 (R202). -/
structure PipeEnt where
  ready : Nat
  o0 : Option Tok
  o1 : Option Tok
  deriving DecidableEq, Repr

/-- A position of a course grid with its switch and node (R190, R197, R202 to R221, R224). -/
structure Pos where
  planes : Map Plane := []
  /-- The ACTIVE plane. -/
  active : Option Nat := none
  /-- The slot of another course that holds the position (R235). -/
  holder : Option Nat := none
  /-- The run the position takes part in. -/
  run : Option Nat := none
  /-- Clocks stopped (R228). -/
  gated : Bool := false
  /-- Input FIFOs N, E, S, W, X. -/
  fifo : Map (List Tok) := []
  /-- Ingress buffers of a gated position, by input (R228). -/
  ingress : Map (List Tok) := []
  /-- Consumers that have taken the head of a source: sources by their codes 1 to 7 (R198, R201). -/
  marks : Map (List Nat) := []
  /-- The source code a merge pair served last, by its output and pair (R199). -/
  served : Map Nat := []
  /-- The sources of a merge pair that have delivered their EOS marker (R199). -/
  mergeEos : Map (List Nat) := []
  /-- Control tokens: channels 0 to 3 from N, E, S, W, 4 the node's control output, 5 the Factor Engine's (R192, R201). -/
  ctl : Map Nat := []
  ctlIngress : Map Nat := []
  ctlMarks : Map (List Nat) := []
  ended : Bool := false
  /-- Initial tokens of a brick that have not reached O0 yet (R213). -/
  iniDue : Nat := 0
  /-- When a token or firing last moved here (R225, R232). -/
  lastMove : Nat := 0
  /-- Output registers O0 and O1. -/
  outs : Map (List Tok) := []
  mode : Nat := 0
  ordinal : Nat := 0
  /-- The predicate P, a bit per lane. -/
  p : BitVec 16 := 0#16
  /-- The local registers L0 to L3. -/
  l : Map (BitVec 512) := []
  /-- Compaction buffers: a partial token per output (R210). -/
  comp : Map Tok := []
  /-- Tokens emitted on each output since start (R209). -/
  emitted : Map Nat := []
  /-- Tokens consumed on TCPORT since start (R216). -/
  tcn : Nat := 0
  pipe : List PipeEnt := []
  /-- A tile's generators: tokens since start (R219). -/
  gen : Map Nat := []
  /-- A tile's queue (R220). -/
  queue : List Tok := []
  /-- A tile has taken the EOS marker of its input. -/
  inEos : Bool := false
  /-- A SCRATCH tile served a write last (R220). -/
  wroteLast : Bool := false
  deriving DecidableEq, Repr

/-- A spill ring: its records from the head, each with its place in the main-memory tier where it stands there, and the records
that tier has taken so far (R222, R223). -/
structure Spill where
  recs : List (Tok × Option Nat) := []
  far : Nat := 0
  deriving DecidableEq, Repr

/-- A weight buffer: rows loaded, the next row to load, the weight step it holds, a fault met: cause and address (R271). -/
structure WBuf where
  rows : Map (BitVec 4096) := []
  next : Nat := 0
  step : Nat := 0
  loading : Bool := false
  fault : Option (Nat × Nat) := none
  deriving DecidableEq, Repr

/-- A course's Factor Engine (R259 to R286). -/
structure Fe where
  planes : Map Plane := []
  active : Option Nat := none
  /-- The class granted to the active plane. -/
  gcls : Nat := 0
  run : Option Nat := none
  pass : Nat := 0
  /-- Frames of the current pass completed. -/
  frames : Nat := 0
  /-- Passes begun in this cycle when every pass reads accumulator memory; the cycle runs once (R268). -/
  passesDone : Nat := 0
  fdone : Nat := 0
  maxa : Nat := 0
  maxb : Nat := 0
  rowp : Nat := 0
  wsn : Nat := 0
  /-- Frames served by the current weight step. -/
  stepFrames : Nat := 0
  fva : Nat := 0
  bufs : Map WBuf := []
  /-- Tokens waiting at ports A and B, and on their way out of port C. -/
  inA : List Tok := []
  inB : List Tok := []
  outC : List Tok := []
  /-- Control tokens of PCTO that wait for tokens of `outC` to leave first: for how many, in order (R268). -/
  ctlAfter : List Nat := []
  /-- Control tokens waiting at the control input. -/
  ctlIn : Nat := 0
  eosA : Bool := false
  eosB : Bool := false
  /-- Entries gathered for the frame in progress: index and activation (R276). -/
  gathered : List (Nat × Nat) := []
  /-- The tag of the row-gather frame in progress. -/
  frameTag : Option Byte := none
  /-- The range check of its next frame has frozen its region; and that check has been answered by gresume (R280). -/
  overRange : Bool := false
  checked : Bool := false
  /-- When a token last entered or left it (R225). -/
  lastMove : Nat := 0
  ended : Bool := false
  deriving DecidableEq, Repr

/-- The number of no thread slot. -/
def noSlot : Nat := 1024

/-- A stream at a port (R246 to R254). -/
structure Stream where
  id : Nat
  /-- The issuing slot, or `noSlot` once its iteration has ended (R415). -/
  slot : Nat
  job : Nat
  ord : Nat := 0
  asid : Nat
  sup : Bool
  /-- The stream specification, its OFF adjusted (R249), and its own address. -/
  words : List W64
  spec : Nat
  /-- OFF of the instruction, as it was added to the specification's (R249). -/
  off : W64 := 0#64
  /-- The specification was malformed, and is to be read again (R410). -/
  reread : Bool := false
  scope : Nat
  acq : Bool
  rel : Bool
  /-- The tensor descriptor's words, once read. -/
  desc : List W64 := []
  /-- The cfgsel commands the stream's beats wait for, and whether a start must follow one (R236). -/
  gates : List Nat := []
  needStart : Bool := false
  /-- Traversals completed, the next element (byte under RAW) of the current one, tokens emitted. -/
  trav : Nat := 0
  idx : Nat := 0
  toks : Nat := 0
  /-- Elements (bytes under RAW) transferred. -/
  moved : Nat := 0
  ovf : Bool := false
  /-- Stopped by a fault. -/
  stopped : Bool := false
  /-- Its descriptor or specification has been read and found malformed, at this address (R30, R34). -/
  malformed : Option Nat := none
  deriving DecidableEq, Repr

/-- A stream port of a course (R90, R242, R254). -/
structure Port where
  inbox : List Stream := []
  cur : Option Stream := none
  /-- The start token of the current run has reached the port. -/
  started : Bool := false
  /-- A stream has been issued to the port in the current run. -/
  part : Bool := false
  ended : Bool := false
  /-- The run whose start token it received last. -/
  run : Option Nat := none
  /-- A `cfgsel` of its position that changed nothing has taken effect since: a stream issued now waits for a start (R236, R240). -/
  resel : Bool := false
  /-- Tokens that the gateway at the entrance of its port die holds (R93, R200). -/
  gate : List Tok := []
  /-- The last stream the port took is an output stream. -/
  out : Bool := false
  /-- Units of the token at an output port that streams have taken already (R248, R250). -/
  taken : Nat := 0
  /-- The status word of the last stream (R254). -/
  last : W64 := 0#64
  deriving DecidableEq, Repr

/-- A run of a region, from its start's issue on (R241, R242). -/
structure Run where
  slot : Nat
  /-- The regions: course and position mask. -/
  masks : List (Nat × Nat)
  bar : Nat
  spec : W64
  /-- The engine of each course takes part where its position (3, 7) does (R259). -/
  feng : Bool
  begun : Bool := false
  flags : BitVec 7 := 0#7
  frozen : Bool := false
  fcause : Nat := 0
  lastMove : Nat := 0
  /-- Since when it waits for a power grant or a wake; such cycles are not quiet ones (R232). -/
  waitSince : Option Nat := none
  win : Nat := 4096
  asid : Nat := 0
  sup : Bool := false
  done : Bool := false
  drn : Bool := false
  res : Bool := false
  deriving DecidableEq, Repr

/-- What a command of a thread's command stream does (R236), or an `sbar` among them (R251). -/
inductive CmdKind where
  | load (image : Nat)
  | sel (plane : Nat) (drain : Bool)
  | strm (port : Nat)
  | start (run : Nat)
  | ctok (target left : Nat)
  /-- `sbar` of kind CFG, STRM or MEM. -/
  | sbar (kind : Nat)
  /-- `sbar.cond`: the runs it may wait for, newest first, and the commands it still covers. -/
  | cond (runs : List Nat) (left : Nat)
  deriving DecidableEq, Repr

/-- An entry of a command stream. -/
structure Cmd where
  id : Nat
  kind : CmdKind
  masks : List (Nat × Nat) := []
  feng : Bool := false
  begun : Bool := false
  /-- The `sbar.cond` entries that decide it. -/
  conds : List Nat := []
  /-- The planes an accepted `cfgload` is writing: position key (or 2^16 + course for an engine) and plane. -/
  loads : List (Nat × Nat) := []
  deriving DecidableEq, Repr

/-- A power-class request of a thread (R107). -/
structure Grant where
  slot : Nat
  course : Nat
  plane : Nat
  /-- The class offered now. -/
  cls : Nat
  since : Nat
  granted : Bool := false
  /-- A command that has issued asks, its grant given up by a switch (R107). -/
  queued : Bool := false
  deriving DecidableEq, Repr

/-- The idle states of a course (R422). -/
inductive CoursePower where
  | active | gated | dark
  deriving DecidableEq, Repr

/-! ### Threads -/

/-- What a thread slot is taken by (R96, R405, R406). -/
inductive SlotUse where
  | free
  | thread
  /-- A register slice of the thread in slot `lead`, with this slice number (R96, R99). -/
  | slice (lead num : Nat)
  /-- Reserved for a switched-out context (R406), as its lead slot. -/
  | resThread
  /-- Reserved for a switched-out context, as one of its slices. -/
  | resSlice (lead num : Nat)
  deriving DecidableEq, Repr

/-- The declarations of a program header (R25, R26). -/
structure Decl where
  sregs : Nat := 32
  vregs : Nat := 32
  groups : Nat := 0
  scratch : Nat := 0
  spanmax : Nat := 0
  posmask : Nat := 0
  feng : Bool := false
  deriving DecidableEq, Repr

/-- A fixed-latency write on its way (R119, R120). -/
inductive PendWrite where
  | s (n : Nat) (v : W64)
  /-- Bits of vector register `n` in slice number `k`. -/
  | v (k n : Nat) (mask data : BitVec 2048)
  | m (n : Nat) (mask data : BitVec 16384)
  deriving DecidableEq, Repr

/-- A pending write with the C-cycle in which it lands. -/
structure Pend where
  land : Nat
  w : PendWrite
  /-- A vector instruction makes it. -/
  vec : Bool := false
  deriving DecidableEq, Repr

/-- A fault of a frozen region, waiting for its thread (R250, R399). -/
structure RegionFault where
  cause : Nat
  rsts : Nat
  tval : W64
  run : Nat
  deriving DecidableEq, Repr

/-- A waiting `wfe` (R403): when it began, the location it watches, the wake reasons so far. -/
structure Wfe where
  since : Nat
  loc : Option Nat
  reasons : Nat
  deriving DecidableEq, Repr

/-- A pre-emption request (R404): its reason, when it arose, whether IE was 1 at some time since, and when trap 0x18 was
taken for it. -/
structure Preq where
  reason : Nat
  since : Nat
  ieSeen : Bool
  trapAt : Option Nat
  deriving DecidableEq, Repr

/-- A vector memory instruction under way (R322, R326): its operands as read at issue. -/
structure VMem where
  load : Bool
  /-- Element width in bits, grouping and data group. -/
  w : Nat
  g : Nat
  d : Nat
  /-- Element index, effective address and data of the elements not yet performed, in order. -/
  todo : List (Nat × Nat × Nat)
  /-- Elements landed by it. -/
  landed : List Nat := []
  /-- The scope of a scoped access: missed elements are marked in m7 (R324). -/
  scope : Option Nat := none
  /-- Whether it is a `vappend`; then `todo` counts compacted positions, and these are their elements (R326). -/
  append : Bool := false
  elems : List Nat := []
  deriving DecidableEq, Repr

/-- One thread slot (R125 to R128 and the state the other chapters give a thread). -/
structure Slot where
  use : SlotUse := .free
  pc : W64 := 0#64
  /-- The next word is read as a block header (R108). -/
  atHdr : Bool := true
  /-- After a return into a block: its header is read again before the next instruction (R115). -/
  reHdr : Bool := false
  /-- The block header in force (R109). -/
  hdr : W32 := 0#32
  /-- Position of the next instruction in its block (R115). -/
  bpos : Nat := 0
  /-- The cause of the trap whose handler's first header has not been accepted yet (R398). -/
  firstHdr : Option Nat := none
  s : Map W64 := []
  /-- Vector registers, keyed slice number × 32 + register (R125). -/
  v : Map (BitVec 2048) := []
  m : Map (BitVec 16384) := []
  /-- Control registers by number (R126); one that is not listed holds its value at iteration start. -/
  csr : Map W64 := []
  scap : Nat := 32
  pcap : Nat := 32
  /-- Slice numbers attached now, as a mask (SLSTR.ATT). -/
  att : Nat := 0
  /-- Slice numbers detached since the iteration began (SLSTR.LOST). -/
  lost : Nat := 0
  /-- Slice numbers detached since the last trap 0x17 (R102). -/
  lostNew : Nat := 0
  /-- Slice numbers attached at the last setlen, in rank order (R100). -/
  ranks : List Nat := [0]
  /-- The span width the iteration was dispatched with (R99). -/
  spanw : Nat := 1
  /-- Slice numbers lent to other contexts (R405). -/
  lent : List Nat := []
  /-- The lead slot and slice number this slot was lent from (R405). -/
  lentFrom : Option (Nat × Nat) := none
  /-- The slice this slot was lent from stands in it again while its own context is switched out (R405, R408). -/
  back : Bool := false
  hold : Bool := false
  vfrozen : Bool := false
  /-- Whether the vector unit was frozen at each trap entry that has not been returned from, newest first (R400, R403). -/
  frozenAt : List Bool := []
  /-- The word of the instruction under way: it has issued and is not complete (R137). -/
  doing : Option W32 := none
  /-- A vector instruction is in the vector unit, issued at this C-cycle (R102, R169). -/
  vrun : Option Nat := none
  claimed : Bool := false
  triggered : Bool := false
  /-- The earliest C-cycle of the next issue (R118, R139). -/
  earliest : Nat := 0
  /-- Fixed-latency writes outstanding, in issue order (R119). -/
  pend : List Pend := []
  wfe : Option Wfe := none
  /-- The next issue finishes a remote instruction whose trap 0x15 has been taken (R396). -/
  resumeNext : Bool := false
  /-- A synchronous trap 0x15 has been taken and TPC not written since: eret resumes after the instruction (R396). -/
  after15 : Bool := false
  /-- Asynchronous 0x15 causes pending: reply status and address (R412). -/
  async15 : List (Nat × W64) := []
  /-- Faults of frozen regions pending, earliest first (R399). -/
  faults : List RegionFault := []
  preq : Option Preq := none
  /-- A full switch is to be performed at the handler's eret (R403, R404). -/
  switchPending : Bool := false
  /-- A full switch is to be forced at the next boundary outside an atomic block (R404). -/
  forced : Bool := false
  /-- When SCAP was last lowered with no setlen since (R105). -/
  scapAt : Option Nat := none
  /-- CAP and SCAP of a grant made inside an atomic block, whose reclaiming waits for the block's end (R112). -/
  reclaimDue : Option (Nat × Nat) := none
  /-- SCAP at the last grant: lane quarters at or above it hold nothing of the thread (R168, R405). -/
  given : Nat := 32
  /-- The context is saved in its context record (R406). -/
  switched : Bool := false
  job : Nat := 0
  ordinal : Nat := 0
  decl : Decl := {}
  /-- Private scratch bytes; unlisted ones read zero (R27). -/
  scratch : Map Byte := []
  /-- Invalidations outstanding for tlbsync, and the widest scope among those issued (R315). -/
  invs : List Nat := []
  invScope : Nat := 0
  /-- The command stream, oldest first (R236). -/
  cmds : List Cmd := []
  /-- The runs started with each completion barrier, newest first (R241, R244). -/
  bars : Map (List Nat) := []
  /-- The grants the thread holds (R107): course, plane, class. -/
  held : List (Nat × Nat × Nat) := []
  vm : Option VMem := none
  /-- The barriers it has arrived at and not passed: partition × 256 + group slot, and the episode it arrived in (R363). -/
  gbar : Map Nat := []
  /-- The remote operation it waits inside (R375, R378, R379). -/
  rop : Option Nat := none
  /-- Registers that launches staged at switched-out queues will write (R161): the register, the queue as partition × 256 +
  queue, and the position where the context was switched out when it became known. -/
  owed : List (Nat × Nat × Option W64) := []
  /-- The watch a `tokwait` has sent (R393). -/
  watch : Option Nat := none
  /-- When it issued last, and when a `yield` it made took effect (R403). -/
  issuedAt : Option Nat := none
  yieldAt : Option Nat := none
  deriving DecidableEq, Repr

/-! ### Memory and translation -/

/-- A cached entry of a page table, a leaf or a pointer (R309): the first virtual address it covers, its size, its entry and level. -/
structure TlbEnt where
  asid : Nat
  va : Nat
  size : Nat
  pte : W64
  lvl : Nat
  deriving DecidableEq, Repr

/-- A word in a course's instruction cache (R114): the ASID it was fetched for, its physical address, the word as it was. -/
structure CodeWord where
  asid : Nat
  pa : Nat
  word : W32
  deriving DecidableEq, Repr

/-- An invalidation outstanding (R312 to R315): who asked, the ASIDs and addresses withdrawn, the holders that have not
acknowledged. -/
structure Inval where
  slot : Nat
  asidLo : Nat
  asidN : Nat
  lo : Nat
  hi : Nat
  scope : Nat
  waiting : List Nat
  /-- An invalidation of another package: its number and transaction tag (R386). -/
  src : Option (Nat × Nat) := none
  /-- The bond port it arrived on (R365). -/
  plane : Nat := 0
  /-- Remote holders have been told. -/
  told : Bool := false
  deriving DecidableEq, Repr

/-- A row group's refresh state (R299): the C-cycle its window began, its activation bitmap, and whether its last refresh was
skipped. -/
structure RowGroup where
  since : Nat := 0
  bits : BitVec 16 := 0#16
  skipped : Bool := false
  deriving DecidableEq, Repr

/-- A stack manager as its port die sees it (R300): the last heartbeat, the row groups' windows it carried where they differ from
those after reset, and when the port die took over. -/
structure StackMgr where
  lastBeat : Nat := 0
  missed : Nat := 0
  carried : Map Nat := []
  tookAt : Option Nat := none
  deriving DecidableEq, Repr

/-- An access that has missed in its holder's TLB and waits for its walk (R317): the thread or the copy it belongs to. -/
structure Parked where
  slot : Option Nat := none
  copy : Option Nat := none
  holder : Nat
  asid : Nat
  va : Nat
  deriving DecidableEq, Repr

/-! ### Courses -/

/-- A course's issue stage (R137). -/
structure Course where
  lastIssue : Option Nat := none
  /-- The C-cycle at which the vector unit is free again (R170). -/
  vbusy : Nat := 0
  power : CoursePower := .active
  /-- Since when it has been idle; none while it is not. -/
  idleSince : Option Nat := some 0
  deriving DecidableEq, Repr

/-! ### Partitions -/

/-- A token queue (R80 to R83): pending tokens, tokens its senders hold toward it, its arming and its failure record. -/
structure TokQ where
  toks : List W32 := []
  /-- Tokens held, each with the die of its sender (as State.dies numbers them; none for the config die). -/
  held : List (W32 × Option Nat) := []
  tmpl : Nat := 0
  /-- The ASID the template was armed in. -/
  asid : Nat := 0
  armed : Bool := false
  /-- Times it has been disarmed: a firing issued before a disarm is told from one after it (R82). -/
  gen : Nat := 0
  err : Bool := false
  rerr : Bool := false
  epay : Nat := 0
  erst : Nat := 0
  deriving DecidableEq, Repr

/-- The states of a queue (R74); being switched out is a property of its partition. -/
inductive QSt where
  | disabled | off | held | run
  deriving DecidableEq, Repr

/-- A queue as its manager holds it beside its record (R66 to R74, R88). -/
structure Queue where
  st : QSt := .disabled
  badq : Bool := false
  full : Bool := false
  badref : Bool := false
  /-- The staging register of a switched-out queue: the reference and its sender, the launching thread's slot or
  `graphSender` plus the predecessor's ASID; none for a doorbell. -/
  staged : Option (W64 × Option Nat) := none
  /-- TAILP writes held by back-pressure while switched out, in arrival order: the reference, and whether the host link
  brought it (R69, R87). -/
  heldWrites : List (W64 × Bool) := []
  /-- Graph appends that wait for room, oldest first: the reference and the predecessor's ASID. -/
  waiting : List (W64 × Nat) := []
  /-- Placement positions retired at or after PROGC. -/
  retired : List Nat := []
  /-- What the aging timer has counted, and since when it has been running again; none while it stands (R73). -/
  aged : Nat := 0
  ageSince : Option Nat := none
  lifted : Bool := false
  /-- When the oldest advance without its interrupt happened. -/
  irqSince : Option Nat := none
  deriving DecidableEq, Repr

/-- A group slot (R360 to R364): its members and arrivals by thread slot, and the episodes completed. -/
structure Group where
  members : List Nat := []
  arrived : List Nat := []
  episode : Nat := 0
  deriving DecidableEq, Repr

/-- A partition's registers (R65, R91), queues, token queues, groups and dispatch turns. -/
structure Part where
  pcm : Map W64 := []
  pasid : W64 := 0#64
  padmit : W64 := 0#64
  pshare : Map W64 := []
  pctl : W64 := 0#64
  pqtb : W64 := 0#64
  pgerr : W64 := 0#64
  peerr : W64 := 0#64
  pgwerr : W64 := 0#64
  tokqs : Map TokQ := []
  queues : Map Queue := []
  /-- The partition's queues are switched out (R74). -/
  swout : Bool := false
  /-- The queue last served at a level by a die's slice, keyed die × 16 + level (R72). -/
  turns : Map Nat := []
  groups : Map Group := []
  deriving DecidableEq, Repr

/-! ### Jobs and firings -/

/-- What a walker slice is to a job (R97). -/
inductive SliceSt where
  | holding | dry | spent | stranded
  deriving DecidableEq, Repr

/-- A slice's share of a job: the undispatched ordinals [lo, hi) (R95, R97). -/
structure Chunk where
  lo : Nat
  hi : Nat
  st : SliceSt
  deriving DecidableEq, Repr

/-- A job from its activation to its retirement (R14 to R25, R71, R95 to R98, R415 to R420). -/
structure Job where
  p : Nat
  q : Nat
  /-- Its position in placement order; none for a graph append refused before its record was read (R69). -/
  pos : Option Nat
  ref : W64
  asid : Nat
  words : List W64 := []
  hdr : List W64 := []
  total : Nat := 0
  /-- Whether its ordinals have been handed to slices. -/
  handed : Bool := false
  chunks : Map Chunk := []
  dispatched : Nat := 0
  triggered : Nat := 0
  ended : Nat := 0
  /-- The first error to reach the queue manager: ordinal and cause (R420). -/
  err : Option (Nat × Nat) := none
  /-- The status a job retires with that dispatches nothing (R21, R23). -/
  preset : Option W64 := none
  /-- Its early trigger has been reported (R417). -/
  trigDone : Bool := false
  deriving DecidableEq, Repr

/-- A copy from its issue to its reply (R84, R327 to R338). -/
structure Copy where
  /-- The sending thread's slot, its job and channel; none for a template's firing. -/
  slot : Option Nat
  job : Nat := 0
  /-- The ordinal of the iteration that issued it. -/
  ord : Nat := 0
  chan : Nat := 0
  firing : Option Nat := none
  /-- A reply of kind 2: the token queue it is aimed at, and its token (R84, R86). -/
  rtok : Option (Nat × W32) := none
  asid : Nat
  sup : Bool
  scope : Nat := 0
  acq : Bool := false
  rel : Bool := false
  /-- The port die whose engines take it. -/
  pd : Nat
  desc : Nat
  /-- Adjustments of the source base, the destination base and the index list (R327). -/
  sadj : Nat := 0
  dadj : Nat := 0
  xadj : Nat := 0
  /-- The engine whose inbox has taken the message. -/
  eng : Option Nat := none
  /-- The engine has accepted it; its descriptors as read. -/
  accepted : Bool := false
  words : List W64 := []
  src : List W64 := []
  dst : List W64 := []
  /-- The first index not yet performed. -/
  next : Nat := 0
  flags : BitVec 7 := 0#7
  /-- How it ended: status and address. -/
  res : Option (Nat × Nat) := none
  /-- Completed: released, its reply on its way; and its reply delivered. -/
  completed : Bool := false
  replied : Bool := false
  reported : Bool := false
  /-- Its thread has ended (R415). -/
  orphan : Bool := false
  /-- Stopped by a full switch (R338). -/
  parked : Bool := false
  deriving DecidableEq, Repr

/-- What a remote operation does (R372). -/
inductive RKind where
  | load | store | fadd
  /-- A handler function: 0 inv to 4 clear (R383). -/
  | handler (fn : Nat)
  /-- `tokwait`'s message, its remote address the dependency word (R372, R393). -/
  | token
  /-- A translation request of another package (R385). -/
  | xlat
  deriving DecidableEq, Repr

/-- A remote operation, from its issue or its arrival to its reply (R371 to R394). -/
structure Rop where
  kind : RKind
  /-- Remote address, first and second operands, handler entry, size in bytes. -/
  addr : W64
  x : W64 := 0#64
  y : W64 := 0#64
  entry : Nat := 0
  size : Nat
  /-- The size code of a load. -/
  code : Nat := 0
  scope : Nat := 0
  acq : Bool := false
  rel : Bool := false
  asid : Nat
  sup : Bool
  /-- The issuing slot and its job; for an operation of another package its package and transaction tag. -/
  slot : Option Nat
  job : Nat := 0
  ord : Nat := 0
  src : Option (Nat × Nat) := none
  /-- The dependency word it carries, and its token: 0 until one has been allocated for it (R387, R388). -/
  dep : Option W64 := none
  tok : Option Nat := none
  /-- The remote unit has taken the message, or the gateway of the port die it arrived at has let it in (R94); the plane the operation was sent on, and when. -/
  taken : Bool := false
  plane : Option Nat := none
  sentAt : Nat := 0
  /-- The translation it uses: physical address and leaf entry, and the page's address and size (R385, R386). -/
  xl : Option (Nat × Nat) := none
  page : Option (Nat × Nat) := none
  /-- Waits for a translation reply. -/
  asked : Bool := false
  /-- In the hold queue, or held on an UPDATING entry, since (R384, R389). -/
  held : Option Nat := none
  /-- Its dependency is settled. -/
  clear : Bool := false
  /-- Checked at its home: a token-allocating store may be performed and recorded, an invocation may fire. -/
  ready : Bool := false
  /-- The outcome at its home: status and value. -/
  res : Option (Nat × W64) := none
  /-- Its token's record has been made. -/
  recorded : Bool := false
  replied : Bool := false
  reported : Bool := false
  orphan : Bool := false
  /-- The operations a switch has combined into it, in arrival order (R380). -/
  comb : List Nat := []
  /-- Combined into another one. -/
  inside : Bool := false
  deriving DecidableEq, Repr

/-- A token table entry's state (R388). -/
inductive TokSt where
  | free | pending | landed | failed
  deriving DecidableEq, Repr

/-- A token table entry: its token's serial, and the operation that allocated it. -/
structure TokEnt where
  st : TokSt := .free
  serial : Nat := 0
  op : Nat := 0
  deriving DecidableEq, Repr

/-- A landed table entry (R390). -/
structure Landed where
  tok : Nat
  ok : Bool
  since : Nat
  deriving DecidableEq, Repr

/-- Who sent a watch (R390, R393). -/
inductive Watcher where
  /-- A store in this package's hold queue. -/
  | op (n : Nat)
  /-- A thread's `tokwait`. -/
  | thread (slot : Nat)
  /-- Another package: its number and transaction tag. -/
  | pkg (n xtag : Nat)
  deriving DecidableEq, Repr

/-- Where a watch stands. -/
inductive WatchSt where
  | sent
  /-- In the watch table since. -/
  | entered (since : Nat)
  | refused (since : Nat)
  | answered (ok : Bool)
  /-- Its entry was dropped, or it was lost; it is never answered. -/
  | dropped
  deriving DecidableEq, Repr

/-- A watch for a token (R389 to R391). -/
structure Watch where
  tok : Nat
  landing : Nat
  by' : Watcher
  st : WatchSt := .sent
  made : Nat
  /-- The bond port that another package's watch arrived on, or that one of this package's left on (R365, R394). -/
  plane : Nat := 0
  deriving DecidableEq, Repr

/-- The states of a handler entry (R381). -/
inductive HState where
  | empty | updating | valid
  deriving DecidableEq, Repr

/-- A handler entry (R381 to R383). -/
structure Handler where
  st : HState := .empty
  words : List W64 := []
  /-- A body has been written since `begin`. -/
  fresh : Bool := false
  part : Nat := 0
  /-- The port dies that lost its body in a reset (R413). -/
  lost : List Nat := []
  deriving DecidableEq, Repr

/-- An entry of a port die's remote translation cache (R385). -/
structure RXlat where
  pkg : Nat
  asid : Nat
  va : Nat
  size : Nat
  pte : W64
  lvl : Nat
  deriving DecidableEq, Repr

/-- An entry of a port die's directory of remote holders (R386): holders as package × 8 + port die. -/
structure DirEnt where
  asid : Nat
  va : Nat
  size : Nat
  holders : List Nat := []
  broadcast : Bool := false
  deriving DecidableEq, Repr

/-- A flit opened: its header's fields and its payload words (R367). -/
structure Flit where
  kind : Nat
  dpkg : Nat
  spkg : Nat
  xtag : Nat
  asid : Nat
  /-- SPD and SPK: the source's bond port. -/
  port : Nat
  words : List W64
  deriving DecidableEq, Repr

/-- A flit in a replay buffer: its counter, whether it went on the channel of dependent stores, what it holds, and its bytes as
sent (R370). -/
structure ReplayEnt where
  ctr : Nat
  dep : Bool
  flit : Flit
  sent : BitVec 1024
  deriving DecidableEq, Repr

/-- A bond port's link (R367 to R370). -/
structure Link where
  up : Bool := false
  /-- Down until management retrains it. -/
  down : Bool := false
  /-- The number of this end's key in force, the keys it has sent so far, and the peer's key in force (R369). -/
  epoch : Nat := 0
  tries : Nat := 0
  peer : BitVec 512 := 0#512
  /-- The public key of an exchange whose signature is still to come (R368, R369). -/
  offered : Option (BitVec 512) := none
  /-- An exchange is to come: the link retrains, or a counter has reached its limit. -/
  rekeying : Bool := false
  txCtr : Nat := 0
  rxCtr : Nat := 0
  failures : Nat := 0
  /-- Flits sent and not acknowledged, oldest first. -/
  replay : List ReplayEnt := []
  /-- Flits put on the wire, newest first. -/
  wire : List (BitVec 1024) := []
  deriving DecidableEq, Repr

/-- What management counts and records (R93, R302, R367, R369). -/
structure Mgmt where
  /-- Soft errors corrected (R302). -/
  corrected : Nat := 0
  flitsDropped : Nat := 0
  badSigs : Nat := 0
  unowned : Nat := 0
  deriving DecidableEq, Repr

/-- A port die gateway's meter: when its window began, and the beats of each partition in it; those of a transfer that ran past
the limit count in the windows that follow (R94). -/
structure Meter where
  since : Nat := 0
  beats : Map Nat := []
  deriving DecidableEq, Repr

/-- The idle states of the package (R422). -/
inductive PackagePower where
  | active | standby | parked
  deriving DecidableEq, Repr

/-- A copy template's firing (R78, R82): by the graph (`tq` none) or by a token of queue `tq`. -/
structure Firing where
  p : Nat
  tq : Option Nat
  ref : W64
  asid : Nat
  payload : Nat
  /-- The arming of its token queue it was made under (R82). -/
  gen : Nat := 0
  /-- The template's words, once the walker has read it. -/
  words : List W64 := []
  /-- Its copy message has been sent, or it ends without one. -/
  sent : Bool := false
  /-- The reply status once it is known; 0x01 for a malformed template or firing (R81). -/
  result : Option Nat := none
  deriving DecidableEq, Repr

/-! ### The package -/

/-- A die under reset (R411, R413); dies 0 to 7 are the compute dies, 8 to 15 the port dies. -/
structure Die where
  /-- Marked RESETTING. -/
  resetting : Bool := false
  /-- Linked dies that have not acknowledged the quiesce. -/
  quiesce : List Nat := []
  since : Nat := 0
  /-- CXL ports (0 or 1) whose enumeration after the reset has not ended. -/
  enumerating : List Nat := []
  deriving DecidableEq, Repr

/-- Where the security processor stands (R425, R426). -/
inductive BootPhase where
  /-- Power is on and the boot ROM has not finished. -/
  | powerOn
  | recovery
  /-- The boot ROM verifies a staged image (RSTS.STATE = 3). -/
  | verifying
  | running
  deriving DecidableEq, Repr

/-- The boot ROM, the firmware store and the recovery mailbox (R425, R426). -/
structure Boot where
  phase : BootPhase := .powerOn
  /-- RSTS.WHY. -/
  why : Nat := 0
  /-- RCHK as last written, and RGO. -/
  rchk : W64 := 0#64
  rgo : W64 := 0#64
  /-- The staging buffer. -/
  buffer : Map Byte := []
  /-- The chunks committed, in order. -/
  chunks : List (Map Byte) := []
  /-- The image in the firmware store, where recovery has replaced the one the device was made with. -/
  store : Option (List Byte) := none
  /-- The measurement, and the firmware version. -/
  meas : BitVec 256 := 0#256
  ver : Nat := 0
  deriving DecidableEq, Repr

/-- The whole machine. -/
structure State where
  /-- Moves taken from Config.schedule so far (the model's own, log 1). -/
  tick : Nat := 0
  /-- Free values drawn so far (the model's own, log 2). -/
  freeCnt : Nat := 0
  /-- The next moves, named by data; empty: Config.schedule names them (the model's own, log 1). -/
  agenda : List Action := []
  /-- The issuing thread slot: course × 4 + slot (the model's own, log 1). -/
  cur : Nat := 0
  /-- C-cycles since the package left reset (CYC, R128). -/
  now : Nat := 0
  /-- The bytes this step has stored so far, newest first; the step's end commits them to `mem` (the model's own, log 3). -/
  stores : List Host.Cell := []
  /-- Memory: bytes by location, canonical (R296, R297); an unlisted byte reads 0 (log 4). -/
  mem : List Host.Cell := []
  /-- Locations that meet an uncorrectable error (R302). -/
  poison : List Nat := []
  imap : Map W64 := []
  artb : Map W64 := []
  hrs : Map W64 := []
  cxlcap : Map W64 := []
  rowGroups : Map RowGroup := []
  stackMgrs : Map StackMgr := []
  tlbs : Map (List TlbEnt) := []
  /-- Pointer entries cached, by holder (R309). -/
  ptrs : Map (List TlbEnt) := []
  /-- Instruction caches, by course (R114). -/
  icaches : Map (List CodeWord) := []
  invals : Map Inval := []
  /-- Accesses parked on a miss (R317). -/
  parked : List Parked := []
  /-- The next unused identifier of a record in the maps below (the model's own, log 2). -/
  nextId : Nat := 0
  parts : Map Part := []
  slots : Map Slot := []
  courses : Map Course := []
  jobs : Map Job := []
  firings : Map Firing := []
  /-- Lintel interrupts sent, newest first: partition, queue, vector (R88). -/
  irqs : List (Nat × Nat × Nat) := []
  /-- Grid positions, keyed course × 32 + position. -/
  poss : Map Pos := []
  /-- Stream ports, keyed course × 8 + port. -/
  ports : Map Port := []
  /-- Spill rings, keyed course × 64 + tile × 4 + plane. -/
  spills : Map Spill := []
  fes : Map Fe := []
  /-- Tokens that gateways between partitions hold, by the input FIFO they lead to, keyed position × 8 + input; and control
  tokens, keyed position × 8 + channel (R93, R200). -/
  gates : Map (List Tok) := []
  ctlGates : Map Nat := []
  runs : Map Run := []
  /-- Power-class requests, oldest first by key (R107). -/
  grants : Map Grant := []
  copies : Map Copy := []
  rops : Map Rop := []
  /-- The token table by entry, and the last serial allocated (R388). -/
  toks : Map TokEnt := []
  serial : Nat := 0
  landed : List Landed := []
  watches : Map Watch := []
  handlers : Map Handler := []
  /-- Remote translation caches and directories, by port die. -/
  rtcs : Map (List RXlat) := []
  dirs : Map (List DirEnt) := []
  links : Map Link := []
  /-- The combined requests that the bond switches have forwarded, by their first requester (R380). -/
  forwarded : Map Flit := []
  /-- The package number (R366). -/
  pkg : Nat := 0
  mgmt : Mgmt := {}
  meters : Map Meter := []
  /-- The power state of the package, and since when it has been idle (R422, R423). -/
  power : PackagePower := .active
  idleSince : Option Nat := none
  /-- The last attestation report (R427). -/
  report : List Byte := []
  dies : Map Die := []
  boot : Boot := {}
  /-- What the last Lintel read returned (R87). -/
  hostRead : W64 := 0#64
  deriving DecidableEq, Repr

/-- The machine right after reset: everything at the value the spec states, memory with nothing listed, no thread
(R425, R413); what the spec states no value for as log 5 names. -/
def State.reset : State := {}

end Sys2Proof.Machine
end

