-- ==== Sys2Proof/Machine/Memory.lean ====
section
/-! DEFINITION. Memory: the physical map (R287), the interleave schemes that place HBM (R297), the byte store in its one
canonical form, and reads and writes of runs of bytes at physical addresses. Every wider access is built here from bytes,
little-endian (R5). -/

namespace Sys2Proof.Machine

/-! ### The canonical byte store -/

/-- What a byte that nothing has written reads as (log 4). -/
def unlistedByte : Byte := 0#8

/-- The byte listed at `k`. -/
def cellAt : List Host.Cell → Nat → Option Byte
  | [], _ => none
  | (k', b) :: r, k => if k = k' then some b else cellAt r k

/-- The store with byte `b` at `k`: an entry equal to what an unlisted byte reads as is not kept. -/
def memPut : List Host.Cell → Nat → Byte → List Host.Cell
  | [], k, b => if b = unlistedByte then [] else [(k, b)]
  | (k', b') :: r, k, b =>
    if k = k' then (if b = unlistedByte then r else (k, b) :: r)
    else if k < k' then (if b = unlistedByte then (k', b') :: r else (k, b) :: (k', b') :: r)
    else (k', b') :: memPut r k b

/-- Every listed location is above `lo`, rising, and holds no unlisted byte. -/
def cellsAbove (lo : Nat) : List Host.Cell → Bool
  | [] => true
  | (k, b) :: r => decide (lo ≤ k) && decide (b ≠ unlistedByte) && cellsAbove (k + 1) r

/-- The canonical form: locations strictly rising, no entry equal to an unlisted byte. -/
def Memory.wf (m : List Host.Cell) : Bool := cellsAbove 0 m

/-- The byte at a location as this step sees it: what it has stored, else memory. -/
def State.byteAt (s : State) (loc : Nat) : Byte :=
  match cellAt s.stores loc with
  | some b => b
  | none => (cellAt s.mem loc).getD unlistedByte

/-- One byte stored at a location; a location that met an error is good again once written (R302). -/
def State.putByte (s : State) (loc : Nat) (b : Byte) : State :=
  { s with stores := (loc, b) :: s.stores, poison := s.poison.filter (· ≠ loc) }

/-- The stores of a step, newest first, performed on a memory. -/
def commitStores (m : List Host.Cell) : List Host.Cell → List Host.Cell
  | [] => m
  | (k, b) :: r => memPut (commitStores m r) k b

/-! ### Where a physical address lies -/

/-- The interleave scheme of a group: IMAPg.IL (R298). -/
def State.imapIL (s : State) (g : Nat) : Nat := (s.imap.getD 0#64 g).toNat % 8

/-- Stack, pseudo-channel and offset within the group's 16 MiB of a group offset (R297). -/
def interleave (il o : Nat) : Nat × Nat × Nat :=
  let stripe := fun (k : Nat) =>
    let c := o >>> k
    (c % 8, (c >>> 3) % 64, (c >>> 9) * 2 ^ k + o % 2 ^ k)
  match il with
  | 0 => stripe 8
  | 1 => stripe 10
  | 2 => stripe 12
  | 3 => stripe 16
  | 4 =>
    let c := (o % 2 ^ 32) >>> 8
    (4 * bitsAt o 32 32 + c % 4, (c >>> 2) % 64, (c >>> 8) * 256 + o % 256)
  | 5 =>
    let c := (o % 2 ^ 31) >>> 8
    (2 * bitsAt o 32 31 + c % 2, (c >>> 1) % 64, (c >>> 7) * 256 + o % 256)
  | 6 =>
    let c := (o % 2 ^ 30) >>> 8
    (bitsAt o 32 30, c % 64, (c >>> 6) * 256 + o % 256)
  | _ => (bitsAt o 32 30, bitsAt o 29 24, o % 2 ^ 24)

/-- The location of an HBM address under the scheme of its group (R296, R297). -/
def State.hbmLoc (s : State) (pa : Nat) : Nat :=
  let g := bitsAt pa 38 33
  let (st, pc, off) := interleave (s.imapIL g) (pa % 2 ^ 33)
  st * 2 ^ 36 + pc * 2 ^ 30 + g * 2 ^ 24 + off

/-- The parts of an HBM location: stack, pseudo-channel, and what the pseudo-channel address w holds (R296). -/
structure HbmAddr where
  stack : Nat
  pc : Nat
  byte : Nat
  bank : Nat
  group : Nat
  burst : Nat
  row : Nat
  deriving DecidableEq, Repr

/-- An HBM location split (R296). -/
def hbmSplit (loc : Nat) : HbmAddr :=
  { stack := loc / 2 ^ 36, pc := bitsAt loc 35 30, byte := bitsAt loc 5 0, bank := bitsAt loc 7 6, group := bitsAt loc 9 8,
    burst := bitsAt loc 13 10, row := bitsAt loc 29 14 }

/-- The number of a row group in its stack: 16 rows of one bank that share row[15:4] (R296). -/
def HbmAddr.rowGroup (a : HbmAddr) : Nat := a.pc * 2 ^ 16 + (a.group * 4 + a.bank) * 2 ^ 12 + a.row / 16

/-- What a physical address belongs to (R287, R291, R295, R64, R288). -/
inductive Place where
  /-- A byte of memory, tile or accumulator memory. -/
  | ram (loc : Nat)
  /-- The spill area of a port scratchpad (R295). -/
  | spill
  /-- A range of a course window other than its memories, by course and offset. -/
  | win (course off : Nat)
  | ctl (p off : Nat)
  | mgmt (off : Nat)
  | hole
  deriving DecidableEq, Repr

def cxlBase : Nat := 0x1000000000000
def scratchpadBase : Nat := 0x2000000000000
def windowBase : Nat := 0x3000000000000
def controlBase : Nat := 0x4000000000000
def mgmtBase : Nat := 0x4000010000000

/-- Whether an offset of a CXL port's range is memory (R303, R451). -/
def State.cxlHas (s : State) (j off : Nat) : Bool :=
  let c := (s.cxlcap.getD 0#64 j).toNat
  bitAt c 14 && decide (off < bitsAt c 13 0 * 2 ^ 28)

/-- The place of an offset in a course's window (R291). -/
def windowPlace (n off pa : Nat) : Place :=
  if off < 0x280000 then .ram pa
  else if off < 0x280040 then .win n off
  else if 0x300000 ≤ off ∧ off < 0x308000 then .win n off
  else if 0x380000 ≤ off ∧ off < 0x3A0000 then .win n off
  else if 0x400000 ≤ off ∧ off < 0x408400 then .win n off
  else if 0x500000 ≤ off ∧ off < 0x500800 then .win n off
  else .hole

/-- The place of a management-window offset (R288). -/
def mgmtPlace (off : Nat) : Place :=
  if off < 512 ∨ (0x10000 ≤ off ∧ off < 0x18000) ∨ (0x20000 ≤ off ∧ off < 0x20040) ∨ (0x30000 ≤ off ∧ off < 0x30080)
  then .mgmt off else .hole

/-- The place of a physical address. -/
def State.placeOf (s : State) (pa : Nat) : Place :=
  if pa < 0x8000000000 then .ram (s.hbmLoc pa)
  else if pa < cxlBase then .hole
  else if pa < cxlBase + 0x200000000000 then
    if s.cxlHas ((pa - cxlBase) / 0x20000000000) ((pa - cxlBase) % 0x20000000000) then .ram pa else .hole
  else if pa < scratchpadBase then .hole
  else if pa < scratchpadBase + 0x40000000 then
    let off := (pa - scratchpadBase) % 0x8000000
    if off < 0x4800000 then .ram pa else if off < 0x6000000 then .spill else .hole
  else if pa < windowBase then .hole
  else if pa < windowBase + 0x100000000 then
    windowPlace ((pa - windowBase) / 0x1000000) ((pa - windowBase) % 0x1000000) pa
  else if pa < controlBase then .hole
  else if pa < mgmtBase then
    let off := (pa - controlBase) % 0x100000
    if off < 0x14000 ∨ (0x20000 ≤ off ∧ off < 0x30000) then .ctl ((pa - controlBase) / 0x100000) off else .hole
  else if pa < mgmtBase + 0x100000 then mgmtPlace (pa - mgmtBase)
  else .hole

/-- The start and end of the window that holds an address which is no hole (R289). -/
def State.windowOf (s : State) (pa : Nat) : Nat × Nat :=
  if pa < 0x8000000000 then (0, 0x8000000000)
  else if pa < scratchpadBase then
    let j := (pa - cxlBase) / 0x20000000000
    (cxlBase + j * 0x20000000000, cxlBase + j * 0x20000000000 + bitsAt (s.cxlcap.getD 0#64 j).toNat 13 0 * 2 ^ 28)
  else if pa < windowBase then
    let b := pa - (pa - scratchpadBase) % 0x8000000
    if pa - b < 0x4800000 then (b, b + 0x4800000) else (b + 0x4800000, b + 0x6000000)
  else if pa < controlBase then
    let b := pa - (pa - windowBase) % 0x1000000
    let o := pa - b
    if o < 0x200000 then (b, b + 0x200000)
    else if o < 0x280000 then (b + 0x200000, b + 0x280000)
    else if o < 0x280040 then (b + 0x280000, b + 0x280040)
    else if o < 0x308000 then (b + 0x300000, b + 0x308000)
    else if o < 0x3A0000 then (b + 0x380000, b + 0x3A0000)
    else if o < 0x408400 then (b + 0x400000, b + 0x408400)
    else (b + 0x500000, b + 0x500800)
  else if pa < mgmtBase then
    let b := pa - (pa - controlBase) % 0x100000
    let o := pa - b
    if o < 0x10000 then (b, b + 0x10000)
    else if o < 0x14000 then (b + 0x10000, b + 0x14000)
    else (b + 0x20000, b + 0x30000)
  else
    let o := pa - mgmtBase
    if o < 512 then (mgmtBase, mgmtBase + 512)
    else if o < 0x18000 then (mgmtBase + 0x10000, mgmtBase + 0x18000)
    else if o < 0x20040 then (mgmtBase + 0x20000, mgmtBase + 0x20040)
    else (mgmtBase + 0x30000, mgmtBase + 0x30080)

/-- Whether a run of bytes lies in one window that its first byte is in (R289). -/
def State.oneWindow (s : State) (pa n : Nat) : Bool :=
  let (lo, hi) := s.windowOf pa
  decide (lo ≤ pa) && decide (pa + n ≤ hi)

/-! ### Runs of bytes -/

/-- The memory byte at a physical address; 0 where the address is no memory. -/
def State.physByte (s : State) (pa : Nat) : Byte :=
  match s.placeOf pa with
  | .ram loc => s.byteAt loc
  | _ => 0#8

/-- The little-endian value of `n` bytes at a physical address. -/
def State.readPhys (s : State) (pa : Nat) : Nat → Nat
  | 0 => 0
  | n + 1 => (s.physByte pa).toNat + 256 * s.readPhys (pa + 1) n

/-- Whether all `n` bytes at a physical address are memory that has met no error (R302). -/
def State.goodPhys (s : State) (pa : Nat) : Nat → Bool
  | 0 => true
  | n + 1 => (match s.placeOf pa with
    | .ram loc => !s.poison.contains loc
    | _ => false) && s.goodPhys (pa + 1) n

/-- A byte stored at a physical address; nothing where the address is no memory. -/
def State.writePhysByte (s : State) (pa : Nat) (b : Byte) : State :=
  match s.placeOf pa with
  | .ram loc => s.putByte loc b
  | _ => s

/-- The low `n` bytes of a value stored little-endian at a physical address. -/
def State.writePhys (s : State) (pa v : Nat) : Nat → State
  | 0 => s
  | n + 1 => (s.writePhysByte pa (BitVec.ofNat 8 v)).writePhys (pa + 1) (v / 256) n

/-- Bytes stored at consecutive physical addresses. -/
def State.writeBytes (s : State) (pa : Nat) : List Byte → State
  | [] => s
  | b :: r => (s.writePhysByte pa b).writeBytes (pa + 1) r

/-- `n` bytes at consecutive physical addresses. -/
def State.readBytes (s : State) (pa : Nat) : Nat → List Byte
  | 0 => []
  | n + 1 => s.physByte pa :: s.readBytes (pa + 1) n

end Sys2Proof.Machine
end

