-- ==== Sys2Proof/Machine/Translate.lean ====
section
/-! DEFINITION. Translation: page-table entries (R305, R306), the walk (R308), cached translations (R309, R313). -/

namespace Sys2Proof.Machine

/-- What an access does, for its permission and its page fault (R308). -/
inductive AKind where
  | load | store | atomic | fetch
  deriving DecidableEq, Repr

/-- The page fault of an access kind (R308). -/
def AKind.pageFault : AKind → Nat
  | .load => 0x09
  | .store => 0x0A
  | .atomic => 0x0A
  | .fetch => 0x0B

/-- The permission an access kind needs of a leaf (R308). -/
def AKind.allowed (k : AKind) (pte : Nat) : Bool :=
  match k with
  | .load => bitAt pte 1
  | .store => bitAt pte 2
  | .atomic => bitAt pte 1 && bitAt pte 2
  | .fetch => bitAt pte 3

/-- A pointer entry: V = 1 and R = W = X = 0 (R305). -/
def ptePointer (pte : Nat) : Bool := bitsAt pte 3 1 == 0

/-- The malformed entries of R305. -/
def pteMalformed (pte lvl : Nat) : Bool :=
  bitsAt pte 63 57 ≠ 0 || bitsAt pte 55 52 ≠ 0 ||
  (if ptePointer pte then
    lvl == 0 || bitsAt pte 11 4 ≠ 0 || bitAt pte 56
   else
    lvl == 3 || (lvl == 2 && bitsAt pte 29 12 ≠ 0) || (lvl == 1 && bitsAt pte 20 12 ≠ 0) || (bitAt pte 56 && lvl ≠ 0) ||
    (let hs := bitsAt pte 11 9
     if bitAt pte 8 then hs == 0 || hs > 4 else hs ≠ 0))

/-- The bytes a leaf maps at its level (R304, R306). -/
def leafSize (pte lvl : Nat) : Nat :=
  if lvl = 0 then (if bitAt pte 56 then 2 ^ 16 else 2 ^ 12) else if lvl = 1 then 2 ^ 21 else 2 ^ 30

/-- The physical address a leaf gives a virtual address (R304, R306). -/
def leafAddr (pte lvl va : Nat) : Nat :=
  let base := bitsAt pte 51 12 * 4096
  let size := leafSize pte lvl
  base - base % size + va % size

/-- Whether a walk may read at a physical address: HBM, the second tier, or the program part of a scratchpad (R308). -/
def walkReadable (pa : Nat) : Bool := pa < windowBase

/-- The walk from a table at `t`, with `n` levels left: the leaf entry and its level (R308). -/
def State.walkGo (s : State) (va t : Nat) : Nat → Option (W64 × Nat)
  | 0 => none
  | lvl + 1 =>
    let pa := t + bitsAt va (20 + 9 * lvl) (12 + 9 * lvl) * 8
    if walkReadable pa && s.goodPhys pa 8 then
      let pte := s.readPhys pa 8
      if !bitAt pte 0 || pteMalformed pte lvl then none
      else if ptePointer pte then s.walkGo va (bitsAt pte 51 12 * 4096) lvl
      else some (BitVec.ofNat 64 pte, lvl)
    else none

/-- The pointer entry at level `want` on the way from a table at `t`, with `n` levels left (R308). -/
def State.ptrGo (s : State) (va t want : Nat) : Nat → Option W64
  | 0 => none
  | lvl + 1 =>
    let pa := t + bitsAt va (20 + 9 * lvl) (12 + 9 * lvl) * 8
    if walkReadable pa && s.goodPhys pa 8 then
      let pte := s.readPhys pa 8
      if !bitAt pte 0 || pteMalformed pte lvl || !ptePointer pte then none
      else if lvl = want then some (BitVec.ofNat 64 pte)
      else s.ptrGo va (bitsAt pte 51 12 * 4096) want lvl
    else none

/-- Where the walk of a virtual address begins: its table and the levels left (R307, R308). -/
def State.walkRoot (s : State) (asid va : Nat) : Option (Nat × Nat) :=
  let e := (s.artb.getD 0#64 asid).toNat
  if va ≥ 2 ^ 48 ∨ !bitAt e 0 then none else some (bitsAt e 51 12 * 4096, 4)

/-- The leaf of a virtual address in an address space, by the page tables as they stand (R307, R308). -/
def State.walk (s : State) (asid va : Nat) : Option (W64 × Nat) :=
  match s.walkRoot asid va with
  | some (t, n) => s.walkGo va t n
  | none => none

/-- A holder's cached entry for an address, if it keeps one (R309). -/
def tlbFind (asid va : Nat) : List TlbEnt → Option (W64 × Nat)
  | [] => none
  | e :: r => if e.asid = asid ∧ e.va ≤ va ∧ va < e.va + e.size then some (e.pte, e.lvl) else tlbFind asid va r

/-- Where a holder's walk begins: behind a pointer entry it keeps, or at the root (R309). -/
def State.walkStart (s : State) (holder asid va : Nat) : Option (Nat × Nat) :=
  match tlbFind asid va (s.ptrs.getD [] holder) with
  | some (e, lvl) => some (bitsAt e.toNat 51 12 * 4096, lvl)
  | none => s.walkRoot asid va

/-- What a holder's walk finds (R308, R309). -/
def State.walkBy (s : State) (holder asid va : Nat) : Option (W64 × Nat) :=
  match s.walkStart holder asid va with
  | some (t, n) => s.walkGo va t n
  | none => none

/-- The leaf a holder uses: its cached one, or a walk. -/
def State.leafFor (s : State) (holder asid va : Nat) : Option (W64 × Nat) :=
  match tlbFind asid va (s.tlbs.getD [] holder) with
  | some e => some e
  | none => s.walkBy holder asid va

/-- A translation's outcome: the physical address with its leaf entry, or the fault cause. -/
inductive Xlat where
  | ok (pa : Nat) (pte : Nat)
  | fault (cause : Nat)
  deriving DecidableEq, Repr

/-- A translation by a holder for an access (R308). -/
def State.translate (s : State) (holder asid : Nat) (sup : Bool) (k : AKind) (va : Nat) : Xlat :=
  if va ≥ 2 ^ 48 then .fault k.pageFault
  else match s.leafFor holder asid va with
  | none => .fault k.pageFault
  | some (e, lvl) =>
    let pte := e.toNat
    if !k.allowed pte || (!sup && !bitAt pte 4) then .fault 0x0C
    else
      let pa := leafAddr pte lvl va
      if pa < 0x8000000000 ∧ bitsAt pte 7 5 ≠ s.imapIL (bitsAt pa 38 33) then .fault 0x0C
      else if s.placeOf pa = .hole then .fault 0x08
      else .ok pa pte

/-- The holders of cached translations, by their numbers in `tlbs` (R313). -/
def isHolder (h : Nat) : Bool := decide (h < 0x240) || h == 0x300 || h == 0x301 || (decide (0x1000 ≤ h) && decide (h < 0x1800))

/-- A holder keeps the translation of a page it can walk (R309). -/
def State.tlbFill (s : State) (holder asid va : Nat) : State :=
  match (if isHolder holder then s.walkBy holder asid va else none) with
  | some (e, lvl) =>
    let size := leafSize e.toNat lvl
    { s with tlbs := s.tlbs.modify [] holder fun l => ⟨asid, va - va % size, size, e, lvl⟩ :: l }
  | none => s

/-- A holder drops a translation (R309). -/
def State.tlbEvict (s : State) (holder idx : Nat) : State :=
  { s with tlbs := s.tlbs.modify [] holder fun l => l.eraseIdx idx }

/-- A holder keeps the pointer entry that its walk of an address finds at a level (R309). -/
def State.ptrFill (s : State) (holder asid va lvl : Nat) : State :=
  match (if isHolder holder then s.walkStart holder asid va else none) with
  | some (t, n) =>
    match s.ptrGo va t lvl n with
    | some e =>
      let size := 2 ^ (12 + 9 * lvl)
      { s with ptrs := s.ptrs.modify [] holder fun l => ⟨asid, va - va % size, size, e, lvl⟩ :: l }
    | none => s
  | none => s

/-- A holder drops a pointer entry (R309). -/
def State.ptrEvict (s : State) (holder idx : Nat) : State :=
  { s with ptrs := s.ptrs.modify [] holder fun l => l.eraseIdx idx }

/-! ### Instruction caches (R114) -/

/-- The word an instruction cache holds for an ASID at a physical address, if it holds one. -/
def codeFind (asid pa : Nat) : List CodeWord → Option W32
  | [] => none
  | e :: r => if e.asid = asid ∧ e.pa = pa then some e.word else codeFind asid pa r

/-- The code word at a physical address: a course's cached one, else memory's; none where memory does not answer. -/
def State.codeAt (s : State) (course asid pa : Nat) : Option W32 :=
  match codeFind asid pa (s.icaches.getD [] course) with
  | some w => some w
  | none => if s.goodPhys pa 4 then some (BitVec.ofNat 32 (s.readPhys pa 4)) else none

/-- Whether a leaf's page is a sync page whose home is of a scope wider than a course's (R310): a course's caches keep nothing of
it. -/
def syncBeyondCourse (pte : Nat) : Bool := bitAt pte 8 && decide (1 < bitsAt pte 11 9)

/-- The code word a course's fetch gets at a physical address under a leaf (R114, R310). -/
def State.codeUnder (s : State) (course asid pa pte : Nat) : Option W32 :=
  if syncBeyondCourse pte then (if s.goodPhys pa 4 then some (BitVec.ofNat 32 (s.readPhys pa 4)) else none)
  else s.codeAt course asid pa

/-- A course's instruction cache keeps a word of memory as it stands; no word of a sync page of a wider scope (R310). -/
def State.codeFill (s : State) (course asid va : Nat) : State :=
  match s.translate course asid true .fetch va with
  | .fault _ => s
  | .ok pa pte =>
    match (if course < 256 && pa % 4 == 0 && decide (pa < windowBase) && !syncBeyondCourse pte then s.codeAt course asid pa else none) with
    | some w => { s with icaches := s.icaches.modify [] course fun l => ⟨asid, pa, w⟩ :: l }
    | none => s

/-- A course's instruction cache drops a word. -/
def State.codeDrop (s : State) (course idx : Nat) : State :=
  { s with icaches := s.icaches.modify [] course fun l => l.eraseIdx idx }

/-- Every course's instruction cache drops the words of an ASID, as when a job of it becomes active (R114). -/
def State.codeInvalidate (s : State) (asid : Nat) : State :=
  { s with icaches := s.icaches.map fun kl => (kl.1, kl.2.filter fun e => e.asid != asid) }

/-! The holders' numbers in `tlbs` (R313). -/

def holdCp (course : Nat) : Nat := course
def holdPipe (course : Nat) : Nat := 0x100 + course
def holdGen (course port : Nat) : Nat := 0x1000 + course * 8 + port
def holdEngine (pd e : Nat) : Nat := 0x200 + pd * 8 + e
def holdQm : Nat := 0x300
def holdWalker : Nat := 0x301
/-- Every remote translation cache that holds a page of this package, together (R313, R386). -/
def holdRemote : Nat := 0x400
/-- A walk whose translation nothing keeps. -/
def holdNone : Nat := 0x401

end Sys2Proof.Machine
end

