-- ==== Sys2Proof/Machine/Ops.lean ====
section
/-! DEFINITION. The named operations over a thread's registers and control registers (R125 to R128), and taking a trap
(R398) as one shared operation with the return from one beside it. -/

namespace Sys2Proof.Machine

/-! ### Slots and courses -/

def State.slot (s : State) (n : Nat) : Slot := s.slots.getD {} n
def State.setSlot (s : State) (n : Nat) (x : Slot) : State := { s with slots := s.slots.set n x }
def State.modSlot (s : State) (n : Nat) (f : Slot → Slot) : State := s.setSlot n (f (s.slot n))
/-- The issuing thread. -/
def State.thr (s : State) : Slot := s.slot s.cur
def State.setThr (s : State) (x : Slot) : State := s.setSlot s.cur x
def courseOf (slot : Nat) : Nat := slot / 4
def dieOf (course : Nat) : Nat := course / 32
def State.course (s : State) (n : Nat) : Course := s.courses.getD {} n
def State.setCourse (s : State) (n : Nat) (x : Course) : State := { s with courses := s.courses.set n x }
def State.modCourse (s : State) (n : Nat) (f : Course → Course) : State := s.setCourse n (f (s.course n))
def State.part (s : State) (p : Nat) : Part := s.parts.getD {} p
def State.setPart (s : State) (p : Nat) (x : Part) : State := { s with parts := s.parts.set p x }
def State.modPart (s : State) (p : Nat) (f : Part → Part) : State := s.setPart p (f (s.part p))

/-- A free 64-bit value (log 8). -/
def State.drawWord (s : State) : W64 × State := (Config.freeWord s.freeCnt, { s with freeCnt := s.freeCnt + 1 })

/-! ### Scalar, vector and mask registers (R125) -/

/-- s(n): s0 reads as zero. -/
def Slot.readS (x : Slot) (n : Nat) : W64 := if n = 0 then 0#64 else x.s.getD 0#64 n
/-- s(n) written: a write to s0 is ignored. -/
def Slot.writeS (x : Slot) (n : Nat) (v : W64) : Slot := if n = 0 then x else { x with s := x.s.set n v }
/-- Vector register `n` of slice number `k`. -/
def Slot.readV (x : Slot) (k n : Nat) : BitVec 2048 := x.v.getD 0#2048 (k * 32 + n)
def Slot.writeV (x : Slot) (k n : Nat) (v : BitVec 2048) : Slot := { x with v := x.v.set (k * 32 + n) v }
/-- m(n): m0 reads as all ones. -/
def Slot.readM (x : Slot) (n : Nat) : BitVec 16384 := if n = 0 then BitVec.allOnes 16384 else x.m.getD 0#16384 n
def Slot.writeM (x : Slot) (n : Nat) (v : BitVec 16384) : Slot := if n = 0 then x else { x with m := x.m.set n v }

/-- A pending write performed on the registers: bits outside its mask stand. -/
def Slot.land1 (x : Slot) : PendWrite → Slot
  | .s n v => x.writeS n v
  | .v k n mask data => x.writeV k n ((x.readV k n &&& ~~~mask) ||| (data &&& mask))
  | .m n mask data => x.writeM n ((x.readM n &&& ~~~mask) ||| (data &&& mask))

/-- Pending writes performed in order. -/
def Slot.landList (x : Slot) : List Pend → Slot
  | [] => x
  | p :: r => (x.land1 p.w).landList r

/-- The fixed-latency writes due by C-cycle `t` land, in order of their landing cycle; the list is kept in that order,
later-issued writes after earlier ones of the same cycle (R120). -/
def Slot.landBy (x : Slot) (t : Nat) : Slot :=
  let y := x.landList (x.pend.filter (fun p => decide (p.land ≤ t)))
  { y with pend := x.pend.filter (fun p => decide (t < p.land)) }

/-- Every outstanding fixed-latency write lands (R120, R398). -/
def Slot.landAll (x : Slot) : Slot := { x.landList x.pend with pend := [] }

/-- A pending write placed after every write landing no later (R120). -/
def insertPend (p : Pend) : List Pend → List Pend
  | [] => [p]
  | q :: r => if q.land ≤ p.land then q :: insertPend p r else p :: q :: r

/-- Whether a write changes nothing: one to s0 or m0 (R125). -/
def PendWrite.ignored : PendWrite → Bool
  | .s n _ => n == 0
  | .v _ _ _ _ => false
  | .m n _ _ => n == 0

/-- A fixed-latency write on its way; `vec` where a vector instruction makes it. -/
def Slot.addPend (x : Slot) (land : Nat) (w : PendWrite) (vec : Bool := false) : Slot :=
  if w.ignored then x else { x with pend := insertPend { land := land, w := w, vec := vec } x.pend }

/-- Whether earlier vector work has not landed yet (R162). -/
def Pend.vecWork (p : Pend) : Bool := match p.w with | .s _ _ => p.vec | _ => true

/-- Whether a pending write is to scalar register `n`. -/
def Pend.isS (n : Nat) (p : Pend) : Bool := match p.w with | .s k _ => k == n | _ => false
def Pend.isV (n : Nat) (p : Pend) : Bool := match p.w with | .v _ k _ _ => k == n | _ => false
def Pend.isM (n : Nat) (p : Pend) : Bool := match p.w with | .m k _ _ => k == n | _ => false

/-- An interlocked result: earlier fixed-latency writes to the register land before it (R119, log 13). -/
def Slot.putS (x : Slot) (n : Nat) (v : W64) : Slot :=
  { x.writeS n v with pend := x.pend.filter (fun p => !p.isS n) }

/-! ### Control registers (R126) -/

def csrTHS : Nat := 0x000
def csrTCAUSE : Nat := 0x001
def csrTVAL : Nat := 0x002
def csrTPC : Nat := 0x003
def csrTVEC : Nat := 0x004
def csrINSN : Nat := 0x005
def csrGLEN : Nat := 0x010
def csrSTYPE : Nat := 0x011
def csrSSTART : Nat := 0x012
def csrLCAP : Nat := 0x013
def csrSLSTR : Nat := 0x014
def csrFRM : Nat := 0x020
def csrFFLAGS : Nat := 0x021
def csrSEED : Nat := 0x022
def csrSBASE : Nat := 0x023
def csrMODQ : Nat := 0x024
def csrMODQI : Nat := 0x025
def csrVOPEN : Nat := 0x030
def csrQWIN : Nat := 0x031
def csrASID : Nat := 0x040
def csrPTBASE : Nat := 0x041
def csrCYC : Nat := 0x050

/-- The value of a control register at iteration start (R126): THS has IE 1, STYPE has ILF 1, QWIN is 4,096. -/
def csrInit (c : Nat) : W64 :=
  if c = csrTHS then 4#64 else if c = csrSTYPE then 0x100#64 else if c = csrQWIN then 4096#64 else 0#64

/-- The stored value of a control register. -/
def Slot.csrv (x : Slot) (c : Nat) : W64 := x.csr.getD (csrInit c) c
def Slot.setCsr (x : Slot) (c : Nat) (v : W64) : Slot := { x with csr := x.csr.set c v }

/-- The RW fields of each register's map (R41, R54, R55, R58, R127, R128, R231, R294, R307, R321, R397). -/
def csrMask (c : Nat) : W64 :=
  if c = csrTHS then 0xBF001E#64
  else if c = csrTCAUSE then 0x1FF03FFFF#64
  else if c = csrTVAL ∨ c = csrTPC ∨ c = csrSEED ∨ c = csrSBASE then 0xFFFFFFFFFFFFFFFF#64
  else if c = csrTVEC then 0xFFFFFFFFFFFC#64
  else if c = csrINSN ∨ c = csrMODQ ∨ c = csrMODQI ∨ c = csrVOPEN then 0xFFFFFFFF#64
  else if c = csrSSTART then 0xFFFF#64
  else if c = csrFRM then 7#64
  else if c = csrFFLAGS then 0x7F#64
  else if c = csrQWIN then 0xFFFFFF#64
  else if c = csrASID then 0xFFF#64
  else if c = csrPTBASE then 0xFFFFFFFFFF001#64
  else 0#64

/-- What a user instruction may do with a register: 0 nothing, 1 read, 2 read and write (R126). -/
def csrUser (c : Nat) : Nat :=
  if c = csrFRM ∨ c = csrFFLAGS ∨ c = csrSEED ∨ c = csrSBASE ∨ c = csrMODQ ∨ c = csrMODQI ∨ c = csrVOPEN ∨ c = csrQWIN
  then 2
  else if c = csrTHS ∨ c = csrGLEN ∨ c = csrSTYPE ∨ c = csrSSTART ∨ c = csrLCAP ∨ c = csrSLSTR ∨ c = csrASID ∨ c = csrCYC
  then 1 else 0

/-- Whether a supervisor instruction may write a register (R126). -/
def csrSupWrites (c : Nat) : Bool :=
  !(c == csrGLEN || c == csrSTYPE || c == csrSLSTR || c == csrCYC)

/-! The fields of THS (R127), STYPE (R163) and the others the machine itself reads. -/

def Slot.ths (x : Slot) : Nat := (x.csrv csrTHS).toNat
def Slot.sup (x : Slot) : Bool := bitAt x.ths 0
def Slot.ie (x : Slot) : Bool := bitAt x.ths 2
def Slot.schk (x : Slot) : Bool := bitAt x.ths 4
def Slot.asid (x : Slot) : Nat := (x.csrv csrASID).toNat
def Slot.glen (x : Slot) : Nat := (x.csrv csrGLEN).toNat
def Slot.stype (x : Slot) : Nat := (x.csrv csrSTYPE).toNat
/-- log2 of the current grouping. -/
def Slot.grpLog (x : Slot) : Nat := bitsAt x.stype 5 4
def Slot.grp (x : Slot) : Nat := 2 ^ x.grpLog
def Slot.fmt (x : Slot) : Nat := bitsAt x.stype 3 0
def Slot.ilf (x : Slot) : Bool := bitAt x.stype 8
/-- SSTART's START and AD (R321). -/
def Slot.sstart (x : Slot) : Nat := bitsAt (x.csrv csrSSTART).toNat 14 0
def Slot.sstartAd (x : Slot) : Bool := bitAt (x.csrv csrSSTART).toNat 15
def Slot.cap (x : Slot) : Nat := min x.scap x.pcap
def Slot.fflags (x : Slot) : W64 := x.csrv csrFFLAGS
/-- Whether the thread stands in an atomic block (R112). -/
def Slot.atom (x : Slot) : Bool := bitAt x.hdr.toNat 8
/-- Whether the header in force enables the span (R109). -/
def Slot.spanEn (x : Slot) : Bool := bitAt x.hdr.toNat 9

/-- A slot as an iteration finds it: TVEC, SCHK and the caps are the slot's own (R126). -/
def Slot.fresh (x : Slot) : Slot :=
  { csr := (Map.set [] csrTHS (BitVec.ofNat 64 (4 + 16 * b2n x.schk))).set csrTVEC (x.csrv csrTVEC)
    scap := x.scap, pcap := x.pcap, lentFrom := x.lentFrom }

/-- A control register as software reads it: LCAP, SLSTR, PTBASE and CYC are views (R103, R128, R307). -/
def State.csrRead (s : State) (x : Slot) (c : Nat) : W64 :=
  if c = csrLCAP then BitVec.ofNat 64 (x.cap * 2 ^ 16 + x.pcap * 2 ^ 8 + x.scap)
  else if c = csrSLSTR then BitVec.ofNat 64 (x.lost * 2 ^ 8 + x.att)
  else if c = csrPTBASE then s.artb.getD 0#64 x.asid
  else if c = csrCYC then BitVec.ofNat 64 s.now
  else x.csrv c

/-- Whether an ASID lies in the range of a PASID or PADMIT register (R91). -/
def inRange (r : W64) (asid : Nat) : Bool :=
  let n := bitsAt r.toNat 28 16
  let b := bitsAt r.toNat 11 0
  decide (b ≤ asid) && decide (asid < b + n)

/-- The partition whose PASID range holds an ASID (R92 lets at most one). -/
def State.partOfAsid (s : State) (asid : Nat) : Option Nat :=
  (s.parts.find? fun kv => inRange kv.2.pasid asid).map (·.1)

/-- The partition that owns a course (R91, R92). -/
def State.partOfCourse (s : State) (n : Nat) : Option Nat :=
  (s.parts.find? fun kv => bitAt (kv.2.pcm.getD 0#64 (n / 64)).toNat (n % 64)).map (·.1)

/-- A write of the ASID root table: it takes effect only for a writer whose own ASID lies in the partition that holds the
entry's; the host has none, and its write is ignored (R288). -/
def State.artbWrite (s : State) (a : Nat) (writer : Option Nat) (v : W64) : State :=
  let ok := match writer with
    | none => false
    | some w => (match s.partOfAsid a with
      | some p => inRange (s.part p).pasid w
      | none => false)
  if ok then { s with artb := s.artb.set a (v &&& csrMask csrPTBASE) } else s

/-- A control register written: only its RW fields change (R126, R158). SCAP and QWIN are held in their ranges (R103,
R231); a write of IE ends Hold (R399); a write of TPC gives up the resumption after a remote instruction (R396). -/
def State.csrWrite (s : State) (n c : Nat) (v : W64) : State :=
  let x := s.slot n
  if c = csrLCAP then
    let w := min 32 (max 1 (v.toNat % 64))
    s.setSlot n { x with scap := w, scapAt := if w < x.scap then some s.now else x.scapAt }
  else if c = csrPTBASE then s.artbWrite x.asid (some x.asid) v
  else
    let old := x.csrv c
    let new := (old &&& ~~~ csrMask c) ||| (v &&& csrMask c)
    let new := if c = csrQWIN ∧ new.toNat < 64 then 64#64 else new
    let y := x.setCsr c new
    let y := if c = csrTHS ∧ bitAt new.toNat 2 then
      { y with hold := false, preq := y.preq.map fun r => { r with ieSeen := true } } else y
    let y := if c = csrTPC then { y with after15 := false } else y
    s.setSlot n y

/-! ### Flags (R58) are in Flags.lean. Traps (R396 to R399) -/

/-- What a trap records besides its place: cause, TVAL, reply status, code, the word at which it is taken. -/
structure Trap where
  cause : Nat
  tval : W64
  insn : W32 := 0#32
  rsts : Nat := 0
  code : Nat := 0
  async : Bool := false
  /-- A trap 0x15 after which eret runs the instruction again (R393). -/
  again : Bool := false
  deriving DecidableEq, Repr

/-- TCAUSE as trap entry sets it (R397). -/
def Trap.tcause (t : Trap) : W64 :=
  BitVec.ofNat 64 (b2n t.async * 2 ^ 32 + t.rsts % 256 * 2 ^ 24 + t.code % 1024 * 2 ^ 8 + t.cause % 256)

/-- THS after trap entry: BPOS and BHDR as given, PPRIV and PIE saved, PRIV 1, IE 0 (R398). -/
def thsOnEntry (ths bpos : Nat) (bhdr : Bool) : Nat :=
  let t := setBits ths 21 16 bpos
  let t := setBits t 23 23 (b2n bhdr)
  let t := setBits t 1 1 (bitsAt ths 0 0)
  let t := setBits t 3 3 (bitsAt ths 2 2)
  let t := setBits t 0 0 1
  setBits t 2 2 0

/-- THS after a return: PRIV and IE restored (R403). -/
def thsOnReturn (ths : Nat) : Nat :=
  setBits (setBits ths 0 0 (bitsAt ths 1 1)) 2 2 (bitsAt ths 3 3)

/-- TAKING A TRAP (R398): outstanding fixed-latency writes land; cause, value, word and place are saved; supervisor mode
with IE 0 and Hold 1; the vector unit is frozen; the pc goes to TVEC, where a block header is read. -/
def takeTrap (x : Slot) (t : Trap) (tpc : W64) (bpos : Nat) (bhdr : Bool) : Slot :=
  let x := x.landAll
  let x := x.setCsr csrTCAUSE t.tcause
  let x := x.setCsr csrTVAL t.tval
  let x := x.setCsr csrINSN (if t.async then 0#64 else t.insn.zeroExtend 64)
  let x := x.setCsr csrTPC tpc
  let x := x.setCsr csrTHS (BitVec.ofNat 64 (thsOnEntry x.ths bpos bhdr))
  { x with
    hold := true
    vfrozen := true
    frozenAt := x.vfrozen :: x.frozenAt
    pc := x.csrv csrTVEC
    atHdr := true
    reHdr := false
    bpos := 0
    firstHdr := some t.cause
    wfe := none
    vm := none
    vrun := none
    doing := none
    watch := none
    resumeNext := false
    after15 := t.cause == 0x15 && !t.async && !t.again }

/-- THE RETURN FROM A TRAP (R403, R115): PRIV and IE restored, Hold ended, the vector unit as the trap's entry found it
(log 12), the pc at TPC with its place in its block; TPC is taken as it stands (log 46). -/
def returnFromTrap (x : Slot) : Slot :=
  let ths := x.ths
  let bhdr := bitAt ths 23
  let x := x.setCsr csrTHS (BitVec.ofNat 64 (thsOnReturn ths))
  { x with
    hold := false
    vfrozen := x.frozenAt.headD false
    frozenAt := x.frozenAt.tail
    pc := x.csrv csrTPC
    atHdr := bhdr
    reHdr := !bhdr
    bpos := bitsAt ths 21 16
    firstHdr := none
    resumeNext := x.after15
    after15 := false
    preq := x.preq.map fun r => { r with ieSeen := r.ieSeen || bitAt ths 3 } }

/-! ### What a waiting `wfe` sees (R403) -/

/-- A waiting `wfe` wakes at a write of `n` bytes at `a`, where it watches a byte of them: a location of memory, or the
physical address of a device's register (log 37). -/
def Slot.seenWrite (x : Slot) (a n : Nat) : Slot :=
  match x.wfe with
  | some w => match w.loc with
    | some l => if l < a + n ∧ a < l + 8 then { x with wfe := some { w with reasons := w.reasons ||| 1 } } else x
    | none => x
  | none => x

/-- A write of `n` bytes at `a` seen by every waiting thread. -/
def State.seenWrite (s : State) (a n : Nat) : State := { s with slots := s.slots.map fun kv => (kv.1, kv.2.seenWrite a n) }

/-- The physical address of a place that is no memory. -/
def Place.addr : Place → Nat
  | .ram loc => loc
  | .spill => scratchpadBase
  | .win c off => windowBase + c * 0x1000000 + off
  | .ctl p off => controlBase + p * 0x100000 + off
  | .mgmt off => mgmtBase + off
  | .hole => 0

/-- The physical address of a queue's TAILP (R64, R68). -/
def tailpAddr (p q : Nat) : Nat := (Place.ctl p (0x10000 + 64 * q)).addr

end Sys2Proof.Machine
end

