-- ==== Sys2Proof/Machine/Flags.lean ====
section
/-! DEFINITION. The sticky flags (R58) and the values the flag-setting instructions share: FRM's mode (R54) and the
stochastic counters (R55). -/

namespace Sys2Proof.Machine

/-- FFLAGS with raised flags ORed in; hardware only sets them (R58). -/
def Slot.raise (x : Slot) (f : Flags) : Slot := x.setCsr csrFFLAGS (x.csrv csrFFLAGS ||| f.zeroExtend 64)

/-- The rounding mode of FRM.RM; none for the reserved codes 6 and 7 (R54). -/
def Slot.rm (x : Slot) : Option Rm := Rm.ofCode ((x.csrv csrFRM).toNat % 8)

/-- The random bits of an element index for an instruction: key SEED, counter SBASE + index (R55). -/
def Slot.srAt (x : Slot) (i : Nat) : Nat := srBits (x.csrv csrSEED) (x.csrv csrSBASE + BitVec.ofNat 64 i)

/-- The modulus pair (R41). -/
def Slot.modq (x : Slot) : Nat := (x.csrv csrMODQ).toNat
def Slot.modOk (x : Slot) : Bool := modPairOk x.modq (x.csrv csrMODQI).toNat

end Sys2Proof.Machine
end

