-- ==== Sys2Proof/Machine/Operands.lean ====
section
/-! DEFINITION. Operand forms: what an instruction reads and writes (R116), the checks every instruction passes before its
own (R124 steps 1 to 3, R26, R122), immediates (R117), and the extensions of results. -/

namespace Sys2Proof.Machine

/-- What an instruction names: scalar registers read and written, vector groups and single vector registers read and
written, mask registers, its fixed latency, and its class. -/
structure Uses where
  sr : List Nat := []
  sw : List Nat := []
  /-- Scalar registers named and not read: the cursor of a `vappend` that resumes (R326). -/
  named : List Nat := []
  /-- Vector groups under the current grouping (R166). -/
  vr : List Nat := []
  vw : List Nat := []
  /-- Single vector registers read and written. -/
  v1r : List Nat := []
  v1w : List Nat := []
  /-- Vector groups read under a grouping of their own (R178, R319): register and grouping. -/
  vs : List (Nat × Nat) := []
  mr : List Nat := []
  mw : List Nat := []
  /-- The fixed latency of its write; none for an interlocked instruction or one without a destination (R119). -/
  lat : Option Nat := none
  /-- Forbidden to user mode (R124 step 2). -/
  priv : Bool := false
  /-- Forbidden in an atomic block (R112). -/
  noAtom : Bool := false
  /-- Goes to the vector unit (R137). -/
  vec : Bool := false
  /-- `setlen`, which takes no trap 0x17 and waits for earlier vector work (R102, R162). -/
  setlen : Bool := false
  /-- Waits for every earlier fixed-latency write, so that none is outstanding when it issues (R121). -/
  serial : Bool := false
  /-- `done`, at which a pre-emption request lapses (R415). -/
  ends : Bool := false
  deriving DecidableEq, Repr

/-! The operand forms of the scalar majors. -/

/-- d, a, b with a fixed latency or interlocked. -/
def uses3 (lat : Option Nat) (d a b : BitVec 5) : Uses := { sr := [a.toNat, b.toNat], sw := [d.toNat], lat := lat }
/-- d, a. -/
def uses2 (lat : Option Nat) (d a : BitVec 5) : Uses := { sr := [a.toNat], sw := [d.toNat], lat := lat }
/-- d alone. -/
def uses1 (lat : Option Nat) (d : BitVec 5) : Uses := { sw := [d.toNat], lat := lat }
/-- Registers read, none written. -/
def usesR (rs : List (BitVec 5)) : Uses := { sr := rs.map (·.toNat) }

/-! Immediates (R117). -/

/-- A field sign-extended to 64 bits. -/
def sx {n : Nat} (i : BitVec n) : W64 := i.signExtend 64
/-- A field zero-extended to 64 bits. -/
def zx {n : Nat} (i : BitVec n) : W64 := i.zeroExtend 64

/-- The smaller of a list, if any. -/
def minOf : List Nat → Option Nat
  | [] => none
  | x :: r => match minOf r with | none => some x | some y => some (min x y)

/-- A scalar register outside the declarations: N ≥ SREGS and N ≠ 31 (R26). -/
def Decl.badS (dc : Decl) (n : Nat) : Bool := decide (dc.sregs ≤ n) && n != 31 && decide (8 < n)

/-- The lowest register of a group of `g` from `n` at or beyond VREGS (R26, R166). -/
def Decl.badV (dc : Decl) (g n : Nat) : Option Nat := if n + g > dc.vregs then some (max n dc.vregs) else none

/-- The registers an instruction names beyond the program's declarations, scalar ones first (R124 step 3; log 14). -/
def undeclared (x : Slot) (u : Uses) : Option Nat :=
  match minOf ((u.sr ++ u.sw ++ u.named).filter x.decl.badS) with
  | some n => some n
  | none =>
    match minOf ((u.vw ++ u.vr).filterMap (x.decl.badV x.grp) ++ (u.v1w ++ u.v1r).filterMap (x.decl.badV 1)
        ++ u.vs.filterMap fun v => x.decl.badV v.2 v.1) with
    | some n => some n
    | none => match (u.vw ++ u.vr).find? fun n => n % x.grp != 0 with
      | some n => some n
      | none => (u.vs.find? fun v => v.1 % v.2 != 0).map (·.1)

/-- What the checking scoreboard objects to (R122): a register read whose fixed-latency write has not landed, or an own
write that would land no later than an outstanding one to the same register; the number as TVAL gives it. An instruction
that issues only once those writes have landed meets none (R121, R162). Of several, TVAL names the first in landing order, a
register read before one written (the model's choice, log 14). -/
def scoreboard (x : Slot) (u : Uses) (now : Nat) : Option Nat :=
  let inV := fun (g n k : Nat) => decide (n ≤ k) && decide (k < n + g)
  let readHit := if u.serial then none else x.pend.findSome? fun p => match p.w with
    | .s n _ => if u.sr.contains n && !(u.setlen && p.vec) then some n else none
    | .v _ n _ _ =>
      if anyB (fun b => inV x.grp b n) u.vr || anyB (fun b => inV b.2 b.1 n) u.vs || u.v1r.contains n then some (n + 32)
      else none
    | .m n _ _ => if u.mr.contains n then some (n + 64) else none
  let writeHit := match u.lat with
    | none => none
    | some l => x.pend.findSome? fun p =>
      if now + l ≤ p.land then match p.w with
        | .s n _ => if u.sw.contains n then some n else none
        | .v _ n _ _ => if anyB (fun b => inV x.grp b n) u.vw || u.v1w.contains n then some (n + 32) else none
        | .m n _ _ => if u.mw.contains n then some (n + 64) else none
      else none
  match readHit with
  | some n => some n
  | none => writeHit

end Sys2Proof.Machine
end

