-- ==== Sys2Proof/Machine/Forms.lean ====
section
/-! DEFINITION. The operand forms of the instructions (R116): what each instruction of the table reads and writes, its
latency, and the classes its boundary asks about (R112, R119, R121, R124, R137). -/

namespace Sys2Proof.Machine

/-! ### Forms shared by several instructions -/

/-- vd, va, vb under a mask. -/
def usesV3 (lat : Option Nat) (d a b : BitVec 5) (k : BitVec 3) : Uses :=
  { vr := [a.toNat, b.toNat], vw := [d.toNat], mr := [k.toNat], lat := lat, vec := true }
/-- vd, va under a mask. -/
def usesV2 (lat : Option Nat) (d a : BitVec 5) (k : BitVec 3) : Uses :=
  { vr := [a.toNat], vw := [d.toNat], mr := [k.toNat], lat := lat, vec := true }
/-- Mask registers read and written. -/
def usesM (rs : List (BitVec 3)) (d : BitVec 3) : Uses :=
  { mr := rs.map (·.toNat), mw := [d.toNat], lat := some 8, vec := true }

/-- The source group of a conversion (R178): its grouping is max(1, g × Ws / W); where that is no grouping, or a format is none,
its first register alone. -/
def cvtGroup (x : Slot) (f : BitVec 4) (a : BitVec 5) : List (Nat × Nat) :=
  let gs := max 1 (x.grp * widthOf f.toNat / widthOf x.fmt)
  if (kindOf f.toNat).isSome && (kindOf x.fmt).isSome && decide (gs ≤ 8) then [(a.toNat, gs)] else [(a.toNat, 1)]

/-- The grouping of an index group (R319). -/
def Slot.idxGrp (x : Slot) : Nat := max 1 (x.grp * 32 / widthOf x.fmt)
/-- The index group (R319); its first register alone where its grouping is none. -/
def idxGroup (x : Slot) (b : BitVec 5) : List (Nat × Nat) := if x.idxGrp ≤ 8 then [(b.toNat, x.idxGrp)] else [(b.toNat, 1)]
/-- A vector load: vd written, interlocked. -/
def usesVld (d : BitVec 5) (sr : List (BitVec 5)) (idx : List (Nat × Nat)) (k : BitVec 3) : Uses :=
  { sr := sr.map (·.toNat), vw := [d.toNat], vs := idx, mr := [k.toNat], vec := true }
/-- A vector store: vs read. -/
def usesVst (d : BitVec 5) (sr : List (BitVec 5)) (idx : List (Nat × Nat)) (k : BitVec 3) : Uses :=
  { sr := sr.map (·.toNat), vr := [d.toNat], vs := idx, mr := [k.toNat], vec := true }

/-- Scalar registers of an instruction of majors 0x22 and 0x32 to 0x3A, which an atomic block forbids (R112). -/
def usesGrid (rs ws : List (BitVec 5)) : Uses := { sr := rs.map (·.toNat), sw := ws.map (·.toNat), noAtom := true }
/-- The four operands of a handler invocation (R378). -/
def usesRamo (a b : BitVec 5) : Uses :=
  { sr := if a.toNat % 4 = 0 && a.toNat ≠ 0 then rangeFrom a.toNat 4 else [a.toNat], sw := [b.toNat], noAtom := true }
/-- rst (R376): s(a + 1) is read for DEP and written for TOK. -/
def usesRst (a b : BitVec 5) (dep tok : Bool) : Uses :=
  let two := (dep || tok) && a.toNat ≠ 0 && a.toNat ≠ 31
  { sr := [a.toNat, b.toNat] ++ (if two && dep then [a.toNat + 1] else [])
    sw := if two && tok then [a.toNat + 1] else []
    noAtom := true }

/-- Whether user mode may not make an access to a control register (R126). -/
def csrBarred (c : Nat) (writes : Bool) : Bool := decide (csrUser c < (if writes then 2 else 1))

/-! ### The form of each instruction -/

/-- What an instruction reads and writes, for a thread; the steps of other agents name no register of a thread. -/
def usesOf (x : Slot) : Instr → Uses
  | .add _ d a b => uses3 (some 1) d a b
  | .sub _ d a b => uses3 (some 1) d a b
  | .and _ d a b => uses3 (some 1) d a b
  | .or _ d a b => uses3 (some 1) d a b
  | .xor _ d a b => uses3 (some 1) d a b
  | .andn _ d a b => uses3 (some 1) d a b
  | .sll _ d a b => uses3 (some 1) d a b
  | .srl _ d a b => uses3 (some 1) d a b
  | .sra _ d a b => uses3 (some 1) d a b
  | .rol _ d a b => uses3 (some 1) d a b
  | .min _ d a b => uses3 (some 1) d a b
  | .max _ d a b => uses3 (some 1) d a b
  | .minn _ d a b => uses3 (some 1) d a b
  | .maxn _ d a b => uses3 (some 1) d a b
  | .slt _ d a b => uses3 (some 1) d a b
  | .sltn _ d a b => uses3 (some 1) d a b
  | .seq _ d a b => uses3 (some 1) d a b
  | .mul _ d a b => uses3 (some 4) d a b
  | .mulh _ d a b => uses3 (some 4) d a b
  | .mulhn _ d a b => uses3 (some 4) d a b
  | .clz _ d a => uses2 (some 1) d a
  | .ctz _ d a => uses2 (some 1) d a
  | .popc _ d a => uses2 (some 1) d a
  | .csel _ d a b => { uses3 (some 1) d a b with sr := [d.toNat, a.toNat, b.toNat] }
  | .addi _ d a _ => uses2 (some 1) d a
  | .andi _ d a _ => uses2 (some 1) d a
  | .ori _ d a _ => uses2 (some 1) d a
  | .xori _ d a _ => uses2 (some 1) d a
  | .slli _ d a _ => uses2 (some 1) d a
  | .srli _ d a _ => uses2 (some 1) d a
  | .srai _ d a _ => uses2 (some 1) d a
  | .roli _ d a _ => uses2 (some 1) d a
  | .slti _ d a _ => uses2 (some 1) d a
  | .sltni _ d a _ => uses2 (some 1) d a
  | .li _ d _ => uses1 (some 1) d
  | .lext _ d _ => uses2 (some 1) d d
  | .lea _ d _ => uses1 (some 1) d
  | .div _ d a b => uses3 none d a b
  | .divn _ d a b => uses3 none d a b
  | .rem _ d a b => uses3 none d a b
  | .remn _ d a b => uses3 none d a b
  | .br _ _ => {}
  | .call _ _ => uses1 (some 1) 31#5
  | .jr _ d a _ => uses2 (some 1) d a
  | .beq _ a b _ => usesR [a, b]
  | .bne _ a b _ => usesR [a, b]
  | .blt _ a b _ => usesR [a, b]
  | .bge _ a b _ => usesR [a, b]
  | .bltn _ a b _ => usesR [a, b]
  | .bgen _ a b _ => usesR [a, b]
  | .loop _ a _ => uses2 (some 1) a a
  | .fadd _ d a b _ => uses3 (some 6) d a b
  | .fsub _ d a b _ => uses3 (some 6) d a b
  | .fmul _ d a b _ => uses3 (some 6) d a b
  | .fdiv _ d a b _ => uses3 none d a b
  | .fsqrt _ d a _ => uses2 none d a
  | .fmin _ d a b _ => uses3 (some 6) d a b
  | .fmax _ d a b _ => uses3 (some 6) d a b
  | .fcmp _ d a b _ _ => uses3 (some 6) d a b
  | .fcvt _ d a _ _ => uses2 (some 6) d a
  | .fmv _ d a _ => uses2 (some 6) d a
  | .fmvNeg _ d a _ => uses2 (some 6) d a
  | .fmvAbs _ d a _ => uses2 (some 6) d a
  | .fmvSgn _ d a b _ => uses3 (some 6) d a b
  | .ffma _ d a b c _ => { sr := [a.toNat, b.toNat, c.toNat], sw := [d.toNat], lat := some 6 }
  | .ffms _ d a b c _ => { sr := [a.toNat, b.toNat, c.toNat], sw := [d.toNat], lat := some 6 }
  | .ffnma _ d a b c _ => { sr := [a.toNat, b.toNat, c.toNat], sw := [d.toNat], lat := some 6 }
  | .ffnms _ d a b c _ => { sr := [a.toNat, b.toNat, c.toNat], sw := [d.toNat], lat := some 6 }
  | .csrr _ d e => { uses1 none d with serial := true, priv := csrBarred e.toNat false }
  | .csrw _ d a e => { uses2 none d a with serial := true, priv := csrBarred e.toNat true }
  | .csrs _ d a e => { uses2 none d a with serial := true, priv := csrBarred e.toNat (a != 0#5) }
  | .csrc _ d a e => { uses2 none d a with serial := true, priv := csrBarred e.toNat (a != 0#5) }
  | .nop _ => {}
  | .vadd _ d a b k => usesV3 (some 8) d a b k
  | .vsub _ d a b k => usesV3 (some 8) d a b k
  | .vmul _ d a b k => usesV3 (some 8) d a b k
  | .vdiv _ d a b k => usesV3 (some 8) d a b k
  | .vmin _ d a b k => usesV3 (some 8) d a b k
  | .vmax _ d a b k => usesV3 (some 8) d a b k
  | .vabs _ d a k => usesV2 (some 8) d a k
  | .vneg _ d a k => usesV2 (some 8) d a k
  | .vsqrt _ d a k => usesV2 (some 8) d a k
  | .vrsq _ d a k => usesV2 (some 8) d a k
  | .vrcp _ d a k => usesV2 (some 8) d a k
  | .vexp2 _ d a k => usesV2 (some 8) d a k
  | .vclass _ d a k => usesV2 (some 8) d a k
  | .vfma _ d a b k => { usesV3 (some 10) d a b k with vr := [d.toNat, a.toNat, b.toNat] }
  | .vfms _ d a b k => { usesV3 (some 10) d a b k with vr := [d.toNat, a.toNat, b.toNat] }
  | .vfnma _ d a b k => { usesV3 (some 10) d a b k with vr := [d.toNat, a.toNat, b.toNat] }
  | .vfnms _ d a b k => { usesV3 (some 10) d a b k with vr := [d.toNat, a.toNat, b.toNat] }
  | .viadd _ d a b k => usesV3 (some 8) d a b k
  | .visub _ d a b k => usesV3 (some 8) d a b k
  | .vimul _ d a b k => usesV3 (some 8) d a b k
  | .vimulh _ d a b k => usesV3 (some 8) d a b k
  | .vand _ d a b k => usesV3 (some 8) d a b k
  | .vor _ d a b k => usesV3 (some 8) d a b k
  | .vxor _ d a b k => usesV3 (some 8) d a b k
  | .vsll _ d a b k => usesV3 (some 8) d a b k
  | .vsrl _ d a b k => usesV3 (some 8) d a b k
  | .vsra _ d a b k => usesV3 (some 8) d a b k
  | .vimin _ d a b k => usesV3 (some 8) d a b k
  | .vimax _ d a b k => usesV3 (some 8) d a b k
  | .vminn _ d a b k => usesV3 (some 8) d a b k
  | .vmaxn _ d a b k => usesV3 (some 8) d a b k
  | .viadds _ d a b k => usesV3 (some 8) d a b k
  | .visubs _ d a b k => usesV3 (some 8) d a b k
  | .vmadd _ d a b k => usesV3 (some 8) d a b k
  | .vmsub _ d a b k => usesV3 (some 8) d a b k
  | .vmmul _ d a b k => usesV3 (some 8) d a b k
  | .vmred _ d a k => usesV2 (some 8) d a k
  | .vcmp _ d a b k _ => { vr := [a.toNat, b.toNat], mr := [k.toNat], mw := [d.toNat], lat := some 8, vec := true }
  | .mand _ d a b => usesM [a, b] d
  | .mor _ d a b => usesM [a, b] d
  | .mxor _ d a b => usesM [a, b] d
  | .mandn _ d a b => usesM [a, b] d
  | .mnot _ d a => usesM [a] d
  | .mpopc _ d a k => { sw := [d.toNat], mr := [a.toNat, k.toNat], lat := some 8, vec := true }
  | .mfirst _ d a k => { sw := [d.toNat], mr := [a.toNat, k.toNat], lat := some 8, vec := true }
  | .mset _ d a => { sr := [a.toNat], mw := [d.toNat], lat := some 8, vec := true }
  | .vcvt _ d a k _ f => { vw := [d.toNat], vs := cvtGroup x f a, mr := [k.toNat], lat := some 8, vec := true }
  | .vredsum _ d a b k => { sr := [b.toNat], sw := [d.toNat], vr := [a.toNat], mr := [k.toNat], vec := true }
  | .vredsumo _ d a b k => { sr := [b.toNat], sw := [d.toNat], vr := [a.toNat], mr := [k.toNat], vec := true }
  | .vredmax _ d a b k => { sr := [b.toNat], sw := [d.toNat], vr := [a.toNat], mr := [k.toNat], vec := true }
  | .vredmin _ d a b k => { sr := [b.toNat], sw := [d.toNat], vr := [a.toNat], mr := [k.toNat], vec := true }
  | .vredand _ d a b k => { sr := [b.toNat], sw := [d.toNat], vr := [a.toNat], mr := [k.toNat], vec := true }
  | .vredor _ d a b k => { sr := [b.toNat], sw := [d.toNat], vr := [a.toNat], mr := [k.toNat], vec := true }
  | .vperm _ d a b k => usesV3 none d a b k
  | .vslup _ d a b k => { usesV2 none d a k with sr := [b.toNat] }
  | .vsldn _ d a b k => { usesV2 none d a k with sr := [b.toNat] }
  | .vmerge _ d a b k => usesV3 none d a b k
  | .vcompress _ d a k => usesV2 none d a k
  | .vexpand _ d a k => usesV2 none d a k
  | .viota _ d k => { vw := [d.toNat], mr := [k.toNat], vec := true }
  | .vbcast _ d a k => { sr := [a.toNat], vw := [d.toNat], mr := [k.toNat], vec := true }
  | .vextract _ d a b => { sr := [b.toNat], sw := [d.toNat], vr := [a.toNat], vec := true }
  | .vxch _ d a k => usesV2 none d a k
  | .vxchRot _ d a k => usesV2 none d a k
  | .vq4dq _ d a b k => { sr := [b.toNat], vw := [d.toNat], v1r := [a.toNat], mr := [k.toNat], lat := some 8, vec := true }
  | .vq4q _ d a b k => { sr := [b.toNat], vr := [a.toNat], v1w := [d.toNat], mr := [k.toNat], vec := true }
  | .setlen _ d a _ _ => { uses2 none d a with vec := true, setlen := true }
  | .ld _ d a _ _ => uses2 none d a
  | .st _ d a _ _ => usesR [d, a]
  | .ldx _ d a b _ => uses3 none d a b
  | .stx _ d a b _ => usesR [d, a, b]
  | .cfgload _ a b => usesGrid [a, b] []
  | .cfgsel _ a _ _ => usesGrid [a] []
  | .cfgck _ a b => usesGrid [a] [b]
  | .gresume _ a => usesGrid [a] []
  | .gdrain _ a => usesGrid [a] []
  | .gquery _ a b _ => usesGrid [a] [b]
  | .strm _ a b _ _ _ _ => usesGrid [a, b] []
  | .start _ a b _ => usesGrid [a, b] []
  | .ctok _ a b => usesGrid [a, b] []
  | .sbarCfg _ => usesGrid [] []
  | .sbarStrm _ => usesGrid [] []
  | .sbarMem _ _ => usesGrid [] []
  | .sbarCond _ _ _ => usesGrid [] []
  | .swait _ b _ _ => usesGrid [] [b]
  | .tokq _ a b _ _ => usesGrid [a, b] []
  | .qarm _ a b => usesGrid [a, b] []
  | .qdisarm _ a b => usesGrid [a] [b]
  | .amoAdd _ d a b _ _ => uses3 none d a b
  | .amoAdds _ d a b _ _ => uses3 none d a b
  | .amoAnd _ d a b _ _ => uses3 none d a b
  | .amoOr _ d a b _ _ => uses3 none d a b
  | .amoXor _ d a b _ _ => uses3 none d a b
  | .amoMin _ d a b _ _ => uses3 none d a b
  | .amoMax _ d a b _ _ => uses3 none d a b
  | .amoMinn _ d a b _ _ => uses3 none d a b
  | .amoMaxn _ d a b _ _ => uses3 none d a b
  | .amoSwap _ d a b _ _ => uses3 none d a b
  | .amoFadd _ d a b _ _ => uses3 none d a b
  | .cas _ d a b _ _ => { sr := [d.toNat, a.toNat, b.toNat], sw := [d.toNat] }
  | .ldacq _ d a _ _ => uses2 none d a
  | .strel _ d a _ _ => usesR [d, a]
  | .fenceFull _ _ => {}
  | .fenceAcq _ _ => {}
  | .fenceRel _ _ => {}
  | .fenceEng _ _ => {}
  | .join _ a b => { sr := [a.toNat], sw := [b.toNat], noAtom := true }
  | .leave _ a => { sr := [a.toNat], noAtom := true }
  | .gbar _ a _ => { sr := [a.toNat], noAtom := true }
  | .launch _ a b => { sr := [a.toNat], sw := [b.toNat], noAtom := true }
  | .vld _ d a k => usesVld d [a] [] k
  | .vlds _ d a b k => usesVld d [a, b] [] k
  | .vldx _ d a b k _ => usesVld d [a] (idxGroup x b) k
  | .vldxa _ d a b k _ => { usesVld d [a] (idxGroup x b) k with mw := [7] }
  | .vst _ d a k => usesVst d [a] [] k
  | .vsts _ d a b k => usesVst d [a, b] [] k
  | .vstx _ d a b k _ => usesVst d [a] (idxGroup x b) k
  | .vstxa _ d a b k _ => { usesVst d [a] (idxGroup x b) k with mw := [7] }
  | .vappend _ v a y k _ =>
    { sr := if x.sstartAd then [y.toNat] else [a.toNat], named := [a.toNat], sw := [y.toNat], vr := [v.toNat], mr := [k.toNat], vec := true }
  | .copy _ a _ _ _ _ => usesGrid [a] []
  | .drain _ b _ _ => usesGrid [] [b]
  | .tlbinv _ a b _ _ => { sr := [a.toNat, b.toNat], priv := true, noAtom := true }
  | .tlbsync _ => { priv := true, noAtom := true }
  | .trap _ a _ => usesR [a]
  | .claim _ => { priv := true, noAtom := true }
  | .eret _ => { priv := true, noAtom := true }
  | .wfe _ d a => { sr := [a.toNat], sw := [d.toNat], noAtom := true }
  | .yield _ => { noAtom := true }
  | .done _ => { noAtom := true, ends := true }
  | .doneErr _ => { noAtom := true, ends := true }
  | .etrig _ _ => { noAtom := true }
  | .rld _ a b _ _ _ => { sr := [a.toNat], sw := [b.toNat], noAtom := true }
  | .rfadd _ a b _ _ _ => { sr := [a.toNat, b.toNat], sw := [b.toNat], noAtom := true }
  | .ramoInv _ a b _ _ _ => usesRamo a b
  | .ramoBegin _ a b _ _ _ => usesRamo a b
  | .ramoBody _ a b _ _ _ => usesRamo a b
  | .ramoValid _ a b _ _ _ => usesRamo a b
  | .ramoClear _ a b _ _ _ => usesRamo a b
  | .rst _ a b _ _ e h _ => usesRst a b (e == 1#1) (h == 1#1)
  | .tokwait _ a b => { sr := [a.toNat], sw := [b.toNat], noAtom := true }
  | _ => {}

end Sys2Proof.Machine
end

