-- ==== Sys2Proof/Machine/Issue.lean ====
section
/-! DEFINITION. What surrounds every instruction: the checks and causes considered at its boundary in the order of R399,
and what its completion, jump, trap or wait does to the thread's place (R108, R118, R139). -/

namespace Sys2Proof.Machine

/-- How an instruction's own part ends. -/
inductive Exe where
  /-- Its effects are performed; the thread goes on with the next instruction. -/
  | done (s : State)
  /-- A taken control transfer to a block header (R111, R139). -/
  | goto (s : State) (target : W64)
  /-- A trap of its own: the state keeps what its description lets stand. -/
  | trap (s : State) (t : Trap)
  /-- A trap that names the instruction after (0x0E, R398). -/
  | trapNext (s : State) (t : Trap)
  /-- It does not issue yet: its next turn tries again (R119, R137). -/
  | wait (s : State)
  /-- It has issued and is not complete: its next turn goes on with it, and uses no issue slot (R137). -/
  | turn (s : State)
  /-- It has settled the thread's place itself (eret, done). -/
  | left (s : State)

/-- The outcome type of every meaning. -/
abbrev Out := Host.Outcome State Fault Refusal

/-- Whether the instruction at the thread's place is the last of its block (R108). -/
def Slot.lastInBlock (x : Slot) : Bool := decide (bitsAt x.hdr.toNat 25 20 ≤ x.bpos)

/-- The thread past the instruction at its place (R108). -/
def Slot.advance (x : Slot) : Slot :=
  if x.lastInBlock then { x with pc := x.pc + 4#64, atHdr := true, bpos := 0 }
  else { x with pc := x.pc + 4#64, bpos := x.bpos + 1 }

/-- The word of an instruction (R116). -/
def wordOf (i : Instr) : W32 := (encode i).getD 0#32

/-- Whether a thread waits for the token of a remote store, or for its `tokwait`'s message (R388, R393): the wait is
pre-emptible. -/
def State.waitsToken (s : State) (n : Nat) : Bool :=
  match (s.slot n).rop with
  | some m => (match s.rops.get? m with | some r => (r.kind == .store && !r.taken) || r.kind == .token | none => false)
  | none => false

/-- Whether an access of a thread is parked on a miss (R317). -/
def State.parkedThread (s : State) (n : Nat) : Bool := anyB (fun k => k.slot == some n) s.parked

/-- Whether an access of a copy is parked on a miss (R317). -/
def State.parkedCopy (s : State) (id : Nat) : Bool := anyB (fun k => k.copy == some id) s.parked

/-- Whether a thread stands inside an instruction that no asynchronous cause interrupts: a vector instruction in the unit, an
access that is parked, or a remote operation on its way (R137, R171, R317, R375). -/
def State.inside (s : State) (n : Nat) : Bool :=
  (s.slot n).vrun.isSome || s.parkedThread n || ((s.slot n).rop.isSome && !s.waitsToken n)

/-- Whether a thread stands between two instructions of an atomic block, or inside one: no pre-emption is taken there (R112). A
transfer ends a block's protection, so before the first instruction of the next block there is none (R153). -/
def Slot.shielded (x : Slot) : Bool := x.atom && (x.bpos != 0 || x.doing.isSome)

/-- Whether a thread may stand in an atomic block: one whose header is still to be read again counts as such (R112, R115). -/
def Slot.mayShield (x : Slot) : Bool := !x.atHdr && (x.reHdr || x.shielded)

/-- Whether a thread may be stopped where it stands: at a boundary, outside an atomic block (R112, R404, R406). The header of the
block it has returned into is read again first (R115). -/
def State.stoppable (s : State) (n : Nat) : Bool :=
  !(s.slot n).mayShield && !s.inside n

/-- The asynchronous causes, and 0x17, in the order of R399: the thread as the cause leaves it, and the trap. -/
def asyncCause (s : State) (x : Slot) (u : Uses) (w : W32) : Option (Slot × Trap) :=
  if s.inside s.cur then none
  else if u.vec && !u.setlen && x.lostNew != 0 && x.vm.isNone then
    some ({ x with lostNew := 0 }, { cause := 0x17, tval := BitVec.ofNat 64 x.lostNew, insn := w })
  else if x.hold then none
  else match x.async15 with
  | (st, a) :: r => some ({ x with async15 := r }, { cause := 0x15, tval := a, rsts := st, async := true })
  | [] => match x.faults with
    | f :: r => some ({ x with faults := r }, { cause := f.cause, tval := f.tval, rsts := f.rsts, async := true })
    | [] => match x.preq with
      | some q =>
        if x.ie && !x.shielded && q.trapAt.isNone && !u.ends then
          some ({ x with preq := some { q with trapAt := some s.now }, switchPending := true },
            { cause := 0x18, tval := BitVec.ofNat 64 q.reason, async := true })
        else none
      | none => none

/-- R124 steps 1 to 3: an instruction its block forbids (0x01), its mode forbids (0x02), or that names a register beyond
the declarations (0x04). -/
def earlyTrap (x : Slot) (u : Uses) (w : W32) : Option Trap :=
  if u.noAtom && x.atom then some { cause := 0x01, tval := w.zeroExtend 64, insn := w }
  else if u.priv && !x.sup then some { cause := 0x02, tval := w.zeroExtend 64, insn := w }
  else match undeclared x u with
  | some n => some { cause := 0x04, tval := BitVec.ofNat 64 n, insn := w }
  | none => none

/-- Whether the vector unit takes no instruction now (R137, R170); one under way stands in it already. -/
def State.vecBusy (s : State) : Bool :=
  s.thr.doing.isNone && (s.now % 2 != 0 || decide (s.now < (s.course (courseOf s.cur)).vbusy))

/-- Whether an instruction waits for the result of a staged launch: it names the register, or issues only once every earlier
result is written (R119, R121, R161). -/
def owes (x : Slot) (u : Uses) : Bool := (u.serial && !x.owed.isEmpty) || anyB (fun o => u.sr.contains o.1 || u.sw.contains o.1) x.owed

/-- The power-class requests of the instruction a thread waits in, its store that waits for a token and its watch are withdrawn
when it leaves that instruction (R107, R388, R393, R399). -/
def State.dropRequests (s : State) : State :=
  { s with
    grants := s.grants.filter fun g => g.2.slot != s.cur || g.2.queued
    rops := if s.waitsToken s.cur then s.rops.filter fun r => s.thr.rop != some r.1 else s.rops
    watches := s.watches.filter fun w => w.2.by' != .thread s.cur }

/-- A trap taken by the issuing thread, which stands as `x`, at a place: what its instruction had requested is withdrawn, so that
nothing of it stays (R10). -/
def State.trapAt (s : State) (x : Slot) (t : Trap) (tpc : W64) (bpos : Nat) (bhdr : Bool) : State :=
  s.dropRequests.setThr (takeTrap { x with rop := if s.waitsToken s.cur then none else x.rop } t tpc bpos bhdr)

/-- A trap taken at the thread's instruction (R115, R398). -/
def State.trapHere (s : State) (t : Trap) : State := s.trapAt s.thr t s.thr.pc s.thr.bpos false

/-- What stands between an instruction and its own part: a trap or an asynchronous cause taken in its place, or a wait for a
register or for the vector unit; none when the instruction executes. The thread's due fixed-latency writes have landed. -/
def State.boundary (s : State) (u : Uses) (w : W32) : Option State :=
  let x := s.thr
  match earlyTrap x u w with
  | some t => some (s.trapHere t)
  | none => match asyncCause s x u w with
    | some (y, t) => some ((s.dropRequests.setThr { y with rop := none }).trapHere t)
    | none =>
      if owes x u || (u.vec && s.vecBusy) then some s
      else match (if x.schk then scoreboard x u s.now else none) with
        | some n => some (s.trapHere { cause := 0x05, tval := BitVec.ofNat 64 n, insn := w })
        | none =>
          if u.vec && x.vfrozen then some (s.trapHere { cause := 0x04, tval := w.zeroExtend 64, insn := w })
          else none

/-- The issue slot used: the course's stage has issued in this C-cycle, and a vector instruction holds the unit for its
grouping's A-cycles (R137, R170). An instruction under way has used its slot already. -/
def State.issued (s : State) (u : Uses) (g : Nat) : State :=
  if s.thr.doing.isSome then s
  else s.modCourse (courseOf s.cur) fun c =>
    { c with lastIssue := some s.now, vbusy := if u.vec then s.now + 2 * g else c.vbusy }

/-- An instruction under way: it has issued, and its next turn goes on with this word (R137). -/
def State.underWay (s : State) (u : Uses) (w : W32) (g : Nat) : State :=
  (s.issued u g).setThr { (s.issued u g).thr with doing := some w }

/-- An instruction that has executed: the next may issue after its stall count (R118). -/
def State.finish (s : State) (st : BitVec 3) : State :=
  s.setThr { s.thr.advance with earliest := s.now + st.toNat + 1, issuedAt := some s.now, doing := none }

/-- A taken transfer: two further C-cycles for the header check (R118, R139). -/
def State.jumpTo (s : State) (st : BitVec 3) (target : W64) : State :=
  s.setThr { s.thr with
    pc := target, atHdr := true, reHdr := false, bpos := 0,
    earliest := max (s.now + st.toNat + 1) (s.now + 3), issuedAt := some s.now, doing := none }

/-- The due fixed-latency writes of a slot land; none while a vector instruction stands in the unit, which reads its registers as
they stood at its issue (R120, R169). -/
def Slot.landNow (x : Slot) (now : Nat) : Slot := if x.vrun.isSome then x else x.landBy now

/-- The due fixed-latency writes of the issuing thread land (R120). -/
def State.landDue (s : State) : State := s.setThr (s.thr.landNow s.now)

/-- The end of an instruction's own part made the thread's (R118, R398). -/
def State.settle (u : Uses) (st : BitVec 3) (w : W32) (g : Nat) : Exe → State
  | .done s => (s.issued u g).finish st
  | .goto s t => (s.issued u g).jumpTo st t
  | .trap s t => (s.issued u g).trapHere { t with insn := w }
  | .trapNext s t =>
    let s := s.issued u g
    let y := s.thr.advance
    s.setThr { takeTrap s.thr { t with insn := w } y.pc y.bpos y.atHdr with earliest := s.now + st.toNat + 1 }
  | .wait s => s
  | .turn s => s.underWay u w g
  | .left s => s.issued u g

/-- A vector instruction's completion where a slice was lost while it executed: what it has done stands, and trap 0x17 is taken
at it (R102, R169). -/
def Exe.cutShort : Exe → Exe
  | .done s =>
    if s.thr.lostNew = 0 then .done s
    else .trap (s.setThr { s.thr with lostNew := 0 }) { cause := 0x17, tval := BitVec.ofNat 64 s.thr.lostNew }
  | e => e

/-- AN INSTRUCTION AT ITS BOUNDARY: due writes land, the checks and causes of R399 are considered, and its own part `body`
is executed where none of them takes its place. A vector instruction that stands in the vector unit completes, as of the
C-cycle in which it issued. -/
def runInsn (i : Instr) (st : BitVec 3) (body : State → Exe) (s : State) : Out :=
  let w := wordOf i
  match s.thr.vrun with
  | some t0 =>
    let s' := ({ s with now := t0 }).setThr { s.thr with vrun := none }
    .next { State.settle (usesOf s'.thr i) st w s'.thr.grp (body s').cutShort with now := s.now }
  | none =>
    let s := s.landDue
    let u := usesOf s.thr i
    match s.boundary u w with
    | some s' => .next s'
    | none => .next (State.settle u st w s.thr.grp (body s))

/-- Whether an instruction is a vector instruction other than `setlen` and the accesses to memory: majors 0x24 to 0x2D and
0x31 (R123). -/
def staysInUnit (i : Instr) : Bool :=
  let m := (wordOf i).toNat / 2 ^ 26
  (decide (0x24 ≤ m) && decide (m ≤ 0x2D)) || m == 0x31

/-- A vector instruction issues and stands in the unit until its thread's next turn completes it (R102, R169). -/
def State.beginInsn (s : State) (i : Instr) : State :=
  let s := s.landDue
  let u := usesOf s.thr i
  if !staysInUnit i || s.thr.vrun.isSome then s
  else match s.boundary u (wordOf i) with
  | some s' => s'
  | none => (s.underWay u (wordOf i) s.thr.grp).setThr { (s.underWay u (wordOf i) s.thr.grp).thr with vrun := some s.now }

/-! ### Ends of an instruction's own part -/

/-- A scalar result on its way: it lands `lat` C-cycles from issue (R119). -/
def State.later (s : State) (lat : Nat) (d : BitVec 5) (v : W64) (vec : Bool := false) : State :=
  s.setThr (s.thr.addPend (s.now + lat) (.s d.toNat v) vec)

/-- A fixed-latency scalar result and nothing else. -/
def exeLater (s : State) (lat : Nat) (d : BitVec 5) (v : W64) : Exe := .done (s.later lat d v)

/-- An interlocked scalar result and nothing else. -/
def exePut (s : State) (d : BitVec 5) (v : W64) : Exe := .done (s.setThr (s.thr.putS d.toNat v))

/-- A trap at the instruction, with nothing performed. -/
def exeTrap (s : State) (cause : Nat) (tval : W64) : Exe := .trap s { cause := cause, tval := tval }

/-- FFLAGS of the issuing thread with raised flags (R58). -/
def State.raise (s : State) (f : Flags) : State := s.setThr (s.thr.raise f)

/-- The value of a scalar operand at issue (R120). -/
def State.rs (s : State) (a : BitVec 5) : W64 := s.thr.readS a.toNat

end Sys2Proof.Machine
end

