-- ==== Sys2Proof/Machine/VecOps.lean ====
section
/-! DEFINITION. The strip: where elements stand in registers (R165), which are active (R101, R167), the checks of R169, and
writes of elements and mask bits that leave everything else undisturbed. -/

namespace Sys2Proof.Machine

/-- Elements per slice of a width and grouping (R100, R165). -/
def lanesOf (w g : Nat) : Nat := 2048 / w * g

/-- Register offset and bit position of a lane in its slice's group (R165). -/
def lanePlace (w g j : Nat) : Nat × Nat :=
  let q := 512 / w
  let o := j % (q * g)
  (o / q, w * (j / (q * g) * q + o % q))

/-- The slice number of a rank of the last grant (R100). -/
def Slot.sliceOf (x : Slot) (rank : Nat) : Nat := nth 0 x.ranks rank

/-- The bits of lane `j` of rank `r` in the group at `base` (R165). -/
def Slot.lane (x : Slot) (w g base r j : Nat) : Nat :=
  let (o, p) := lanePlace w g j
  bitsAt (x.readV (x.sliceOf r) (base + o)).toNat (p + w - 1) p

/-- Element `e` of the group at `base` under a width and grouping. -/
def Slot.elem (x : Slot) (w g base e : Nat) : Nat :=
  let l := lanesOf w g
  x.lane w g base (e / l) (e % l)

/-- Whether the block in force enables a rank (R101). -/
def Slot.rankOn (x : Slot) (r : Nat) : Bool :=
  if x.spanEn && decide (1 < x.spanw) then
    bitAt (bitsAt x.hdr.toNat 19 12) (x.sliceOf r) && bitAt x.att (x.sliceOf r) && decide (r < x.ranks.length)
  else r == 0

/-- The elements x < GLEN of the ranks the block enables (R167). -/
def Slot.inStrip (x : Slot) : List Nat :=
  let l := lanesOf (widthOf x.fmt) x.grp
  (rangeFrom 0 x.glen).filter fun e => x.rankOn (e / l)

/-- The active elements under mask register `k` (R167). -/
def Slot.active (x : Slot) (k : Nat) : List Nat :=
  let m := (x.readM k).toNat
  x.inStrip.filter fun e => m.testBit e

/-- What an instruction's strip checks refuse (R169): an unsupported strip type, an ill-formed modulus, a format outside
`ok`, a reserved rounding mode where it rounds. -/
def stripTrap (x : Slot) (ok : Kind → Nat → Bool) (rounds : Bool) : Option Trap :=
  let ty : W64 := x.csrv csrSTYPE
  match kindOf x.fmt with
  | none => some { cause := 0x03, tval := ty }
  | some k =>
    if x.ilf then some { cause := 0x03, tval := ty }
    else if k = .mod && !x.modOk then some { cause := 0x03, tval := ty }
    else if !ok k x.grp then some { cause := 0x04, tval := ty }
    else if rounds && x.rm.isNone then some { cause := 0x04, tval := x.csrv csrFRM }
    else none

/-- The checks of R169 before an instruction's own part. -/
def withStrip (s : State) (ok : Kind → Nat → Bool) (rounds : Bool) (body : Kind → Exe) : Exe :=
  match stripTrap s.thr ok rounds with
  | some t => .trap s t
  | none => match kindOf s.thr.fmt with
    | some k => body k
    | none => .done s

/-! Formats accepted (R169). -/
def okFloat (k : Kind) (_ : Nat) : Bool := k = .fp .f32 || k = .fp .f16 || k = .fp .b16
def okInt (k : Kind) (_ : Nat) : Bool := match k with | .int _ _ => true | _ => false
def okMod (k : Kind) (_ : Nat) : Bool := k = .mod
def okAny (k : Kind) (_ : Nat) : Bool := k ≠ .q4
def okRed (k : Kind) (g : Nat) : Bool := okFloat k g || okInt k g || okMod k g
def okQ4 (k : Kind) (g : Nat) : Bool := k = .fp .f32 && decide (g ≤ 4)

/-! ### Writing elements -/

/-- The mask and data of lanes to write, by slice × 32 + register. -/
def laneWrites (x : Slot) (w g base : Nat) : List (Nat × Nat) → Map (Nat × Nat)
  | [] => []
  | (e, v) :: r =>
    let l := lanesOf w g
    let (o, p) := lanePlace w g (e % l)
    let key := x.sliceOf (e / l) * 32 + (base + o)
    Map.modify (0, 0) (laneWrites x w g base r) key
      fun md => (md.1 ||| ((2 ^ w - 1) <<< p), md.2 ||| ((v % 2 ^ w) <<< p))

/-- The pending writes to a vector register land now: an interlocked write of it follows them (R119). -/
def Slot.landV (x : Slot) (n : Nat) : Slot :=
  let y := x.landList (x.pend.filter (fun p => p.isV n))
  { y with pend := x.pend.filter (fun p => !p.isV n) }

/-- Vector registers written under their masks: after a latency, or at once where the instruction is interlocked. -/
def Slot.writeLanes (x : Slot) (now : Nat) (lat : Option Nat) : Map (Nat × Nat) → Slot
  | [] => x
  | (key, mask, data) :: r =>
    let w : PendWrite := .v (key / 32) (key % 32) (BitVec.ofNat 2048 mask) (BitVec.ofNat 2048 data)
    let y := match lat with
      | some l => x.addPend (now + l) w
      | none => (x.landV (key % 32)).land1 w
    y.writeLanes now lat r

/-- Elements of the group at `base` written, everything else undisturbed (R167). -/
def State.putElems (s : State) (lat : Option Nat) (w g base : Nat) (es : List (Nat × Nat)) : State :=
  s.setThr (s.thr.writeLanes s.now lat (laneWrites s.thr w g base es))

/-- The number with the bits of a list set. -/
def bitsOfList : List Nat → Nat
  | [] => 0
  | e :: r => bitsOfList r ||| 2 ^ e

/-- Mask bits written at L = 8: the elements named, 1 or 0; other bits undisturbed. -/
def State.putMask (s : State) (d : Nat) (es : List (Nat × Bool)) : State :=
  let mask := bitsOfList (es.map (·.1))
  let data := bitsOfList ((es.filter (·.2)).map (·.1))
  s.setThr (s.thr.addPend (s.now + 8) (.m d (BitVec.ofNat 16384 mask) (BitVec.ofNat 16384 data)))

/-- Flags of a list of results. -/
def flagsOf (rs : List (Nat × Nat × Flags)) : Flags := rs.foldl (fun a r => a ||| r.2.2) flNone

/-- Every active element computed by `f` from its index, written, and the flags raised (R167, R58). -/
def exeMap (s : State) (lat : Option Nat) (d k : Nat) (f : Nat → Nat × Flags) : Exe :=
  let x := s.thr
  let rs := (x.active k).map fun e => (e, f e)
  let t := s.putElems lat (widthOf x.fmt) x.grp d (rs.map fun r => (r.1, r.2.1))
  .done (t.setThr (t.thr.raise (flagsOf rs)))

/-- An element of the current strip type. -/
def Slot.el (x : Slot) (base e : Nat) : Nat := x.elem (widthOf x.fmt) x.grp base e

/-- The rounding mode in force, once checked. -/
def Slot.rmd (x : Slot) : Rm := x.rm.getD .rne

/-- An element extended to 64 bits: iN by sign, the others by zero (R179). -/
def extendElem (k : Kind) (v : Nat) : W64 :=
  match k with
  | .int true w => BitVec.ofInt 64 (sintOf w v)
  | _ => BitVec.ofNat 64 v

end Sys2Proof.Machine
end

