-- ==== Sys2Proof/Machine/Vector.lean ====
section
/-! DEFINITION. Vector instructions: setlen (R162), float, fused, integer, modular, compare, mask, conversion, reductions,
permutes, exchange and Q4N (R172 to R189). -/

namespace Sys2Proof.Machine

/-! ### Shared own parts -/

/-- A two-operand float operation over the active elements (R172). -/
def exeVF2 (d a b : BitVec 5) (k : BitVec 3) (rounds : Bool) (f : Fmt → Rm → Nat → Nat → Nat → Nat × Flags)
    (s : State) : Exe :=
  withStrip s okFloat rounds fun kd => match kd with
    | .fp fm => exeMap s (some 8) d.toNat k.toNat fun e =>
        f fm s.thr.rmd (s.thr.srAt e) (s.thr.el a.toNat e) (s.thr.el b.toNat e)
    | _ => .done s

/-- A one-operand float operation over the active elements (R172). -/
def exeVF1 (d a : BitVec 5) (k : BitVec 3) (rounds : Bool) (f : Fmt → Rm → Nat → Nat → Nat × Flags) (s : State) : Exe :=
  exeVF2 d a a k rounds (fun fm rm r x _ => f fm rm r x) s

/-- A fused operation, vd its third source (R173). -/
def exeVFused (d a b : BitVec 5) (k : BitVec 3) (negP negC : Bool) (s : State) : Exe :=
  withStrip s okFloat true fun kd => match kd with
    | .fp fm => exeMap s (some 10) d.toNat k.toNat fun e =>
        fpFma fm s.thr.rmd (s.thr.srAt e) false negP negC (s.thr.el a.toNat e) (s.thr.el b.toNat e) (s.thr.el d.toNat e)
    | _ => .done s

/-- An integer operation by signedness and width (R174); results keep their low W bits. -/
def exeVI (d a b : BitVec 5) (k : BitVec 3) (f : Bool → Nat → Nat → Nat → Nat × Flags) (s : State) : Exe :=
  withStrip s okInt false fun kd => match kd with
    | .int sg w => exeMap s (some 8) d.toNat k.toNat fun e => f sg w (s.thr.el a.toNat e) (s.thr.el b.toNat e)
    | _ => .done s

/-- A modular operation (R175). -/
def exeVM (d a b : BitVec 5) (k : BitVec 3) (f : Nat → Nat → Nat → Nat × Flags) (s : State) : Exe :=
  withStrip s okMod false fun _ => exeMap s (some 8) d.toNat k.toNat fun e =>
    f s.thr.modq (s.thr.el a.toNat e) (s.thr.el b.toNat e)

/-- A relation between two elements of a kind: FP by R176, iN signed, nN and m32 unsigned as they stand. -/
def elemRel (kd : Kind) (rel : Rel) (x y : Nat) : Bool × Flags :=
  match kd with
  | .fp f => fpRel f rel x y
  | .int true w => (rel.holds (sintOf w x - sintOf w y), flNone)
  | _ => (rel.holds ((x : Int) - (y : Int)), flNone)

/-- vcmp (R176). -/
def exeVcmp (d : BitVec 3) (a b : BitVec 5) (k c : BitVec 3) (s : State) : Exe :=
  withStrip s okAny false fun kd =>
    let x := s.thr
    let rs := (x.active k.toNat).map fun e => (e, elemRel kd (Rel.ofCode c.toNat) (x.el a.toNat e) (x.el b.toNat e))
    let t := s.putMask d.toNat (rs.map fun r => (r.1, r.2.1))
    .done (t.setThr (t.thr.raise (rs.foldl (fun f r => f ||| r.2.2) flNone)))

/-- Mask logic over the bits x < GLEN of the ranks the block enables (R177). -/
def exeMask (d a b : BitVec 3) (f : Bool → Bool → Bool) (s : State) : Exe :=
  withStrip s okAny false fun _ =>
    let x := s.thr
    let ma := (x.readM a.toNat).toNat
    let mb := (x.readM b.toNat).toNat
    .done (s.putMask d.toNat (x.inStrip.map fun e => (e, f (ma.testBit e) (mb.testBit e))))

/-- A scalar from the bits set in ma and mk, at L = 8 (R177). -/
def exeMaskCount (d : BitVec 5) (a k : BitVec 3) (f : List Nat → W64) (s : State) : Exe :=
  withStrip s okAny false fun _ =>
    let ma := (s.thr.readM a.toNat).toNat
    .done (s.later 8 d (f ((s.thr.active k.toNat).filter fun e => ma.testBit e)) true)

/-- vcvt (R178): the source group has grouping max(1, g × Ws / W). An m32 source needs a well-formed modulus as an m32 strip
does (R41); where neither side is m32, the conversion rounds by FRM (R54, log 15). -/
def exeVcvt (d a : BitVec 5) (k : BitVec 3) (t : BitVec 1) (f : BitVec 4) (w : W32) (s : State) : Exe :=
  withStrip s okAny false fun dst =>
    let x := s.thr
    match kindOf f.toNat with
    | none => exeTrap s 0x04 (w.zeroExtend 64)
    | some src =>
      let ws := widthOf f.toNat
      let wd := widthOf x.fmt
      let gs := max 1 (x.grp * ws / wd)
      if src = .mod && !x.modOk then exeTrap s 0x03 (x.csrv csrSTYPE)
      else if src = .q4 || !cvtOffered src dst || decide (gs > 8) then exeTrap s 0x04 (w.zeroExtend 64)
      else if src ≠ .mod && dst ≠ .mod && x.rm.isNone then exeTrap s 0x04 (x.csrv csrFRM)
      else
        let l := lanesOf wd x.grp
        exeMap s (some 8) d.toNat k.toNat fun e =>
          convert src dst x.rmd (x.srAt e) (t = 1#1) x.modq (x.lane ws gs a.toNat (e / l) (e % l))

/-! Reductions (R60 to R62, R179) -/

/-- One addition of a reduction: rounded FP, residue, or wrapping integer. -/
def redAdd (kd : Kind) (x : Slot) (i a b : Nat) : Nat × Flags :=
  match kd with
  | .fp f => fpAdd f x.rmd (x.srAt i) a b
  | .mod => modAdd x.modq a b
  | .int _ w => ((a + b) % 2 ^ w, flNone)
  | .q4 => (a, flNone)

/-- Node (l, j) of the pairwise tree over 2^`top` leaves: the value where some leaf below it is present, and its flags.
`glen` bounds the leaves that can be present (R60). -/
def redTree (kd : Kind) (x : Slot) (top glen : Nat) (leaf : Nat → Option Nat) : Nat → Nat → Option (Nat × Flags)
  | 0, j => (leaf j).map fun v => (v, flNone)
  | l + 1, j =>
    if glen ≤ j * 2 ^ (l + 1) then none
    else match redTree kd x top glen leaf l (2 * j), redTree kd x top glen leaf l (2 * j + 1) with
    | some (a, f1), some (b, f2) =>
      let (v, f) := redAdd kd x (2 ^ (top - (l + 1)) + j) a b
      some (v, f1 ||| f2 ||| f)
    | some r, none => some r
    | none, r => r

/-- log2 of the smallest power of two at or above `n`. -/
def ceilLog2 (n : Nat) : Nat := if n ≤ 1 then 0 else (n - 1).log2 + 1

/-- vredsum by the tree (R60), vredsumo in order (R61); with no present element the seed as it stands (R62). -/
def exeRedSum (d a b : BitVec 5) (k : BitVec 3) (tree : Bool) (s : State) : Exe :=
  withStrip s okRed (match kindOf s.thr.fmt with | some (.fp _) => true | _ => false) fun kd =>
    let x := s.thr
    let w := widthOf x.fmt
    let seed := (s.rs b).toNat % 2 ^ w
    let es := x.active k.toNat
    let (v, fl) :=
      if tree then
        let gmax := lanesOf w x.grp * x.ranks.length
        let top := ceilLog2 gmax
        let m := (x.readM k.toNat).toNat
        let l := lanesOf w x.grp
        let leaf := fun e =>
          if e < x.glen ∧ m.testBit e ∧ x.rankOn (e / l) then some (x.el a.toNat e) else none
        match redTree kd x top x.glen leaf top 0 with
        | none => (seed, flNone)
        | some (r, f) => let (v, f') := redAdd kd x 0 seed r; (v, f ||| f')
      else es.foldl (fun (acc : Nat × Flags) e =>
        let (v, f) := redAdd kd x e acc.1 (x.el a.toNat e); (v, acc.2 ||| f)) (seed, flNone)
    exePut (s.raise fl) d (extendElem kd v)

/-- vredmax and vredmin (R62, R179). -/
def exeRedMinMax (d a b : BitVec 5) (k : BitVec 3) (mx : Bool) (s : State) : Exe :=
  withStrip s okRed false fun kd =>
    let x := s.thr
    let seed := (s.rs b).toNat % 2 ^ widthOf x.fmt
    let pick := fun (p q : Nat) => match kd with
      | .fp f => fpMinMax f mx p q
      | .int sg w => (if (intOf sg w p ≤ intOf sg w q) = (mx = true) then q else p, flNone)
      | _ => (if mx then max p q else min p q, flNone)
    let (v, fl) := (x.active k.toNat).foldl (fun (acc : Nat × Flags) e =>
      let (v, f) := pick acc.1 (x.el a.toNat e); (v, acc.2 ||| f)) (seed, flNone)
    exePut (s.raise fl) d (extendElem kd v)

/-- vredand and vredor on the raw bits (R62). -/
def exeRedBits (d a b : BitVec 5) (k : BitVec 3) (f : Nat → Nat → Nat) (s : State) : Exe :=
  withStrip s okAny false fun kd =>
    let x := s.thr
    let seed := (s.rs b).toNat % 2 ^ widthOf x.fmt
    exePut s d (extendElem kd ((x.active k.toNat).foldl (fun acc e => f acc (x.el a.toNat e)) seed))

/-! Permutes (R180 to R186): raw elements, interlocked; every source is read before a destination is written. -/

/-- Each active element written with `f thread GLEN L e`, left undisturbed where it answers none. -/
def exeLaneMap (d : BitVec 5) (k : BitVec 3) (f : Slot → Nat → Nat → Nat → Option Nat) (s : State) : Exe :=
  withStrip s okAny false fun _ =>
    let x := s.thr
    let w := widthOf x.fmt
    let es := (x.active k.toNat).filterMap fun e => (f x x.glen (lanesOf w x.grp) e).map fun v => (e, v)
    .done (s.putElems none w x.grp d.toNat es)

/-- The pairs (destination, source) of a list of selected elements of one rank packed from its base `b`. -/
def packFrom (b : Nat) : List Nat → List (Nat × Nat)
  | [] => []
  | e :: r => (b, e) :: packFrom (b + 1) r

/-- vcompress (`pack`) and vexpand (R183): mk selects within each enabled rank. -/
def exeCompress (d a : BitVec 5) (k : BitVec 3) (pack : Bool) (s : State) : Exe :=
  withStrip s okAny false fun _ =>
    let x := s.thr
    let w := widthOf x.fmt
    let l := lanesOf w x.grp
    let sel := x.active k.toNat
    let pairs := ((rangeFrom 0 x.ranks.length).map fun r => packFrom (r * l) (sel.filter fun e => e / l == r)).flatten
    let es := pairs.map fun (p, e) => if pack then (p, x.el a.toNat e) else (e, x.el a.toNat p)
    .done (s.putElems none w x.grp d.toNat es)

/-- The exchange distance of the block in force (R109); a block without span enable has distance 1 (R186). -/
def Slot.dist (x : Slot) : Nat := if x.spanEn then 2 ^ bitsAt x.hdr.toNat 11 10 else 1

/-- vxch and vxch.rot (R186): the partner of a rank, given the distance and the ranks of the last grant; a partner whose slice has
detached gives nothing (log 47). -/
def exeExchange (d a : BitVec 5) (k : BitVec 3) (partner : Nat → Nat → Nat → Nat) (s : State) : Exe :=
  withStrip s okAny false fun _ =>
    let x := s.thr
    let w := widthOf x.fmt
    let l := lanesOf w x.grp
    let n := x.ranks.length
    let es := (x.active k.toNat).filterMap fun e =>
      let p := partner (e / l) x.dist n
      if p < n && bitAt x.att (x.sliceOf p) then some (e, x.lane w x.grp a.toNat p (e % l)) else none
    .done (s.putElems none w x.grp d.toNat es)

/-! Q4N in registers (R187 to R189) -/

/-- The code and the scale code of a lane in a packed register of a slice (R187). -/
def q4RegCode (v : BitVec 2048) (j : Nat) : Nat := bitsAt v.toNat (4 * j + 3) (4 * j)
def q4RegScale (v : BitVec 2048) (b : Nat) : Nat := bitsAt v.toNat (1543 + 8 * b) (1536 + 8 * b)

/-- vq4dq (R188). -/
def exeQ4dq (d a b : BitVec 5) (k : BitVec 3) (s : State) : Exe :=
  withStrip s okQ4 false fun _ =>
    let x := s.thr
    let l := lanesOf 32 x.grp
    let super := (s.rs b).toNat % 2 ^ 32
    exeMap s (some 8) d.toNat k.toNat fun e =>
      let v := x.readV (x.sliceOf (e / l)) a.toNat
      q4Deq (q4RegCode v (e % l)) (q4RegScale v (e % l / 64)) super

/-- The packed register of a slice after quantising the active elements of one block of rank `r` (R189), and flags. -/
def q4RegBlock (x : Slot) (base super l r : Nat) (act : List Nat) (v : Nat × Flags) (blk : Nat) : Nat × Flags :=
  let es := act.filter fun e => e / l == r && e % l / 64 == blk
  match es with
  | [] => v
  | _ =>
    let (c, codes, fl) := q4Block super (es.map fun e => x.elem 32 x.grp base e)
    let w := setBits v.1 (1543 + 8 * blk) (1536 + 8 * blk) c
    ((es.zip codes).foldl (fun acc ec => setBits acc (4 * (ec.1 % l) + 3) (4 * (ec.1 % l)) ec.2) w, v.2 ||| fl)

/-- A vector register with the lane quarters from `q` upward read as zero (R168): quarter k is bits [512k + 511 : 512k]. -/
def dropQuarters (q : Nat) (v : BitVec 2048) : BitVec 2048 := BitVec.ofNat 2048 (v.toNat % 2 ^ (512 * q))

/-- What a thread holds of a register of its slice `k`: the lane quarters that its last grant left it, the others zero (R168,
R401, R405). -/
def Slot.heldPart (x : Slot) (k : Nat) (v : BitVec 2048) : BitVec 2048 :=
  dropQuarters (min 4 (x.given - 4 * (x.ranks.findIdx? (· == k)).getD 0)) v

/-- The rank `r` part of vq4q: its packed register written and its flags. Scale bytes of a quarter that the thread does not hold
are not kept: the spec does not say what becomes of them (R168, R189; the model's choice, log 34). -/
def q4RegRank (d : Nat) (x : Slot) (base super l : Nat) (act : List Nat) (acc : Slot × Flags) (r : Nat) : Slot × Flags :=
  let y := acc.1.landV d
  let old := (y.readV (x.sliceOf r) d).toNat
  let (v, fl) := (rangeFrom 0 (l / 64)).foldl (q4RegBlock x base super l r act) (old, flNone)
  (y.writeV (x.sliceOf r) d (x.heldPart (x.sliceOf r) (BitVec.ofNat 2048 v)), acc.2 ||| fl)

/-- vq4q (R189). -/
def exeQ4q (d a b : BitVec 5) (k : BitVec 3) (s : State) : Exe :=
  withStrip s okQ4 false fun _ =>
    let x := s.thr
    let l := lanesOf 32 x.grp
    let super := (s.rs b).toNat % 2 ^ 32
    let act := x.active k.toNat
    let ranks := (rangeFrom 0 x.ranks.length).filter fun r => anyB (fun e => e / l == r) act
    let (y, fl) := ranks.foldl (q4RegRank d.toNat x a.toNat super l act) (x, flNone)
    .done (s.setThr (y.raise fl))

/-! setlen (R162) -/

/-- A grant under CAP `c` and SCAP `sc`: the quarters at or above SCAP lose their contents, and the slices of ranks ⌈c / 4⌉ and
above are lent. What PCAP alone gates keeps its contents until another context takes it (R105, R168, R405; log 34). -/
def Slot.reclaim (x : Slot) (c : Nat × Nat) : Slot :=
  let y := { x with given := c.2, reclaimDue := none }
  { y with
    v := x.v.map fun kv => (kv.1, y.heldPart (kv.1 / 32) kv.2)
    lent := (x.lent ++ (x.ranks.drop ((c.1 + 3) / 4)).filter fun k => !x.lent.contains k && k != 0) }

/-- The slice slots a thread lends become free for the walker; one that had come back beside a switched-out context is that
context's alone again (R405, R408). -/
def State.lendSlices (s : State) (n : Nat) : State :=
  let x := s.slot n
  let again := fun (y : Slot) => y.back && anyB (fun k => y.lentFrom == some (n, k)) x.lent
  { s with slots := s.slots.map fun kv => match kv.2.use with
    | .slice l k => if l = n ∧ x.lent.contains k then (kv.1, { kv.2 with use := .free, lentFrom := some (n, k) }) else kv
    | _ => (kv.1, if again kv.2 then { kv.2 with back := false } else kv.2) }

/-- A slot that was lent is taken by another context: its owner's registers there are lost (R105, R168). -/
def State.takenOver (s : State) (m : Nat) : State :=
  match (s.slot m).lentFrom with
  | some (l, k) => s.modSlot l fun x => { x with v := x.v.dropKeys fun key => key / 32 == k }
  | none => s

/-- A slot's quarters reclaimed and its lent slices made free: at a grant, or, where the grant was made inside an atomic block,
once the thread has left it (R105, R112). -/
def State.reclaimSlot (s : State) (n : Nat) (c : Nat × Nat) : State := (s.modSlot n (·.reclaim c)).lendSlices n

/-- Whether a slot that a thread lent has returned: no context stands in it, or one that is switched out (R405). -/
def Slot.returned (x : Slot) : Bool :=
  match x.use with
  | .free => true
  | .resThread => !x.back
  | .resSlice _ _ => !x.back
  | _ => false

/-- A slot back with the thread it was lent from: as its slice, beside the reservation of a switched-out context. -/
def Slot.comeBack (x : Slot) (l k : Nat) : Slot :=
  if x.use = .free then { x with use := .slice l k, lentFrom := none } else { x with back := true }

/-- A slot back with thread `n` where it was lent from it. -/
def Slot.backTo (x : Slot) (n : Nat) : Slot :=
  match x.lentFrom with
  | some (l, k) => if l = n ∧ x.returned then x.comeBack n k else x
  | none => x

/-- Lent slices below rank `r` that have returned come back to their thread (R405). -/
def State.takeBack (s : State) (n r : Nat) : State :=
  let x := s.slot n
  let want := x.lent.filter fun k => decide ((x.ranks.findIdx? (· == k)).getD 8 < r)
  let back := want.filter fun k => anyB (fun (kv : Nat × Slot) => kv.2.lentFrom == some (n, k) && kv.2.returned) s.slots
  let slots : Map Slot := s.slots.map fun kv => match kv.2.lentFrom with
    | some (l, k) => if l = n ∧ back.contains k ∧ kv.2.returned then (kv.1, kv.2.comeBack n k) else kv
    | none => kv
  State.modSlot { s with slots := slots } n fun x => { x with lent := x.lent.filter fun k => !back.contains k }

/-- The leading ranks a thread still holds: a grant stops at the first lent one (R405). -/
def heldRanks (lent : List Nat) : List Nat → Nat
  | [] => 0
  | k :: r => if lent.contains k then 0 else heldRanks lent r + 1

/-- setlen (R162): waits for earlier vector work, grants from the slices attached now under the length cap, and records
the strip type. A grant frees what lies beyond the cap; inside an atomic block that waits for the block's end (R112). -/
def exeSetlen (d a : BitVec 5) (g : BitVec 2) (f : BitVec 4) (s : State) : Exe :=
  let x := s.thr
  if anyB Pend.vecWork x.pend then .wait s
  else
    let ranks := setPositions x.att 8
    let s := (s.setThr { x with ranks := ranks, scapAt := none }).takeBack s.cur ((x.cap + 3) / 4)
    let x := s.thr
    let fmt := f.toNat
    let ty := g.toNat * 16 + fmt
    if fmt ≥ 14 ∨ (fmt = 13 ∧ !x.modOk) then
      let x := (x.setCsr csrSTYPE (BitVec.ofNat 64 (256 + ty))).setCsr csrGLEN 0#64
      .done (s.setThr (x.putS d.toNat 0#64))
    else
      let w := widthOf fmt
      let gr := 2 ^ g.toNat
      let gmax := lanesOf w gr * ranks.length
      let lcape := x.cap * (512 / w) * gr
      let held := lanesOf w gr * heldRanks x.lent ranks
      let n := min (min (s.rs a).toNat gmax) (min lcape held)
      let x := (x.setCsr csrSTYPE (BitVec.ofNat 64 ty)).setCsr csrGLEN (BitVec.ofNat 64 n)
      let s := s.setThr (x.putS d.toNat (BitVec.ofNat 64 n))
      .done (if x.atom then s.setThr { s.thr with reclaimDue := some (x.cap, x.scap) } else s.reclaimSlot s.cur (x.cap, x.scap))

/-! ### Major 0x24: float (R172) -/

/-- vadd (R172): a + b. -/
def execVadd (st : BitVec 3) (d a b : BitVec 5) (k : BitVec 3) (s : State) : Out :=
  runInsn (.vadd st d a b k) st (exeVF2 d a b k true fpAdd) s

/-- vsub (R172): a − b. -/
def execVsub (st : BitVec 3) (d a b : BitVec 5) (k : BitVec 3) (s : State) : Out :=
  runInsn (.vsub st d a b k) st (exeVF2 d a b k true fpSub) s

/-- vmul (R172): a × b. -/
def execVmul (st : BitVec 3) (d a b : BitVec 5) (k : BitVec 3) (s : State) : Out :=
  runInsn (.vmul st d a b k) st (exeVF2 d a b k true fpMul) s

/-- vdiv (R172): a / b. -/
def execVdiv (st : BitVec 3) (d a b : BitVec 5) (k : BitVec 3) (s : State) : Out :=
  runInsn (.vdiv st d a b k) st (exeVF2 d a b k true fpDiv) s

/-- vmin (R172, R62): IEEE minimumNumber. -/
def execVmin (st : BitVec 3) (d a b : BitVec 5) (k : BitVec 3) (s : State) : Out :=
  runInsn (.vmin st d a b k) st
    (exeVF2 d a b k false fun f _ _ x y => fpMinMax f false x y) s

/-- vmax (R172, R62): IEEE maximumNumber. -/
def execVmax (st : BitVec 3) (d a b : BitVec 5) (k : BitVec 3) (s : State) : Out :=
  runInsn (.vmax st d a b k) st
    (exeVF2 d a b k false fun f _ _ x y => fpMinMax f true x y) s

/-- vabs (R172): the sign bit cleared. -/
def execVabs (st : BitVec 3) (d a : BitVec 5) (k : BitVec 3) (s : State) : Out :=
  runInsn (.vabs st d a k) st (exeVF1 d a k false fun f _ _ x => (f.withSign false x, flNone)) s

/-- vneg (R172): the sign bit inverted. -/
def execVneg (st : BitVec 3) (d a : BitVec 5) (k : BitVec 3) (s : State) : Out :=
  runInsn (.vneg st d a k) st (exeVF1 d a k false fun f _ _ x => (f.withSign (!f.signOf x) x, flNone)) s

/-- vsqrt (R172): √a. -/
def execVsqrt (st : BitVec 3) (d a : BitVec 5) (k : BitVec 3) (s : State) : Out :=
  runInsn (.vsqrt st d a k) st (exeVF1 d a k true fun f rm r x => fpSqrt f rm r x) s

/-- vrsq (R172): 1/√a, rounded once. -/
def execVrsq (st : BitVec 3) (d a : BitVec 5) (k : BitVec 3) (s : State) : Out :=
  runInsn (.vrsq st d a k) st (exeVF1 d a k true fun f rm r x => fpRsq f rm r x) s

/-- vrcp (R172): 1/a, rounded once. -/
def execVrcp (st : BitVec 3) (d a : BitVec 5) (k : BitVec 3) (s : State) : Out :=
  runInsn (.vrcp st d a k) st (exeVF1 d a k true fun f rm r x => fpRcp f rm r x) s

/-- vexp2 (R172): 2^a, rounded once. -/
def execVexp2 (st : BitVec 3) (d a : BitVec 5) (k : BitVec 3) (s : State) : Out :=
  runInsn (.vexp2 st d a k) st (exeVF1 d a k true fun f rm r x => fpExp2 f rm r x) s

/-- vclass (R172): the class code. -/
def execVclass (st : BitVec 3) (d a : BitVec 5) (k : BitVec 3) (s : State) : Out :=
  runInsn (.vclass st d a k) st (exeVF1 d a k false fun f _ _ x => (fpClass f x, flNone)) s

/-! ### Major 0x25: fused (R173) -/

/-- vfma (R173): a × b + d, rounded once. -/
def execVfma (st : BitVec 3) (d a b : BitVec 5) (k : BitVec 3) (s : State) : Out :=
  runInsn (.vfma st d a b k) st
    (exeVFused d a b k false false) s

/-- vfms (R173): a × b − d, rounded once. -/
def execVfms (st : BitVec 3) (d a b : BitVec 5) (k : BitVec 3) (s : State) : Out :=
  runInsn (.vfms st d a b k) st
    (exeVFused d a b k false true) s

/-- vfnma (R173): −(a × b) − d, rounded once. -/
def execVfnma (st : BitVec 3) (d a b : BitVec 5) (k : BitVec 3) (s : State) : Out :=
  runInsn (.vfnma st d a b k) st
    (exeVFused d a b k true true) s

/-- vfnms (R173): −(a × b) + d, rounded once. -/
def execVfnms (st : BitVec 3) (d a b : BitVec 5) (k : BitVec 3) (s : State) : Out :=
  runInsn (.vfnms st d a b k) st
    (exeVFused d a b k true false) s

/-! ### Major 0x26: integer (R174) -/

/-- viadd (R174): A + B. -/
def execViadd (st : BitVec 3) (d a b : BitVec 5) (k : BitVec 3) (s : State) : Out :=
  runInsn (.viadd st d a b k) st
    (exeVI d a b k fun _ _ x y => (x + y, flNone)) s

/-- visub (R174): A − B. -/
def execVisub (st : BitVec 3) (d a b : BitVec 5) (k : BitVec 3) (s : State) : Out :=
  runInsn (.visub st d a b k) st
    (exeVI d a b k fun _ w x y => (x + 2 ^ w - y, flNone)) s

/-- vimul (R174): low W bits of A × B. -/
def execVimul (st : BitVec 3) (d a b : BitVec 5) (k : BitVec 3) (s : State) : Out :=
  runInsn (.vimul st d a b k) st
    (exeVI d a b k fun _ _ x y => (x * y, flNone)) s

/-- vimulh (R174): high W bits of the product, signed or unsigned by FMT. -/
def execVimulh (st : BitVec 3) (d a b : BitVec 5) (k : BitVec 3) (s : State) : Out :=
  runInsn (.vimulh st d a b k) st
    (exeVI d a b k fun sg w x y => (natOfInt w ((intOf sg w x * intOf sg w y) / 2 ^ w), flNone)) s

/-- vand (R174): A AND B. -/
def execVand (st : BitVec 3) (d a b : BitVec 5) (k : BitVec 3) (s : State) : Out :=
  runInsn (.vand st d a b k) st
    (exeVI d a b k fun _ _ x y => (x &&& y, flNone)) s

/-- vor (R174): A OR B. -/
def execVor (st : BitVec 3) (d a b : BitVec 5) (k : BitVec 3) (s : State) : Out :=
  runInsn (.vor st d a b k) st
    (exeVI d a b k fun _ _ x y => (x ||| y, flNone)) s

/-- vxor (R174): A XOR B. -/
def execVxor (st : BitVec 3) (d a b : BitVec 5) (k : BitVec 3) (s : State) : Out :=
  runInsn (.vxor st d a b k) st
    (exeVI d a b k fun _ _ x y => (x ^^^ y, flNone)) s

/-- vsll (R174): A << (B mod W). -/
def execVsll (st : BitVec 3) (d a b : BitVec 5) (k : BitVec 3) (s : State) : Out :=
  runInsn (.vsll st d a b k) st
    (exeVI d a b k fun _ w x y => (x <<< (y % w), flNone)) s

/-- vsrl (R174): A >> (B mod W), zeros shifted in. -/
def execVsrl (st : BitVec 3) (d a b : BitVec 5) (k : BitVec 3) (s : State) : Out :=
  runInsn (.vsrl st d a b k) st
    (exeVI d a b k fun _ w x y => (x >>> (y % w), flNone)) s

/-- vsra (R174): A >> (B mod W), copies of A[W−1] shifted in. -/
def execVsra (st : BitVec 3) (d a b : BitVec 5) (k : BitVec 3) (s : State) : Out :=
  runInsn (.vsra st d a b k) st
    (exeVI d a b k fun _ w x y => (natOfInt w (sintOf w x / 2 ^ (y % w)), flNone)) s

/-- vimin (R174): signed minimum, whatever FMT. -/
def execVimin (st : BitVec 3) (d a b : BitVec 5) (k : BitVec 3) (s : State) : Out :=
  runInsn (.vimin st d a b k) st
    (exeVI d a b k fun _ w x y => (if sintOf w x ≤ sintOf w y then x else y, flNone)) s

/-- vimax (R174): signed maximum, whatever FMT. -/
def execVimax (st : BitVec 3) (d a b : BitVec 5) (k : BitVec 3) (s : State) : Out :=
  runInsn (.vimax st d a b k) st
    (exeVI d a b k fun _ w x y => (if sintOf w x ≤ sintOf w y then y else x, flNone)) s

/-- vminn (R174): unsigned minimum, whatever FMT. -/
def execVminn (st : BitVec 3) (d a b : BitVec 5) (k : BitVec 3) (s : State) : Out :=
  runInsn (.vminn st d a b k) st
    (exeVI d a b k fun _ _ x y => (min x y, flNone)) s

/-- vmaxn (R174): unsigned maximum, whatever FMT. -/
def execVmaxn (st : BitVec 3) (d a b : BitVec 5) (k : BitVec 3) (s : State) : Out :=
  runInsn (.vmaxn st d a b k) st
    (exeVI d a b k fun _ _ x y => (max x y, flNone)) s

/-- viadds (R174): A + B clamped to the range of FMT, with SAT. -/
def execViadds (st : BitVec 3) (d a b : BitVec 5) (k : BitVec 3) (s : State) : Out :=
  runInsn (.viadds st d a b k) st
    (exeVI d a b k fun sg w x y => clampInt sg w flSAT (intOf sg w x + intOf sg w y)) s

/-- visubs (R174): A − B clamped to the range of FMT, with SAT. -/
def execVisubs (st : BitVec 3) (d a b : BitVec 5) (k : BitVec 3) (s : State) : Out :=
  runInsn (.visubs st d a b k) st
    (exeVI d a b k fun sg w x y => clampInt sg w flSAT (intOf sg w x - intOf sg w y)) s

/-! ### Major 0x27: modular (R175) -/

/-- vmadd (R175): (A + B) mod q. -/
def execVmadd (st : BitVec 3) (d a b : BitVec 5) (k : BitVec 3) (s : State) : Out :=
  runInsn (.vmadd st d a b k) st (exeVM d a b k modAdd) s

/-- vmsub (R175): (A − B) mod q. -/
def execVmsub (st : BitVec 3) (d a b : BitVec 5) (k : BitVec 3) (s : State) : Out :=
  runInsn (.vmsub st d a b k) st (exeVM d a b k modSub) s

/-- vmmul (R175): (A × B) mod q. -/
def execVmmul (st : BitVec 3) (d a b : BitVec 5) (k : BitVec 3) (s : State) : Out :=
  runInsn (.vmmul st d a b k) st (exeVM d a b k modMul) s

/-- vmred (R175): A, read as an n32 integer, mod q; no flag. -/
def execVmred (st : BitVec 3) (d a : BitVec 5) (k : BitVec 3) (s : State) : Out :=
  runInsn (.vmred st d a k) st (exeVM d a a k fun q x _ => (x % q, flNone)) s

/-! ### Majors 0x28 and 0x29: compare and mask logic (R176, R177) -/

/-- vcmp (R176): bit x of md := the relation, for each active x. -/
def execVcmp (st d : BitVec 3) (a b : BitVec 5) (k c : BitVec 3) (s : State) : Out :=
  runInsn (.vcmp st d a b k c) st (exeVcmp d a b k c) s

/-- mand (R177): ma[x] AND mb[x]. -/
def execMand (st d a b : BitVec 3) (s : State) : Out :=
  runInsn (.mand st d a b) st (exeMask d a b fun x y => x && y) s

/-- mor (R177): ma[x] OR mb[x]. -/
def execMor (st d a b : BitVec 3) (s : State) : Out :=
  runInsn (.mor st d a b) st (exeMask d a b fun x y => x || y) s

/-- mxor (R177): ma[x] XOR mb[x]. -/
def execMxor (st d a b : BitVec 3) (s : State) : Out :=
  runInsn (.mxor st d a b) st (exeMask d a b fun x y => x != y) s

/-- mandn (R177): ma[x] AND NOT mb[x]. -/
def execMandn (st d a b : BitVec 3) (s : State) : Out :=
  runInsn (.mandn st d a b) st (exeMask d a b fun x y => x && !y) s

/-- mnot (R177): NOT ma[x]. -/
def execMnot (st d a : BitVec 3) (s : State) : Out :=
  runInsn (.mnot st d a) st (exeMask d a a fun x _ => !x) s

/-- mpopc (R177): the count of x with ma[x] = 1 and mk[x] = 1. -/
def execMpopc (st : BitVec 3) (d : BitVec 5) (a k : BitVec 3) (s : State) : Out :=
  runInsn (.mpopc st d a k) st
    (exeMaskCount d a k fun es => BitVec.ofNat 64 es.length) s

/-- mfirst (R177): the lowest such x, or all ones when there is none. -/
def execMfirst (st : BitVec 3) (d : BitVec 5) (a k : BitVec 3) (s : State) : Out :=
  runInsn (.mfirst st d a k) st
    (exeMaskCount d a k fun es => match es with | [] => BitVec.allOnes 64 | e :: _ => BitVec.ofNat 64 e) s

/-- mset (R177): md[x] := 1 if x < s(a) unsigned, else 0. -/
def execMset (st d : BitVec 3) (a : BitVec 5) (s : State) : Out :=
  runInsn (.mset st d a) st
    (fun s => withStrip s okAny false fun _ =>
      .done (s.putMask d.toNat (s.thr.inStrip.map fun e => (e, decide (e < (s.rs a).toNat))))) s

/-! ### Major 0x2A: conversion (R178) -/

/-- vcvt (R178): each active element from the source format to the STYPE format; t is the saturate bit. -/
def execVcvt (st : BitVec 3) (d a : BitVec 5) (k : BitVec 3) (t : BitVec 1) (f : BitVec 4) (s : State) : Out :=
  runInsn (.vcvt st d a k t f) st
    (exeVcvt d a k t f (wordOf (.vcvt st d a k t f))) s

/-! ### Major 0x2B: reductions (R179) -/

/-- vredsum (R179): pairwise tree of R60. -/
def execVredsum (st : BitVec 3) (d a b : BitVec 5) (k : BitVec 3) (s : State) : Out :=
  runInsn (.vredsum st d a b k) st
    (exeRedSum d a b k true) s

/-- vredsumo (R179): sequential sum of R61. -/
def execVredsumo (st : BitVec 3) (d a b : BitVec 5) (k : BitVec 3) (s : State) : Out :=
  runInsn (.vredsumo st d a b k) st
    (exeRedSum d a b k false) s

/-- vredmax (R179): maximum. -/
def execVredmax (st : BitVec 3) (d a b : BitVec 5) (k : BitVec 3) (s : State) : Out :=
  runInsn (.vredmax st d a b k) st
    (exeRedMinMax d a b k true) s

/-- vredmin (R179): minimum. -/
def execVredmin (st : BitVec 3) (d a b : BitVec 5) (k : BitVec 3) (s : State) : Out :=
  runInsn (.vredmin st d a b k) st
    (exeRedMinMax d a b k false) s

/-- vredand (R179): AND of raw bits. -/
def execVredand (st : BitVec 3) (d a b : BitVec 5) (k : BitVec 3) (s : State) : Out :=
  runInsn (.vredand st d a b k) st
    (exeRedBits d a b k (· &&& ·)) s

/-- vredor (R179): OR of raw bits. -/
def execVredor (st : BitVec 3) (d a b : BitVec 5) (k : BitVec 3) (s : State) : Out :=
  runInsn (.vredor st d a b k) st
    (exeRedBits d a b k (· ||| ·)) s

/-! ### Major 0x2C: permutes (R180 to R185) -/

/-- vperm (R181): by the indices of vb inside each rank. -/
def execVperm (st : BitVec 3) (d a b : BitVec 5) (k : BitVec 3) (s : State) : Out :=
  runInsn (.vperm st d a b k) st
    (exeLaneMap d k fun x g l e =>
      let i := x.el b.toNat e
      let r := e / l
      some (if i < l ∧ r * l + i < g then x.el a.toNat (r * l + i) else 0)) s

/-- vslup (R181): lanes moved up by s(b); the lowest lanes are undisturbed. -/
def execVslup (st : BitVec 3) (d a b : BitVec 5) (k : BitVec 3) (s : State) : Out :=
  runInsn (.vslup st d a b k) st
    (exeLaneMap d k fun x _ l e =>
      let n := (x.readS b.toNat).toNat
      if e % l < n then none else some (x.el a.toNat (e - n))) s

/-- vsldn (R181): lanes moved down by s(b), zero where none is left. -/
def execVsldn (st : BitVec 3) (d a b : BitVec 5) (k : BitVec 3) (s : State) : Out :=
  runInsn (.vsldn st d a b k) st
    (exeLaneMap d k fun x g l e =>
      let n := (x.readS b.toNat).toNat
      some (if e % l + n < l ∧ e + n < g then x.el a.toNat (e + n) else 0)) s

/-- vmerge (R182): va where mk is 1, vb elsewhere, over every element x < GLEN. -/
def execVmerge (st : BitVec 3) (d a b : BitVec 5) (k : BitVec 3) (s : State) : Out :=
  runInsn (.vmerge st d a b k) st
    (exeLaneMap d 0#3 fun x _ _ e =>
      some (if (x.readM k.toNat).getLsbD e then x.el a.toNat e else x.el b.toNat e)) s

/-- vcompress (R183): the selected lanes of each rank packed to its lowest lanes. -/
def execVcompress (st : BitVec 3) (d a : BitVec 5) (k : BitVec 3) (s : State) : Out :=
  runInsn (.vcompress st d a k) st (exeCompress d a k true) s

/-- vexpand (R183): the lowest lanes of each rank spread to its selected lanes. -/
def execVexpand (st : BitVec 3) (d a : BitVec 5) (k : BitVec 3) (s : State) : Out :=
  runInsn (.vexpand st d a k) st (exeCompress d a k false) s

/-- viota (R184): the rank base plus the number of lower lanes of the rank whose mask bit is set. -/
def execViota (st : BitVec 3) (d : BitVec 5) (k : BitVec 3) (s : State) : Out :=
  runInsn (.viota st d k) st
    (exeLaneMap d 0#3 fun x _ l e => some (e / l * l + popCount ((x.readM k.toNat).toNat >>> (e / l * l)) (e % l))) s

/-- vbcast (R185): the low W bits of s(a) in every active element. -/
def execVbcast (st : BitVec 3) (d a : BitVec 5) (k : BitVec 3) (s : State) : Out :=
  runInsn (.vbcast st d a k) st
    (exeLaneMap d k fun x _ _ _ => some (x.readS a.toNat).toNat) s

/-- vextract (R185): element s(b) of va from whichever rank holds it, 0 at or beyond GLEN. -/
def execVextract (st : BitVec 3) (d a b : BitVec 5) (s : State) : Out :=
  runInsn (.vextract st d a b) st
    (fun s => withStrip s okAny false fun kd =>
      let e := (s.rs b).toNat
      exePut s d (if e < s.thr.glen then extendElem kd (s.thr.el a.toNat e) else 0#64)) s

/-! ### Major 0x2D: exchange across slices (R186) -/

/-- vxch (R186): each rank takes its elements from rank s XOR D. -/
def execVxch (st : BitVec 3) (d a : BitVec 5) (k : BitVec 3) (s : State) : Out :=
  runInsn (.vxch st d a k) st (exeExchange d a k fun r dist _ => r ^^^ dist) s

/-- vxch.rot (R186): from rank (s − D) mod A. -/
def execVxchRot (st : BitVec 3) (d a : BitVec 5) (k : BitVec 3) (s : State) : Out :=
  runInsn (.vxchRot st d a k) st
    (exeExchange d a k fun r dist n => (((r : Int) - (dist : Int)) % (n : Int)).toNat) s

/-! ### Major 0x31: Q4N in registers (R187 to R189) -/

/-- vq4dq (R188): dequantises the packed register va with the super-scale in s(b). -/
def execVq4dq (st : BitVec 3) (d a b : BitVec 5) (k : BitVec 3) (s : State) : Out :=
  runInsn (.vq4dq st d a b k) st (exeQ4dq d a b k) s

/-- vq4q (R189): quantises the FP32 group va into the packed register vd. -/
def execVq4q (st : BitVec 3) (d a b : BitVec 5) (k : BitVec 3) (s : State) : Out :=
  runInsn (.vq4q st d a b k) st (exeQ4q d a b k) s

/-! ### Major 0x23: setlen (R162 to R164) -/

/-- setlen (R162): requests s(a) elements of a format and grouping and answers the grant. -/
def execSetlen (st : BitVec 3) (d a : BitVec 5) (g : BitVec 2) (f : BitVec 4) (s : State) : Out :=
  runInsn (.setlen st d a g f) st (exeSetlen d a g f) s

end Sys2Proof.Machine
end

