-- ==== Sys2Proof/Machine/Tensor.lean ====
section
/-! DEFINITION. Tensor descriptors: their fields (R28, R29), their well-formedness (R30) and element addresses (R31, R32). -/

namespace Sys2Proof.Machine

/-- A tensor descriptor's fields (R28). -/
structure Tensor where
  fmt : Nat
  grp : Nat
  layout : Nat
  ndim : Nat
  base : Nat
  sizes : List Nat
  strides : List Int
  deriving DecidableEq, Repr

/-- Word `i` of a list as a number. -/
def wordAt (ws : List W64) (i : Nat) : Nat := (nth 0#64 ws i).toNat

/-- Element sizes in bytes by format code (R29). -/
def elemSize (fmt : Nat) : Nat :=
  nth 0 [4, 2, 2, 1, 1, 1, 2, 4, 8, 1, 2, 4, 8, 4, 8704, 0] fmt

/-- SIZEk. -/
def tensorSize (ws : List W64) (k : Nat) : Nat := bitsAt (wordAt ws (1 + k / 2)) (32 * (k % 2) + 31) (32 * (k % 2))
/-- STRIDEk. -/
def tensorStride (ws : List W64) (k : Nat) : Int := (nth 0#64 ws (6 + k)).toInt

/-- The fields of a descriptor of 16 words. -/
def tensorOf (ws : List W64) : Tensor :=
  let w := wordAt ws 0
  let n := bitsAt w 51 48
  { fmt := bitsAt w 59 56, grp := bitsAt w 55 54, layout := bitsAt w 53 52, ndim := n, base := bitsAt w 47 0,
    sizes := (rangeFrom 0 n).map (tensorSize ws), strides := (rangeFrom 0 n).map (tensorStride ws) }

/-- The number of elements. -/
def Tensor.count (t : Tensor) : Nat := t.sizes.foldl (fun a s => a * s) 1

/-- The alignment of addresses and strides: E, or 64 for q4 (R30). -/
def Tensor.align (t : Tensor) : Nat := if t.fmt = 14 then 64 else elemSize t.fmt

/-- Channels in a group (R31). -/
def Tensor.group (t : Tensor) : Nat := 16 <<< t.grp

/-- Whether a descriptor at an address is malformed (R30). -/
def tensorBad (addr : Nat) (ws : List W64) : Bool :=
  let t := tensorOf ws
  let strideOk := fun (k : Nat) (s : Int) =>
    s % (if t.layout = 1 ∧ k = 0 then (t.group * elemSize t.fmt : Int) else (t.align : Int)) == 0
  addr % 64 ≠ 0 || t.ndim < 1 || t.ndim > 10 || t.fmt = 15 || t.layout > 1 || (t.layout = 1 && t.fmt = 14)
    || t.grp = 3 || (t.grp ≠ 0 && t.layout ≠ 1) || t.base % t.align ≠ 0
    || !allB (fun k => strideOk k (tensorStride ws k)) (rangeFrom 0 t.ndim)
    || anyB (fun k => tensorSize ws k ≠ 0 || tensorStride ws k ≠ 0) (rangeFrom t.ndim (10 - t.ndim))
    || t.count ≥ 2 ^ 48 || bitsAt (wordAt ws 0) 63 60 ≠ 0

/-- The coordinates of an element index, dimension 0 first (R31). -/
def coordsOf (idx : Nat) : List Nat → List Nat
  | [] => []
  | s :: r => idx % s :: coordsOf (idx / s) r

/-- The sum of coordinates times strides. -/
def strideSum : List Nat → List Int → Int
  | i :: is, s :: ss => (i : Int) * s + strideSum is ss
  | _, _ => 0

/-- The address of the element at coordinates, in 64-bit two's complement (R31). -/
def Tensor.addrOf (t : Tensor) (cs : List Nat) : Nat :=
  let i0 := nth 0 cs 0
  let first : Int :=
    if t.layout = 0 then (i0 : Int) * nth 0 t.strides 0
    else ((i0 % t.group * elemSize t.fmt : Nat) : Int) + ((i0 / t.group : Nat) : Int) * nth 0 t.strides 0
  natOfInt 64 ((t.base : Int) + first + strideSum (cs.drop 1) (t.strides.drop 1))

/-- The address of an element index. -/
def Tensor.addr (t : Tensor) (idx : Nat) : Nat := t.addrOf (coordsOf idx t.sizes)

end Sys2Proof.Machine
end

