-- ==== Sys2Proof/Machine/GridWords.lean ====
section
/-! DEFINITION. Configuration words: the fields of switch, brick, tile and Factor Engine planes (R201, R205, R208, R209, R211
to R214, R218, R219, R221, R222, R262 to R265), configuration images (R227) and the checks of `cfgload` (R204, R207, R210,
R211, R218 to R223, R229, R230, R266, R270). -/

namespace Sys2Proof.Machine

/-! ### Positions (R190) -/

/-- A position holds a brick where r + c is even. -/
def isBrick (p : Nat) : Bool := (p / 8 + p % 8) % 2 == 0

/-- The tile index of a tile position (R201): its rank among tile positions. -/
def tileIndex (p : Nat) : Nat := p / 2

/-- The position of a tile index. -/
def tilePos (k : Nat) : Nat := 2 * k + (if isBrick (2 * k) then 1 else 0)

/-- The switch position of a stream port (R197). -/
def portPos (n : Nat) : Nat := if n < 4 then n * 8 else (n - 4) * 8 + 7

/-- The stream port at a switch position, if any. -/
def posPort (p : Nat) : Option Nat := if p % 8 = 0 then some (p / 8) else if p % 8 = 7 then some (4 + p / 8) else none

/-! ### Switch words (R201) -/

/-- OSN, OSE, OSS, OSW, OSX: the source of output `d`. -/
def swOut (sw : List W64) (d : Nat) : Nat := bitsAt (wordAt sw 0) (4 * d + 3) (4 * d)
def swSpill (sw : List W64) : Nat := bitsAt (wordAt sw 0) 24 20
def swFeatt (sw : List W64) : Bool := bitAt (wordAt sw 0) 25
/-- MAS1, MAS2, MBS1, MBS2: source `i` of merge pair `m`. -/
def swMerge (sw : List W64) (m i : Nat) : Nat := bitsAt (wordAt sw 1) (8 * m + 4 * i + 3) (8 * m + 4 * i)
/-- CSN, CSE, CSS, CSW: the control source of control output `d`. -/
def swCtl (sw : List W64) (d : Nat) : Nat := bitsAt (wordAt sw 1) (18 + 3 * d) (16 + 3 * d)
def swFecin (sw : List W64) : Nat := bitsAt (wordAt sw 1) 30 28
def swSptile (sw : List W64) : Nat := bitsAt (wordAt sw 1) 35 32

/-! ### Brick words -/

/-- Stage `k`'s word (R205). -/
def stOp (b : List W64) (k : Nat) : Nat := bitsAt (wordAt b k) 63 56
/-- SA, SB, SC. -/
def stSrc (b : List W64) (k i : Nat) : Nat := bitsAt (wordAt b k) (55 - 4 * i) (52 - 4 * i)
def stDst (b : List W64) (k : Nat) : Nat := bitsAt (wordAt b k) 43 41
def stFmt (b : List W64) (k : Nat) : Nat := bitsAt (wordAt b k) 40 37
def stRnd (b : List W64) (k : Nat) : Rm := Rm.ofBrickCode (bitsAt (wordAt b k) 36 35)
def stSat (b : List W64) (k : Nat) : Bool := bitAt (wordAt b k) 34
def stPu (b : List W64) (k : Nat) : Nat := bitsAt (wordAt b k) 33 32
def stImm (b : List W64) (k : Nat) : Nat := bitsAt (wordAt b k) 31 0
/-- SELN, SELE, SELS, SELW (R208). -/
def brSel (b : List W64) (p : Nat) : Nat := bitsAt (wordAt b 6) (8 * p + 2) (8 * p)
/-- CONS: mode `m` consumes port `p` (R208). -/
def brCons (b : List W64) (m p : Nat) : Bool := bitAt (wordAt b 7) (4 * m + p)
def brTs (b : List W64) (o : Nat) : Nat := bitsAt (wordAt b 8) (2 * o + 1) (2 * o)
def brTk (b : List W64) (o : Nat) : Nat := bitsAt (wordAt b 8) (8 * o + 11) (8 * o + 4)
def brTm (b : List W64) : Nat := let t := bitsAt (wordAt b 8) 24 20; if t = 0 then 16 else t
def brFlt (b : List W64) (o : Nat) : Bool := bitAt (wordAt b 8) (25 + o)
/-- RN, RE, RS, RW, RO0, RO1 for `i` 0 to 5 (R211). -/
def brRate (b : List W64) (i : Nat) : Nat := bitsAt (wordAt b 9) (4 * i + 3) (4 * i)
def brLag (b : List W64) (o : Nat) : Nat := bitsAt (wordAt b 9) (8 * o + 31) (8 * o + 24)
/-- Constant K`j` (R214). -/
def brK (b : List W64) (j : Nat) : Nat := bitsAt (wordAt b (10 + j / 2)) (32 * (j % 2) + 31) (32 * (j % 2))
/-- The mode table's entry (R212): the enable of stage `k`, and of output `o`. -/
def brStageOn (b : List W64) (m k : Nat) : Bool := bitAt (wordAt b 14) (8 * m + 2 + k)
def brOutOn (b : List W64) (m o : Nat) : Bool := bitAt (wordAt b 14) (8 * m + 1 - o)
def brMcnt (b : List W64) : Nat := bitsAt (wordAt b 15) 2 0
def brCin (b : List W64) : Nat := bitsAt (wordAt b 15) 5 3
def brMadv (b : List W64) : Bool := bitAt (wordAt b 15) 6
def brCeos (b : List W64) : Bool := bitAt (wordAt b 15) 7
def brInit (b : List W64) : Nat := bitsAt (wordAt b 15) 11 8
def brTchk (b : List W64) : Bool := bitAt (wordAt b 15) 12
def brTcport (b : List W64) : Nat := bitsAt (wordAt b 15) 14 13
def brTcbase (b : List W64) : Nat := bitsAt (wordAt b 15) 23 16
def brTclen (b : List W64) : Nat := bitsAt (wordAt b 15) 28 24

/-- The operands an operation uses, as the first of A, B, C (R206). -/
def opArity (op : Nat) : Nat :=
  if op = 0x00 ∨ op = 0x39 ∨ op = 0x3A ∨ op = 0x3C then 1
  else if op = 0x3B then 0
  else if op = 0x04 ∨ op = 0x05 ∨ op = 0x23 then 3 else 2

/-- The operands a stage reads: those of its operation, and A where a lane can keep it (R203). -/
def stReads (b : List W64) (k : Nat) : List Nat :=
  (rangeFrom 0 (max (opArity (stOp b k)) (if stPu b k = 0 then 0 else 1))).map (stSrc b k)

/-- The ports that the stages of a mode read (R208), from stage `k` on, `n` stages: `via` are the ports whose value a
disabled stage 0 passes on (R203). -/
def modeReads (b : List W64) (m k : Nat) (via : List Nat) : Nat → List Nat
  | 0 => []
  | n + 1 =>
    if brStageOn b m k then
      let own := (stReads b k).filter fun c => decide (1 ≤ c) && decide (c ≤ 4)
      let prev := if k ≠ 0 && (stReads b k).contains 0 then via else []
      own.map (· - 1) ++ prev ++ modeReads b m (k + 1) [] n
    else
      let via := if k = 0 then (let c := stSrc b 0 0; if 1 ≤ c ∧ c ≤ 4 then [c - 1] else []) else via
      modeReads b m (k + 1) via n

/-- Whether mode `m` reads port `p`. -/
def brReads (b : List W64) (m p : Nat) : Bool := (modeReads b m 0 [] 6).contains p

/-- The modes of a cycle. -/
def brModes (b : List W64) : List Nat := rangeFrom 0 (brMcnt b + 1)

/-- Whether port `p` is consumed or read in mode `m`. -/
def brUses (b : List W64) (m p : Nat) : Bool := brCons b m p || brReads b m p

/-- Whether port `p` is used in some mode: a consumer of the FIFO it selects (R198). -/
def brPortUsed (b : List W64) (p : Nat) : Bool := anyB (fun m => brUses b m p) (brModes b)

/-- Whether the brick drives output `o` in some mode, or by its initial tokens (R194, R213). -/
def brDrives (b : List W64) (o : Nat) : Bool := anyB (fun m => brOutOn b m o) (brModes b) || (o == 0 && brInit b ≠ 0)

/-- Whether the brick takes part in a run (R242). -/
def brTakesPart (b : List W64) : Bool := bitsAt (wordAt b 14) 7 0 ≠ 0 || bitsAt (wordAt b 7) 31 0 ≠ 0

/-! ### Tile words -/

def tiMode (t : List W64) : Nat := bitsAt (wordAt t 0) 3 0
def tiAfmt (t : List W64) : Nat := bitsAt (wordAt t 0) 7 4
def tiSel (t : List W64) (i : Nat) : Nat := bitsAt (wordAt t 0) (10 + 3 * i) (8 + 3 * i)
def tiWaitw (t : List W64) : Bool := bitAt (wordAt t 0) 14
def tiDump (t : List W64) : Bool := bitAt (wordAt t 0) 15
def tiLo (t : List W64) : Nat := bitsAt (wordAt t 1) 15 0
def tiHi (t : List W64) : Nat := bitsAt (wordAt t 1) 31 16
def tiOff (t : List W64) (g : Nat) : Nat := bitsAt (wordAt t 1) (47 + 16 * g) (32 + 16 * g)
def tiSz (t : List W64) (g i : Nat) : Nat :=
  let v := bitsAt (wordAt t (2 + 2 * g)) (12 * i + 11) (12 * i); if v = 0 then 4096 else v
def tiLs (t : List W64) (g : Nat) : Int := sintOf 16 (bitsAt (wordAt t (2 + 2 * g)) 63 48)
def tiSt (t : List W64) (g i : Nat) : Int := sintOf 16 (bitsAt (wordAt t (3 + 2 * g)) (16 * i + 15) (16 * i))
def tiRop (t : List W64) : Nat := bitsAt (wordAt t 6) 3 0
def tiRfmt (t : List W64) : Nat := bitsAt (wordAt t 6) 5 4
def tiFetch (t : List W64) : Bool := bitAt (wordAt t 6) 6
def tiSpe (t : List W64) : Bool := bitAt (wordAt t 7) 63
def tiHsz (t : List W64) : Nat := bitsAt (wordAt t 7) 62 58
def tiHbase (t : List W64) : Nat := bitsAt (wordAt t 7) 47 12 * 4096

/-- The tokens of one round of a generator (R219). -/
def tiRound (t : List W64) (g : Nat) : Nat := tiSz t g 0 * tiSz t g 1 * tiSz t g 2 * tiSz t g 3

/-- The word lane `j` of a generator's `n`-th token addresses (R219). -/
def tiWord (t : List W64) (g n j : Nat) : Nat :=
  let s0 := tiSz t g 0
  let s1 := tiSz t g 1
  let s2 := tiSz t g 2
  let n := n % tiRound t g
  let a : Int := (tiOff t g : Int) + ((n % s0 : Nat) : Int) * tiSt t g 0 + ((n / s0 % s1 : Nat) : Int) * tiSt t g 1
    + ((n / s0 / s1 % s2 : Nat) : Int) * tiSt t g 2 + ((n / s0 / s1 / s2 : Nat) : Int) * tiSt t g 3 + (j : Int) * tiLs t g
  tiLo t + (a % ((tiHi t : Int) - (tiLo t : Int))).toNat

/-- The tokens a QUEUE tile holds (R220). -/
def tiCap (t : List W64) : Nat := min 2048 ((tiHi t - tiLo t) / 16)

/-- Whether input `i` is one the tile's mode takes (R220). -/
def tiUses (t : List W64) (i : Nat) : Bool := tiMode t ≠ 0 && (i == 0 || tiMode t == 4) && tiSel t i ≠ 0

/-- Whether the tile drives O0 (R220). -/
def tiDrives (t : List W64) : Bool :=
  tiMode t = 1 || tiMode t = 2 || (tiMode t = 3 && tiDump t) || (tiMode t = 4 && tiFetch t)

/-! ### Factor Engine words (R262 to R265) -/

def fePcls (f : List W64) : Nat := bitsAt (wordAt f 0) 63 62
def feMrtrap (f : List W64) : Bool := bitAt (wordAt f 0) 61
def feScale (f : List W64) : Bool := bitAt (wordAt f 0) 60
def feCtla (f : List W64) : Bool := bitAt (wordAt f 0) 59
def fePcto (f : List W64) : Bool := bitAt (wordAt f 0) 58
def fePcnt (f : List W64) : Nat := bitsAt (wordAt f 0) 57 55
def feWmode (f : List W64) : Nat := bitsAt (wordAt f 0) 54 53
def feRnd (f : List W64) : Nat := bitsAt (wordAt f 0) 52 50
def feOsat (f : List W64) : Bool := bitAt (wordAt f 0) 49
def feOfmt (f : List W64) : Nat := bitsAt (wordAt f 0) 48 45
def feAfmt (f : List W64) : Nat := bitsAt (wordAt f 0) 44 41
def feWfmt (f : List W64) : Nat := bitsAt (wordAt f 0) 40 37
def feTfmt (f : List W64) : Nat := bitsAt (wordAt f 0) 36 35
def feGrow (f : List W64) : Bool := bitAt (wordAt f 0) 34
def feLogn (f : List W64) : Nat := bitsAt (wordAt f 0) 33 31
def feOperm (f : List W64) : Nat := bitsAt (wordAt f 0) 30 28
def feBshape (f : List W64) : Nat := bitsAt (wordAt f 0) 27 26
def feMode (f : List W64) : Nat := bitsAt (wordAt f 0) 2 0
def feWfr (f : List W64) : Nat := bitsAt (wordAt f 1) 63 48
def feWbase (f : List W64) : Nat := bitsAt (wordAt f 1) 47 0
def feSz (f : List W64) (d : Nat) : Nat := bitsAt (wordAt f 2) (16 * d + 15) (16 * d)
def feStr (f : List W64) (d : Nat) : Int := (nth 0#64 f (3 + d)).toInt
def feWstep (f : List W64) : Int := (nth 0#64 f 7).toInt
def feTwlog (f : List W64) : Nat := bitsAt (wordAt f 8) 51 48
def feTwline (f : List W64) : Nat := bitsAt (wordAt f 8) 47 35
def feXlog (f : List W64) : Nat := bitsAt (wordAt f 8) 19 16
def feShf (f : List W64) : Nat := bitsAt (wordAt f 8) 15 0
def feQ (f : List W64) : Nat := bitsAt (wordAt f 9) 31 0
def feQi (f : List W64) : Nat := bitsAt (wordAt f 9) 63 32
def feSkey (f : List W64) : W64 := nth 0#64 f 10
def feScnt (f : List W64) : W64 := nth 0#64 f 11
def fePass (f : List W64) (p : Nat) : Nat := wordAt f (16 + p)

/-! Fields of a pass table entry (R265). -/
def paPv (e : Nat) : Bool := bitAt e 63
def paInv (e : Nat) : Bool := bitAt e 62
def paIn (e : Nat) : Nat := bitsAt e 61 60
def paOc (e : Nat) : Bool := bitAt e 59
def paOm (e : Nat) : Bool := bitAt e 58
def paAcc (e : Nat) : Bool := bitAt e 57
def paMr (e : Nat) : Nat := bitsAt e 56 55
def paXtw (e : Nat) : Bool := bitAt e 54
def paWb (e : Nat) : Nat := b2n (bitAt e 53)
def paOtag (e : Nat) : Nat := bitsAt e 52 45
def paIline (e : Nat) : Nat := bitsAt e 44 32
def paOline (e : Nat) : Nat := bitsAt e 28 16
def paFrm (e : Nat) : Nat := bitsAt e 15 0

/-- The valid passes of a plane that is on. -/
def fePasses (f : List W64) : List Nat := (rangeFrom 0 (fePcnt f + 1)).map (fePass f)

/-- Whether some pass reads port A (0) or B (1) (R265, R276). -/
def feReads (f : List W64) (port : Nat) : Bool :=
  (feMode f == 2 && feMode f ≠ 0) || (feMode f ≠ 0 && anyB (fun e => paIn e == port) (fePasses f))

/-- Whether some pass uses port C. -/
def feEmits (f : List W64) : Bool := feMode f ≠ 0 && anyB paOc (fePasses f)

/-- Rows of the weight block: elements a row, and rows (R270, R271). -/
def feRowLen (f : List W64) : Nat := if feMode f = 2 then 128 else 128 / 2 ^ feBshape f

/-! ### Reserved bits and values (R8, R227) -/

/-- The bits of word `i` of a record of a kind that hold fields. -/
def wordMask (kind i : Nat) : Nat :=
  if kind = 1 then
    (if i < 6 ∨ (10 ≤ i ∧ i ≤ 14) then 2 ^ 64 - 1
     else if i = 6 then 0x07070707 else if i = 7 then 0xFFFFFFFF else if i = 8 then 0x7FFFFFF
     else if i = 9 then 0xFFFFFFFFFF else 0x1FFF7FFF)
  else if kind = 2 then
    (if i = 0 then 0xFFFF else if i ≤ 5 then 2 ^ 64 - 1 else if i = 6 then 0x7F else 0xFC00FFFFFFFFF000)
  else if kind = 3 then (if i = 0 then 0x3FFFFFF else 0xF7FFFFFFF)
  else
    (if i = 0 then 0xFFFFFFFFFC000007
     else if i ≤ 7 then 2 ^ 64 - 1
     else if i = 8 then 0xFFFF8000FFFFF
     else if i ≤ 11 then 2 ^ 64 - 1
     else if 16 ≤ i ∧ i ≤ 23 then 0xFFFFFFFF1FFFFFFF else 0)

/-- Words of a record by kind (R227). -/
def recordLen (kind : Nat) : Nat := if kind = 1 then 16 else if kind = 2 then 8 else if kind = 3 then 2 else 32

/-- Whether some word sets a reserved bit. -/
def reservedBit (kind : Nat) (ws : List W64) : Bool :=
  anyB (fun i => wordAt ws i &&& wordMask kind i ≠ wordAt ws i) (rangeFrom 0 (recordLen kind))

/-! ### Checks of one record: the reason of R238, if any -/

/-- The grid operations by format (R205 to R207). -/
def opTakes (op fmt : Nat) : Bool :=
  let flt := fmt ≤ 2
  let int := decide (5 ≤ fmt) && decide (fmt ≤ 11) && fmt ≠ 8
  if fmt = 8 ∨ fmt = 12 ∨ fmt ≥ 14 then false
  else if 0x01 ≤ op ∧ op ≤ 0x07 then flt
  else if 0x10 ≤ op ∧ op ≤ 0x1A then int
  else if 0x20 ≤ op ∧ op ≤ 0x23 then fmt = 13
  else if 0x30 ≤ op ∧ op ≤ 0x35 then flt || int || fmt = 13
  else if op = 0x3B ∨ op = 0x3C then fmt = 11
  else op = 0x00 || op = 0x38 || op = 0x39 || op = 0x3A

/-- The check of a stage (R204, R207). -/
def stageBad (b : List W64) (k : Nat) : Option Nat :=
  let op := stOp b k
  let fmt := stFmt b k
  let imm := stImm b k
  let cmp := decide (0x30 ≤ op) && decide (op ≤ 0x35)
  let port := fun (i : Nat) => let c := stSrc b k i; decide (1 ≤ c) && decide (c ≤ 4) && brSel b (c - 1) == 0
  let late := fun (i : Nat) =>
    let c := stSrc b k i
    decide (5 ≤ c) && decide (c ≤ 8) && anyB (fun h => stDst b h == c - 4) (rangeFrom (k + 1) (5 - k))
  if !opTakes op fmt then some 6
  else if (stPu b k == 3) != cmp then some 6
  else if 0x20 ≤ op ∧ op ≤ 0x23 ∧ (imm % 2 = 0 ∨ imm < 3 ∨ imm ≥ 2 ^ 31) then some 9
  else if op = 0x39 ∧ (imm % 16 = 8 ∨ imm % 16 = 12 ∨ imm % 16 ≥ 14 ∨ (fmt = 13 ∧ imm % 16 ≠ 13)) then some 6
  else if op = 0x3C ∧ (stSrc b k 0 = 0 ∨ stSrc b k 0 > 4) then some 6
  else if port 0 || port 1 || port 2 then some 6
  else if late 0 || late 1 || late 2 then some 6
  else none

/-- The stages that steer. -/
def steerStages (b : List W64) : List Nat := (rangeFrom 0 6).filter fun k => stOp b k == 0x3A

/-- The rules of a brick that steers (R210). -/
def steerBad (b : List W64) : Bool :=
  match steerStages b with
  | [] => false
  | [k] => stDst b k ≠ 7 || anyB (fun j => j ≠ k && decide (5 ≤ stDst b j)) (rangeFrom 0 6)
      || brRate b 4 ≠ 15 || brRate b 5 ≠ 15
  | _ => true

/-- The number of modes of a cycle that `p` admits. -/
def countModes (b : List W64) (p : Nat → Bool) : Nat := ((brModes b).filter p).length

/-- Whether a declared rate differs from what the modes imply (R211). -/
def rateBad (b : List W64) : Bool :=
  anyB (fun p => brRate b p ≠ 15 && brRate b p ≠ countModes b (brCons b · p)) (rangeFrom 0 4)
    || anyB (fun o => brRate b (4 + o) ≠ 15 && brRate b (4 + o) ≠ countModes b (brOutOn b · o)) (rangeFrom 0 2)

/-- The check of a brick plane. -/
def brickBad (b : List W64) : Option Nat :=
  if reservedBit 1 b || anyB (fun p => decide (5 < brSel b p)) (rangeFrom 0 4) || brTs b 0 = 3 || brTs b 1 = 3
      || brTm b > 16 || brCin b > 4 || (brTchk b && (brTclen b = 0 || brTclen b > 16)) then some 2
  else match (rangeFrom 0 6).findSome? (stageBad b) with
  | some r => some r
  | none => if steerBad b || rateBad b then some 6 else none

/-- The check of a tile plane (R218, R219, R221, R222). -/
def tileBad (t : List W64) : Option Nat :=
  if reservedBit 2 t || tiMode t > 4 || tiAfmt t > 2 || tiSel t 0 > 5 || tiSel t 1 > 5 || tiRfmt t = 3 || tiRop t > 6 then
    some 2
  else if tiMode t ≠ 0 && (!decide (tiLo t < tiHi t) || tiHi t > 32768 || tiLo t > 32767) then some 7
  else if tiSpe t && (tiHsz t < 10 || tiHsz t > 24) then some 7
  else none

/-- The own check of a switch plane (R197, R201). -/
def switchBad (sw : List W64) (p : Nat) : Option Nat :=
  let spill := swSpill sw
  if reservedBit 3 sw || anyB (fun d => decide (9 < swOut sw d)) (rangeFrom 0 5)
      || anyB (fun i => decide (7 < swMerge sw (i / 2) (i % 2))) (rangeFrom 0 4)
      || anyB (fun d => swCtl sw d == 7) (rangeFrom 0 4) || swFecin sw > 5 then some 2
  else if (swFeatt sw && p % 8 ≠ 7) || (swOut sw 4 ≠ 0 && p % 8 ≠ 0 && p % 8 ≠ 7)
      || (p ≠ 31 && (swFecin sw ≠ 0 || anyB (fun d => swCtl sw d == 6) (rangeFrom 0 4))) then some 7
  else if popCount spill 5 > 1 then some 7
  else none

/-- The weight operand's rules (R263, R270). -/
def weightsBad (f : List W64) : Bool :=
  let e := elemSize (feWfmt f)
  let act := (rangeFrom 0 4).filter fun d => allB (fun i => feSz f i ≠ 0) (rangeFrom 0 (d + 1))
  let off := (rangeFrom 0 4).filter fun d => !act.contains d
  let count := act.foldl (fun a d => a * feSz f d) 1
  (feWmode f = 1 && feWfr f = 0)
  || (if feWfmt f = 14 then
        anyB (fun d => feSz f d ≠ 0 || feStr f d ≠ 0) (rangeFrom 0 4) || feWbase f % 64 ≠ 0 || feWstep f % 64 ≠ 0
      else
        anyB (fun d => feSz f d ≠ 0 || feStr f d ≠ 0) off
        || feWbase f % e ≠ 0 || anyB (fun d => feStr f d % (e : Int) ≠ 0) act
        || (if feMode f = 2 then feSz f 0 ≠ 128 || feSz f 2 ≠ 0 || feSz f 3 ≠ 0
            else act.isEmpty || count ≠ 16384 / 2 ^ feBshape f))

/-- The rules of a pass table entry in use (R266). -/
def passBad (f : List W64) (e : Nat) : Bool :=
  let mode := feMode f
  !paPv e || (!paOc e && !paOm e) || (paIn e = 2 && paFrm e = 0)
  || (mode ≠ 3 && (paInv e || paXtw e || paMr e ≠ 0))
  || (paMr e ≠ 0 && feTfmt f ≠ 3) || (mode = 3 && paAcc e)
  || (paWb e = 1 && feWmode f ≠ 2) || (mode = 2 && paIn e ≠ 0)
  || (paXtw e && (feXlog f < feLogn f || feXlog f > feTwlog f))

/-- The own check of a Factor Engine plane; `featt r` says whether switch (r, 7) sets FEATT in its plane of the same number
(R266). -/
def factorBad (f : List W64) (featt : Nat → Bool) : Option Nat :=
  let mode := feMode f
  let a := feAfmt f
  let w := feWfmt f
  let cls := if mode = 3 then (if feTfmt f = 3 then 3 else 2) else if a = 3 ∨ a = 4 ∨ a = 13 then 3 else 2
  let pairs := ((a = 1 || a = 2) && (w = 1 || w = 2)) || ((a = 3 || a = 4) && (w = 3 || w = 4 || w = 14))
  let bfp := mode = 3 && feTfmt f ≤ 1
  if reservedBit 4 f then some 2
  else if mode > 3 || feBshape f = 3 || feWmode f = 3 || feRnd f > 5 || feOfmt f > 4
      || anyB (fun p => paIn (fePass f p) == 3) (rangeFrom 0 8) then some 8
  else if (mode = 0 && fePcls f ≠ 0) || (mode ≠ 0 && fePcls f = 0) then some 8
  else if mode ≠ 0 && fePcls f ≠ 1 && fePcls f ≠ cls then some 8
  else if mode = 1 && !(pairs || (a = 13 && w = 13 && feOfmt f = 0)) then some 8
  else if mode = 2 && !pairs then some 8
  else if mode = 3 && (a ≠ 0 || w ≠ 0 || feOfmt f ≠ 0 || feRnd f ≠ 0 || feOsat f || feBshape f ≠ 0
      || anyB (fun i => wordAt f i ≠ 0) (rangeFrom 1 7)) then some 8
  else if !bfp && (feGrow f || feShf f ≠ 0) then some 8
  else if feScale f && feTfmt f = 3 then some 8
  else if mode = 3 && (feLogn f = 0 || feOperm f > feLogn f || feTwlog f < feLogn f || feTwlog f > 12) then some 8
  else if mode ≠ 0 && (anyB (passBad f) (fePasses f)
      || anyB (fun p => fePass f p ≠ 0) (rangeFrom (fePcnt f + 1) (7 - fePcnt f))) then some 8
  else if (mode = 1 || mode = 2) && weightsBad f then some 8
  else if (feReads f 0 && !featt 0) || (feReads f 1 && !featt 1) || (feEmits f && !featt 2) then some 8
  else if (a = 13 || feTfmt f = 3) && !modPairOk (feQ f) (feQi f) then some 9
  else none

/-! ### Images (R227) -/

/-- A record of a configuration image. -/
structure CfgRec where
  kind : Nat
  pos : Nat
  plane : Nat
  words : List W64
  deriving DecidableEq, Repr

/-- The records of an image: `n` of them from the words after the header, or the index of the malformed one, with the
position and plane that its header gives (R227, R238). -/
def parseRecs (ws : List W64) (i : Nat) : Nat → Except (Nat × Nat × Nat) (List CfgRec)
  | 0 => .ok []
  | n + 1 =>
    let h := wordAt ws 0
    let kind := h % 256
    if kind < 1 ∨ kind > 4 ∨ bitsAt h 63 15 ≠ 0 ∨ (kind = 4 ∧ bitsAt h 12 8 ≠ 0) then .error (i, bitsAt h 12 8, bitsAt h 14 13)
    else
      let r : CfgRec := { kind := kind, pos := bitsAt h 12 8, plane := bitsAt h 14 13,
                          words := (ws.drop 1).take (recordLen kind) }
      match parseRecs (ws.drop (1 + recordLen kind)) (i + 1) n with
      | .error e => .error e
      | .ok rs => .ok (r :: rs)

/-- Whether an image header is malformed (R227). -/
def imageHdrBad (hdr : List W64) : Bool :=
  let h := wordAt hdr 0
  h % 256 ≠ 0xC9 || bitsAt h 15 8 = 0 || bitsAt h 63 16 ≠ 0 || anyB (fun i => wordAt hdr i ≠ 0) (rangeFrom 1 7)

/-- TVAL of trap 0x19 (R238). -/
def cfgTval (reason idx pos plane : Nat) : W64 :=
  BitVec.ofNat 64 (reason + idx * 2 ^ 8 + pos * 2 ^ 16 + plane * 2 ^ 21)

/-- The words of a plane as the image holds them: the last record of the kind, position and plane. -/
def imageWords (rs : List CfgRec) (kind pos plane : Nat) : Option (List W64) :=
  (rs.reverse.find? fun r => r.kind == kind && (r.pos == pos || kind == 4) && r.plane == plane).map (·.words)

/-! ### Deadlock rules (b) and (e) (R229, R230) -/

/-- The words of a position's plane that the rules see: its switch and its node, empty ones all zero. -/
structure PlaneView where
  sw : List W64
  node : List W64
  deriving DecidableEq, Repr

/-- The key of a position of a course. -/
def posKey (c p : Nat) : Nat := c * 32 + p

/-- The neighbour of a position in direction `d` (N, E, S, W) in the mesh of its die, as keys: course edges join, the die's
edges do not (R89, R197). -/
def neighbour (k d : Nat) : Option Nat :=
  let i := k / 32 % 32
  let row := 4 * (i / 8) + k % 32 / 8
  let col := 8 * (i % 8) + k % 8
  let at' := fun (r c' : Nat) => posKey (k / 1024 * 32 + r / 4 * 8 + c' / 8) (r % 4 * 8 + c' % 8)
  match d with
  | 0 => if row = 0 then none else some (at' (row - 1) col)
  | 1 => if col = 63 then none else some (at' row (col + 1))
  | 2 => if row = 15 then none else some (at' (row + 1) col)
  | _ => if col = 0 then none else some (at' row (col - 1))

/-- The input of the neighbour that an output in direction `d` enters. -/
def opposite (d : Nat) : Nat := (d + 2) % 4

/-- The rate of an output of a node: RO0 or RO1, 1 for a tile, 15 (variable) for a tile that fetches (R211). -/
def outRate (k : Nat) (v : PlaneView) (o : Nat) : Nat :=
  if isBrick (k % 32) then brRate v.node (4 + o) else if tiMode v.node = 4 then 15 else 1

/-- A channel of the data network: producer (a position's key, or a port's: 2^13 + course × 8 + port), its rate, the consumer's
key, its rate, whether a merge lies on it. -/
structure Channel where
  prod : Nat
  prate : Nat
  cons : Nat
  crate : Nat
  merged : Bool
  deriving DecidableEq, Repr

/-- The consumers at a FIFO: node inputs that select it, with their rates. -/
def fifoUsers (k : Nat) (v : PlaneView) (f : Nat) : List Nat :=
  if isBrick (k % 32) then
    ((rangeFrom 0 4).filter fun q => brSel v.node q == f + 1 && brPortUsed v.node q).map fun q => brRate v.node q
  else ((rangeFrom 0 2).filter fun i => tiUses v.node i && tiSel v.node i == f + 1).map fun _ => 1

/-- The outputs of a switch that carry source code `c`, and whether through a merge pair. -/
def carriers (sw : List W64) (c : Nat) : List (Nat × Bool) :=
  (rangeFrom 0 5).filterMap fun d =>
    let o := swOut sw d
    if o = c then some (d, false)
    else if (o = 8 ∨ o = 9) ∧ (swMerge sw (o - 8) 0 = c ∨ swMerge sw (o - 8) 1 = c) then some (d, true)
    else none

/-- Whether an output of a column-7 switch joins the engine instead of a neighbour (R197). -/
def feJoined (k : Nat) (v : PlaneView) (d : Nat) : Bool := d == 1 && k % 8 == 7 && decide (k % 32 < 24) && swFeatt v.sw

/-- The position that output `d` of a position leads to in the data network: none to the engine, the X port or the die's edge,
nor into a switch whose E port joins its own engine. -/
def hopTo (view : Nat → PlaneView) (k d : Nat) : Option Nat :=
  if d = 4 ∨ feJoined k (view k) d then none
  else match neighbour k d with
  | none => none
  | some q => if d = 3 ∧ feJoined q (view q) 1 then none else some q

/-- The channels that go on from source code `c` of position `k`, through at most `n` hops. -/
def channelsFrom (view : Nat → PlaneView) (prod prate k c : Nat) (merged : Bool) : Nat → List Channel
  | 0 => []
  | n + 1 =>
    (carriers (view k).sw c).flatMap fun (d, g) =>
      match hopTo view k d with
      | none => []
      | some q =>
        let f := opposite d
        (fifoUsers q (view q) f).map (fun r => ⟨prod, prate, q, r, merged || g⟩)
          ++ channelsFrom view prod prate q (f + 1) (merged || g) n

/-- Every channel between nodes of the view at positions `ks`. -/
def channels (ks : List Nat) (view : Nat → PlaneView) : List Channel :=
  let far := 5 * ks.length
  (ks.flatMap fun k =>
    let v := view k
    ((rangeFrom 0 2).filter fun o => if isBrick (k % 32) then brDrives v.node o else o == 0 && tiDrives v.node).flatMap
      fun o => channelsFrom view k (outRate k v o) k (6 + o) false far)
  ++ ks.flatMap fun k =>
    match posPort (k % 32) with
    | none => []
    | some n =>
      let port := 2 ^ 13 + k / 32 * 8 + n
      (fifoUsers k (view k) 4).map (fun r => ⟨port, 1, k, r, false⟩) ++ channelsFrom view port 1 k 5 false far

/-- The channels rule (b) binds: no merge, no variable or unused rate. -/
def balancedOnes (cs : List Channel) : List Channel :=
  cs.filter fun c => !c.merged && c.prate ≠ 15 && c.crate ≠ 15 && c.prate ≠ 0 && c.crate ≠ 0

/-- Firing ratios spread over the channels: a node's ratio as a fraction, from nodes already rated. -/
def spreadRatios (cs : List Channel) (m : Map (Nat × Nat)) : Map (Nat × Nat) :=
  cs.foldl (fun m c =>
    match Map.get? m c.prod, Map.get? m c.cons with
    | some (a, b), none =>
      let x := a * c.prate; let y := b * c.crate; let g := Nat.gcd x y; m.set c.cons (x / g, y / g)
    | none, some (a, b) =>
      let x := a * c.crate; let y := b * c.prate; let g := Nat.gcd x y; m.set c.prod (x / g, y / g)
    | _, _ => m) m

/-- `n` rounds of spreading. -/
def spreadN (cs : List Channel) (m : Map (Nat × Nat)) : Nat → Map (Nat × Nat)
  | 0 => m
  | n + 1 => spreadN cs (spreadRatios cs m) n

/-- Ratios for every node: each component is rated from its first node. -/
def rateAll (cs : List Channel) (m : Map (Nat × Nat)) : List Channel → Map (Nat × Nat)
  | [] => m
  | c :: r =>
    let m := if (Map.get? m c.prod).isSome then m else spreadN cs (m.set c.prod (1, 1)) cs.length
    rateAll cs m r

/-- Whether rule (b) is broken: some channel's ends are not in the ratio of its rates. -/
def ruleBBroken (ks : List Nat) (view : Nat → PlaneView) : Bool :=
  let cs := balancedOnes (channels ks view)
  let m := rateAll cs [] cs
  anyB (fun c =>
    let (a, b) := m.getD (1, 1) c.prod
    let (x, y) := m.getD (1, 1) c.cons
    a * c.prate * y ≠ b * c.crate * x) cs

/-- A directed edge of the token graph for rule (e): its ends, the initial tokens on it, and its capacity less its depth
and initial tokens. Vertices: FIFO f of the position of key k is k × 8 + f, output o is k × 8 + 5 + o. -/
structure TokEdge where
  src : Nat
  dst : Nat
  init : Nat
  slack : Int
  deriving DecidableEq, Repr

/-- The tokens a tile holds before its first output (R229). -/
def tiHeld (t : List W64) : Nat :=
  if (tiMode t = 3 ∧ tiDump t) ∨ (tiMode t = 1 ∧ tiWaitw t) then tiRound t 0 else 0

/-- The edges out of a source code of a switch: one hop into a FIFO of eight. -/
def hopEdges (view : Nat → PlaneView) (k vtx c : Nat) : List TokEdge :=
  (carriers (view k).sw c).filterMap fun (d, _) => (hopTo view k d).map fun q => ⟨vtx, q * 8 + opposite d, 0, 7⟩

/-- The edges through a node, from a FIFO it uses to an output it drives. -/
def nodeEdges (k : Nat) (v : PlaneView) (f : Nat) : List TokEdge :=
  if isBrick (k % 32) then
    if anyB (fun q => brSel v.node q == f + 1 && brPortUsed v.node q) (rangeFrom 0 4) then
      ((rangeFrom 0 2).filter (brDrives v.node)).map fun o =>
        let i := if o = 0 then brInit v.node else 0
        ⟨k * 8 + f, k * 8 + 5 + o, i, -((6 + brLag v.node o + i : Nat) : Int)⟩
    else []
  else if tiDrives v.node && anyB (fun i => tiUses v.node i && tiSel v.node i == f + 1) (rangeFrom 0 2) then
    [⟨k * 8 + f, k * 8 + 5, 0, ((if tiMode v.node = 2 then tiCap v.node else 0 : Nat) : Int) - (tiHeld v.node : Int)⟩]
  else []

/-- The token graph of positions `ks`. -/
def tokEdges (ks : List Nat) (view : Nat → PlaneView) : List TokEdge :=
  ks.flatMap fun k =>
    let v := view k
    ((rangeFrom 0 5).flatMap fun f => hopEdges view k (k * 8 + f) (f + 1) ++ nodeEdges k v f)
    ++ (rangeFrom 0 2).flatMap fun o => hopEdges view k (k * 8 + 5 + o) (6 + o)

/-- One round of relaxing the least slack with which each vertex is reached. -/
def relax (es : List TokEdge) (m : Map Int) : Map Int :=
  es.foldl (fun m e => let v := m.getD 0 e.src + e.slack; if v < m.getD 0 e.dst then m.set e.dst v else m) m

def relaxN (es : List TokEdge) (m : Map Int) : Nat → Map Int
  | 0 => m
  | n + 1 => relaxN es (relax es m) n

/-- Whether some directed cycle has negative total slack. -/
def negCycle (es : List TokEdge) : Bool :=
  let m := relaxN es [] es.length
  anyB (fun e => decide (m.getD 0 e.src + e.slack < m.getD 0 e.dst)) es

/-- Whether a token graph breaks rule (e): some loop has no initial token, or less capacity than tokens in flight. -/
def loopsBad (es : List TokEdge) : Bool :=
  negCycle es || negCycle ((es.filter fun e => e.init == 0).map fun e => { e with slack := -1 })

/-- Whether rule (e) is broken: some feedback loop has no initial token, or less capacity than tokens in flight. -/
def ruleEBroken (ks : List Nat) (view : Nat → PlaneView) : Bool := loopsBad (tokEdges ks view)

/-- The one brick with initial tokens without which no loop would break rule (e), if there is one: the position that a
rejection names (R238, R447; log 19). -/
def ruleEBrick (ks : List Nat) (view : Nat → PlaneView) : Option Nat :=
  let es := tokEdges ks view
  match ((es.filter fun e => e.init ≠ 0).map fun e => e.src / 8).dedup.filter fun p =>
      !loopsBad (es.filter fun e => !(e.src / 8 == p && e.init ≠ 0)) with
  | [p] => some (p % 32)
  | _ => none

end Sys2Proof.Machine
end

