-- ==== Sys2Proof/Machine/Brick.lean ====
section
/-! DEFINITION. What a firing of a compute brick computes (R193, R195, R203, R204, R206, R209, R210), and a tile's
combinations (R220, R221), as functions of the words and the node's state. -/

namespace Sys2Proof.Machine

/-- Lane `j` of a payload (R191). -/
def laneOf (v : BitVec 512) (j : Nat) : Nat := bitsAt v.toNat (32 * j + 31) (32 * j)

/-- The sixteen lanes of a payload. -/
def lanesList (v : BitVec 512) : List Nat := (words32 v.toNat 16).map (·.toNat)

/-- The payload of sixteen lanes. -/
def payload (ls : List Nat) : BitVec 512 := BitVec.ofNat 512 (ofWords32 (ls.map (BitVec.ofNat 32)))

/-- The EOS marker: no data (R191). -/
def eosTok : Tok := { eos := true }

/-- A grid operation on one lane (R206): `r` are its stochastic bits, `p` the lane's predicate, `tag` the tag of the token at
port SA, `free` what a conversion that the spec does not offer gives (log 19). -/
def laneOp (op fmt : Nat) (rm : Rm) (sat : Bool) (imm r : Nat) (p : Bool) (j tag free a b c : Nat) : Nat × Flags :=
  let w := widthOf fmt
  let a := a % 2 ^ w
  let b := b % 2 ^ w
  let c := c % 2 ^ w
  match kindOf fmt with
  | some (.fp f) =>
    match op with
    | 0x01 => fpAddS f rm r sat a b
    | 0x02 => fpSubS f rm r sat a b
    | 0x03 => fpMulS f rm r sat a b
    | 0x04 => fpFma f rm r sat false false a b c
    | 0x05 => fpFma f rm r sat false true a b c
    | 0x06 => fpMinMax f false a b
    | 0x07 => fpMinMax f true a b
    | 0x38 => (if p then a else b, flNone)
    | 0x39 => match kindOf (imm % 16) with
      | some .mod => (free % 2 ^ w, flNone)
      | some k =>
        -- ±∞ from the format itself still meets the saturate bit (R59)
        if k = .fp f ∧ (f.value (imm / 2 ^ 32)).isInf then cvtToFp f rm r sat (f.value (imm / 2 ^ 32))
        else convert k (.fp f) rm r sat (2 ^ 32) (imm / 2 ^ 32)
      | none => (a, flNone)
    | _ => (a, flNone)
  | some (.int sg n) =>
    let x := intOf sg n a
    let y := intOf sg n b
    let fit := fun (v : Int) => if sat then clampInt sg n flSAT v else (natOfInt n v, flNone)
    match op with
    | 0x10 => fit (x + y)
    | 0x11 => fit (x - y)
    | 0x12 => fit (x * y)
    | 0x13 => (a &&& b, flNone)
    | 0x14 => (a ||| b, flNone)
    | 0x15 => (a ^^^ b, flNone)
    | 0x16 => ((a <<< (b % n)) % 2 ^ n, flNone)
    | 0x17 => (a >>> (b % n), flNone)
    | 0x18 => (natOfInt n (sintOf n a / 2 ^ (b % n)), flNone)
    | 0x19 => (if x ≤ y then a else b, flNone)
    | 0x1A => (if x ≤ y then b else a, flNone)
    | 0x38 => (if p then a else b, flNone)
    | 0x39 => match kindOf (imm % 16) with
      | some k => convert k (.int sg n) rm r sat (2 ^ 32) (imm / 2 ^ 32)
      | none => (a, flNone)
    | 0x3B => (j, flNone)
    | 0x3C => (tag, flNone)
    | _ => (a, flNone)
  | some .mod =>
    match op with
    | 0x20 => modAdd imm a b
    | 0x21 => modSub imm a b
    | 0x22 => modMul imm a b
    | 0x23 => let (m, f1) := modMul imm a b; let (s, f2) := modAdd imm m c; (s, f1 ||| f2)
    | 0x38 => (if p then a else b, flNone)
    | _ => (a, flNone)
  | _ => (a, flNone)

/-- A comparison of two lanes (R206): the relation, and the flags it raises. -/
def laneRel (op fmt a b : Nat) : Bool × Flags :=
  let w := widthOf fmt
  let a := a % 2 ^ w
  let b := b % 2 ^ w
  let rel := Rel.ofCode (op - 0x30)
  match kindOf fmt with
  | some (.fp f) => fpRel f rel a b
  | some (.int true n) => (rel.holds (sintOf n a - sintOf n b), flNone)
  | _ => (rel.holds ((a : Int) - (b : Int)), flNone)

/-- What a firing has computed up to some stage. -/
structure Firing16 where
  prev : List Nat
  p : BitVec 16
  l : Map (BitVec 512)
  flags : Flags := flNone
  o0 : Option (List Nat) := none
  o1 : Option (List Nat) := none
  /-- The lanes a steering stage sends, with P as it stood. -/
  steer : Option (List Nat × BitVec 16) := none
  deriving DecidableEq, Repr

/-- An operand's lane (R203). -/
def operandLane (b : List W64) (k code j : Nat) (heads : Map Tok) (x : Firing16) : Nat :=
  if code = 0 then (if k = 0 then brK b 0 else nth 0 x.prev j)
  else if code ≤ 4 then laneOf (heads.getD {} (code - 1)).lanes j
  else if code ≤ 8 then laneOf (x.l.getD 0#512 (code - 5)) j
  else brK b (code - 8)

/-- One lane of one stage: its result, P's bit after it, and flags. -/
def stageLane (b : List W64) (k : Nat) (heads : Map Tok) (ord fr : Nat) (x : Firing16) (j : Nat) : Nat × Bool × Flags :=
  let op := stOp b k
  let fmt := stFmt b k
  let w := widthOf fmt
  let a := operandLane b k (stSrc b k 0) j heads x
  let bb := operandLane b k (stSrc b k 1) j heads x
  let c := operandLane b k (stSrc b k 2) j heads x
  let pj := x.p.getLsbD j
  let pu := stPu b k
  if pu = 3 then
    let (t, fl) := laneRel op fmt a bb
    (a % 2 ^ w, t, fl)
  else if (pu = 1 && !pj) || (pu = 2 && pj) then (a % 2 ^ w, pj, flNone)
  else
    let key := BitVec.ofNat 64 (brK b 7 * 2 ^ 32 + brK b 6)
    let r := srBits key (BitVec.ofNat 64 (ord * 16 + j))
    let imm := if op = 0x39 then stImm b k % 16 + (a % 2 ^ widthOf (stImm b k % 16)) * 2 ^ 32 else stImm b k
    let tag := (heads.getD {} (stSrc b k 0 - 1)).tag.toNat
    let free := (Config.freeWord (fr + 16 * k + j)).toNat
    let (v, fl) := laneOp op fmt (stRnd b k) (stSat b k) imm r pj j tag free a bb c
    (v % 2 ^ w, pj, fl)

/-- One stage of a firing (R203); lanes that VM does not mark are zero (R193). -/
def stageStep (b : List W64) (m k : Nat) (heads : Map Tok) (vm : BitVec 16) (ord fr : Nat) (x : Firing16) : Firing16 :=
  if !brStageOn b m k then
    if k = 0 then { x with prev := (rangeFrom 0 16).map fun j => operandLane b 0 (stSrc b 0 0) j heads x } else x
  else
    let rs := (rangeFrom 0 16).map fun j =>
      if vm.getLsbD j then stageLane b k heads ord fr x j else (0, x.p.getLsbD j, flNone)
    let res := rs.map (·.1)
    let fl := rs.foldl (fun f r => f ||| r.2.2) x.flags
    let p := BitVec.ofNat 16 ((rangeFrom 0 16).foldl (fun a j => a + b2n (nth (0, false, flNone) rs j).2.1 * 2 ^ j) 0)
    let dst := stDst b k
    let y := { x with prev := res, p := p, flags := fl }
    if stOp b k = 0x3A then { y with steer := some (res, p) }
    else if 1 ≤ dst ∧ dst ≤ 4 then { y with l := y.l.set (dst - 1) (payload res) }
    else
      { y with
        o0 := if dst = 5 ∨ dst = 7 then some res else y.o0
        o1 := if dst = 6 ∨ dst = 7 then some res else y.o1 }

/-- The stages from `k` on, `n` of them. -/
def stagesRun (b : List W64) (m k : Nat) (heads : Map Tok) (vm : BitVec 16) (ord fr : Nat) (x : Firing16) : Nat → Firing16
  | 0 => x
  | n + 1 => stagesRun b m (k + 1) heads vm ord fr (stageStep b m k heads vm ord fr x) n

/-- VM of a firing: the AND over the ports its stages read (R193). -/
def firingVm (b : List W64) (m : Nat) (heads : Map Tok) : BitVec 16 :=
  heads.foldl (fun v (p, t) => if brReads b m p then v &&& t.vm else v) (BitVec.allOnes 16)

/-- The tag of an emitted token (R209): `intag` is the tag of the lowest consumed port. -/
def outTag (b : List W64) (o emitted : Nat) (intag : Option Byte) : Byte :=
  match brTs b o with
  | 0 => intag.getD (BitVec.ofNat 8 (brTk b o))
  | 2 => BitVec.ofNat 8 (brTk b o + emitted % brTm b)
  | _ => BitVec.ofNat 8 (brTk b o)

/-- The valid lanes of a token, ascending. -/
def validLanes (vm : BitVec 16) (ls : List Nat) : List Nat :=
  ((rangeFrom 0 16).filter fun j => vm.getLsbD j).map (nth 0 ls)

/-- A token with lanes packed from lane 0 (R210). -/
def packedTok (ls : List Nat) (tag : Byte) : Tok :=
  { lanes := payload ls, vm := BitVec.ofNat 16 (2 ^ ls.length - 1), tag := tag }

/-- A steered output: the partial token held and the lanes that enter; what is emitted and what is held after (R210). -/
def steerInto (flush : Bool) (held : Option Tok) (ls : List Nat) (tag : Byte) : List Tok × Option Tok :=
  let (out, held) := match held with
    | some t => if flush && t.tag ≠ tag then ([t], none) else ([], some t)
    | none => ([], none)
  if ls.isEmpty then (out, held)
  else
    let (old, tg) := match held with
      | some t => (validLanes t.vm (lanesList t.lanes), t.tag)
      | none => ([], tag)
    let all := old ++ ls
    if all.length < 16 then (out, some (packedTok all tg))
    else
      let rest := all.drop 16
      (out ++ [packedTok (all.take 16) tg], if rest.isEmpty then none else some (packedTok rest tag))

/-! ### Tiles -/

/-- The value a tile's word takes from a lane (R220, R221): `op` 0 add, 1 max, 2 min, 3 and, 4 or, 5 xor, 6 swap; `fmt` 0 f32,
1 i32, 2 saturating i32. -/
def tileCombine (op fmt old v : Nat) : Nat × Flags :=
  match op with
  | 0 =>
    if fmt = 0 then fpAdd .f32 .rne 0 old v
    else if fmt = 1 then ((old + v) % 2 ^ 32, flNone)
    else clampInt true 32 flSAT (sintOf 32 old + sintOf 32 v)
  | 1 => if fmt = 0 then fpMinMax .f32 true old v else (if sintOf 32 old ≥ sintOf 32 v then old else v, flNone)
  | 2 => if fmt = 0 then fpMinMax .f32 false old v else (if sintOf 32 old ≤ sintOf 32 v then old else v, flNone)
  | 3 => (old &&& v, flNone)
  | 4 => (old ||| v, flNone)
  | 5 => (old ^^^ v, flNone)
  | _ => (v, flNone)

end Sys2Proof.Machine
end

