-- ==== Sys2Proof/Machine/Queue.lean ====
section
/-! DEFINITION. Queues, records and the dependence graph: queue records (R66, R67), appends (R69), PROGC and its interrupt
(R70, R88), activation of a job with the checks of its record and header (R17, R23, R25, R71), chunks and slices (R95 to
R98), dispatch rules (R72, R73), successors (R20, R21), token queues (R80 to R83) and the status a job retires with (R22). -/

namespace Sys2Proof.Machine

/-! ### Accesses of an agent in an address space -/

/-- `n` bytes at a virtual address read by a holder: the little-endian value, or the cause of the fault; the spill area is for
spill traffic alone (R295). -/
def State.vread (s : State) (holder asid : Nat) (sup : Bool) (k : AKind) (va n : Nat) : Except Nat Nat :=
  match s.translate holder asid sup k va with
  | .fault c => .error c
  | .ok pa _ => if s.placeOf pa = .spill then .error 0x0C else if s.goodPhys pa n then .ok (s.readPhys pa n) else .error 0x08

/-- `n` bytes at a virtual address written by a holder. -/
def State.vwrite (s : State) (holder asid : Nat) (sup : Bool) (va v n : Nat) : Except Nat State :=
  match s.translate holder asid sup .store va with
  | .fault c => .error c
  | .ok pa _ => match s.placeOf pa with
    | .ram _ => .ok (s.writePhys pa v n)
    | .spill => .error 0x0C
    | _ => .error 0x08

/-- `n` 8-byte words from a virtual address; on a fault its cause with the words before it. -/
def State.vwords (s : State) (holder asid : Nat) (sup : Bool) (k : AKind) (va : Nat) : Nat → Except (Nat × Nat) (List W64)
  | 0 => .ok []
  | n + 1 => match s.vread holder asid sup k va 8 with
    | .error c => .error (c, va)
    | .ok w => match s.vwords holder asid sup k (va + 8) n with
      | .error e => .error e
      | .ok ws => .ok (BitVec.ofNat 64 w :: ws)

/-! ### Small accessors -/

def State.queue (s : State) (p q : Nat) : Queue := (s.part p).queues.getD {} q
def State.setQueue (s : State) (p q : Nat) (x : Queue) : State :=
  s.modPart p fun a => { a with queues := a.queues.set q x }
def State.modQueue (s : State) (p q : Nat) (f : Queue → Queue) : State := s.setQueue p q (f (s.queue p q))
def State.tokq (s : State) (p t : Nat) : TokQ := (s.part p).tokqs.getD {} t
def State.setTokq (s : State) (p t : Nat) (x : TokQ) : State := s.modPart p fun a => { a with tokqs := a.tokqs.set t x }
def State.modTokq (s : State) (p t : Nat) (f : TokQ → TokQ) : State := s.setTokq p t (f (s.tokq p t))
def State.modJob (s : State) (j : Nat) (f : Job → Job) : State :=
  match s.jobs.get? j with
  | some x => { s with jobs := s.jobs.set j (f x) }
  | none => s

/-- An error that reaches the queue manager after its iteration ended (R415); the first stands (R420). -/
def State.lateError (s : State) (job ord cause : Nat) : State :=
  s.modJob job fun j => { j with err := some (j.err.getD (ord, cause)) }

/-- A fresh identifier. -/
def State.fresh (s : State) : Nat × State := (s.nextId, { s with nextId := s.nextId + 1 })

def State.bumpPgerr (s : State) (p : Nat) : State := s.modPart p fun a => { a with pgerr := a.pgerr + 1#64 }
def State.bumpPeerr (s : State) (p : Nat) : State := s.modPart p fun a => { a with peerr := a.peerr + 1#64 }
def State.bumpPgwerr (s : State) (p : Nat) : State := s.modPart p fun a => { a with pgwerr := a.pgwerr + 1#64 }

/-! ### Gateways (R93) -/

/-- Whether the gateway of a course's partition admits an owner (R93): an agent of a course of the same partition passes
none. A course of no partition admits nobody: the spec names no range for it (the model's choice, log 43). -/
def State.courseAdmits (s : State) (c owner : Nat) : Bool :=
  match s.partOfCourse c with
  | some q => inRange (s.part q).pasid owner || inRange (s.part q).padmit owner
  | none => false

/-- Whether a port die's entrance admits an owner's traffic (R93): its partition's share there is not 0. -/
def State.dieAdmits (s : State) (d owner : Nat) : Bool :=
  match s.partOfAsid owner with
  | some p => bitsAt ((s.part p).pshare.getD 0#64 d).toNat 6 0 ≠ 0
  | none => false

/-- A refusal counted in management alone (R93). -/
def State.countUnowned (s : State) : State := { s with mgmt := { s.mgmt with unowned := s.mgmt.unowned + 1 } }

/-- A refusal at a course counted: for the course's partition, in management where the owner lies in no partition's range, or
the course in no partition (R93; the last is the model's choice, log 43). -/
def State.countDrop (s : State) (c owner : Nat) : State :=
  match s.partOfAsid owner, s.partOfCourse c with
  | some _, some q => s.bumpPgwerr q
  | _, _ => s.countUnowned

/-- A refusal at the entrance of a port die counted: for the owner's partition, or in management (R93). -/
def State.countAtDie (s : State) (owner : Nat) : State :=
  match s.partOfAsid owner with
  | some p => s.bumpPgwerr p
  | none => s.countUnowned

/-! ### Queue records (R65 to R67) -/

def Part.qte (a : Part) : Bool := bitAt a.pqtb.toNat 0
def Part.pen (a : Part) : Bool := bitAt a.pctl.toNat 0

/-- The physical address of a word of a queue record (R65, R66). -/
def State.qrec (s : State) (p q off : Nat) : Nat := bitsAt (s.part p).pqtb.toNat 51 16 * 2 ^ 16 + q * 256 + off
def State.qword (s : State) (p q off : Nat) : Nat := s.readPhys (s.qrec p q off) 8
def State.setQword (s : State) (p q off v : Nat) : State := s.writePhys (s.qrec p q off) v 8
def State.bumpQword (s : State) (p q off : Nat) : State := s.setQword p q off ((s.qword p q off + 1) % 2 ^ 64)

def qRINGB : Nat := 0x08
def qTAILC : Nat := 0x10
def qHEADC : Nat := 0x18
def qPROGC : Nat := 0x20
def qLATT : Nat := 0x28
def qIRQC : Nat := 0x30
def qDROPC : Nat := 0x38
def qITERC : Nat := 0x40
def qAGEC : Nat := 0x48
def qQSAVE : Nat := 0x50

/-- The control word of a queue (R67). -/
structure QCtl where
  asid : Nat
  ring : Nat
  en : Bool
  agen : Bool
  pri : Nat
  bad : Bool
  deriving DecidableEq, Repr

/-- QCTL as read; a malformed one, its QASID outside the partition's range among them, counts as EN = 0 (R67, R92). -/
def State.qctl (s : State) (p q : Nat) : QCtl :=
  let w := s.qword p q 0
  let asid := bitsAt w 47 36
  let bad := bitsAt w 63 48 ≠ 0 || bitsAt w 31 8 ≠ 0 || bitsAt w 5 3 ≠ 0 || decide (bitsAt w 35 32 > 10)
    || !inRange (s.part p).pasid asid
  { asid := asid, ring := 64 <<< bitsAt w 35 32, en := bitAt w 7 && !bad, agen := bitAt w 6, pri := bitsAt w 2 0, bad := bad }

/-- QCTL read by the queue manager: BADQ is set when it is malformed, and the queue's state follows EN (R67, R74). A doorbell written
while QTE is 0 reads it too, at the address PQTB gives, and so may set BADQ: R65 and R69 name BADREF alone (the model's choice,
log 17). -/
def State.readQctl (s : State) (p q : Nat) : QCtl × State :=
  let c := s.qctl p q
  let x := s.queue p q
  let x := { x with badq := x.badq || c.bad }
  let active := anyB (fun j => j.p == p && j.q == q) s.jobs.vals
  let st : QSt :=
    if c.en then (if x.st = .disabled then (if s.qword p q qTAILC = s.qword p q qHEADC then .off else .held) else x.st)
    else (if active then x.st else .disabled)
  (c, s.setQueue p q { x with st := st })

/-! ### Appends (R69) -/

/-- The package awake (R424): what reaches it is held back until the wake ends, and then takes effect. -/
def State.awake (s : State) : State := { s with power := .active, idleSince := none }

/-- What becomes of an append. -/
inductive AppRes where
  | accepted (pos : Nat) (s : State)
  | refused (s : State)
  | full (s : State)
  | staged (s : State)
  | wait

/-- A reference the queue manager refuses: zero, non-canonical or not aligned to 128 bytes (R69). -/
def badRef (ref : W64) : Bool := ref == 0#64 || ref.toNat ≥ 2 ^ 48 || ref.toNat % 128 != 0

/-- A refused append: BADREF set, DROPC counted in the record, at the address that PQTB gives whether QTE is 1 or 0 (R69). -/
def State.refuse (s : State) (p q : Nat) : State :=
  (s.modQueue p q fun x => { x with badref := true }).bumpQword p q qDROPC

/-- How far one wrapping 64-bit count is past another (R421). -/
def countGap (a b : Nat) : Nat := (a + 2 ^ 64 - b) % 2 ^ 64

/-- Whether the ring has room (R69). -/
def State.ringRoom (s : State) (p q : Nat) (c : QCtl) : Bool :=
  decide (countGap (s.qword p q qTAILC) (s.qword p q qPROGC) < c.ring)

/-- The reference written into its ring entry and TAILC advanced; the package is awake (R424). A ring entry that cannot be written
refuses the append (log 17). -/
def State.accept (s : State) (p q : Nat) (c : QCtl) (ref : W64) : AppRes :=
  let tail := s.qword p q qTAILC
  let va := (s.qword p q qRINGB + (tail % c.ring) * 8) % 2 ^ 64
  match s.vwrite holdQm c.asid true va ref.toNat 8 with
  | .error _ => .refused (s.refuse p q)
  | .ok s =>
    let s := s.awake.setQword p q qTAILC ((tail + 1) % 2 ^ 64)
    .accepted tail (s.modQueue p q fun x => { x with st := if x.st = .off then .held else x.st })

/-- The staging register's mark of a graph append, where a launch has its slot: this plus the predecessor's ASID. -/
def graphSender : Nat := 1024

/-- The job of a graph append that the queue refuses: it retires with RSTAT 0x03 and EWORD 0xFF, as its predecessor's
address space names it (R69). -/
def State.refusedJob (s : State) (p q : Nat) (ref : W64) (asid : Nat) : State :=
  let (id, s) := s.fresh
  { s with jobs := s.jobs.set id { p := p, q := q, pos := none, ref := ref, asid := asid, preset := some 0xFF0003#64 } }

/-- An append performed on a queue that is not switched out: accepted, refused, or the ring is full and it waits (R69). -/
def State.appendNow (s : State) (p q : Nat) (ref : W64) : AppRes :=
  let (c, s) := s.readQctl p q
  if badRef ref || !c.en || !(s.part p).qte then .refused (s.refuse p q)
  else if s.ringRoom p q c then s.accept p q c ref
  else .wait

/-- A TAILP write performed: a full ring refuses it (R69). -/
def State.doorbell (s : State) (p q : Nat) (ref : W64) : AppRes :=
  match s.appendNow p q ref with
  | .wait => .full (((s.readQctl p q).2.modQueue p q fun x => { x with full := true }).bumpQword p q qDROPC)
  | r => r

/-- A graph append performed: none while the ring has no room for it. -/
def State.graphAppend (s : State) (p q : Nat) (ref : W64) (asid : Nat) : Option State :=
  let (c, s) := s.readQctl p q
  if badRef ref || !c.en || !(s.part p).qte then some (s.refusedJob p q ref asid)
  else if s.ringRoom p q c then
    match s.accept p q c ref with
    | .accepted _ s => some s
    | _ => some (s.refusedJob p q ref asid)
  else none

/-- Graph appends that waited, performed in order, at most `n` of them: a switched-out queue stages one, unchecked as every
append to it is (log 48); one behind a reference still staged waits (R69). -/
def State.acceptWaiting (s : State) (p q : Nat) : Nat → State
  | 0 => s
  | n + 1 =>
    let x := s.queue p q
    match x.waiting with
    | [] => s
    | (ref, asid) :: r =>
      let s1 := s.modQueue p q fun x => { x with waiting := r }
      if x.staged.isSome then s
      else if (s.part p).swout then s1.modQueue p q fun x => { x with staged := some (ref, some (graphSender + asid)) }
      else match s1.graphAppend p q ref asid with
        | some t => t.acceptWaiting p q n
        | none => s

/-- What a staged launch returns, known at switch-in: it lands in the register at once, or with the restore of a context that is
switched out (R161). -/
def Slot.settleOwed (x : Slot) (pq : Nat) (v : W64) : Slot :=
  match x.owed.find? fun o => o.2.1 == pq && o.2.2.isNone with
  | none => x
  | some o =>
    if x.switched then { x with owed := x.owed.map fun k => if k.2.1 = pq then (k.1, pq, some v) else k }
    else { x.putS o.1 v with owed := x.owed.filter fun k => k.2.1 != pq }

/-- The staged reference appended, once its queue is switched in; a thread that staged it learns its position. A launch or
graph append for which the ring has no room stays staged (R69, R161). -/
def State.unstage (s : State) (p q : Nat) : State :=
  match (s.queue p q).staged with
  | none => s
  | some (ref, who) =>
    let s1 := s.modQueue p q fun x => { x with staged := none }
    let tell := fun (s : State) (n : Nat) (v : W64) => s.modSlot n fun x => x.settleOwed (p * 256 + q) v
    match who with
    | none => (match s1.doorbell p q ref with | .accepted _ t => t | .refused t => t | .full t => t | _ => s1)
    | some n =>
      if graphSender ≤ n then (s1.graphAppend p q ref (n - graphSender)).getD s
      else match s1.appendNow p q ref with
        | .accepted pos t => tell t n (BitVec.ofNat 64 pos)
        | .refused t => tell t n (BitVec.allOnes 64)
        | _ => s

/-- TAILP writes performed in arrival order. -/
def State.appendHeld (s : State) (p q : Nat) : List (W64 × Bool) → State
  | [] => s
  | (r, _) :: rs =>
    let s := s.seenWrite (tailpAddr p q) 8
    (match s.doorbell p q r with | .accepted _ t => t | .refused t => t | .full t => t | _ => s).appendHeld p q rs

/-- What waits before anything new on a queue that is switched in: the staged reference, then the held TAILP writes (R69). -/
def State.drainStaged (s : State) (p q : Nat) : State :=
  if (s.part p).swout then s
  else
    let s := s.unstage p q
    let x := s.queue p q
    if x.staged.isSome then s
    else (s.modQueue p q fun x => { x with heldWrites := [] }).appendHeld p q x.heldWrites

/-- An append from a doorbell (`slot` none; `host`: the host link brought it) or a thread's launch (R69). At a switched-out
queue the reference is staged unchecked (log 48); a further TAILP write is held, a further launch waits. -/
def State.append (s : State) (p q : Nat) (slot : Option Nat) (host : Bool) (ref : W64) : AppRes :=
  let (_, s) := s.readQctl p q
  let s := s.drainStaged p q
  let x := s.queue p q
  let later := fun (_ : Unit) => match slot with
    | none => AppRes.staged (s.modQueue p q fun x => { x with heldWrites := x.heldWrites ++ [(ref, host)] })
    | some _ => .wait
  if x.staged.isSome || !x.heldWrites.isEmpty then later ()
  else if (s.part p).swout then .staged (s.modQueue p q fun x => { x with staged := some (ref, slot) })
  else
    let s := s.acceptWaiting p q x.waiting.length
    match slot with
    | none => s.doorbell p q ref
    | some _ => s.appendNow p q ref

/-- Whether a TAILP write of the host link is held: the link's later accesses wait behind it (R69, R87). -/
def State.hostHeld (s : State) : Bool := anyB (fun a => anyB (fun x => anyB (·.2) x.heldWrites) a.queues.vals) s.parts.vals

/-- The state an append leaves where its outcome is not looked at (a doorbell write). -/
def AppRes.state (s : State) : AppRes → State
  | .accepted _ t => t
  | .refused t => t
  | .full t => t
  | .staged t => t
  | .wait => s

/-! ### Tokens (R80 to R83) -/

/-- Tokens a queue holds pending at most (R81). -/
def tokqDepth : Nat := 64

/-- A token sent toward a queue by a sender on a die (none: the config die): the sender holds it until it arrives (R83). R80 names
remote messages among the sources; the spec defines none that names a token queue, and the model has none (its choice, log 31). -/
def State.sendToken (s : State) (p t : Nat) (v : W32) (die : Option Nat := none) : State :=
  s.modTokq p t fun x => { x with held := x.held ++ [(v, die)] }

/-- The tokens that senders on a die hold are lost with its links, and counted as engine errors (R83, R412). -/
def State.loseTokens (s : State) (die : Nat) : State :=
  { s with parts := s.parts.map fun kp =>
      let lost := kp.2.tokqs.foldl (fun n kx => n + (kx.2.held.filter fun h => h.2 == some die).length) 0
      (kp.1, { kp.2 with
        tokqs := kp.2.tokqs.map fun kx => (kx.1, { kx.2 with held := kx.2.held.filter fun h => h.2 != some die })
        peerr := kp.2.peerr + BitVec.ofNat 64 lost }) }

/-- A token queue disarmed: its pending tokens stay, and firings issued so far belong to an arming that is over (R82). -/
def TokQ.disarm (x : TokQ) : TokQ := { x with armed := false, gen := x.gen + 1 }

/-! ### PROGC (R70, R88) -/

/-- PROGC past every leading retired job, at most `n` of them; an interrupt is due where IRQC asks for one. -/
def State.advanceProgc (s : State) (p q : Nat) : Nat → State
  | 0 => s
  | n + 1 =>
    let c := s.qword p q qPROGC
    if (s.queue p q).retired.contains c then
      let s := s.setQword p q qPROGC ((c + 1) % 2 ^ 64)
      let s := s.modQueue p q fun x =>
        { x with
          retired := x.retired.filter (· ≠ c)
          irqSince := if bitAt (s.qword p q qIRQC) 16 then some (x.irqSince.getD s.now) else x.irqSince }
      s.advanceProgc p q n
    else s

/-- The queue's interrupt, once the 1 µs window of the advance that asked for it has passed (R88). -/
def State.sendIrq (s : State) (p q : Nat) : State :=
  match (s.queue p q).irqSince with
  | some t =>
    if t + 1200 ≤ s.now then
      { s.modQueue p q (fun x => { x with irqSince := none }) with
        irqs := (p, q, bitsAt (s.qword p q qIRQC) 15 0) :: s.irqs }
    else s
  | none => s

/-- PROGC past the leading retired jobs, the interrupt of a window already over sent before (R70, R88). -/
def State.progress (s : State) (p q : Nat) : State :=
  (s.sendIrq p q).advanceProgc p q (s.queue p q).retired.length

/-! ### Job records (R14 to R17) -/

def recW (ws : List W64) (i : Nat) : Nat := (nth 0#64 ws i).toNat

/-- The 48-bit reference SUCCk (R14). -/
def succRef (ws : List W64) (k : Nat) : Nat :=
  let bit := (0x48 + 6 * k) * 8
  let big := recW ws (bit / 64) + recW ws (bit / 64 + 1) * 2 ^ 64
  bitsAt big (bit % 64 + 47) (bit % 64)

/-- Whether the words read hold the whole of SUCCk (R14). -/
def succRead (ws : List W64) (k : Nat) : Bool := decide ((0x48 + 6 * k + 5) / 8 < ws.length)

/-- A record's words as an agent reads them, and the index of the one that cannot be read, the words being those before it. USER,
the last word of a record, is not read (R14). -/
def State.recordWords (s : State) (holder asid ref : Nat) : List W64 × Option Nat :=
  match s.vwords holder asid true .load ref 15 with
  | .ok ws => (ws, none)
  | .error (_, a) =>
    let n := (a - ref) / 8
    ((match s.vwords holder asid true .load ref n with | .ok ws => ws | .error _ => []), some n)

def recKind (ws : List W64) : Nat := bitsAt (recW ws 0) 7 0
def recNest (ws : List W64) : Nat := bitsAt (recW ws 0) 10 8
def recSpanw (ws : List W64) : Nat := 2 ^ bitsAt (recW ws 0) 12 11
def recOvl (ws : List W64) : Bool := bitAt (recW ws 0) 13
def recRunerr (ws : List W64) : Bool := bitAt (recW ws 0) 14
def recCte (ws : List W64) : Bool := bitAt (recW ws 0) 15
def recSuccxe (ws : List W64) : Bool := bitAt (recW ws 0) 16
def recQnum (ws : List W64) : Nat := bitsAt (recW ws 0) 31 24
def recSuccn (ws : List W64) : Nat := bitsAt (recW ws 0) 35 32
def recTaint (ws : List W64) : Bool := bitAt (recW ws 0) 47
def recPredcnt (ws : List W64) : Nat := bitsAt (recW ws 0) 63 48
def recOrder (ws : List W64) (j : Nat) : Nat := bitsAt (recW ws 1) (3 * j + 2) (3 * j)
def recCtq (ws : List W64) : Nat := bitsAt (recW ws 1) 29 18
def recCtpay (ws : List W64) : Nat := bitsAt (recW ws 1) 63 32
def recCount (ws : List W64) (k : Nat) : Nat := bitsAt (recW ws (2 + k / 2)) (32 * (k % 2) + 31) (32 * (k % 2))
def recProg (ws : List W64) : Nat := recW ws 5
def recArgp (ws : List W64) : W64 := nth 0#64 ws 6

/-- TOTAL (R17). -/
def recTotal (ws : List W64) : Nat := (rangeFrom 0 (recNest ws)).foldl (fun a k => a * recCount ws k) 1

/-- The words a record's successor fields may break (R17): an inline reference zero in use or non-zero out of use blames the
word of its first byte. -/
def badSucc (ws : List W64) : Option Nat :=
  ((rangeFrom 0 8).filter fun k => succRead ws k && (decide (k < recSuccn ws)) != (succRef ws k != 0)).head?.map fun k => (0x48 + 6 * k) / 8

/-- CTL's own rules for a job (R15, R17, R21). -/
def badCtlJob (ws : List W64) : Bool :=
  recKind ws ≠ 1 || recNest ws < 1 || recNest ws > 6 || recSuccn ws > 8 || bitsAt (recW ws 0) 46 36 ≠ 0
    || bitsAt (recW ws 0) 23 17 ≠ 0 || recPredcnt ws ≠ 0 || (recSuccxe ws && recSuccn ws ≠ 8)

/-- CMPL's own rules: a permutation of the levels, zero beyond them, reserved bits zero (R16, R17). -/
def badCmpl (ws : List W64) : Bool :=
  let n := recNest ws
  bitsAt (recW ws 1) 31 30 ≠ 0
    || anyB (fun l => !anyB (fun j => recOrder ws j == l) (rangeFrom 0 n)) (rangeFrom 0 n)
    || anyB (fun j => recOrder ws j ≠ 0) (rangeFrom n (6 - n))

/-- SUCCX's rules (R17). -/
def badSuccx (ws : List W64) : Bool :=
  if recSuccxe ws then bitsAt (recW ws 7) 63 48 == 0 || bitsAt (recW ws 7) 47 0 % 8 ≠ 0 else recW ws 7 ≠ 0

/-- The lowest malformed word of the words read of a job record (R17, R22, R23); a TOTAL beyond 2^40 blames word 2 (log 17). -/
def recMalformed (ws : List W64) : Option Nat :=
  let n := ws.length
  if decide (0 < n) && badCtlJob ws then some 0
  else if decide (1 < n) && badCmpl ws then some 1
  else if recTotal ws > 2 ^ 40 then some 2
  else match (rangeFrom (recNest ws) (6 - recNest ws)).find? fun k => recCount ws k ≠ 0 with
  | some k => some (2 + k / 2)
  | none =>
    if recProg ws ≥ 2 ^ 48 || recProg ws % 64 ≠ 0 then some 5
    else if decide (7 < n) && badSuccx ws then some 7
    else badSucc ws

/-! ### Program headers (R25) -/

def hdrSregs (h : List W64) : Nat := bitsAt (recW h 0) 13 8
def hdrVregs (h : List W64) : Nat := bitsAt (recW h 0) 19 14
def hdrGroups (h : List W64) : Nat := bitsAt (recW h 0) 28 20
def hdrSpanmax (h : List W64) : Nat := bitsAt (recW h 0) 33 32
def hdrFeng (h : List W64) : Bool := bitAt (recW h 0) 34
def hdrScratch (h : List W64) : Nat := bitsAt (recW h 1) 14 0
def hdrPosmask (h : List W64) : Nat := bitsAt (recW h 2) 31 0
def hdrEntry (h : List W64) : Nat := bitsAt (recW h 3) 31 0

/-- The lowest offending word of a program header, for a job of a span width code (R25). -/
def hdrMalformed (h : List W64) (spanw : Nat) : Option Nat :=
  if bitsAt (recW h 0) 7 0 ≠ 0x50 || hdrSregs h < 9 || hdrSregs h > 32 || hdrVregs h > 32 || hdrGroups h > 256
      || bitsAt (recW h 0) 63 35 ≠ 0 || bitsAt (recW h 0) 31 29 ≠ 0 || spanw > hdrSpanmax h then some 0
  else if bitsAt (recW h 1) 63 15 ≠ 0 || hdrScratch h > 16384 then some 1
  else if bitsAt (recW h 2) 63 32 ≠ 0 || (hdrFeng h && !bitAt (hdrPosmask h) 31) then some 2
  else if bitsAt (recW h 3) 63 32 ≠ 0 || hdrEntry h % 4 ≠ 0 || hdrEntry h < 64 then some 3
  else (rangeFrom 4 4).find? fun i => recW h i ≠ 0

/-- The declarations a header makes (R26). -/
def declOf (h : List W64) : Decl :=
  { sregs := hdrSregs h, vregs := hdrVregs h, groups := hdrGroups h, scratch := hdrScratch h, spanmax := hdrSpanmax h,
    posmask := hdrPosmask h, feng := hdrFeng h }

/-- STATUS words (R22). -/
def statusWord (rstat ecause eword eord : Nat) : W64 :=
  BitVec.ofNat 64 (rstat + ecause * 2 ^ 8 + eword * 2 ^ 16 + eord % 2 ^ 40 * 2 ^ 24)

/-! ### Slices and chunks (R95 to R98) -/

/-- The courses of a partition on a die. -/
def State.dieCourses (s : State) (p d : Nat) : List Nat :=
  (rangeFrom (d * 32) 32).filter fun n => s.partOfCourse n == some p

/-- Whether a die's slice is eligible for a job of span width `w` (R95). -/
def State.eligible (s : State) (p w d : Nat) : Bool :=
  d % w == 0 && !(s.dies.getD {} d).resetting && anyB (fun i => allB (fun k => s.partOfCourse ((d + k) * 32 + i) == some p) (rangeFrom 0 w)) (rangeFrom 0 32)

/-- The eligible dies of a job, ascending. -/
def State.eligibleDies (s : State) (p w : Nat) : List Nat := (rangeFrom 0 8).filter (s.eligible p w)

/-- Contiguous shares of [0, total) over `dies`, the j-th of e: total div e ordinals and one more while j < total mod e (R95). -/
def sharesOf (total e : Nat) : Nat → List Nat → Map Chunk
  | _, [] => []
  | j, d :: r =>
    let lo := j * (total / e) + min j (total % e)
    let n := total / e + (if j < total % e then 1 else 0)
    (sharesOf total e (j + 1) r).set d ⟨lo, lo + n, if n = 0 then .dry else .holding⟩

/-- A job's ordinals handed to its eligible slices, once there are any (R95). -/
def State.handOut (s : State) (j : Job) : Job :=
  if j.handed || j.preset.isSome then j
  else
    let dies := s.eligibleDies j.p (recSpanw j.words)
    if dies.isEmpty then j
    else { j with handed := true, chunks := sharesOf j.total dies.length 0 dies }

/-- Whether a die holds no course of a partition, or is out of service: its slice is STRANDED (R97, R411). -/
def State.bare (s : State) (p d : Nat) : Bool := (s.dies.getD {} d).resetting || (s.dieCourses p d).isEmpty

/-- The slices of a partition's jobs after its course mask or a die's service changed from how it was in `old`: a slice whose
die holds no course is STRANDED while it holds ordinals, SPENT ones of that job look again, and a job without chunks gets them
(R92, R95, R97). Transitions the table does not give (log 32): a slice that is STRANDED when its die holds a course again goes
on as HOLDING, one without ordinals whose die holds none is SPENT, and a die that has become eligible joins as DRY. -/
def State.restrand (s : State) (old : State) (p : Nat) : State :=
  { s with jobs := s.jobs.map fun (id, j) =>
      if j.p ≠ p ∨ j.preset.isSome then (id, j)
      else if !j.handed then (id, s.handOut j)
      else
        let w := recSpanw j.words
        let lost := anyB (fun (d, c) => s.bare p d && decide (c.lo < c.hi) && c.st != .stranded) j.chunks
        let cs := j.chunks.map fun (d, c) =>
          if s.bare p d then (d, if c.lo < c.hi then { c with st := .stranded } else { c with st := .spent })
          else if c.st == .stranded then (d, { c with st := .holding })
          else if c.st == .spent && s.eligible p w d && (lost || !old.eligible p w d) then (d, { c with st := .dry })
          else (d, c)
        let joins := (s.eligibleDies p w).filter fun d => (j.chunks.get? d).isNone
        (id, { j with chunks := joins.foldl (fun m d => m.set d ⟨0, 0, .dry⟩) cs }) }

/-- Undispatched ordinals of a job anywhere. -/
def Job.left (j : Job) : Nat := j.chunks.foldl (fun a c => a + (c.2.hi - c.2.lo)) 0

/-- Every slice is SPENT, or the job never had an ordinal to hand out (R97, R419). -/
def Job.allSpent (j : Job) : Bool :=
  j.preset.isSome || (j.total == 0) || (j.handed && allB (fun c => c.2.st == .spent) j.chunks)

/-! ### Early trigger (R417) -/

def Job.trigHolds (j : Job) : Bool :=
  (j.preset.isNone || j.preset == some (statusWord 1 0 0xFF 0)) && j.dispatched == j.total && j.triggered == j.total

/-! ### Successors (R20, R21) -/

/-- A graph firing of a template begins (R78). -/
def State.fireGraph (s : State) (p asid : Nat) (ref : W64) : State :=
  let (id, s) := s.fresh
  { s with firings := s.firings.set id { p := p, tq := none, ref := ref, asid := asid, payload := 0 } }

/-- One decrement of a successor's CTL (R21): an atomic read-modify-write; the decrement that reaches zero appends the job
or fires the template. A CTL that cannot be accessed counts a graph error (log 17). -/
def State.decrement (s : State) (p asid ref : Nat) (taint : Bool) : State :=
  match s.vread holdWalker asid true .atomic ref 8 with
  | .error _ => s.bumpPgerr p
  | .ok ctl =>
    if bitsAt ctl 63 48 = 0 then
      -- PREDCNT stays zero; TAINT is set all the same
      (if taint then (match s.vwrite holdWalker asid true ref (setBits ctl 47 47 1) 8 with | .ok t => t | .error _ => s)
       else s).bumpPgerr p
    else
      let ctl' := ctl - 2 ^ 48
      let ctl' := if taint then setBits ctl' 47 47 1 else ctl'
      match s.vwrite holdWalker asid true ref ctl' 8 with
      | .error _ => s.bumpPgerr p
      | .ok s =>
        if bitsAt ctl' 63 48 ≠ 0 then s
        else if ctl' % 256 = 2 then s.fireGraph p asid (BitVec.ofNat 64 ref)
        else
          let q := bitsAt ctl' 31 24
          let s := s.modQueue p q fun x => { x with waiting := x.waiting ++ [(BitVec.ofNat 64 ref, asid)] }
          s.acceptWaiting p q (s.queue p q).waiting.length

/-- The inline successors in order. -/
def State.decInline (s : State) (p asid : Nat) (taint : Bool) : List Nat → State
  | [] => s
  | r :: rs =>
    (if r % 128 ≠ 0 then s.bumpPgerr p else s.decrement p asid r taint).decInline p asid taint rs

/-- The extension entries in ascending order: an ill-formed one is skipped and counted (R20). -/
def State.decExt (s : State) (p asid : Nat) (taint : Bool) (va : Nat) : Nat → State
  | 0 => s
  | n + 1 =>
    let s' := match s.vread holdWalker asid true .load va 8 with
      | .error _ => s.bumpPgerr p
      | .ok e => if bitsAt e 63 48 ≠ 0 || e % 128 ≠ 0 then s.bumpPgerr p else s.decrement p asid e taint
    s'.decExt p asid taint (va + 8) n

/-- A completed node's successors, as far as its words were read, decremented, with TAINT unless it completed with 0x01 (R20, R21). -/
def State.decSuccessors (s : State) (p asid : Nat) (ws : List W64) (taint : Bool) : State :=
  let s := s.decInline p asid taint (((rangeFrom 0 (min 8 (recSuccn ws))).filter (succRead ws)).map (succRef ws))
  if recSuccxe ws then s.decExt p asid taint (bitsAt (recW ws 7) 47 0) (bitsAt (recW ws 7) 63 48) else s

/-! ### Dispatch turns (R72, R73) -/

/-- A course's thread slots. -/
def slotsOf (course : Nat) : List Nat := rangeFrom (course * 4) 4

def State.slotFree (s : State) (n : Nat) : Bool := (s.slot n).use == .free

/-- The lowest free slot of a course. -/
def State.freeSlot (s : State) (course : Nat) : Option Nat := (slotsOf course).find? s.slotFree

/-- Occupied slots of a course. -/
def State.occupied (s : State) (course : Nat) : Nat := ((slotsOf course).filter fun n => !s.slotFree n).length

end Sys2Proof.Machine
end

