-- ==== Sys2Proof/Machine/Grid.lean ====
section
/-! DEFINITION. The course grid: sources and their consumers, input FIFOs and control channels (R192, R197 to R201, R228),
freezes (R216, R232, R250), the firings of bricks and tiles (R202, R210, R212, R213, R216, R220, R221) with their EOS (R194),
and gated positions (R228). The tokens' ways between positions are in Hops. -/

namespace Sys2Proof.Machine

/-! ### Accessors -/

def State.pos (s : State) (k : Nat) : Pos := s.poss.getD {} k
def State.setPos (s : State) (k : Nat) (x : Pos) : State := { s with poss := s.poss.set k x }
def State.modPos (s : State) (k : Nat) (f : Pos → Pos) : State := s.setPos k (f (s.pos k))
def State.fe (s : State) (c : Nat) : Fe := s.fes.getD {} c
def State.setFe (s : State) (c : Nat) (x : Fe) : State := { s with fes := s.fes.set c x }
def State.modFe (s : State) (c : Nat) (f : Fe → Fe) : State := s.setFe c (f (s.fe c))
def State.port (s : State) (k : Nat) : Port := s.ports.getD {} k
def State.setPort (s : State) (k : Nat) (x : Port) : State := { s with ports := s.ports.set k x }
def State.modPort (s : State) (k : Nat) (f : Port → Port) : State := s.setPort k (f (s.port k))
def State.modRun (s : State) (r : Nat) (f : Run → Run) : State :=
  match s.runs.get? r with
  | some x => { s with runs := s.runs.set r (f x) }
  | none => s

/-- The words of a position's active plane; zero where it has none. -/
def Pos.plane (x : Pos) : Plane := match x.active with | some n => x.planes.getD {} n | none => {}
def Pos.sw (x : Pos) : List W64 := x.plane.sw
def Pos.node (x : Pos) : List W64 := x.plane.node

/-- The words of an engine's active plane. -/
def Fe.words (x : Fe) : List W64 := match x.active with | some n => (x.planes.getD {} n).node | none => []

/-- Whether a run is frozen. -/
def State.runFrozen (s : State) (r : Option Nat) : Bool :=
  match r with
  | some n => (match s.runs.get? n with | some x => x.frozen | none => false)
  | none => false

/-- Whether a run is going on. -/
def State.runLive (s : State) (r : Option Nat) : Bool :=
  match r with
  | some n => (match s.runs.get? n with | some x => x.begun && !x.done | none => false)
  | none => false

/-- Something moved in a run: its quiet count starts again (R232). -/
def State.runMoved (s : State) (r : Option Nat) : State :=
  match r with
  | some r => s.modRun r fun x => { x with lastMove := s.now }
  | none => s

/-- Something moved at a position, or in an engine: quiet counts start again (R225, R232). -/
def State.movedAt (s : State) (k : Nat) : State :=
  (s.modPos k fun x => { x with lastMove := s.now }).runMoved (s.pos k).run
def State.feMoved (s : State) (c : Nat) : State :=
  (s.modFe c fun x => { x with lastMove := s.now }).runMoved (s.fe c).run

/-- A control token of the engine onto its control output, at the switch of position (3, 7) (R197). -/
def State.feCtlOut (s : State) (c : Nat) : State :=
  (s.modPos (posKey c 31) fun x => { x with ctl := x.ctl.set 5 (x.ctl.getD 0 5 + 1) }).movedAt (posKey c 31)

/-- Whether a run takes the engines of its region with it (R259). -/
def State.runFeng (s : State) (r : Option Nat) : Bool :=
  match r.bind s.runs.get? with
  | some x => x.feng
  | none => false

/-- Flags ORed into the barrier of the run at a position (R206, R242). -/
def State.runFlags (s : State) (r : Option Nat) (f : Flags) : State :=
  match r with
  | some n => s.modRun n fun x => { x with flags := x.flags ||| f }
  | none => s

/-! ### A brick's results on their way (R202, R213) -/

/-- An output register takes a token, if there is one and it is empty. -/
def Pos.putOut (x : Pos) (o : Nat) : Option Tok → Pos × Option Tok
  | none => (x, none)
  | some t => if (x.outs.getD [] o).isEmpty then ({ x with outs := x.outs.set o [t] }, none) else (x, some t)

/-- Results that are due leave the pipeline into the output registers that are free (R202), after the initial tokens (R213). -/
def Pos.retire (x : Pos) (due : Nat → Bool) : Pos :=
  match x.pipe with
  | [] => x
  | e :: r =>
    if !due e.ready || x.iniDue ≠ 0 then x
    else
      let (x, o0) := x.putOut 0 e.o0
      let (x, o1) := x.putOut 1 e.o1
      if o0.isNone && o1.isNone then { x with pipe := r }
      else
        let e : PipeEnt := { e with o0 := o0, o1 := o1 }
        { x with pipe := e :: r }

/-- Initial token `n` of a brick (R213). -/
def initToken (b : List W64) (n : Nat) : Tok :=
  { lanes := payload ((rangeFrom 0 16).map fun _ => brK b 4), vm := BitVec.allOnes 16, tag := outTag b 0 n none }

/-- The next initial token of a brick reaches O0 (R213). -/
def Pos.emitInit (x : Pos) : Pos :=
  if x.iniDue = 0 || !(x.outs.getD [] 0).isEmpty then x
  else { x with outs := x.outs.set 0 [initToken x.node (brInit x.node - x.iniDue)], iniDue := x.iniDue - 1 }

/-- The firings in a pipeline completed as far as the output registers take their results (R232, log 19). -/
def Pos.settled (x : Pos) : Nat → Pos
  | 0 => x
  | n + 1 => (x.retire fun _ => true).settled n

/-! ### Freezes (R232, R250) -/

/-- A thread's wake reason (R403): a reply, completion, episode or token arrived ([1]) or a cause is pending ([3]). -/
def Slot.woken (x : Slot) (bit : Nat) : Slot :=
  match x.wfe with
  | some w => { x with wfe := some { w with reasons := w.reasons ||| bit } }
  | none => x

/-- A fault for a thread, pending until a boundary (R250, R399). -/
def State.faultThread (s : State) (slot : Nat) (f : RegionFault) : State :=
  s.modSlot slot fun x => { (x.woken 8) with faults := x.faults ++ [f] }

/-- A run stopped at a token boundary, its pipelines completing what they hold (R232, R406). -/
def State.stopRun (s : State) (r fcause : Nat) : State :=
  let rest : Nat × Pos → Nat × Pos := fun kp => (kp.1, if kp.2.run = some r then kp.2.settled 7 else kp.2)
  State.modRun { s with poss := s.poss.map rest } r fun x => { x with frozen := true, fcause := fcause }

/-- A run frozen, its thread to take the trap; a run that is frozen already takes no second one. -/
def State.freeze (s : State) (r fcause cause rsts : Nat) (tval : W64) : State :=
  match s.runs.get? r with
  | some x =>
    if x.frozen || x.done then s
    else (s.stopRun r fcause).faultThread x.slot { cause := cause, rsts := rsts, tval := tval, run := r }
  | none => s

def State.freezeAt (s : State) (k fcause cause rsts : Nat) (tval : W64) : State :=
  match (s.pos k).run with
  | some r => s.freeze r fcause cause rsts tval
  | none => s

/-! ### Sources and consumers (R198, R199, R201) -/

/-- The token queue of a source: input FIFOs 1 to 5, output registers 6 and 7. -/
def Pos.source (x : Pos) (code : Nat) : List Tok :=
  if 1 ≤ code ∧ code ≤ 5 then x.fifo.getD [] (code - 1) else if code = 6 ∨ code = 7 then x.outs.getD [] (code - 6) else []

def Pos.setSource (x : Pos) (code : Nat) (ts : List Tok) : Pos :=
  if 1 ≤ code ∧ code ≤ 5 then { x with fifo := x.fifo.set (code - 1) ts }
  else { x with outs := x.outs.set (code - 6) ts }

/-- Consumer numbers: outputs 0 to 4, node inputs 5 to 8, merge pair m of output d as 10 + 2d + m. -/
def outConsumer (d : Nat) : Nat := d
def portConsumer (p : Nat) : Nat := 5 + p
def mergeConsumer (d m : Nat) : Nat := 10 + 2 * d + m

/-- The consumers of a source of position `p`. -/
def Pos.consumers (x : Pos) (p code : Nat) : List Nat :=
  let sw := x.sw
  let outs := (rangeFrom 0 5).filterMap fun d =>
    let o := swOut sw d
    if o = code then some (outConsumer d)
    else if (o = 8 ∨ o = 9) ∧ (swMerge sw (o - 8) 0 = code ∨ swMerge sw (o - 8) 1 = code) then
      some (mergeConsumer d (o - 8))
    else none
  let ports :=
    if code > 5 then []
    else if isBrick p then
      if brTakesPart x.node then
        ((rangeFrom 0 4).filter fun q => brSel x.node q == code && brPortUsed x.node q).map portConsumer
      else []
    else ((rangeFrom 0 2).filter fun i => tiUses x.node i && tiSel x.node i == code).map portConsumer
  outs ++ ports

/-- The head token of a source, for a consumer that has not taken it. -/
def Pos.headFor (x : Pos) (code who : Nat) : Option Tok :=
  match x.source code with
  | [] => none
  | t :: _ => if (x.marks.getD [] code).contains who then none else some t

/-- A consumer takes the head of a source; the token leaves when every consumer has taken it. -/
def Pos.take (x : Pos) (p code who : Nat) : Pos :=
  let ms := who :: x.marks.getD [] code
  if allB (fun c => ms.contains c) (x.consumers p code) then
    { x.setSource code ((x.source code).drop 1) with marks := x.marks.erase code }
  else { x with marks := x.marks.set code ms }

/-! ### Where outputs lead (R89, R197) -/

/-- What an output in direction `d` of a position of a course leads to. -/
inductive Lead where
  | fifo (k f : Nat)
  | feA | feB
  | nothing
  deriving DecidableEq, Repr

/-- Whether a column-7 switch's E port joins the engine (R197). -/
def Pos.joinsFe (x : Pos) (p : Nat) : Bool := p % 8 == 7 && decide (p < 24) && swFeatt x.sw

def State.leadOf (s : State) (c p d : Nat) : Lead :=
  let x := s.pos (posKey c p)
  if d = 1 ∧ x.joinsFe p then (if p = 7 then .feA else if p = 15 then .feB else .nothing)
  else match neighbour (posKey c p) d with
  | none => .nothing
  | some k =>
    -- the neighbour's E port may join its own engine
    if d = 3 ∧ (s.pos k).joinsFe (k % 32) then .nothing else .fifo k (opposite d)

/-- Whether a gateway stands between two courses: they belong to different partitions (R93). -/
def State.gateOn (s : State) (c c' : Nat) : Bool := c' ≠ c && s.partOfCourse c ≠ s.partOfCourse c'

/-- The owner of a run's tokens. -/
def State.runOwner (s : State) (r : Option Nat) : Nat :=
  match r.bind s.runs.get? with
  | some x => x.asid
  | none => 0

/-- Tokens an engine port holds: one frame and the FIFO of a switch input (R267). -/
def fePortCap : Nat := 24

/-- Whether a course's positions can take a token now (R228): a dark course cannot. -/
def State.courseTakes (s : State) (c : Nat) : Bool := (s.course c).power ≠ .dark

/-- Whether a position's clocks are stopped (R228). -/
def State.posGated (s : State) (k : Nat) : Bool := (s.pos k).gated || (s.course (k / 32)).power == .gated

/-- The spill ring that serves an input FIFO, by its key (R201, R222, R223). -/
def State.spillKey (s : State) (k f : Nat) : Option Nat :=
  let x := s.pos k
  match x.active with
  | some n =>
    if bitAt (swSpill x.sw) f then
      let t := swSptile x.sw
      let tp := (s.pos (posKey (k / 32) (tilePos t))).planes.getD {} n
      if tiSpe tp.node then some (k / 32 * 64 + t * 4 + n) else none
    else none
  | none => none

/-- Whether the ring behind an input FIFO holds no token. -/
def State.ringEmpty (s : State) (k f : Nat) : Bool :=
  match s.spillKey k f with
  | some r => (s.spills.getD {} r).recs.isEmpty
  | none => true

/-- A token into an input FIFO, or into its ingress buffer while its position's clocks are stopped or earlier tokens wait
there; none where it meets back-pressure (R198, R228). -/
def State.enterFifo (s : State) (k f : Nat) (t : Tok) : Option State :=
  let x := s.pos k
  let w := x.ingress.getD [] f
  let q := x.fifo.getD [] f
  if !s.courseTakes (k / 32) || s.runFrozen x.run then none
  else if s.posGated k || !w.isEmpty then
    if w.length < 8 then some ((s.modPos k fun x => { x with ingress := x.ingress.set f (w ++ [t]) }).movedAt k) else none
  else if q.length < 8 && s.ringEmpty k f then
    some ((s.modPos k fun x => { x with fifo := x.fifo.set f (q ++ [t]) }).movedAt k)
  else none

/-! ### Merges (R199) -/

/-- The source a merge pair serves next among its sources that hold a token: the one not served last first (R199). Before
either has been served, the first source goes (the model's choice, log 19). -/
def Pos.mergePick (x : Pos) (d m : Nat) : Option (Nat × Tok) :=
  let a := swMerge x.sw m 0
  let b := swMerge x.sw m 1
  let who := mergeConsumer d m
  let ha := if a = 0 then none else (x.headFor a who).map fun t => (a, t)
  let hb := if b = 0 ∨ b = a then none else (x.headFor b who).map fun t => (b, t)
  match ha, hb with
  | some u, some v => if x.served.get? who = some u.1 then some v else some u
  | some u, none => some u
  | none, v => v

/-- The sources of a merge pair. -/
def Pos.mergeSources (x : Pos) (m : Nat) : List Nat := [swMerge x.sw m 0, swMerge x.sw m 1].filter (· ≠ 0)

/-! ### Control network (R192, R201) -/

/-- Control channels hold eight tokens; a node's own control output holds those its channel does not take (R192, log 19). -/
def ctlCap : Nat := 8

/-- The consumers of a control channel: control outputs 0 to 3, the brick's CIN 4, the engine's control input 5. Channels
are numbered by source code less one. -/
def Pos.ctlConsumers (x : Pos) (p ch : Nat) : List Nat :=
  ((rangeFrom 0 4).filter fun d => swCtl x.sw d == ch + 1)
    ++ (if isBrick p && brCin x.node == ch + 1 && decide (ch < 4) then [4] else [])
    ++ (if p == 31 && swFecin x.sw == ch + 1 then [5] else [])

/-- Whether a control token waits for a consumer. -/
def Pos.ctlReady (x : Pos) (ch who : Nat) : Bool :=
  decide (0 < x.ctl.getD 0 ch) && !(x.ctlMarks.getD [] ch).contains who

def Pos.ctlTake (x : Pos) (p ch who : Nat) : Pos :=
  let ms := who :: x.ctlMarks.getD [] ch
  if allB (fun c => ms.contains c) (x.ctlConsumers p ch) then
    { x with ctl := x.ctl.set ch (x.ctl.getD 0 ch - 1), ctlMarks := x.ctlMarks.erase ch }
  else { x with ctlMarks := x.ctlMarks.set ch ms }

/-- A control token into a channel of a position; none under back-pressure. -/
def State.enterCtl (s : State) (k ch : Nat) : Option State :=
  let x := s.pos k
  let w := x.ctlIngress.getD 0 ch
  if !s.courseTakes (k / 32) || s.runFrozen x.run then none
  else if s.posGated k || w ≠ 0 then
    if w < ctlCap then some ((s.modPos k fun x => { x with ctlIngress := x.ctlIngress.set ch (w + 1) }).movedAt k) else none
  else if x.ctl.getD 0 ch < ctlCap then
    some ((s.modPos k fun x => { x with ctl := x.ctl.set ch (x.ctl.getD 0 ch + 1) }).movedAt k)
  else none

/-! ### Bricks -/

/-- Whether a node may act: its run goes on, is not frozen, has not ended it, and its clocks run. -/
def State.nodeActs (s : State) (k : Nat) : Bool :=
  let x := s.pos k
  s.runLive x.run && !s.runFrozen x.run && !x.ended && !s.posGated k

/-- The ports mode `m` consumes or reads, ascending. -/
def modePorts (b : List W64) (m : Nat) : List Nat := (rangeFrom 0 4).filter (brUses b m)

/-- The heads of the ports of a mode, where every one holds a token for its port. -/
def Pos.portHeads (x : Pos) (m : Nat) : Option (Map Tok) :=
  (modePorts x.node m).foldr (fun p acc => match acc with
    | none => none
    | some h => match x.headFor (brSel x.node p) (portConsumer p) with
      | some t => some (h.set p t)
      | none => none) (some [])

/-- The mode after `m` in the cycle (R212). -/
def nextMode (b : List W64) (m : Nat) : Nat := if m < brMcnt b then m + 1 else 0

/-- Ports taken, one after another. -/
def Pos.takePorts (x : Pos) (p : Nat) : List Nat → Pos
  | [] => x
  | q :: r => (x.take p (brSel x.node q) (portConsumer q)).takePorts p r

/-- The tokens a firing's stage results make for output `o` (R209, R210, R212): none where the mode does not enable it. A steered
token has the firing's input tag, or TKx where the firing consumes no port, whatever TSx says: R210 does not name TSx (the model's
choice, log 19). -/
def Pos.outTokens (x : Pos) (m o : Nat) (f : Firing16) (vm : BitVec 16) (intag : Option Byte) : List Tok × Option Tok :=
  let b := x.node
  let held := x.comp.get? o
  if !brOutOn b m o then ([], held)
  else match f.steer with
  | some (ls, p) =>
    let go := (rangeFrom 0 16).filter fun j => vm.getLsbD j && (p.getLsbD j == (o == 0))
    steerInto (brFlt b o) held (go.map (nth 0 ls)) (intag.getD (BitVec.ofNat 8 (brTk b o)))
  | none =>
    let ls := ((if o = 0 then f.o0 else f.o1)).getD ((rangeFrom 0 16).map fun _ => 0)
    ([{ lanes := payload ls, vm := vm, tag := outTag b o (x.emitted.getD 0 o) intag }], held)

/-- The compaction buffer of an output after a firing. -/
def setComp (m : Map Tok) (o : Nat) : Option Tok → Map Tok
  | some t => m.set o t
  | none => m.erase o

/-- The pipeline entries of a firing's tokens: a partial token that a steered output sends first has an entry of its own. -/
def pipeEnts (ready : Nat) (t0 t1 : List Tok) : List PipeEnt :=
  if t0.length ≤ 1 ∧ t1.length ≤ 1 then [⟨ready, t0.head?, t1.head?⟩]
  else
    let early := fun (ts : List Tok) => if ts.length ≤ 1 then none else ts.head?
    [⟨ready, early t0, early t1⟩, ⟨ready, t0.getLast?, t1.getLast?⟩]

/-- The firings a pipeline holds. -/
def pipeDepth : Nat := 6

/-- A firing's entry into stage 0 (R202), its tag check just before it (R216). -/
def State.brickEnter (s : State) (k : Nat) : State :=
  let x := s.pos k
  let b := x.node
  let m := x.mode
  let p := k % 32
  match x.portHeads m with
  | none => s
  | some heads =>
    if anyB (fun h => h.2.eos) heads || (heads.isEmpty && !brTakesPart b) then s
    else
      let vm := firingVm b m heads
      let f0 : Firing16 := { prev := (rangeFrom 0 16).map fun _ => 0, p := x.p, l := x.l }
      let f := stagesRun b m 0 heads vm x.ordinal s.freeCnt f0 6
      let intag := ((rangeFrom 0 4).find? (brCons b m)).map fun q => (heads.getD {} q).tag
      let (t0, c0) := x.outTokens m 0 f vm intag
      let (t1, c1) := x.outTokens m 1 f vm intag
      -- space where the firing needs it: a steered output that takes no lane needs none
      let needs := fun (o : Nat) (ts : List Tok) (c : Option Tok) =>
        brOutOn b m o && (f.steer.isNone || !ts.isEmpty || c ≠ x.comp.get? o)
      let room := fun (o : Nat) => (x.outs.getD [] o).isEmpty
      let ents := pipeEnts (s.now + 12) t0 t1
      if x.pipe.length + ents.length > pipeDepth || (needs 0 t0 c0 && !room 0) || (needs 1 t1 c1 && !room 1) then s
      else
        let checked := brTchk b && brCons b m (brTcport b)
        let expect := (brTcbase b + x.tcn % max 1 (brTclen b)) % 256
        let found := (heads.getD {} (brTcport b)).tag.toNat
        if checked && found ≠ expect then
          s.freezeAt k 2 0x12 0 (BitVec.ofNat 64 (p + expect * 2 ^ 8 + found * 2 ^ 16))
        else
          let y := x.takePorts p ((modePorts b m).filter (brCons b m))
          let y := { y with
            mode := if brMadv b then nextMode b m else m
            ordinal := x.ordinal + 1
            p := f.p
            l := f.l
            comp := setComp (setComp x.comp 0 c0) 1 c1
            emitted := (x.emitted.set 0 (x.emitted.getD 0 0 + t0.length)).set 1 (x.emitted.getD 0 1 + t1.length)
            tcn := if checked then x.tcn + 1 else x.tcn
            pipe := x.pipe ++ ents }
          (({ s.setPos k y with freeCnt := s.freeCnt + 96 }).runFlags x.run f.flags).movedAt k

/-- BRICK_FIRING (R202, R213): initial tokens and results that are due leave, and a firing enters where it can. -/
def execBrickFiring (c pos : Nat) (s : State) : Out :=
  let k := posKey c pos
  let x := s.pos k
  .next (
    if !isBrick pos || s.runFrozen x.run || s.posGated k then s
    else
      let y := x.emitInit.retire fun t => decide (t ≤ s.now)
      let s := if y = x then s else (s.setPos k y).movedAt k
      if s.nodeActs k then s.brickEnter k else s)

/-- CONTROL_TOKEN_ARRIVAL (R212): a control token taken at CIN between firings; with MADV = 0 it advances the mode. -/
def execControlTokenArrival (c pos : Nat) (s : State) : Out :=
  let k := posKey c pos
  let x := s.pos k
  let cin := brCin x.node
  .next (
    if !isBrick pos || cin = 0 || !s.nodeActs k || !x.ctlReady (cin - 1) 4 then s
    else (s.modPos k fun x =>
      let y := x.ctlTake pos (cin - 1) 4
      if brMadv x.node then y else { y with mode := nextMode x.node x.mode }).movedAt k)

/-! ### Tiles -/

/-- The physical address of a word of a position's tile (R291). -/
def tileAddr (k w : Nat) : Nat := windowBase + k / 32 * 0x1000000 + tileIndex (k % 32) * 0x20000 + 4 * w

def State.tileRead (s : State) (k w : Nat) : Nat := s.readPhys (tileAddr k w) 4
def State.tileWrite (s : State) (k w v : Nat) : State := s.writePhys (tileAddr k w) v 4

/-- The head token at a tile's input, if the input is connected. -/
def Pos.tileHead (x : Pos) (i : Nat) : Option Tok :=
  if tiUses x.node i then x.headFor (tiSel x.node i) (portConsumer i) else none

def Pos.tileTake (x : Pos) (p i : Nat) : Pos := x.take p (tiSel x.node i) (portConsumer i)

/-- Whether an input has delivered its EOS marker: taken, at its head, or unconnected (R220). -/
def Pos.tileAtEos (x : Pos) (i : Nat) : Bool :=
  if !tiUses x.node i then true else match x.tileHead i with | some t => t.eos | none => false

/-- The lanes of a token written at a generator's addresses, plainly or combined (R220). -/
def State.tilePut (s : State) (k g n : Nat) (t : Tok) (acc : Bool) : Nat → State × Flags
  | 0 => (s, flNone)
  | j + 1 =>
    let (s, f) := s.tilePut k g n t acc j
    if !t.vm.getLsbD j then (s, f)
    else
      let w := tiWord (s.pos k).node g n j
      let v := laneOf t.lanes j
      if acc then
        let (r, f2) := tileCombine 0 (tiAfmt (s.pos k).node) (s.tileRead k w) v
        (s.tileWrite k w r, f ||| f2)
      else (s.tileWrite k w v, f)

/-- A token read at a generator's addresses: tag 0, all lanes valid (R220). -/
def State.tileGet (s : State) (k g n : Nat) : Tok :=
  { lanes := payload ((rangeFrom 0 16).map fun j => s.tileRead k (tiWord (s.pos k).node g n j)), vm := BitVec.allOnes 16 }

/-- Whether a read of SCRATCH or ACCUM is due: its round is not done and its output register is free (R220). -/
def Pos.readDue (x : Pos) : Bool :=
  let t := x.node
  let phase := if tiMode t = 1 then !tiWaitw t || x.inEos || tiSel t 0 == 0 else tiDump t && x.inEos
  phase && decide (x.gen.getD 0 1 < tiRound t 1) && (x.outs.getD [] 0).isEmpty

/-- TILE_ACCESS (R220): one SCRATCH write or read in turns, one QUEUE append or removal, one ACCUM combination or readout. -/
def State.tileStep (s : State) (k : Nat) : State :=
  let x := s.pos k
  let t := x.node
  let p := k % 32
  let write := match x.tileHead 0 with
    | some h => !h.eos && !x.inEos
    | none => false
  let doWrite := fun (acc : Bool) =>
    match x.tileHead 0 with
    | none => s
    | some h =>
      let (s, f) := s.tilePut k 0 (x.gen.getD 0 0) h acc 16
      ((s.modPos k fun y =>
        let y := y.tileTake p 0
        { y with gen := y.gen.set 0 (x.gen.getD 0 0 + 1), wroteLast := true }).runFlags x.run f).movedAt k
  let doRead := fun (_ : Unit) =>
    let tok := s.tileGet k 1 (x.gen.getD 0 1)
    (s.modPos k fun y =>
      { y with outs := y.outs.set 0 [tok], gen := y.gen.set 1 (x.gen.getD 0 1 + 1), wroteLast := false }).movedAt k
  match tiMode t with
  | 1 => if write && x.readDue then (if x.wroteLast then doRead () else doWrite false)
         else if write then doWrite false else if x.readDue then doRead () else s
  | 2 =>
    match x.queue, (x.outs.getD [] 0).isEmpty with
    | q :: r, true =>
      (s.modPos k fun y => { y with queue := r, outs := y.outs.set 0 [q], ended := y.ended || q.eos }).movedAt k
    | _, _ =>
      if x.inEos then s
      else match x.tileHead 0 with
      | some h =>
        if x.queue.length < tiCap t then
          (s.modPos k fun y => { y.tileTake p 0 with queue := y.queue ++ [h], inEos := h.eos }).movedAt k
        else s
      | none => s
  | 3 => if write then doWrite true else if x.readDue then doRead () else s
  | _ => s

def execTileAccess (c pos : Nat) (s : State) : Out :=
  let k := posKey c pos
  .next (if isBrick pos || !s.nodeActs k then s else s.tileStep k)

/-- The lanes of an RMW firing, ascending: each reads what the lower lanes of its word left (R221). -/
def State.rmwLanes (s : State) (k : Nat) (key val : Tok) (j : Nat) : Nat → State × List Nat × Flags
  | 0 => (s, [], flNone)
  | n + 1 =>
    let t := (s.pos k).node
    if key.vm.getLsbD j && val.vm.getLsbD j then
      let w := tiLo t + laneOf key.lanes j % (tiHi t - tiLo t)
      let old := s.tileRead k w
      let (v, f) := tileCombine (tiRop t) (tiRfmt t) old (laneOf val.lanes j)
      let (s, ls, f2) := (s.tileWrite k w v).rmwLanes k key val (j + 1) n
      (s, old :: ls, f ||| f2)
    else
      let (s, ls, f) := s.rmwLanes k key val (j + 1) n
      (s, 0 :: ls, f)

/-- TILE_RMW_FIRING (R221): one key token and one value token combined; with FETCH the old values leave on O0. -/
def execTileRmwFiring (c pos : Nat) (s : State) : Out :=
  let k := posKey c pos
  let x := s.pos k
  let t := x.node
  .next (
    if isBrick pos || tiMode t ≠ 4 || !s.nodeActs k then s
    else match x.tileHead 0, x.tileHead 1 with
    | some key, some val =>
      if key.eos || val.eos || (tiFetch t && !(x.outs.getD [] 0).isEmpty) then s
      else
        let (s, old, f) := s.rmwLanes k key val 0 16
        let tok : Tok := { lanes := payload old, vm := key.vm &&& val.vm, tag := key.tag }
        ((s.modPos k fun y =>
          let y := (y.tileTake pos 0).tileTake pos 1
          if tiFetch t then { y with outs := y.outs.set 0 [tok] } else y).runFlags x.run f).movedAt k
    | _, _ => s)

/-! ### EOS (R194) -/

/-- A brick whose consumed and peeked inputs all hold EOS markers takes them, sends what its compaction buffers hold and one
marker on each output it drives, and ends; as a firing, it needs space on each of them (R198). The control token of CEOS waits for no
space: the two networks exchange no back-pressure (R192). -/
def State.brickEnd (s : State) (k : Nat) : State :=
  let x := s.pos k
  let b := x.node
  match x.portHeads x.mode with
  | none => s
  | some heads =>
    let full := anyB (fun o => brDrives b o && !(x.outs.getD [] o).isEmpty) (rangeFrom 0 2)
    let last := fun (o : Nat) => if brDrives b o then (x.comp.get? o).toList ++ [eosTok] else []
    let ents := pipeEnts (s.now + 12) (last 0) (last 1)
    if heads.isEmpty || !allB (fun h => h.2.eos) heads || full || x.pipe.length + ents.length > pipeDepth then s
    else
      (s.modPos k fun x =>
        let y := x.takePorts (k % 32) (modePorts b x.mode)
        { y with
          ended := true
          comp := []
          pipe := y.pipe ++ ents
          ctl := if brCeos b then y.ctl.set 4 (y.ctl.getD 0 4 + 1) else y.ctl }).movedAt k

/-- The EOS of a tile by its mode (R220): the input's marker is taken, and where its output's tokens are done the output's
marker leaves and the tile ends. -/
def State.tileEnd (s : State) (k : Nat) : State :=
  let x := s.pos k
  let t := x.node
  let p := k % 32
  let free := (x.outs.getD [] 0).isEmpty
  let takeIn := fun (x : Pos) (i : Nat) => if tiUses t i then x.tileTake p i else x
  let finish := fun (_ : Unit) => (s.modPos k fun y => { y with outs := y.outs.set 0 [eosTok], ended := true }).movedAt k
  match tiMode t with
  | 1 =>
    if !x.inEos && x.tileAtEos 0 then (s.modPos k fun y => { takeIn y 0 with inEos := true }).movedAt k
    else if x.inEos && decide (tiRound t 1 ≤ x.gen.getD 0 1) && free then finish () else s
  | 2 =>
    -- an unconnected input delivers a marker and nothing else
    if !x.inEos && !tiUses t 0 then (s.modPos k fun y => { y with inEos := true, queue := y.queue ++ [eosTok] }).movedAt k else s
  | 3 =>
    if !x.inEos && x.tileAtEos 0 then
      (s.modPos k fun y => { takeIn y 0 with inEos := true, ended := !tiDump t }).movedAt k
    else if x.inEos && tiDump t && decide (tiRound t 1 ≤ x.gen.getD 0 1) && free then finish () else s
  | 4 =>
    if x.tileAtEos 0 && x.tileAtEos 1 && (!tiFetch t || free) then
      (s.modPos k fun y =>
        let y := takeIn (takeIn y 0) 1
        { y with ended := true, outs := if tiFetch t then y.outs.set 0 [eosTok] else y.outs }).movedAt k
    else s
  | _ => s

/-- NODE_END (R194, R220): a node takes the EOS markers of its inputs, emits its own and ends. -/
def execNodeEnd (c pos : Nat) (s : State) : Out :=
  let k := posKey c pos
  .next (if !s.nodeActs k then s else if isBrick pos then s.brickEnd k else s.tileEnd k)

/-! ### Gated positions (R228) -/

/-- Whether a position holds nothing. -/
def Pos.empty (x : Pos) : Bool :=
  allB (fun q => q.2.isEmpty) x.fifo && allB (fun q => q.2.isEmpty) x.ingress && allB (fun q => q.2.isEmpty) x.outs
    && x.pipe.isEmpty && x.comp.isEmpty && x.queue.isEmpty && allB (fun q => q.2 == 0) x.ctl
    && allB (fun q => q.2 == 0) x.ctlIngress && x.iniDue == 0

/-- Whether the active plane of position `p` gives its node a function (R242). -/
def Pos.takesPart (x : Pos) (p : Nat) : Bool := if isBrick p then brTakesPart x.node else tiMode x.node ≠ 0

/-- Whether a position's node is idle: it and its rings hold nothing, and it takes part in no run, has ended, or waits for
input with nothing else to do. -/
def State.posIdle (s : State) (k : Nat) : Bool :=
  let x := s.pos k
  x.empty && allB (s.ringEmpty k) (rangeFrom 0 5) && (!s.runLive x.run || x.ended || !x.takesPart (k % 32)
    || (if isBrick (k % 32) then anyB (brUses x.node x.mode) (rangeFrom 0 4) else tiUses x.node 0 && !x.inEos && !x.readDue))

/-- POSITION_CLOCK_GATE (R228): an idle position of an ACTIVE course has its clocks stopped. -/
def execPositionClockGate (c pos : Nat) (s : State) : Out :=
  let k := posKey c pos
  .next (if (s.course c).power == .active && s.posIdle k && decide (pos < 32) then
    s.modPos k fun x => { x with gated := true } else s)

/-- A woken position: what its ingress buffers hold enters its FIFOs and channels as they have room, behind what a ring holds
(R223, R228). -/
def Pos.admitIngress (x : Pos) (ringEmpty : Nat → Bool) : Pos :=
  let one := fun (y : Pos) (f : Nat) =>
    let q := y.fifo.getD [] f
    let w := y.ingress.getD [] f
    let n := if ringEmpty f then 8 - q.length else 0
    if w.isEmpty then y else { y with fifo := y.fifo.set f (q ++ w.take n), ingress := y.ingress.set f (w.drop n) }
  let ctl := fun (y : Pos) (ch : Nat) =>
    let q := y.ctl.getD 0 ch
    let n := min (y.ctlIngress.getD 0 ch) (ctlCap - q)
    if n = 0 then y else { y with ctl := y.ctl.set ch (q + n), ctlIngress := y.ctlIngress.set ch (y.ctlIngress.getD 0 ch - n) }
  (rangeFrom 0 4).foldl ctl ((rangeFrom 0 5).foldl one { x with gated := false })

/-- Whether tokens wait in a position's ingress buffers. -/
def Pos.ingressWaits (x : Pos) : Bool := anyB (fun q => !q.2.isEmpty) x.ingress || anyB (fun q => q.2 ≠ 0) x.ctlIngress

/-- A position awake; in a frozen region its ingress buffers keep what they hold (R232). -/
def State.wakePos (s : State) (k : Nat) : State :=
  let x := s.pos k
  let t := s.modPos k fun x => { x with gated := false }
  if s.runFrozen x.run || !x.ingressWaits then t else (t.setPos k (x.admitIngress (s.ringEmpty k))).movedAt k

/-- The positions of a course. -/
def coursePoss (c : Nat) : List Nat := (rangeFrom 0 32).map (posKey c)

/-- A course's positions woken with it. -/
def State.wakeCourse (s : State) (c : Nat) : State :=
  (coursePoss c).foldl State.wakePos (s.modCourse c fun x => { x with power := .active, idleSince := none })

/-- POSITION_WAKE (R228): a position, or a GATED course, that a token has reached wakes. -/
def execPositionWake (c pos : Nat) (s : State) : Out :=
  let k := posKey c pos
  .next (
    if !(s.pos k).ingressWaits then s
    else if (s.course c).power == .gated then s.wakeCourse c
    else s.wakePos k)

/-! ### Spill records, and the places of a position's tokens in a context record (R222, R407) -/

/-- Records the first tier of a ring holds. -/
def spillNear : Nat := 384

/-- A token's spill record, as its sixteen words: the payload, then VM, TAG and EOS, then zeros (R222). -/
def spillWords (t : Tok) : List W64 :=
  ((rangeFrom 0 8).map fun i => t.lanes.extractLsb' (64 * i) 64)
    ++ BitVec.ofNat 64 (t.vm.toNat + t.tag.toNat * 2 ^ 16 + b2n t.eos * 2 ^ 24) :: (rangeFrom 0 7).map fun _ => 0#64

/-- The token a spill record holds. -/
def spillTok (ws : List W64) : Tok :=
  let c := wordAt ws 8
  { lanes := BitVec.ofNat 512 ((rangeFrom 0 8).foldr (fun i a => wordAt ws i + 2 ^ 64 * a) 0), vm := BitVec.ofNat 16 c,
    tag := BitVec.ofNat 8 (bitsAt c 23 16), eos := bitAt c 24 }

/-- The token in place `i` of a position's 96: five FIFOs and five ingress buffers of eight, six pipeline stages of two, two
output registers, two compaction buffers (R407; the order within the area is the model's choice, log 9). -/
def Pos.tokenAt (x : Pos) (i : Nat) : Option Tok :=
  if i < 40 then ((x.fifo.getD [] (i / 8)).drop (i % 8)).head?
  else if i < 80 then ((x.ingress.getD [] ((i - 40) / 8)).drop (i % 8)).head?
  else if i < 92 then (x.pipe.drop ((i - 80) / 2)).head?.bind fun e => if i % 2 = 0 then e.o0 else e.o1
  else if i < 94 then (x.outs.getD [] (i - 92)).head?
  else x.comp.get? (i - 94)

/-- The places of a position's tokens. -/
def tokenPlaces : Nat := 96

/-- Every token of a position replaced by what `f` gives for its place. -/
def Pos.mapTokens (x : Pos) (f : Nat → Tok) : Pos :=
  let row := fun (base : Nat) (q : List Tok) => (rangeFrom base q.length).map f
  let two := fun (i : Nat) (t : Option Tok) => t.map fun _ => f i
  { x with
    fifo := x.fifo.map fun q => (q.1, row (8 * q.1) q.2)
    ingress := x.ingress.map fun q => (q.1, row (40 + 8 * q.1) q.2)
    pipe := (rangeFrom 0 x.pipe.length).map fun i =>
      let e := (x.pipe.drop i).headD ⟨0, none, none⟩
      ⟨e.ready, two (80 + 2 * i) e.o0, two (81 + 2 * i) e.o1⟩
    outs := x.outs.map fun q => (q.1, row (92 + q.1) q.2)
    comp := x.comp.map fun q => (q.1, f (94 + q.1)) }

/-- Whether a spill record sets a byte or bit that it keeps zero. -/
def spillBroken (ws : List W64) : Bool :=
  bitsAt (wordAt ws 8) 63 25 ≠ 0 || anyB (fun i => wordAt ws i ≠ 0) (rangeFrom 9 7)

end Sys2Proof.Machine
end

