-- ==== Sys2Proof/Machine/Windows.lean ====
section
/-! DEFINITION. The ranges of the physical map that are not memory: control pages (R64, R65, R68, R81, R91, R92), the
management window (R288, R298, R301, R451) and its recovery mailbox (R426), and the course windows (R233, R285, R291 to
R294); reads and writes of them by any agent, and the events of the host that write them. -/

namespace Sys2Proof.Machine

/-! ### Partition registers (R91, R92) -/

/-- QSTAT (R68). -/
def State.qstat (s : State) (p q : Nat) : W64 :=
  let x := s.queue p q
  let held := (s.part p).qte && s.qword p q qTAILC - s.qword p q qPROGC ≠ x.retired.length
  BitVec.ofNat 64 (32 * b2n x.badq + 16 * b2n (s.part p).swout + 8 * b2n held + 4 * b2n x.full + 2 * b2n x.badref)

/-- A token queue's status word (R81). -/
def TokQ.status (x : TokQ) : W64 :=
  BitVec.ofNat 64 (b2n x.rerr * 2 ^ 58 + b2n x.err * 2 ^ 57 + b2n x.armed * 2 ^ 56 + x.toks.length % 256 * 2 ^ 48
    + (if x.armed then x.tmpl % 2 ^ 48 else 0))

/-- A token queue's failure record (R81). -/
def TokQ.failure (x : TokQ) : W64 := BitVec.ofNat 64 (x.epay % 2 ^ 32 * 2 ^ 8 + x.erst % 256)

/-- A partition register as read (R65, R91). -/
def State.partRead (s : State) (p off : Nat) : W64 :=
  let a := s.part p
  if off < 0x20 then a.pcm.getD 0#64 (off / 8)
  else if off = 0x20 then a.pasid
  else if off = 0x28 then a.padmit
  else if 0x40 ≤ off ∧ off < 0x80 then a.pshare.getD 0#64 ((off - 0x40) / 8)
  else if off = 0x80 then a.pctl
  else if off = 0x100 then a.pqtb
  else if off = 0x200 then a.pgerr
  else if off = 0x208 then a.peerr
  else if off = 0x210 then a.pgwerr
  else 0#64

/-- Whether a pending write is to a slice. -/
def Pend.onSlice (num : Nat) (p : Pend) : Bool := match p.w with | .v k _ _ _ => k == num | _ => false

/-- A slice's registers lost by its thread (R102); a memory instruction under way leaves its elements out (R322). -/
def Slot.loseSlice (x : Slot) (num : Nat) : Slot :=
  { x with
    att := x.att &&& ((2 ^ 64 - 1) ^^^ 2 ^ num)
    lost := x.lost ||| 2 ^ num
    lostNew := x.lostNew ||| 2 ^ num
    lent := x.lent.filter (· ≠ num)
    v := x.v.dropKeys fun k => k / 32 == num
    pend := x.pend.filter fun p => !p.onSlice num
    vm := x.vm.map fun m =>
      let el := fun (t : Nat) => if m.append then nth 0 m.elems t else t
      { m with todo := m.todo.filter fun t => x.sliceOf (el t.1 / lanesOf m.w m.g) ≠ num } }

/-- The slice a slot was lent from, lost by its thread: the slot is its place no more (R102, R405). -/
def State.detachLent (s : State) (n : Nat) : State :=
  match (s.slot n).lentFrom with
  | none => s
  | some (lead, num) =>
    (s.modSlot n fun y => { y with lentFrom := none, back := false }).modSlot lead fun x => x.loseSlice num

/-- A slice slot's contents lost and the slot freed (R102). -/
def State.detach (s : State) (n : Nat) : State :=
  let gone := fun (lead num : Nat) => (s.modSlot n Slot.fresh).modSlot lead fun x => x.loseSlice num
  match (s.slot n).use with
  | .slice lead num => gone lead num
  | .resSlice lead num => gone lead num
  | _ => s

/-- The threads with a slice in a slot: the one it is used for, and the one it was lent from. -/
def Slot.leads (x : Slot) : List Nat :=
  (match x.use with | .slice l _ => [l] | .resSlice l _ => [l] | _ => []) ++ (x.lentFrom.map (·.1)).toList

/-- Slices attached on courses that are no longer their partition's detach, reserved and lent ones among them (R92, R102). -/
def State.detachOutside (s : State) (p : Nat) : List Nat → State
  | [] => s
  | c :: r =>
    (if s.partOfCourse c = some p then s
     else (slotsOf c).foldl (fun s n =>
      if anyB (fun l => s.partOfAsid (s.slot l).asid == some p) (s.slot n).leads then (s.detachLent n).detach n else s) s
    ).detachOutside p r

/-- The other partitions. -/
def State.otherParts (s : State) (p : Nat) : List Part := (s.parts.filter fun kv => kv.1 ≠ p).map (·.2)

def State.setConf (s : State) (p : Nat) : State := s.modPart p fun a => { a with pctl := a.pctl ||| 2#64 }

/-- PCMk written (R92): refused as a whole where a course would belong to two partitions; slices on courses that leave
detach, and walker slices are stranded or take chunks. -/
def State.pcmWrite (s : State) (p k : Nat) (v : W64) : State :=
  if anyB (fun a => a.pcm.getD 0#64 k &&& v ≠ 0#64) (s.otherParts p) then s.setConf p
  else
    let old := (s.part p).pcm.getD 0#64 k
    let t := s.modPart p fun a => { a with pcm := a.pcm.set k v }
    let gone := (setPositions (old &&& ~~~v).toNat 64).map (64 * k + ·)
    (t.detachOutside p gone).restrand s p

/-- The fields of PASID and PADMIT. -/
def rangeMask : W64 := 0x1FFF0FFF#64

/-- Whether two ranges share an ASID. -/
def rangesMeet (a b : W64) : Bool :=
  let (x, n) := (bitsAt a.toNat 11 0, bitsAt a.toNat 28 16)
  let (y, m) := (bitsAt b.toNat 11 0, bitsAt b.toNat 28 16)
  decide (0 < n) && decide (0 < m) && decide (x < y + m) && decide (y < x + n)

/-- PASID written (R92): refused where it is malformed or meets another partition's range. -/
def State.pasidWr (s : State) (p : Nat) (v : W64) : State :=
  let v := v &&& rangeMask
  if bitsAt v.toNat 11 0 + bitsAt v.toNat 28 16 > 4096 || anyB (fun a => rangesMeet a.pasid v) (s.otherParts p) then s.setConf p
  else s.modPart p fun a => { a with pasid := v }

/-- A partition register written; `mask` marks the bytes the access writes (R7, R65, R91). A SHARE of 65 to 127 is stored as
written (the model's choice, log 50). -/
def State.partWrite (s : State) (p off : Nat) (v mask : W64) : State :=
  let merged := (s.partRead p off &&& ~~~mask) ||| (v &&& mask)
  if off < 0x20 then s.pcmWrite p (off / 8) merged
  else if off = 0x20 then s.pasidWr p merged
  else if off = 0x28 then s.modPart p fun a => { a with padmit := merged &&& rangeMask }
  else if 0x40 ≤ off ∧ off < 0x80 then
    s.modPart p fun a => { a with pshare := a.pshare.set ((off - 0x40) / 8) (merged &&& 0x17F#64) }
  else if off = 0x80 then
    s.modPart p fun a => { a with pctl := (merged &&& 1#64) ||| (a.pctl &&& 2#64 &&& ~~~(v &&& mask)) }
  else if off = 0x100 then s.modPart p fun a => { a with pqtb := merged &&& 0xFFFFFFFFF0001#64 }
  else s

/-! ### Doorbells and token queues (R68, R81) -/

/-- QSTAT's W1C bits cleared (R68). -/
def State.qstatWr (s : State) (p q : Nat) (v : W64) : State :=
  s.modQueue p q fun x =>
    { x with badq := x.badq && !v.getLsbD 5, full := x.full && !v.getLsbD 2, badref := x.badref && !v.getLsbD 1 }

/-- A reference written to TAILP, by the host link or another agent (R69); a waiting `wfe` sees it once it is performed. -/
def State.tailpWr (s : State) (p q : Nat) (host : Bool) (v : W64) : State :=
  match s.append p q none host v with
  | .staged t => if (t.queue p q).heldWrites.length > (s.queue p q).heldWrites.length then t else t.seenWrite (tailpAddr p q) 8
  | .wait => s
  | .accepted _ t => t.seenWrite (tailpAddr p q) 8
  | .refused t => t.seenWrite (tailpAddr p q) 8
  | .full t => t.seenWrite (tailpAddr p q) 8

/-- A word of a control page as read; TAILP and PROGP of a queue without a table are free (log 8). -/
def State.ctlRead (s : State) (p off : Nat) : W64 :=
  if off < 0x10000 then s.partRead p off
  else if off < 0x14000 then
    let q := (off - 0x10000) / 64
    let record := fun (o : Nat) =>
      if (s.part p).qte then BitVec.ofNat 64 (s.qword p q o) else Config.freeWord s.freeCnt
    match off % 64 / 8 with
    | 0 => record qTAILC
    | 1 => record qPROGC
    | 2 => s.qstat p q
    | _ => 0#64
  else
    let x := s.tokq p ((off - 0x20000) / 16)
    if off % 16 < 8 then x.status else x.failure

/-- A word of a control page written, by the host or another agent. -/
def State.ctlWrite (s : State) (host : Bool) (p off : Nat) (v mask : W64) : State :=
  if off < 0x10000 then s.partWrite p off v mask
  else if off < 0x14000 then
    let q := (off - 0x10000) / 64
    if mask ≠ BitVec.allOnes 64 then s
    else match off % 64 / 8 with
    | 0 => s.tailpWr p q host v
    | 2 => s.qstatWr p q v
    | _ => s
  else s

/-! ### The management window (R288, R426) -/

/-- HRSs at reset: SKIP is 1 (R301). -/
def hrsReset : W64 := 1#64
def State.hrsOf (s : State) (n : Nat) : W64 := s.hrs.getD hrsReset n

/-- A word of the recovery mailbox (R426). -/
def Boot.read (b : Boot) (off : Nat) : W64 :=
  if off = 0 then BitVec.ofNat 64 (b.why % 256 * 256 + if b.phase = .verifying then 3 else 2)
  else if off = 8 then b.rchk
  else if off = 16 then b.rgo
  else if 0x10000 ≤ off ∧ off < 0x20000 then
    BitVec.ofNat 64 (ofBytesLE ((rangeFrom (off - 0x10000) 8).map (b.buffer.getD 0#8)))
  else 0#64

/-- A word of the management window as read. -/
def State.mgmtRead (s : State) (off : Nat) : W64 :=
  if s.boot.phase ≠ .running then s.boot.read off
  else if off < 512 then s.imap.getD 0#64 (off / 8)
  else if 0x10000 ≤ off ∧ off < 0x18000 then s.artb.getD 0#64 ((off - 0x10000) / 8)
  else if 0x20000 ≤ off ∧ off < 0x20040 then s.hrsOf ((off - 0x20000) / 8)
  else if 0x30000 ≤ off ∧ off < 0x30080 then s.cxlcap.getD 0#64 ((off - 0x30000) / 8)
  else 0#64

/-- IMAPg written (R298). -/
def State.imapWr (s : State) (g : Nat) (v : W64) : State := { s with imap := s.imap.set g (v &&& 7#64) }

/-- Bytes 64 KiB of a chunk. -/
def chunkBytes : Nat := 0x10000

/-- RCHK written (R426): the staging buffer becomes chunk IDX; a chunk out of order is not taken and WHY says so. -/
def State.rchkWr (s : State) (v : W64) : State :=
  let b := s.boot
  if b.phase ≠ .recovery then s
  else if v.toNat = b.chunks.length then
    { s with boot := { b with rchk := v, chunks := b.chunks ++ [b.buffer] } }
  else { s with boot := { b with rchk := v, why := 5 } }

/-- The staged image. -/
def Boot.staged (b : Boot) : List Byte := b.chunks.flatMap fun c => (rangeFrom 0 chunkBytes).map (c.getD 0#8)

/-- The checks of an image in their order: the WHY code of the first that fails (R425, R426). -/
def imageWhy (im : List Byte) : Option Nat :=
  let num := fun (o n : Nat) => ofBytesLE ((im.drop o).take n)
  let len := num 8 8
  if num 0 4 ≠ 0x00574C01 || len % 64 ≠ 0 || len > 0x4000000 - 256 || im.length < 256 + len || num 0x90 112 ≠ 0 then some 1
  else if Config.sha256 ((im.drop 0x10).take 64) ≠ Config.fusedKeyHash then some 2
  else if !Config.ecdsaVerify (BitVec.ofNat 512 (num 0x10 64)) (Config.sha256 (im.take 0x50 ++ (im.drop 256).take len))
      (BitVec.ofNat 512 (num 0x50 64)) then some 3
  else none

/-- The device boots from an image that has passed: its hash is the measurement, every die is loaded and the package starts;
with every partition disabled; where a die fails to load (the spec does not say when: a free bit) the device stays in recovery
(R425, R426). -/
def State.bootFrom (s : State) (im : List Byte) : State :=
  let whole := im.take (256 + ofBytesLE ((im.drop 8).take 8))
  let fails := (Config.freeWord s.freeCnt).getLsbD 0
  { s with
    freeCnt := s.freeCnt + 1
    parts := s.parts.map fun kp => (kp.1, { kp.2 with pctl := kp.2.pctl &&& ~~~1#64 })
    boot := { s.boot with
      chunks := []
      phase := if fails then .recovery else .running, why := if fails then 4 else s.boot.why, meas := Config.sha256 whole,
      ver := ofBytesLE ((im.drop 4).take 4) } }

/-- RGO written (R426): with a 1 the boot ROM begins to verify the staged image (POWER_ON_BOOT). -/
def State.rgoWr (s : State) (v : W64) : State :=
  if s.boot.phase ≠ .recovery then s
  else { s with boot := { s.boot with rgo := v, phase := if v = 1#64 then .verifying else .recovery } }

/-- A staged image verified (R426): it is stored and booted from, or WHY says what failed, the store is as it was, and a new image is
staged from chunk 0. -/
def State.verifyStaged (s : State) : State :=
  let b := s.boot
  match imageWhy b.staged with
  | some w => { s with boot := { b with phase := .recovery, why := w, chunks := [] } }
  | none => { s with boot := { b with store := some b.staged } }.bootFrom b.staged

/-- A word of the management window written by an agent: its ASID, none for the host (R288, R298, R426). -/
def State.mgmtWrite (s : State) (writer : Option Nat) (off : Nat) (v mask : W64) : State :=
  let merged := (s.mgmtRead off &&& ~~~mask) ||| (v &&& mask)
  if s.boot.phase ≠ .running then
    if off = 8 then s.rchkWr merged
    else if off = 16 then s.rgoWr merged
    else if 0x10000 ≤ off ∧ off < 0x20000 then
      { s with boot := { s.boot with
          buffer := (rangeFrom 0 8).foldl (fun m i => m.set (off - 0x10000 + i) (merged.extractLsb' (8 * i) 8)) s.boot.buffer } }
    else s
  else if off < 512 then s.imapWr (off / 8) merged
  else if 0x10000 ≤ off ∧ off < 0x18000 then s.artbWrite ((off - 0x10000) / 8) writer merged
  else s

/-! ### Course windows (R233, R285, R291 to R294) -/

/-- The engine's status block (R285). -/
def Fe.status (f : Fe) (word : Nat) : W64 :=
  BitVec.ofNat 64 (match word with
    | 0 => f.gcls % 4 * 2 ^ 58 + f.pass % 8 * 2 ^ 55 + f.rowp % 256 * 2 ^ 47 + f.fdone % 2 ^ 32
    | 1 => f.maxb % 2 ^ 32 * 2 ^ 32 + f.maxa % 2 ^ 32
    | 2 => f.wsn % 2 ^ 32
    | 3 => f.fva % 2 ^ 48
    | _ => 0)

/-- The thread slot whose context a slot's vector registers belong to, and the slice number they are. -/
def State.vregHome (s : State) (n : Nat) : Nat × Nat :=
  if (s.slot n).back then (s.slot n).lentFrom.getD (n, 0)
  else match (s.slot n).use with
  | .slice lead num => (lead, num)
  | .resSlice lead num => (lead, num)
  | _ => (n, 0)

/-- An aligned word of a vector register image (R292). -/
def State.vregRead (s : State) (n off : Nat) : W64 :=
  let (h, k) := s.vregHome n
  ((s.slot h).readV k (off / 256)).extractLsb' (8 * (off % 256)) 64

/-- The bits of a vector register that a load under way has landed: a write from outside counts as made before it (R171,
R322). -/
def Slot.landedBits (x : Slot) (key : Nat) : BitVec 2048 :=
  match x.vm with
  | some m =>
    if m.load then
      BitVec.ofNat 2048 ((Map.getD (0, 0) (laneWrites x m.w m.g m.d (m.landed.map fun e => (e, 0))) key).1)
    else 0#2048
  | none => 0#2048

/-- Whether a thread holds the lane quarter at a byte of a register of its slice `k`: one that its last grant left it (R168,
R405). -/
def Slot.holdsQuarter (x : Slot) (k byte : Nat) : Bool :=
  decide (4 * (x.ranks.findIdx? (· == k)).getD 0 + byte / 64 < x.given)

/-- Bits written to a vector register by another agent: after every instruction that has issued, so that no result still on its way
covers them (R171, R293). -/
def Slot.writeOver (x : Slot) (k n : Nat) (mask data : BitVec 2048) : Slot :=
  let cut := fun (p : Pend) => match p.w with
    | .v k' n' m d => if k' = k ∧ n' = n then { p with w := .v k n (m &&& ~~~mask) d } else p
    | _ => p
  { x.writeV k n ((x.readV k n &&& ~~~mask) ||| (data &&& mask)) with pend := x.pend.map cut }

/-- Bytes written to a vector register image (R293): none where the write is refused. The thread's due results land first. In a lane quarter that the slot's thread
has given up, no register of it stands (log 34). -/
def State.vregWrite (s : State) (n off size : Nat) (v : W64) : Option State :=
  let (h, k) := s.vregHome n
  let land' := fun (_ : Unit) =>
    let x := (s.slot h).landNow s.now
    if x.switched || !(x.csrv csrVOPEN).getLsbD (off / 256) then none
    else if !x.holdsQuarter k (off % 256) then some s
    else
      let sh := 8 * (off % 256)
      let mask : BitVec 2048 := (BitVec.ofNat 2048 (2 ^ (8 * size) - 1) <<< sh) &&& ~~~ x.landedBits (k * 32 + off / 256)
      some (s.setSlot h (x.writeOver k (off / 256) mask (v.zeroExtend 2048 <<< sh)))
  if (s.slot n).back then land' ()
  else match (s.slot n).use with
  | .free => some s
  | .thread => land' ()
  | .slice _ _ => land' ()
  | .resThread => none
  | .resSlice _ _ => none

/-- An aligned word of the scalar, control and mask images of a slot (R292). -/
def State.scalarImage (s : State) (n off : Nat) : W64 :=
  let x := s.slot n
  if off < 0x100 then x.readS (off / 8)
  else if 0x1000 ≤ off ∧ off < 0x3000 then
    let c := (off - 0x1000) / 8
    if csrAssigned (BitVec.ofNat 10 c) then s.csrRead x c else 0#64
  else if 0x4000 ≤ off then
    let o := off - 0x4000
    match x.use with
    | .slice _ _ => 0#64
    | .resSlice _ _ => 0#64
    | _ => (x.readM (o / 0x800)).extractLsb' (8 * (o % 0x800)) 64
  else 0#64

/-- An aligned word of the plane images of a course (R292). -/
def State.planeImage (s : State) (c off : Nat) : W64 :=
  if off < 0x8000 then
    let pl := (s.pos (posKey c (off / 0x400))).planes.getD {} (off % 0x400 / 0x100)
    let b := off % 0x100
    if pl.st = .empty then 0#64
    else if b < 0x80 then nth 0#64 pl.node (b / 8) else if b < 0x90 then nth 0#64 pl.sw ((b - 0x80) / 8) else 0#64
  else
    let pl := (s.fe c).planes.getD {} ((off - 0x8000) / 0x100)
    if pl.st = .empty then 0#64 else nth 0#64 pl.node (off % 0x100 / 8)

/-- A word of the FIFO state window from a list of tokens, and the ring behind it (R233). -/
def fifoWord (ts : List Tok) (occ spilled : Nat) : W64 :=
  let h := ts.headD {}
  BitVec.ofNat 64 (spilled % 2 ^ 24 * 2 ^ 24 + b2n (spilled ≠ 0) * 2 ^ 21 + b2n h.eos * 2 ^ 20 + h.tag.toNat * 2 ^ 12
    + occ % 2 ^ 12)

/-- A word of the FIFO state window of a position (R233). -/
def State.fifoState (s : State) (k f : Nat) : W64 :=
  let x := s.pos k
  if f < 5 then
    let ts := x.fifo.getD [] f
    fifoWord ts ts.length (match s.spillKey k f with | some r => (s.spills.getD {} r).recs.length | none => 0)
  else if f = 5 then
    if isBrick (k % 32) then
      let ts := x.outs.getD [] 0 ++ x.outs.getD [] 1
      fifoWord ts ts.length 0
    else fifoWord x.queue x.queue.length 0
  else if f = 6 ∧ isBrick (k % 32) then
    fifoWord (match x.pipe with | e :: _ => e.o0.toList ++ e.o1.toList | [] => []) x.pipe.length 0
  else 0#64

/-- An aligned word of a course window as read (R291). -/
def State.winRead (s : State) (c off : Nat) : W64 :=
  if off < 0x280040 then (s.fe c).status ((off - 0x280000) / 8)
  else if off < 0x308000 then s.vregRead (c * 4 + (off - 0x300000) / 0x2000) (off % 0x2000)
  else if off < 0x3A0000 then s.scalarImage (c * 4 + (off - 0x380000) / 0x8000) (off % 0x8000)
  else if off < 0x408400 then s.planeImage c (off - 0x400000)
  else s.fifoState (posKey c ((off - 0x500000) / 64)) (off % 64 / 8)

/-! ### Any place -/

/-- What a place that is no memory reads as: the bytes of its aligned word; a doorbell answers 8-byte accesses alone. -/
def State.devRead (s : State) (pl : Place) (size : Nat) : W64 :=
  let cut := fun (off : Nat) (w : W64) => w.toNat >>> (8 * (off % 8)) % 2 ^ (8 * size)
  BitVec.ofNat 64 (match pl with
    | .ctl p off =>
      if 0x10000 ≤ off ∧ off < 0x14000 ∧ size ≠ 8 then 0 else cut off (s.ctlRead p (off - off % 8))
    | .mgmt off => cut off (s.mgmtRead (off - off % 8))
    | .win c off => cut off (s.winRead c (off - off % 8))
    | _ => 0)

/-- Bytes written to a place that is no memory: none where the window's rules refuse them. A waiting `wfe` sees the write
(R403); one to a TAILP once it is performed. -/
def State.devWrite (s : State) (writer : Option Nat) (pl : Place) (v : W64) (size : Nat) : Option State :=
  let sh := fun (off : Nat) => 8 * (off % 8)
  let mask := fun (off : Nat) => BitVec.ofNat 64 (2 ^ (8 * size) - 1) <<< sh off
  let seen := fun (t : State) => t.seenWrite pl.addr size
  match pl with
  | .ctl p off =>
    let t := s.ctlWrite writer.isNone p (off - off % 8) (v <<< sh off) (mask off)
    some (if 0x10000 ≤ off ∧ off < 0x14000 ∧ off % 64 = 0 ∧ size = 8 then t else seen t)
  | .mgmt off => some (seen (s.mgmtWrite writer (off - off % 8) (v <<< sh off) (mask off)))
  | .win c off =>
    if 0x300000 ≤ off ∧ off < 0x308000 then
      (s.vregWrite (c * 4 + (off - 0x300000) / 0x2000) (off % 0x2000) size v).map seen
    else some (seen s)
  | _ => some s

/-- Whether an agent may touch a place (R64, R295): the spill area is for spill traffic alone, the partition registers for
supervisors. -/
def placeAllows (sup : Bool) : Place → Bool
  | .spill => false
  | .ctl _ off => sup || decide (0x10000 ≤ off)
  | _ => true

/-- The course a physical address belongs to. -/
def winCourse (pa : Nat) : Option Nat :=
  if windowBase ≤ pa ∧ pa < windowBase + 0x100000000 then some ((pa - windowBase) / 0x1000000) else none

/-- The port die that is home to a physical address: the stack of an HBM address, the scratchpad's or the CXL port's die. -/
def State.homeDie (s : State) (pa : Nat) : Option Nat :=
  if pa < 0x8000000000 then some (interleave (s.imapIL (bitsAt pa 38 33)) (pa % 2 ^ 33)).1
  else if cxlBase ≤ pa ∧ pa < cxlBase + 0x200000000000 then some ((pa - cxlBase) / 0x20000000000 / 2)
  else if scratchpadBase ≤ pa ∧ pa < scratchpadBase + 0x40000000 then some ((pa - scratchpadBase) / 0x8000000)
  else none

/-! ### Events of the host -/

/-- Whether a course holds no thread, slice, held position, run or reserved context. -/
def State.courseIdle (s : State) (c : Nat) : Bool :=
  allB s.slotFree (slotsOf c)
    && allB (fun k => (s.pos k).holder.isNone && !s.runLive (s.pos k).run) (coursePoss c)

/-- A course whose last work has gone is idle from now on. -/
def State.noteIdle (s : State) (c : Nat) : State :=
  if s.courseIdle c && (s.course c).idleSince.isNone then s.modCourse c fun x => { x with idleSince := some s.now } else s

/-- The package awake for an access to a physical address, and the course whose window holds it (R424). -/
def State.awakeAt (s : State) (pa : Nat) : State :=
  let s := s.awake
  match winCourse pa with
  | some c => if (s.course c).power = .active then s else (s.wakeCourse c).noteIdle c
  | none => s

/-- Whether the package runs: in recovery, and before it has booted, nothing but the recovery mailbox answers (R425, R426). -/
def State.booted (s : State) : Bool := s.boot.phase == .running

/-- TAILP_WRITE (R69): a write of the host link; while one of its writes is held, the link carries no other (R87). -/
def execTailpWrite (p q : Nat) (v : W64) (s : State) : Out :=
  .next (if s.hostHeld || !s.booted then s else s.awake.tailpWr p q true v)

/-- QSTAT_WRITE (R68). -/
def execQstatWrite (p q : Nat) (v : W64) (s : State) : Out :=
  .next (if s.booted then (s.awake.qstatWr p q v).seenWrite (tailpAddr p q + 16) 8 else s)

/-- PCMK_WRITE (R92). -/
def execPcmkWrite (p k : Nat) (v : W64) (s : State) : Out :=
  .next (if s.booted ∧ k < 4 then (s.awake.pcmWrite p k v).seenWrite (Place.ctl p (8 * k)).addr 8 else s)

/-- PASID_WRITE (R92). -/
def execPasidWrite (p : Nat) (v : W64) (s : State) : Out :=
  .next (if s.booted then (s.awake.pasidWr p v).seenWrite (Place.ctl p 0x20).addr 8 else s)

/-- REGISTER_WRITE (R7): a device register whose fields a write stores. -/
def execRegisterWrite (pa : Nat) (v : W64) (s : State) : Out :=
  .next (match s.placeOf (pa - pa % 8) with
    | .ctl p off =>
      if s.booted ∧ off < 0x10000 ∧ 0x28 ≤ off then (s.awake.partWrite p off v (BitVec.allOnes 64)).seenWrite (Place.ctl p off).addr 8 else s
    | _ => s)

/-- ASID_ROOT_ENTRY_WRITE (R288). -/
def execAsidRootEntryWrite (asid : Nat) (writer : Option Nat) (v : W64) (s : State) : Out :=
  .next (if s.booted ∧ asid < 4096 then (s.awake.artbWrite asid writer v).seenWrite (Place.mgmt (0x10000 + 8 * asid)).addr 8 else s)

/-- IMAP_WRITE (R298). -/
def execImapWrite (g : Nat) (v : W64) (s : State) : Out :=
  .next (if s.booted ∧ g < 64 then (s.awake.imapWr g v).seenWrite (Place.mgmt (8 * g)).addr 8 else s)

/-- RCHK_WRITE (R426). -/
def execRchkWrite (v : W64) (s : State) : Out := .next ((s.rchkWr v).seenWrite (Place.mgmt 8).addr 8)

/-- RGO_WRITE (R426). -/
def execRgoWrite (v : W64) (s : State) : Out := .next ((s.rgoWr v).seenWrite (Place.mgmt 16).addr 8)

/-- VREG_IMAGE_WRITE (R293): a write of another agent reaches a slot's register file. -/
def execVregImageWrite (slot off size : Nat) (v : W64) (s : State) : Out :=
  let pa := (Place.win (slot / 4) (0x300000 + slot % 4 * 0x2000 + off)).addr
  .next (if s.booted ∧ off < 0x2000 ∧ off % 8 + size ≤ 8 then
      let s := s.awakeAt pa
      ((s.vregWrite slot off size v).map fun t => t.seenWrite pa size).getD s
    else s)

/-- LINTEL_HOST_ACCESS (R87): a host read or write at a physical address. An access of another size than 1, 2, 4 or 8 bytes, or
a misaligned one, does nothing (the model's choice, log 8). A read of a hole answers a free value (log 8); in recovery nothing
but the mailbox answers. While a TAILP write of the link is held, the link carries no other access (R69, R87). -/
def execLintelHostAccess (wr : Bool) (pa size : Nat) (v : W64) (s : State) : Out :=
  let s := { s with freeCnt := s.freeCnt + 2 }.awakeAt pa
  let mailbox := decide (mgmtBase ≤ pa) && decide (pa < mgmtBase + 0x100000)
  .next (
    if s.hostHeld || !(size == 1 || size == 2 || size == 4 || size == 8) || pa % size ≠ 0 then s
    else if s.boot.phase ≠ .running then
      if !mailbox then (if wr then s else { s with hostRead := Config.freeWord (s.freeCnt - 2) })
      else if wr then (s.devWrite none (.mgmt (pa - mgmtBase)) v size).getD s
      else { s with hostRead := s.devRead (.mgmt (pa - mgmtBase)) size }
    else match s.placeOf pa with
    | .ram _ =>
      if wr then s.writePhys pa v.toNat size
      else if s.goodPhys pa size then { s with hostRead := BitVec.ofNat 64 (s.readPhys pa size) }
      else { s with hostRead := Config.freeWord (s.freeCnt - 2) }
    | .hole => if wr then s else { s with hostRead := Config.freeWord (s.freeCnt - 2) }
    | pl =>
      if !placeAllows true pl then s
      else if wr then (s.devWrite none pl v size).getD s else { s with hostRead := s.devRead pl size })

end Sys2Proof.Machine
end

