-- ==== Sys2Proof/Machine/Access.lean ====
section
/-! DEFINITION. Accesses of a thread: the checks of R147 in their order, the thread's private scratch (R27), window rules
(R291 to R295) and gateways (R93), and homes that are being reset (R412, R413); scalar loads and stores (R145 to R148). -/

namespace Sys2Proof.Machine

def State.die (s : State) (d : Nat) : Die := s.dies.getD {} d

/-- Whether a die, in the numbering of State.dies, is being reset. -/
def State.dieDown (s : State) (d : Nat) : Bool := (s.die d).resetting

/-- Whether the home of a physical address answers with status 0x08 (R412, R413). -/
def State.homeDown (s : State) (pa : Nat) : Bool :=
  (match s.homeDie pa with | some d => s.dieDown (8 + d) | none => false)
    || (decide (cxlBase ≤ pa) && decide (pa < scratchpadBase)
        && (let j := (pa - cxlBase) / 0x20000000000; (s.die (8 + j / 2)).enumerating.contains (j % 2)))
    || (match winCourse pa with | some c => s.dieDown (dieOf c) | none => false)

/-- The scratch range (R27). -/
def scratchVa : Nat := 0x7F0000000000
def scratchSize : Nat := 0x4000000
def inScratch (va : Nat) : Bool := decide (scratchVa ≤ va) && decide (va < scratchVa + scratchSize)

/-- Where a thread's access goes. -/
inductive Target where
  /-- The thread's private scratch, by offset. -/
  | scratch (off : Nat)
  /-- A physical address. -/
  | phys (pa : Nat)
  deriving DecidableEq, Repr

/-- The checks of a thread's access in order, the first failure deciding (R147, R412): its trap or where the access goes. -/
def State.threadTarget (s : State) (x : Slot) (k : AKind) (ea size : Nat) : Except Trap Target :=
  let bad := fun (c : Nat) => Except.error { cause := c, tval := BitVec.ofNat 64 ea }
  if ea ≥ 2 ^ 48 then bad k.pageFault
  else if ea % size ≠ 0 then bad 0x06
  else if inScratch ea then
    (if ea - scratchVa ≥ x.decl.scratch * 4096 then bad 0x0D else .ok (.scratch (ea - scratchVa)))
  else match s.translate (holdCp (courseOf s.cur)) x.asid x.sup k ea with
  | .fault c => bad c
  | .ok pa _ =>
    match s.placeOf pa with
    | .hole => bad 0x08
    | pl => if placeAllows x.sup pl then .ok (.phys pa) else bad 0x0C

/-- Bytes of the thread's scratch. -/
def Slot.scratchRead (x : Slot) (off n : Nat) : Nat := ofBytesLE ((rangeFrom off n).map (x.scratch.getD 0#8))

/-- A byte of scratch; a zero byte is not listed. -/
def putScratch (m : Map Byte) (k : Nat) (b : Byte) : Map Byte := if b = 0#8 then m.erase k else m.set k b

def Slot.scratchWrite (x : Slot) (off : Nat) : List Byte → Slot
  | [] => x
  | b :: r => { x with scratch := putScratch x.scratch off b }.scratchWrite (off + 1) r

/-- Whether a gateway drops the issuing thread's access to a course window (R93, R291). -/
def State.windowDrops (s : State) (owner pa : Nat) : Bool :=
  match winCourse pa with
  | some c => s.partOfCourse c ≠ s.partOfCourse (courseOf s.cur) && !s.courseAdmits c owner
  | none => false

/-- The target's value of an access of at most 8 bytes, with the state after the read (R148): a window load that a gateway
drops answers a free value (log 8). -/
def State.targetRead (s : State) (x : Slot) (t : Target) (ea size : Nat) : Except Trap (W64 × State) :=
  match t with
  | .scratch off => .ok (BitVec.ofNat 64 (x.scratchRead off size), s)
  | .phys pa =>
    if s.homeDown pa then .error { cause := 0x15, tval := BitVec.ofNat 64 ea, rsts := 8 }
    else match s.placeOf pa with
    | .ram _ =>
      if s.windowDrops x.asid pa then
        (let (v, s) := s.drawWord
         .ok (BitVec.ofNat 64 (v.toNat % 2 ^ (8 * size)), match winCourse pa with | some c => s.countDrop c x.asid | none => s))
      else if s.goodPhys pa size then .ok (BitVec.ofNat 64 (s.readPhys pa size), s)
      else .error { cause := 0x08, tval := BitVec.ofNat 64 ea }
    | pl =>
      if s.windowDrops x.asid pa then
        (let (v, s) := s.drawWord
         .ok (BitVec.ofNat 64 (v.toNat % 2 ^ (8 * size)), match winCourse pa with | some c => s.countDrop c x.asid | none => s))
      else .ok (s.devRead pl size, { s with freeCnt := s.freeCnt + 1 })

/-- An access of at most 8 bytes written (R148): a store whose home is being reset is lost, with an asynchronous 0x15 (R412);
one that a gateway does not admit is dropped and counted. -/
def State.targetWrite (s : State) (x : Slot) (t : Target) (ea size : Nat) (v : W64) : Except Trap State :=
  match t with
  | .scratch off => .ok (s.setThr (s.thr.scratchWrite off (toBytesLE v.toNat size)))
  | .phys pa =>
    if s.homeDown pa then .ok (s.setThr { s.thr with async15 := s.thr.async15 ++ [(8, BitVec.ofNat 64 ea)] })
    else if s.windowDrops x.asid pa then .ok (match winCourse pa with | some c => s.countDrop c x.asid | none => s)
    else match s.placeOf pa with
    | .ram _ => .ok (s.writePhys pa v.toNat size)
    | pl => match s.devWrite (some x.asid) pl v size with
      | some s' => .ok s'
      | none => .error { cause := 0x0C, tval := BitVec.ofNat 64 ea }

/-- A scalar load of the issuing thread. -/
def State.threadLoad (s : State) (ea size : Nat) : Except Trap (W64 × State) :=
  match s.threadTarget s.thr .load ea size with
  | .error t => .error t
  | .ok t => s.targetRead s.thr t ea size

/-- A scalar store of the issuing thread. -/
def State.threadStore (s : State) (ea size : Nat) (v : W64) : Except Trap State :=
  match s.threadTarget s.thr .store ea size with
  | .error t => .error t
  | .ok t => s.targetWrite s.thr t ea size v

/-- The extension of a loaded value by its size code (R145). -/
def loadExt (z : Nat) (v : W64) : W64 :=
  match z with
  | 0 => (v.truncate 8).signExtend 64
  | 1 => (v.truncate 16).signExtend 64
  | 2 => (v.truncate 32).signExtend 64
  | 4 => (v.truncate 8).zeroExtend 64
  | 5 => (v.truncate 16).zeroExtend 64
  | 6 => (v.truncate 32).zeroExtend 64
  | _ => v

/-- Bytes of an access by its size code (R145). -/
def sizeOf' (z : Nat) : Nat := 2 ^ (z % 4)

/-- A load's own part. -/
def exeLoad (s : State) (d : BitVec 5) (ea : W64) (z : Nat) : Exe :=
  match s.threadLoad ea.toNat (sizeOf' z) with
  | .error t => .trap s t
  | .ok (v, s') => exePut s' d (loadExt z v)

/-- A store's own part. -/
def exeStore (s : State) (ea v : W64) (z : Nat) : Exe :=
  match s.threadStore ea.toNat (sizeOf' z) v with
  | .error t => .trap s t
  | .ok s' => .done s'

/-- EA := s(a) + off × size (R145). -/
def eaOff (s : State) (a : BitVec 5) (o : BitVec 10) (z : Nat) : W64 := s.rs a + sx o * BitVec.ofNat 64 (sizeOf' z)

/-- EA := s(a) + s(b) × size (R146). -/
def eaIdx (s : State) (a b : BitVec 5) (z : Nat) : W64 := s.rs a + s.rs b * BitVec.ofNat 64 (sizeOf' z)

/-- ld (R145, R148). -/
def execLd (st : BitVec 3) (d a : BitVec 5) (z : BitVec 3) (o : BitVec 10) (s : State) : Out :=
  runInsn (.ld st d a z o) st (fun s => exeLoad s d (eaOff s a o z.toNat) z.toNat) s

/-- st (R145, R148). -/
def execSt (st : BitVec 3) (d a : BitVec 5) (z : BitVec 2) (o : BitVec 10) (s : State) : Out :=
  runInsn (.st st d a z o) st (fun s => exeStore s (eaOff s a o z.toNat) (s.rs d) z.toNat) s

/-- ldx (R146, R148). -/
def execLdx (st : BitVec 3) (d a b : BitVec 5) (z : BitVec 3) (s : State) : Out :=
  runInsn (.ldx st d a b z) st (fun s => exeLoad s d (eaIdx s a b z.toNat) z.toNat) s

/-- stx (R146, R148). -/
def execStx (st : BitVec 3) (d a b : BitVec 5) (z : BitVec 2) (s : State) : Out :=
  runInsn (.stx st d a b z) st (fun s => exeStore s (eaIdx s a b z.toNat) (s.rs d) z.toNat) s

end Sys2Proof.Machine
end

