-- ==== Sys2Proof/Machine/Engines.lean ====
section
/-! DEFINITION. What an engine reads and writes: the checks of its accesses and the reply statuses of those that fail (R86,
R290, R302). -/

namespace Sys2Proof.Machine

/-- The reply status of a translation fault (R86, R254). -/
def statusOf (cause : Nat) : Nat :=
  if cause = 0x0C then 0x04 else if cause = 0x08 ∨ cause = 0x07 then 0x05 else 0x03

/-- What an engine accesses in: its holder, address space and privilege. -/
structure EngCtx where
  holder : Nat
  asid : Nat
  sup : Bool
  deriving DecidableEq, Repr

/-- An engine's failure: the reply status (R86) and the address. -/
structure EngErr where
  status : Nat
  addr : Nat
  deriving DecidableEq, Repr

/-- The physical address of an engine's access of `n` bytes in one page, or its failure (R86, R289, R290, R295, R412). -/
def State.engPlace (s : State) (e : EngCtx) (k : AKind) (va n : Nat) : Except EngErr (Place × Nat) :=
  match s.translate e.holder e.asid e.sup k va with
  | .fault c => .error ⟨statusOf c, va⟩
  | .ok pa _ =>
    match s.placeOf pa with
    | .hole => .error ⟨5, va⟩
    | pl =>
      if !s.oneWindow pa n then .error ⟨5, va⟩
      else if !placeAllows e.sup pl then .error ⟨4, va⟩
      else if s.homeDown pa then .error ⟨8, va⟩
      else match winCourse pa with
        | some c => if s.courseAdmits c e.asid then .ok (pl, pa) else .error ⟨0x0B, va⟩
        | none => .ok (pl, pa)

/-- At most 8 bytes read by an engine. -/
def State.engRead (s : State) (e : EngCtx) (va n : Nat) : Except EngErr Nat :=
  match s.engPlace e .load va n with
  | .error x => .error x
  | .ok (.ram _, pa) => if s.goodPhys pa n then .ok (s.readPhys pa n) else .error ⟨5, va⟩
  | .ok (pl, _) => .ok (s.devRead pl n).toNat

/-- At most 8 bytes written by an engine. -/
def State.engWrite (s : State) (e : EngCtx) (va v n : Nat) : Except EngErr State :=
  match s.engPlace e .store va n with
  | .error x => .error x
  | .ok (.ram _, pa) => .ok (s.writePhys pa v n)
  | .ok (pl, _) => match s.devWrite (some e.asid) pl (BitVec.ofNat 64 v) n with
    | some s' => .ok s'
    | none => .error ⟨4, va⟩

/-- 8-byte words read by an engine. -/
def State.engWords (s : State) (e : EngCtx) (va : Nat) : Nat → Except EngErr (List W64)
  | 0 => .ok []
  | n + 1 => match s.engRead e va 8 with
    | .error x => .error x
    | .ok w => match s.engWords e (va + 8) n with
      | .error x => .error x
      | .ok ws => .ok (BitVec.ofNat 64 w :: ws)

/-- 8-byte words written by an engine. -/
def State.engPut (s : State) (e : EngCtx) (va : Nat) : List W64 → Except EngErr State
  | [] => .ok s
  | w :: r => match s.engWrite e va w.toNat 8 with
    | .error x => .error x
    | .ok t => t.engPut e (va + 8) r

/-- The address that stands for the entrance of a port die, where a refusal lies at no address of its own; no access has it. -/
def dieEntrance : Nat := 2 ^ 48

/-- A refused unit of an engine's traffic counted (R93): at the gateway of the course whose window address `a` lies in, or at the
port die's where it lies in none. -/
def State.countRefusal (s : State) (e : EngCtx) (a : Nat) : State :=
  if a = dieEntrance then s.countAtDie e.asid
  else match s.translate e.holder e.asid e.sup .load a with
  | .ok pa _ => (match winCourse pa with | some n => s.countDrop n e.asid | none => s.countAtDie e.asid)
  | .fault _ => s.countAtDie e.asid

end Sys2Proof.Machine
end

