-- ==== Sys2Proof/Machine/Hops.lean ====
section
/-! DEFINITION. The ways of tokens between positions: gateways between partitions (R93, R200), the records of a spill ring
(R222, R223), and the hops of the data and control networks with the Factor Engine's attachments (R197 to R199, R201). -/

namespace Sys2Proof.Machine

/-- What becomes of a token offered to what its output leads to. -/
inductive Sent where
  /-- It stays where it is: back-pressure. -/
  | blocked
  /-- It has gone. -/
  | moved (s : State)
  /-- It stays where it is, and its region is frozen. -/
  | held (s : State)

def Sent.orElse : Sent → (Unit → Sent) → Sent
  | .blocked, f => f ()
  | r, _ => r

def Sent.ofOption : Option State → Sent
  | some s => .moved s
  | none => .blocked

/-! ### Spill rings (R222, R223) -/

/-- The words of the tile plane that defines a ring. -/
def State.ringTile (s : State) (r : Nat) : List W64 :=
  ((s.pos (posKey (r / 64) (tilePos (r % 64 / 4)))).planes.getD {} (r % 4)).node

/-- The second tier of a ring is accessed in the address space of the thread that started the region (R222). -/
def State.spillCtx (s : State) (k : Nat) : EngCtx :=
  match (s.pos k).run.bind s.runs.get? with
  | some y => ⟨holdPipe (k / 32), y.asid, y.sup⟩
  | none => ⟨holdPipe (k / 32), 0, false⟩

/-- The address of a place of a ring's second tier. -/
def spillAddr (tw : List W64) (n : Nat) : Nat := tiHbase tw + n % 2 ^ tiHsz tw * 128

/-- A fault of the second tier: the region freezes, and its thread takes trap 0x10 (R223). -/
def State.spillFault (s : State) (k : Nat) (e : EngErr) : State := s.freezeAt k 3 0x10 e.status (BitVec.ofNat 64 e.addr)

/-- A token sent to the tail of the ring of an input FIFO that is full, or whose ring holds tokens. The first tier
takes it while it has room, else its record is written to the second. -/
def State.spillInto (s : State) (k f : Nat) (t : Tok) : Sent :=
  let x := s.pos k
  match s.spillKey k f with
  | none => .blocked
  | some r =>
    let ring := s.spills.getD {} r
    let near := ring.recs.filter fun e => e.2.isNone
    let behind := (x.fifo.getD [] f).length < 8 && ring.recs.isEmpty
    if behind || s.runFrozen x.run || s.posGated k || !(x.ingress.getD [] f).isEmpty || !s.courseTakes (k / 32) then .blocked
    else
      let put := fun (s : State) (ring : Spill) => ({ s with spills := s.spills.set r ring } : State).movedAt k
      if near.length < spillNear then .moved (put s { ring with recs := ring.recs ++ [(t, none)] })
      else
        let tw := s.ringTile r
        if ring.recs.length - near.length ≥ 2 ^ tiHsz tw then .blocked
        else match s.engPut (s.spillCtx k) (spillAddr tw ring.far) (spillWords t) with
        | .error e => .held (s.spillFault k e)
        | .ok s => .moved (put s { recs := ring.recs ++ [(t, some ring.far)], far := ring.far + 1 })

/-- A token offered to an input FIFO: to the FIFO or its ingress buffer, or to the ring (R198, R223, R228). -/
def State.arrive (s : State) (k f : Nat) (t : Tok) : Sent := (Sent.ofOption (s.enterFifo k f t)).orElse fun _ => s.spillInto k f t

/-- SPILL_RETURN (R223): the head of a ring moves back into its FIFO; a record of the second tier is read from its place. -/
def execSpillReturn (c pos fifo : Nat) (s : State) : Out :=
  let k := posKey c pos
  .next (match s.spillKey k fifo with
    | none => s
    | some r =>
      let ring := s.spills.getD {} r
      let q := (s.pos k).fifo.getD [] fifo
      let back := fun (t : Tok) (rest : List (Tok × Option Nat)) =>
        ({ s with spills := s.spills.set r { ring with recs := rest } }.modPos k fun x =>
          { x with fifo := x.fifo.set fifo (q ++ [t]) }).movedAt k
      if q.length ≥ 8 || s.runFrozen (s.pos k).run || s.posGated k then s
      else match ring.recs with
      | [] => s
      | (t, none) :: rest => back t rest
      | (_, some n) :: rest => match s.engWords (s.spillCtx k) (spillAddr (s.ringTile r) n) 16 with
        | .error e => s.spillFault k e
        | .ok ws => back (spillTok ws) rest)

/-! ### Gateways between partitions (R93, R200) -/

/-- Tokens a gateway holds on a path. -/
def gateCap : Nat := 8

/-- A token that a gateway refuses: dropped and counted, its sender's region frozen (R93, R250). -/
def State.gateDrop (s : State) (from' c : Nat) (owner : Nat) : State :=
  (s.countDrop c owner).freezeAt from' 5 0x10 0x0B (BitVec.ofNat 64 owner)

/-- A data token from position `from'` toward input `f` of position `k`, through the gateway between them if there is one. -/
def State.sendTok (s : State) (from' k f : Nat) (t : Tok) (ring : Bool) : Sent :=
  if !s.gateOn (from' / 32) (k / 32) then (if ring then s.spillInto k f t else .ofOption (s.enterFifo k f t))
  else
    let owner := s.runOwner (s.pos from').run
    let held := s.gates.getD [] (k * 8 + f)
    if !s.courseAdmits (k / 32) owner then .moved (s.gateDrop from' (k / 32) owner)
    else if held.length < gateCap then .moved { s with gates := s.gates.set (k * 8 + f) (held ++ [t]) }
    else .blocked

/-- The oldest token that the gateway before an input holds goes on. -/
def State.drainGate (s : State) (k f : Nat) : State :=
  match s.gates.getD [] (k * 8 + f) with
  | [] => s
  | t :: r => match s.arrive k f t with
    | .moved s => { s with gates := if r.isEmpty then s.gates.erase (k * 8 + f) else s.gates.set (k * 8 + f) r }
    | .held s => s
    | .blocked => s

/-- A control token toward a channel of position `k`. -/
def State.sendCtl (s : State) (from' k ch : Nat) : Sent :=
  if !s.gateOn (from' / 32) (k / 32) then .ofOption (s.enterCtl k ch)
  else
    let owner := s.runOwner (s.pos from').run
    let held := s.ctlGates.getD 0 (k * 8 + ch)
    if !s.courseAdmits (k / 32) owner then .moved (s.gateDrop from' (k / 32) owner)
    else if held < gateCap then .moved { s with ctlGates := s.ctlGates.set (k * 8 + ch) (held + 1) }
    else .blocked

def State.drainCtlGate (s : State) (k ch : Nat) : State :=
  match s.ctlGates.getD 0 (k * 8 + ch) with
  | 0 => s
  | n + 1 => match s.enterCtl k ch with
    | some s => { s with ctlGates := if n = 0 then s.ctlGates.erase (k * 8 + ch) else s.ctlGates.set (k * 8 + ch) n }
    | none => s

/-! ### Hops (R197 to R199, R201) -/

/-- A token sent where output `d` of a position leads; an engine port takes it only in a run the engine takes part in (R259). -/
def State.deliver (s : State) (c p d : Nat) (t : Tok) (ring : Bool) : Sent :=
  let k := posKey c p
  let fe := fun (q : List Tok) (s' : State) =>
    if s.runFeng (s.pos k).run && decide (q.length < fePortCap) && !ring then Sent.moved (s'.feMoved c) else .blocked
  match s.leadOf c p d with
  | .nothing => .blocked
  | .feA => fe (s.fe c).inA (s.modFe c fun x => { x with inA := x.inA ++ [t] })
  | .feB => fe (s.fe c).inB (s.modFe c fun x => { x with inB := x.inB ++ [t] })
  | .fifo k' f => s.sendTok k k' f t ring

/-- One action of a merge pair toward its output through `send`: an earlier EOS marker is dropped, any other head passes
(R199). -/
def State.mergeStep (s : State) (c p d m : Nat) (send : State → Tok → Sent) : State :=
  let k := posKey c p
  let x := s.pos k
  let who := mergeConsumer d m
  match x.mergePick d m with
  | none => s
  | some (code, t) =>
    let seen := x.mergeEos.getD [] who
    let last := allB (fun c => c == code || seen.contains c) (x.mergeSources m)
    let took := fun (s : State) (seen : List Nat) =>
      (s.modPos k fun x =>
        let y := x.take p code who
        { y with served := y.served.set who code, mergeEos := y.mergeEos.set who seen }).movedAt k
    if t.eos && !last then took s (code :: seen)
    else match send s t with
    | .moved s' => took s' (if t.eos then [] else seen)
    | .held s' => s'
    | .blocked => s

/-- One hop from data output `d` of a position through `send` (R198). -/
def State.hopData (s : State) (c p d : Nat) (send : State → Tok → Sent) : State :=
  let k := posKey c p
  let x := s.pos k
  let o := swOut x.sw d
  if s.runFrozen x.run || s.posGated k then s
  else if o = 8 ∨ o = 9 then s.mergeStep c p d (o - 8) send
  else if o = 0 then s
  else match x.headFor o (outConsumer d) with
  | none => s
  | some t => match send s t with
    | .moved s' => (s'.modPos k fun x => x.take p o (outConsumer d)).movedAt k
    | .held s' => s'
    | .blocked => s

/-- A hop on the data network: what a gateway on the way holds goes on, and the head of the output moves. -/
def State.hopOut (s : State) (c p d : Nat) (ring : Bool) : State :=
  let s := match s.leadOf c p d with
    | .fifo k f => s.drainGate k f
    | _ => s
  s.hopData c p d fun s t => s.deliver c p d t ring

/-- One control hop from control output `d` (R192, R201). -/
def State.hopCtl (s : State) (c p d : Nat) : State :=
  let k := posKey c p
  match neighbour k d with
  | none => s
  | some k' =>
    let s := s.drainCtlGate k' (opposite d)
    let x := s.pos k
    let src := swCtl x.sw d
    if src = 0 || s.runFrozen x.run || s.posGated k || !x.ctlReady (src - 1) d then s
    else match s.sendCtl k k' (opposite d) with
      | .moved s' => (s'.modPos k fun x => x.ctlTake p (src - 1) d).movedAt k
      | .held s' => s'
      | .blocked => s

/-- A control token taken by the engine's control input (R197). -/
def State.hopFecin (s : State) (c : Nat) : State :=
  let k := posKey c 31
  let x := s.pos k
  let src := swFecin x.sw
  if src = 0 || s.runFrozen x.run || s.posGated k || !s.runFeng x.run || !x.ctlReady (src - 1) 5 || (s.fe c).ctlIn ≥ ctlCap then s
  else ((s.modFe c fun f => { f with ctlIn := f.ctlIn + 1 }).modPos k fun x => x.ctlTake 31 (src - 1) 5).movedAt k

/-- One token fewer before the control tokens that PCTO holds back; one that waits for none more leaves (R268). -/
def State.feCtlDue (s : State) (c : Nat) : State :=
  let ns := (s.fe c).ctlAfter.map (· - 1)
  let s := s.modFe c fun x => { x with ctlAfter := ns.filter (· ≠ 0) }
  (ns.filter (· = 0)).foldl (fun s _ => s.feCtlOut c) s

/-- A token of the engine's port C into the E input of switch (2, 7) (R197). -/
def State.hopPortC (s : State) (c : Nat) : State :=
  match (s.fe c).outC with
  | [] => s
  | t :: r =>
    if !(s.pos (posKey c 23)).joinsFe 23 || s.runFrozen (s.fe c).run then s
    else match s.arrive (posKey c 23) 1 t with
      | .moved s' => (s'.modFe c fun x => { x with outC := r }).feMoved c |>.feCtlDue c
      | .held s' => s'
      | .blocked => s

/-- SPILL_OUT (R223): the token at output `out` of a position goes to the ring of the FIFO it leads to. -/
def execSpillOut (c pos out : Nat) (s : State) : Out :=
  .next (if out < 4 then s.hopOut c pos out true else s)

end Sys2Proof.Machine
end

