-- ==== Sys2Proof/Machine/GridRun.lean ====
section
/-! DEFINITION. Runs of regions and the commands around them: quiescence (R225), drains (R253), the command stream (R236,
R251), configuration images and their acceptance (R227, R230, R237, R238), `cfgsel` taking effect (R240), runs and their
barriers (R241 to R244), the backstop (R232) and power grants (R107). -/

namespace Sys2Proof.Machine

/-! ### Regions -/

abbrev Masks := List (Nat × Nat)

/-- The positions of a region, as keys. -/
def regionKeys (ms : Masks) : List Nat := ms.flatMap fun m => (setPositions m.2 32).map (posKey m.1)

/-- The courses of a region whose engine belongs to it: those whose mask holds (3, 7). -/
def regionFes (ms : Masks) : List Nat := (ms.filter fun m => m.2.testBit 31).map (·.1)

/-- The stream ports of a region, as keys. -/
def regionPorts (ms : Masks) : List Nat :=
  ms.flatMap fun m => ((rangeFrom 0 8).filter fun n => m.2.testBit (portPos n)).map fun n => m.1 * 8 + n

def masksMeet (a b : Masks) : Bool := anyB (fun x => anyB (fun y => x.1 == y.1 && (x.2 &&& y.2) != 0) b) a

/-- Whether a position, engine or port of a region takes part in run `r` now: a later run may have taken some of them. -/
def State.runHere (s : State) (ms : Masks) (r : Nat) : Bool :=
  anyB (fun k => (s.pos k).run == some r) (regionKeys ms) || anyB (fun c => (s.fe c).run == some r) (regionFes ms)
    || anyB (fun k => (s.port k).run == some r) (regionPorts ms)

/-- The runs that go on in a region. -/
def State.runsIn (s : State) (ms : Masks) : List (Nat × Run) :=
  s.runs.filter fun r => r.2.begun && !r.2.done && s.runHere ms r.1

/-- Whether a region is frozen. -/
def State.regionFrozen (s : State) (ms : Masks) : Bool := anyB (fun r => r.2.frozen) (s.runsIn ms)

/-! ### Quiescence (R225) -/

/-- Whether a position holds no token; the output registers and control channels count too (log 19). -/
def Pos.quiet (x : Pos) : Bool :=
  allB (fun q => q.2.isEmpty) x.fifo && allB (fun q => q.2.isEmpty) x.ingress && allB (fun q => q.2.isEmpty) x.outs
    && x.pipe.isEmpty && x.comp.isEmpty && x.queue.isEmpty && x.iniDue == 0
    && allB (fun q => q.2 == 0) x.ctl && allB (fun q => q.2 == 0) x.ctlIngress

def Fe.quiet (f : Fe) : Bool := f.inA.isEmpty && f.inB.isEmpty && f.outC.isEmpty && f.gathered.isEmpty

/-- The spill rings of a region's tiles, as keys. -/
def regionRings (ms : Masks) : List Nat :=
  ms.flatMap fun m => ((rangeFrom 0 16).filter fun t => m.2.testBit (tilePos t)).flatMap fun t =>
    (rangeFrom 0 4).map fun n => m.1 * 64 + t * 4 + n

/-- The spill rings of a region: those of its tiles, and those behind its input FIFOs. -/
def State.ringsOf (s : State) (ms : Masks) : List Nat :=
  regionRings ms ++ (regionKeys ms).flatMap fun k => (rangeFrom 0 5).filterMap (s.spillKey k)

/-- The input FIFOs and control channels of a region that gateways lead to, as keys. -/
def regionInputs (ms : Masks) : List Nat := (regionKeys ms).flatMap fun k => (rangeFrom 0 8).map (k * 8 + ·)

/-- The engines of a region that belong to it for a program: with FENG = 0 none but those of runs that go on there (R259). -/
def State.regionEngines (s : State) (ms : Masks) (feng : Bool) : List Nat :=
  (regionFes ms).filter fun c => feng || anyB (fun r => r.2.feng && (s.fe c).run == some r.1) (s.runsIn ms)

/-- Whether a region is quiescent: it holds no token, and none is owed to it by a gateway or by a stream; streams issued at or
after `before` are not owed to it (R225, R240). `feng` says whether its engines belong to it. -/
def State.quiescent (s : State) (ms : Masks) (feng : Bool) (before : Nat) : Bool :=
  allB (fun k => (s.pos k).quiet) (regionKeys ms)
    && allB (fun c => (s.fe c).quiet) (s.regionEngines ms feng)
    && allB (fun r => (s.spills.getD {} r).recs.isEmpty) (s.ringsOf ms)
    && allB (fun i => (s.gates.getD [] i).isEmpty && s.ctlGates.getD 0 i == 0) (regionInputs ms)
    && allB (fun k =>
        let p := s.port k
        p.gate.isEmpty && (match p.cur with | some st => decide (before ≤ st.id) | none => true)
          && allB (fun st => decide (before ≤ st.id)) p.inbox) (regionPorts ms)

/-- When something last moved in a region. -/
def State.lastMoveIn (s : State) (ms : Masks) (feng : Bool) : Nat :=
  (s.regionEngines ms feng).foldl (fun a c => max a (s.fe c).lastMove) ((regionKeys ms).foldl (fun a k => max a (s.pos k).lastMove) 0)

/-! ### Streams that end -/

/-- A stream's status word (R254). -/
def streamStatus (st : Stream) (eoss : Bool) (lst state : Nat) : W64 :=
  BitVec.ofNat 64 (st.moved % 2 ^ 48 * 2 ^ 16 + lst % 256 * 2 ^ 8 + b2n st.ovf * 8 + b2n eoss * 4 + state)

/-- The switch position of a port, as its key. -/
def portKey (k : Nat) : Nat := posKey (k / 8) (portPos (k % 8))

/-- Whether a stream's iteration has ended (R415). -/
def Stream.orphan (st : Stream) : Bool := st.slot == noSlot

/-- The thread of a stream changed; one whose iteration has ended has none. -/
def State.modOwner (s : State) (st : Stream) (f : Slot → Slot) : State := if st.orphan then s else s.modSlot st.slot f

/-- A stream leaves its port with a status; its thread sees a reply (R254, R403). -/
def State.streamGone (s : State) (k : Nat) (st : Stream) (eoss : Bool) (lst state : Nat) : State :=
  ((s.modPort k fun p => { p with cur := none, last := streamStatus st eoss lst state }).modPos (portKey k) fun x =>
    { x with lastMove := s.now }).modOwner st (·.woken 2)

/-- The streams to or from a port ended by a drain, but for those that wait for command `keep` (R240, R253). -/
def State.drainPort (s : State) (keep : Option Nat) (k : Nat) : State :=
  let stays := fun (st : Stream) => match keep with | some id => st.gates.contains id | none => false
  let s := match (s.port k).cur with
    | some st => if stays st then s else s.streamGone k st false 0 3
    | none => s
  let gone := (s.port k).inbox.filter fun st => !stays st
  let s := gone.foldl (fun s st =>
    (s.modPort k fun p => { p with inbox := p.inbox.filter (· ≠ st), last := streamStatus st false 0 3 }).modOwner st
      fun x => { (x.woken 2) with cmds := x.cmds.filter (·.id ≠ st.id) }) s
  s.modPort k fun p => { p with ended := true, started := false, taken := 0, gate := [] }

/-! ### Drains (R240, R253) -/

/-- A position emptied of tokens, its node ended. -/
def Pos.drained (x : Pos) : Pos :=
  { x with
    fifo := [], ingress := [], marks := [], served := [], mergeEos := [], ctl := [], ctlIngress := [], ctlMarks := [],
    outs := [], comp := [], pipe := [], queue := [], iniDue := 0, ended := true }

def Fe.drained (f : Fe) : Fe :=
  { f with inA := [], inB := [], outC := [], ctlAfter := [], ctlIn := 0, gathered := [], frameTag := none, ended := true }

/-- Whether a `start` that waits in a slot's command stream names an engine. -/
def Slot.startWaits (x : Slot) (c : Nat) : Bool :=
  anyB (fun d => match d.kind with | .start _ => d.feng && (regionFes d.masks).contains c | _ => false) x.cmds

/-- The grants of a region's active planes given up as its run ends; one for a plane still to come stays, and so does one that a
`start` waiting for the region counts on (R107). -/
def State.releaseGrant (s : State) (ms : Masks) (slot : Nat) : State :=
  s.modSlot slot fun x =>
    { x with held := x.held.filter fun h =>
        !((regionFes ms).contains h.1 && (s.fe h.1).active == some h.2.1) || x.startWaits h.1 }

/-- A run ended by a drain: DONE and DRN set, RES 0, no token; its faults pend no longer. -/
def State.endDrained (s : State) (r : Nat) : State :=
  match s.runs.get? r with
  | some x =>
    ((s.modRun r fun x => { x with done := true, drn := true, res := false, frozen := false, fcause := 0 }).modSlot x.slot
      fun y => { (y.woken 2) with faults := y.faults.filter (·.run ≠ r) }).releaseGrant x.masks x.slot
  | none => s

/-- A region drained with the runs that go on in it, but for streams that wait for command `keep`; an engine that no such run
and no program of the draining thread takes (`feng` 0) is left alone (R259). -/
def State.drain (s : State) (ms : Masks) (feng : Bool) (keep : Option Nat) : State :=
  let rs := s.runsIn ms
  let all := ms ++ rs.flatMap (·.2.masks)
  let fes := (if feng then regionFes ms else []) ++ (rs.filter (·.2.feng)).flatMap fun r => regionFes r.2.masks
  let ofRuns := fun (r : Option Nat) => anyB (fun x => r == some x.1) rs
  let keys := (regionKeys all).filter fun k => (regionKeys ms).contains k || ofRuns (s.pos k).run
  let ports := (regionPorts all).filter fun k => (regionPorts ms).contains k || ofRuns (s.port k).run
  let rings := regionRings ms ++ keys.flatMap fun k => (rangeFrom 0 5).filterMap (s.spillKey k)
  let s := rings.foldl (fun s r => { s with spills := s.spills.erase r }) s
  let s := (keys.flatMap fun k => (rangeFrom 0 8).map (k * 8 + ·)).foldl (fun s i =>
    { s with gates := s.gates.erase i, ctlGates := s.ctlGates.erase i }) s
  let s := keys.foldl (fun s k => s.modPos k fun x => { x.drained with lastMove := s.now }) s
  let s := fes.foldl (fun s c => s.modFe c fun f => { f.drained with lastMove := s.now }) s
  let s := ports.foldl (State.drainPort · keep) s
  rs.foldl (fun s r => s.endDrained r.1) s

/-! ### Region operands (R235) -/

/-- Whether another thread than `n` holds a position: its POSMASK on that course, or a hold of R235. -/
def State.heldByOther (s : State) (n c p : Nat) : Bool :=
  (match (s.pos (posKey c p)).holder with | some m => m ≠ n | none => false)
    || anyB (fun m => m ≠ n && (s.slot m).use != .free && (s.slot m).decl.posmask.testBit p) (slotsOf c)

/-- The words of a region list read by the thread. -/
def State.listWords (s : State) (va : Nat) : Nat → Except Trap (List Nat × State)
  | 0 => .ok ([], s)
  | n + 1 => match s.threadLoad va 8 with
    | .error t => .error t
    | .ok (v, s) => match s.listWords (va + 8) n with
      | .error t => .error t
      | .ok (r, s) => .ok (v.toNat :: r, s)

/-- A region operand's form checked and its masks (R235). -/
def State.regionForm (s : State) (v : W64) : Except Trap (Masks × State) :=
  let bad : Except Trap (Masks × State) := .error { cause := 0x04, tval := v }
  let n := v.toNat
  if !bitAt n 63 then
    (if bitsAt n 62 32 ≠ 0 || bitsAt n 31 0 = 0 then bad else .ok ([(courseOf s.cur, bitsAt n 31 0)], s))
  else
    let a := bitsAt n 47 0
    if bitsAt n 62 48 ≠ 0 || a % 8 ≠ 0 then bad
    else match s.threadLoad a 8 with
    | .error t => .error t
    | .ok (w, s) =>
      let cnt := w.toNat % 16
      if w.toNat / 16 ≠ 0 || cnt = 0 || cnt > 8 then bad
      else match s.listWords (a + 8) cnt with
      | .error t => .error t
      | .ok (ws, s) =>
        let ms := ws.map fun w => (bitsAt w 39 32, bitsAt w 31 0)
        let dup := anyB (fun i => anyB (fun j => i ≠ j && (nth (0, 0) ms i).1 == (nth (0, 0) ms j).1) (rangeFrom 0 cnt)) (rangeFrom 0 cnt)
        if anyB (fun w => bitsAt w 63 40 ≠ 0 || bitsAt w 31 0 = 0) ws || dup then bad else .ok (ms, s)

/-- The positions of an entry that the thread may not use: those of a foreign course, or held by another thread. -/
def State.entryBad (s : State) (m : Nat × Nat) : Nat :=
  if s.partOfCourse m.1 ≠ s.partOfCourse (courseOf s.cur) then m.2
  else (rangeFrom 0 32).foldl (fun a p => if m.2.testBit p && s.heldByOther s.cur m.1 p then a + 2 ^ p else a) 0

/-- The first entry that fails, with the trap it raises; entries are counted from 0 (log 19). -/
def State.entriesBad (s : State) (i : Nat) : Masks → Option Trap
  | [] => none
  | m :: r =>
    let b := if m.1 = courseOf s.cur then 0 else s.entryBad m
    if b ≠ 0 then some { cause := 0x0D, tval := BitVec.ofNat 64 (i * 2 ^ 32 + b) } else s.entriesBad (i + 1) r

/-- A region operand checked at issue: its masks (R235). -/
def State.region (s : State) (v : W64) : Except Trap (Masks × State) :=
  match s.regionForm v with
  | .error t => .error t
  | .ok (ms, s) =>
    let own := ((ms.find? fun m => m.1 == courseOf s.cur).map (·.2)).getD 0
    let out := own &&& (own ^^^ (own &&& s.thr.decl.posmask))
    if out ≠ 0 then .error { cause := 0x0D, tval := BitVec.ofNat 64 out }
    else match s.entriesBad 0 ms with
    | some t => .error t
    | none => .ok (ms, s)

/-- The free positions that a region operand names on other courses, held by the thread once the instruction has passed its
checks: one that traps holds nothing (R10, R235). Their courses are idle no more (R423). -/
def State.hold (s : State) (ms : Masks) : State :=
  let others := ms.filter fun m => m.1 ≠ courseOf s.cur
  let s := others.foldl (fun s m => s.modCourse m.1 fun x => { x with idleSince := none }) s
  (regionKeys others).foldl (fun s k => s.modPos k fun x => { x with holder := some s.cur }) s

/-! ### The command stream (R236, R251) -/

/-- Entries a command stream holds. -/
def cmdCap : Nat := 16

/-- Whether an entry is a command, not an `sbar`. -/
def CmdKind.isCmd : CmdKind → Bool
  | .sbar _ => false
  | .cond _ _ => false
  | _ => true

def Slot.cmdCount (x : Slot) : Nat := (x.cmds.filter fun c => c.kind.isCmd).length

/-- The streams of a slot that have not ended, at any port. -/
def State.streamsOf (s : State) (n : Nat) : List Stream :=
  s.ports.flatMap fun kp => (kp.2.inbox ++ kp.2.cur.toList).filter fun st => st.slot == n

/-- Whether an `sbar`'s condition holds: `before` are the entries ahead of it (R251). -/
def State.sbarHolds (s : State) (n id kind : Nat) (before : List Cmd) : Bool :=
  let late := fun (st : Stream) => decide (st.id < id)
  if kind = 0 then
    !anyB (fun c => match c.kind with | .load _ => true | .sel _ _ => true | _ => false) before
  else if kind = 1 then !anyB late (s.streamsOf n)
  else !anyB (fun st => late st && bitAt (wordAt st.words 0) 61) (s.streamsOf n)

/-- What an `sbar.cond` decides: none while its run goes on (R251, R244). -/
def State.condRes (s : State) (runs : List Nat) : Option Bool :=
  match runs.findSome? fun r => s.runs.get? r with
  | none => some false
  | some x => if x.done then some x.res else none

/-- Whether some earlier entry holds a command of this kind back. -/
def heldBack (before : List Cmd) (k : CmdKind) : Bool :=
  anyB (fun c => match c.kind, k with
    | .sbar 0, .strm _ => true
    | .sbar 0, .start _ => true
    | .sbar 1, .sel _ _ => true
    | .sbar 2, .strm _ => true
    | .ctok _ _, _ => true
    | _, _ => false) before

/-- Whether every earlier command has begun. -/
def allBegun (before : List Cmd) : Bool := allB (fun c => c.begun || !c.kind.isCmd) before

/-- The positions and planes a region's plane `n` stands for, as keys; an engine's is 2^16 + course. -/
def planeKeys (ms : Masks) (feng : Bool) (n : Nat) : List (Nat × Nat) :=
  (regionKeys ms).map (·, n) ++ (if feng then (regionFes ms).map fun c => (2 ^ 16 + c, n) else [])

/-- Whether a command may begin (R236). -/
def Cmd.mayBegin (c : Cmd) (before : List Cmd) : Bool :=
  allBegun before && !heldBack before c.kind && c.conds.isEmpty
    && (match c.kind with
      | .sel n _ => !anyB (fun b => anyB (fun l => b.loads.contains l) (planeKeys c.masks c.feng n)) before
      | .start _ => !anyB (fun b => match b.kind with | .sel _ _ => masksMeet b.masks c.masks | _ => false) before
      | _ => true)

/-- Whether a condition may still discard a stream's command. -/
def State.undecided (s : State) (st : Stream) : Bool :=
  match (s.slot st.slot).cmds.find? (·.id == st.id) with
  | some c => !c.conds.isEmpty
  | none => false

/-- Whether a stream is one of the run at its port: it waits for no `cfgsel`, and no condition can discard it any more (R236, R251). -/
def State.openStream (s : State) (st : Stream) : Bool := !st.orphan && st.gates.isEmpty && !st.needStart && !s.undecided st

/-- A port whose run goes on takes part in it where a stream of that run has been issued to it (R242). -/
def State.joinRun (s : State) (k : Nat) : State :=
  s.modPort k fun p => if p.started && anyB s.openStream (p.cur.toList ++ p.inbox) then { p with part := true } else p

/-- Streams that waited for a `cfgsel` wait for it no more; `f` says what else becomes of them. -/
def State.openGates (s : State) (id : Nat) (f : Stream → Stream) : State :=
  let go := fun (st : Stream) => if st.gates.contains id then f { st with gates := st.gates.filter (· ≠ id) } else st
  let port : Nat × Port → Nat × Port := fun kp => (kp.1, { kp.2 with inbox := kp.2.inbox.map go, cur := kp.2.cur.map go })
  { s with ports := s.ports.map port }

/-- A discarded command undone (R244, R251). -/
def State.discard (s : State) (n : Nat) (c : Cmd) : State :=
  let s := s.modSlot n fun x => { x with cmds := x.cmds.filter (·.id ≠ c.id) }
  match c.kind with
  | .start r =>
    { s.modSlot n fun x => { x with bars := x.bars.map fun kb => (kb.1, kb.2.filter (· ≠ r)) } with runs := s.runs.erase r }
  | .strm k => s.modPort k fun p => { p with inbox := p.inbox.filter (·.id ≠ c.id) }
  | .sel _ _ => (regionPorts c.masks).foldl State.joinRun (s.openGates c.id fun st => st)
  | _ => s

/-- Whether a plane is ACTIVE at every position of a region, and in its engines (R240). -/
def State.allActive (s : State) (ms : Masks) (feng : Bool) (n : Nat) : Bool :=
  allB (fun k => (s.pos k).active == some n) (regionKeys ms)
    && (!feng || allB (fun c => (s.fe c).active == some n) (regionFes ms))

/-- A plane made active over a region (R224, R240): streams that waited for the `cfgsel` now wait for a start (R236). -/
def State.selectPlane (s : State) (id : Nat) (ms : Masks) (feng : Bool) (n slot : Nat) : State :=
  let s := (regionKeys ms).foldl (fun s k => s.modPos k fun x =>
    if x.active = some n then x else { x with active := some n, served := [], mergeEos := [], marks := [], ctlMarks := [] }) s
  let s := if feng then (regionFes ms).foldl (fun s c => s.modFe c fun f =>
    { f with
      active := some n
      gcls := match (s.slot slot).held.find? fun h => h.1 == c && h.2.1 == n with
        | some h => h.2.2
        | none => min 1 (fePcls (f.planes.getD {} n).node) }) s
    else s
  -- a grant is held until its plane is deselected (R107)
  let s := s.modSlot slot fun x =>
    { x with held := x.held.filter fun h => !(feng && (regionFes ms).contains h.1 && h.2.1 != n) }
  ((regionPorts ms).foldl (fun s k => s.modPort k fun p => { p with started := false }) s).openGates id fun st =>
    { st with needStart := true }

/-- A command removed from its stream. -/
def State.dropCmd (s : State) (n id : Nat) : State := s.modSlot n fun x => { x with cmds := x.cmds.filter (·.id ≠ id) }

def State.setCmd (s : State) (n : Nat) (c : Cmd) : State :=
  s.modSlot n fun x => { x with cmds := x.cmds.map fun d => if d.id = c.id then c else d }

/-- One entry of a command stream looked at: an `sbar` whose condition holds goes, a command whose condition decided against
it is discarded, and one that may begin begins. -/
def State.pumpOne (s : State) (n id : Nat) : State :=
  let cmds := (s.slot n).cmds
  if (s.slot n).switched then s
  else match cmds.find? (·.id == id) with
  | none => s
  | some c =>
    let before := cmds.takeWhile (·.id ≠ id)
    match c.kind with
    | .sbar k => if s.sbarHolds n id k before then s.dropCmd n id else s
    | .cond _ left => if left = 0 && !anyB (fun d => d.conds.contains id) cmds then s.dropCmd n id else s
    | k =>
      let decided := c.conds.map fun i => match (cmds.find? (·.id == i)).map (·.kind) with
        | some (.cond rs _) => (i, s.condRes rs)
        | _ => (i, some true)
      if anyB (fun d => d.2 == some false) decided then s.discard n c
      else
        let c := { c with conds := (decided.filter fun d => d.2.isNone).map (·.1) }
        let s := s.setCmd n c
        if c.begun || !c.mayBegin before then s
        else
          let s := s.setCmd n { c with begun := true }
          match k with
          | .sel p drain =>
            let s := if drain then s.drain c.masks c.feng (some id) else s
            -- a plane already ACTIVE everywhere: nothing changes, and what waited for the command waits for a start alone
            if s.allActive c.masks c.feng p then
              ((regionPorts c.masks).foldl (fun s k => s.modPort k fun p => { p with resel := true })
                (s.openGates id fun st => { st with needStart := true })).dropCmd n id
            else s
          | .strm k => s.joinRun k
          | _ => s

/-- The command stream of a slot brought up to date. -/
def State.pump (s : State) (n : Nat) : State :=
  ((s.slot n).cmds.map (·.id)).foldl (fun s id => s.pumpOne n id) s

/-- The `sbar.cond` entries that still cover a next command. -/
def Slot.covering (x : Slot) : List Nat :=
  x.cmds.filterMap fun c => match c.kind with
    | .cond _ left => if left = 0 then none else some c.id
    | _ => none

/-- A command appended: it counts toward the `sbar.cond` entries that cover it (R251). -/
def State.enqueue (s : State) (n : Nat) (c : Cmd) : State :=
  s.modSlot n fun x =>
    let cs := x.cmds.map fun d => match d.kind with
      | .cond rs left => { d with kind := .cond rs (left - 1) }
      | _ => d
    { x with cmds := cs ++ [c] }

/-- A command of the issuing thread under an identifier, appended and the stream brought up to date. -/
def State.issueCmd (s : State) (id : Nat) (k : CmdKind) (ms : Masks) (feng : Bool) : State :=
  (s.enqueue s.cur { id := id, kind := k, masks := ms, feng := feng, conds := s.thr.covering }).pump s.cur

/-- An `sbar` entry of the issuing thread appended; it is no command and counts toward none. -/
def State.issueSbar (s : State) (k : CmdKind) : State :=
  let (id, s) := s.fresh
  (s.modSlot s.cur fun x => { x with cmds := x.cmds ++ [{ id := id, kind := k, begun := true }] }).pump s.cur

/-! ### Configuration images (R227, R230, R237, R238) -/

/-- 8-byte words read by the thread. An image or a stream specification in the thread's scratch range is read as the thread's
own access, from its private scratch: the spec does not say whether the fetch of `cfgload` and `cfgck` is the thread's or an
engine's (R27; the model's choice, log 19). -/
def State.imageFetch (s : State) (va : Nat) : Nat → Except Trap (List W64 × State)
  | 0 => .ok ([], s)
  | n + 1 => match s.threadLoad va 8 with
    | .error t => .error t
    | .ok (v, s) => match s.imageFetch (va + 8) n with
      | .error t => .error t
      | .ok (r, s) => .ok (v :: r, s)

/-- The records' words of an image, as far as their headers are well formed. -/
def State.recordFetch (s : State) (va : Nat) : Nat → Except Trap (List W64 × State)
  | 0 => .ok ([], s)
  | n + 1 => match s.threadLoad va 8 with
    | .error t => .error t
    | .ok (h, s) =>
      let kind := h.toNat % 256
      if kind < 1 ∨ kind > 4 then .ok ([h], s)
      else match s.imageFetch (va + 8) (recordLen kind) with
      | .error t => .error t
      | .ok (ws, s) => match s.recordFetch (va + 8 + 8 * recordLen kind) n with
        | .error t => .error t
        | .ok (r, s) => .ok (h :: ws ++ r, s)

/-- An image read at an address: its records, or the TVAL of its malformed header (R227, R238). -/
def State.readImage (s : State) (va : Nat) : Except Trap (Except W64 (List CfgRec) × State) :=
  match s.imageFetch va 8 with
  | .error t => .error t
  | .ok (hdr, s) =>
    if imageHdrBad hdr then .ok (.error (cfgTval 1 0 0 0), s)
    else
      let n := bitsAt (wordAt hdr 0) 15 8
      match s.recordFetch (va + 64) n with
      | .error t => .error t
      | .ok (ws, s) => match parseRecs ws 1 n with
        | .error (i, p, n) => .ok (.error (cfgTval 1 i p n), s)
        | .ok rs => .ok (.ok rs, s)

/-- The words of a kind of a plane as a course holds them; none where the plane is EMPTY. -/
def State.loadedWords (s : State) (c kind p n : Nat) : List W64 :=
  let pl := (s.pos (posKey c p)).planes.getD {} n
  if pl.st = .empty then [] else if kind = 3 then pl.sw else pl.node

/-- The words a check sees: the image's, else the loaded ones. -/
def State.seenWords (s : State) (c : Nat) (rs : List CfgRec) (kind p n : Nat) : List W64 :=
  (imageWords rs kind p n).getD (s.loadedWords c kind p n)

/-- The spill rules of a switch plane (R223): its ring exists, and no other FIFO names it. -/
def State.spillBad (s : State) (c : Nat) (rs : List CfgRec) (r : CfgRec) : Bool :=
  let t := swSptile r.words
  swSpill r.words ≠ 0
    && (!tiSpe (s.seenWords c rs 2 (tilePos t) r.plane)
      || anyB (fun p => p ≠ r.pos && swSpill (s.seenWords c rs 3 p r.plane) ≠ 0
          && swSptile (s.seenWords c rs 3 p r.plane) == t) (rangeFrom 0 32))

/-- The check of a record on a course of a region: TVAL of trap 0x19, if it fails (R227, R238); 0 stands for an engine plane
while FENG = 0, which is trap 0x0D (R26, R237). A record of another course's positions passes here. -/
def State.recordBad (s : State) (feng : Bool) (ms : Masks) (c mask : Nat) (rs : List CfgRec) (i : Nat) (r : CfgRec) : Option W64 :=
  let p := if r.kind = 4 then 31 else r.pos
  let rej := fun (reason : Nat) => some (cfgTval reason i r.pos r.plane)
  if r.kind = 4 ∧ !feng then some 0#64
  else if !anyB (fun m => m.2.testBit p) ms || (r.kind = 1 && !isBrick p) || (r.kind = 2 && isBrick p) then rej 3
  else if !mask.testBit p then none
  else
    let why := match r.kind with
      | 1 => brickBad r.words
      | 2 => tileBad r.words
      | 3 => (match switchBad r.words r.pos with
        | some w => some w
        | none => if s.spillBad c rs r then some 7 else none)
      | _ => factorBad r.words fun row => swFeatt (s.seenWords c rs 3 (row * 8 + 7) r.plane)
    match why with
    | some w => rej w
    | none => none

/-- The first record that fails. -/
def State.recordsBad (s : State) (feng : Bool) (ms : Masks) (c mask : Nat) (rs : List CfgRec) (i : Nat) :
    List CfgRec → Option W64
  | [] => none
  | r :: rest => match s.recordBad feng ms c mask rs i r with
    | some t => some t
    | none => s.recordsBad feng ms c mask rs (i + 1) rest

/-- The positions that rules (b) and (e) see: the region's, and the neighbours that the image connects (R230), on other courses too:
those its switches send to, and those whose tokens its switches or nodes take. -/
def rulePositions (ms : Masks) (rs : List CfgRec) (n : Nat) : List Nat :=
  let ks := regionKeys ms
  let near := ks.flatMap fun k =>
    let v : PlaneView := ⟨(imageWords rs 3 (k % 32) n).getD [], (imageWords rs (if isBrick (k % 32) then 1 else 2) (k % 32) n).getD []⟩
    (rangeFrom 0 4).filterMap fun d =>
      if swOut v.sw d ≠ 0 || !(carriers v.sw (d + 1)).isEmpty || !(fifoUsers k v d).isEmpty then neighbour k d else none
  (ks ++ near).eraseDups

/-- The planes' words that the rules see at those positions: the image's on the region's courses, else the loaded ones. -/
def State.planeView (s : State) (ms : Masks) (rs : List CfgRec) (n : Nat) (ks : List Nat) (k : Nat) : PlaneView :=
  let c := k / 32
  let p := k % 32
  let rs := if (regionKeys ms).contains k then rs else []
  if ks.contains k then ⟨s.seenWords c rs 3 p n, s.seenWords c rs (if isBrick p then 1 else 2) p n⟩ else ⟨[], []⟩

/-- The plane numbers an image writes. -/
def imagePlanes (rs : List CfgRec) : List Nat := (rangeFrom 0 4).filter fun n => anyB (fun r => r.plane == n) rs

/-- Rules (b) and (e) for each plane number the image writes; the position TVAL names is left open but where one brick's initial
tokens break rule (e) (R447, log 19). -/
def State.rulesBad (s : State) (ms : Masks) (rs : List CfgRec) : List Nat → Option W64
  | [] => none
  | n :: r =>
    let ks := rulePositions ms rs n
    let v := s.planeView ms rs n ks
    let pos := (Config.freeWord s.freeCnt).toNat % 32
    if ruleBBroken ks v then some (cfgTval 4 0 pos n)
    else if ruleEBroken ks v then some (cfgTval 5 0 ((ruleEBrick ks v).getD pos) n)
    else s.rulesBad ms rs r

/-- Every check of an image over a region (R207 to R230, R237, R266): the TVAL of the first failure. -/
def State.imageBad (s : State) (feng : Bool) (ms : Masks) (rs : List CfgRec) : Option W64 :=
  match ms.findSome? fun m => s.recordsBad feng ms m.1 m.2 rs 1 rs with
  | some t => some t
  | none => s.rulesBad ms rs (imagePlanes rs)

/-- The planes an image names over a region. -/
def imageLoads (ms : Masks) (rs : List CfgRec) : List (Nat × Nat) :=
  (ms.flatMap fun m => rs.filterMap fun r =>
    if r.kind = 4 then (if m.2.testBit 31 then some (2 ^ 16 + m.1, r.plane) else none)
    else if m.2.testBit r.pos then some (posKey m.1 r.pos, r.plane) else none).eraseDups

/-- Whether a plane is ACTIVE. -/
def State.planeActive (s : State) (l : Nat × Nat) : Bool :=
  if l.1 < 2 ^ 16 then (s.pos l.1).active == some l.2 else (s.fe (l.1 - 2 ^ 16)).active == some l.2

/-- A plane written: words the image leaves unset are zero (R224, R227). -/
def State.writePlane (s : State) (rs : List CfgRec) (l : Nat × Nat) : State :=
  if l.1 < 2 ^ 16 then
    let p := l.1 % 32
    let kind := if isBrick p then 1 else 2
    s.modPos l.1 fun x =>
      { x with planes := x.planes.set l.2 { st := .loading, node := (imageWords rs kind p l.2).getD [], sw := (imageWords rs 3 p l.2).getD [] } }
  else s.modFe (l.1 - 2 ^ 16) fun f =>
    { f with planes := f.planes.set l.2 { st := .loading, node := (imageWords rs 4 0 l.2).getD [] } }

/-- A plane complete. -/
def State.planeLoaded (s : State) (l : Nat × Nat) : State :=
  let done := fun (m : Map Plane) => m.modify {} l.2 fun p => { p with st := .loaded }
  if l.1 < 2 ^ 16 then s.modPos l.1 fun x => { x with planes := done x.planes }
  else s.modFe (l.1 - 2 ^ 16) fun f => { f with planes := done f.planes }

/-- CFGLOAD_COMPLETE (R224, R226): an accepted image's planes are LOADED. -/
def execCfgloadComplete (slot n : Nat) (s : State) : Out :=
  let s := s.pump slot
  .next (match (s.slot slot).cmds.find? (·.id == n) with
    | some c => match c.kind with
      | .load _ => ((c.loads.foldl State.planeLoaded s).dropCmd slot n).pump slot
      | _ => s
    | none => s)

/-! ### Leave for power classes (R107) -/

/-- The planes that the engines of a region have now, as course and plane. -/
def State.activePlanes (s : State) (ms : Masks) : List (Nat × Nat) :=
  (regionFes ms).filterMap fun c => (s.fe c).active.map (c, ·)

/-- The class an engine's plane asks for. -/
def State.classOf (s : State) (e : Nat × Nat) : Nat := fePcls ((s.fe e.1).planes.getD {} e.2).node

/-- The request of a slot for an engine's plane. -/
def State.grantFor (s : State) (n : Nat) (e : Nat × Nat) : Option (Nat × Grant) :=
  s.grants.find? fun g => g.2.slot == n && g.2.course == e.1 && g.2.plane == e.2

/-- A request sent, where none stands; `queued` where a command that has issued sends it. -/
def State.request1 (s : State) (n : Nat) (queued : Bool) (e : Nat × Nat) : State :=
  match s.grantFor n e with
  | some _ => s
  | none =>
    let (id, s) := s.fresh
    let g : Grant := { slot := n, course := e.1, plane := e.2, cls := s.classOf e, since := s.now, queued := queued }
    { s with grants := s.grants.set id g }

/-- A grant given: the slot holds it, and a plane that is active has its class. -/
def State.takeGrant (s : State) (n : Nat) (e : Nat × Nat) : State :=
  match s.grantFor n e with
  | some (id, g) =>
    ({ s with grants := s.grants.erase id }.modSlot n fun x => { x with held := (e.1, e.2, g.cls) :: x.held }).modFe e.1 fun f =>
      if f.active = some e.2 then { f with gcls := g.cls } else f
  | none => s

/-- The leave that engines' planes of class 2 or 3 need (R107): requests are sent for those a slot holds no grant for, and once all
are granted it holds them; until then nothing is held. -/
def State.wantAll (s : State) (n : Nat) (queued : Bool) (es : List (Nat × Nat)) : Bool × State :=
  let need := es.filter fun e => 2 ≤ s.classOf e && !anyB (fun h => h.1 == e.1 && h.2.1 == e.2) (s.slot n).held
  let s := need.foldl (fun s e => s.request1 n queued e) s
  if allB (fun e => match s.grantFor n e with | some g => g.2.granted | none => false) need then
    (true, need.foldl (fun s e => s.takeGrant n e) s)
  else (false, s)

/-- CFGSEL_TAKE_EFFECT (R225, R240): 8 A-cycles after the region is quiescent the plane is active. -/
def execCfgselTakeEffect (slot n : Nat) (s : State) : Out :=
  let s := s.pump slot
  .next (if (s.slot slot).switched then s else match (s.slot slot).cmds.find? (·.id == n) with
    | some c => match c.kind with
      | .sel p _ =>
        if c.begun && s.quiescent c.masks c.feng n && decide (s.lastMoveIn c.masks c.feng + 16 ≤ s.now) then
          match s.wantAll slot true (if c.feng then (regionFes c.masks).map (·, p) else []) with
          | (false, s) => s
          | (true, s) => ((s.selectPlane n c.masks c.feng p slot).dropCmd slot n).pump slot
        else s
      | _ => s
    | none => s)

/-! ### Runs (R213, R241, R242) -/

/-- A position at the start of a run: ordinals, P, L0 to L3, mode, compaction buffers and generators at their start values; a
brick's initial tokens are due on O0 (R213). -/
def Pos.begin (x : Pos) (p r now : Nat) : Pos :=
  let ini := if isBrick p then brInit x.node else 0
  { x with
    run := some r, ended := false, mode := 0, ordinal := 0, p := 0#16, l := [], comp := [],
    emitted := if ini = 0 then [] else [(0, ini)], tcn := 0, gen := [], inEos := false, wroteLast := false,
    mergeEos := [], served := [], iniDue := ini, lastMove := now }

/-- An engine at the start of a run (R268, R271, R272, R280, R285). -/
def Fe.begin (f : Fe) (r now : Nat) : Fe :=
  { f with
    run := some r, pass := 0, frames := 0, passesDone := 0, fdone := 0, maxa := 0, maxb := 0, rowp := 0, wsn := 0,
    stepFrames := 0, fva := 0, bufs := [(0, { loading := true }), (1, { loading := feWmode f.words ≠ 0, step := 1 })],
    eosA := false, eosB := false, gathered := [], frameTag := none, overRange := false, checked := false, lastMove := now,
    ended := false }

/-- Whether an engine takes part in a run of a region (R242, R259). -/
def State.feTakesPart (s : State) (r : Run) (c : Nat) : Bool :=
  r.feng && (regionFes r.masks).contains c && fePcls (s.fe c).words ≠ 0

/-- Whether the node of a position has ended, or takes no part (R242). -/
def State.nodeDone (s : State) (k : Nat) : Bool :=
  let x := s.pos k
  (x.ended && x.pipe.isEmpty) || !x.takesPart (k % 32)

/-- Whether an engine, or a port, has ended or takes no part (R242). -/
def State.feDone (s : State) (r : Run) (c : Nat) : Bool := !s.feTakesPart r c || (s.fe c).ended
def Port.done (p : Port) : Bool := !p.part || p.ended

/-- Whether every node taking part in run `n` has ended (R242); one that a later run has taken had ended before. -/
def State.runEnded (s : State) (n : Nat) (r : Run) : Bool :=
  allB (fun k => (s.pos k).run ≠ some n || s.nodeDone k) (regionKeys r.masks)
    && allB (fun c => (s.fe c).run ≠ some n || s.feDone r c) (regionFes r.masks)
    && allB (fun k => (s.port k).run ≠ some n || (s.port k).done) (regionPorts r.masks)

/-- Whether every node of a region has ended the run it was in, none of which is frozen (R241). -/
def State.regionFree (s : State) (ms : Masks) (feng : Bool) : Bool :=
  let over' := fun (r : Option Nat) (done : Run → Bool) => match r.bind s.runs.get? with
    | some x => !x.begun || x.done || (!x.frozen && done x)
    | none => true
  allB (fun k => over' (s.pos k).run fun _ => s.nodeDone k) (regionKeys ms)
    && (!feng || allB (fun c => over' (s.fe c).run fun x => s.feDone x c) (regionFes ms))
    && allB (fun k => over' (s.port k).run fun _ => (s.port k).done) (regionPorts ms)

/-- A port as a run begins there: this is the start that its streams waited for after a `cfgsel` that has taken effect; those that
wait for a later one, or may still be discarded, are none of this run's. -/
def State.beginPort (s : State) (r k : Nat) : State :=
  let go := fun (st : Stream) => { st with needStart := false }
  (s.modPort k fun p =>
    { p with
      run := some r, started := true, ended := false, resel := false, part := false, inbox := p.inbox.map go
      cur := p.cur.map go }).joinRun k

/-- RUN_BEGIN (R241): a `start` whose region has ended its previous run resets the barrier and the nodes and sends the start
tokens. -/
def execRunBegin (slot n : Nat) (s : State) : Out :=
  let s := s.pump slot
  .next (if (s.slot slot).switched then s else match (s.slot slot).cmds.find? (·.id == n) with
    | some c => match c.kind with
      | .start r =>
        if !c.begun || !s.regionFree c.masks c.feng then s
        else match s.wantAll slot true (if c.feng then s.activePlanes c.masks else []) with
        | (false, s) => s
        | (true, s) =>
          let win := ((s.slot slot).csrv csrQWIN).toNat
          let s := s.modRun r fun x =>
            { x with begun := true, flags := 0#7, done := false, drn := false, res := false, frozen := false, fcause := 0,
                     lastMove := s.now, waitSince := none, win := win }
          let s := c.masks.foldl (fun s m => if (s.course m.1).power = .active then s else s.wakeCourse m.1) s
          let s := (regionKeys c.masks).foldl (fun s k => (s.wakePos k).modPos k fun x => x.begin (k % 32) r s.now) s
          let s := if c.feng then (regionFes c.masks).foldl (fun s f => s.modFe f fun x => x.begin r s.now) s else s
          let s := (regionPorts c.masks).foldl (fun s k => s.beginPort r k) s
          (s.dropCmd slot n).pump slot
      | _ => s
    | none => s)

/-- RES under RSENSE and RMASK (R241). -/
def barRes (spec : W64) (fl : Flags) : Bool := (bitsAt spec.toNat 22 16 &&& fl.toNat != 0) == bitAt spec.toNat 23

/-- BARRIER_COMPLETE (R242): release, RES, DONE, then the completion token. The token of a run whose ASID lies in no partition's
range goes to no queue and is not counted (the model's choice, log 49). -/
def execBarrierComplete (run : Nat) (s : State) : Out :=
  .next (match s.runs.get? run with
    | some r =>
      if !r.begun || r.done || r.frozen || !s.runEnded run r then s
      else
        let s := s.modRun run fun x => { x with res := barRes x.spec x.flags, done := true }
        let s := (regionPorts r.masks).foldl (fun s k => s.modPort k fun p =>
          if p.run = some run then { p with started := false, part := false } else p) s
        let s := match s.partOfAsid r.asid with
          | some p => if bitAt r.spec.toNat 24 then
              s.sendToken p (bitsAt r.spec.toNat 11 0) (r.spec.extractLsb' 32 32) (some (dieOf (r.masks.headD (0, 0)).1)) else s
          | none => s
        (((s.modSlot r.slot (·.woken 2)).releaseGrant r.masks r.slot).pump r.slot)
    | none => s)

/-! ### The backstop (R232) -/

/-- Whether a node of the region is a source (R229). -/
def State.isSource (s : State) (k : Nat) : Bool :=
  let x := s.pos k
  if isBrick (k % 32) then
    brTakesPart x.node && !anyB (fun p => brSel x.node p ≠ 0 && brPortUsed x.node p) (rangeFrom 0 4)
  else tiMode x.node ≠ 0 && !tiUses x.node 0 && !tiUses x.node 1

/-- The words of a position's active plane as the checks of a configuration see them. -/
def Pos.view (x : Pos) : PlaneView := ⟨x.sw, x.node⟩

/-- Whether what a source code of a position carries leaves the region on every way, through at most `n` switches; a way that
ends at an unconnected FIFO does not leave it (R198, R229). -/
def State.leadsOut (s : State) (ms : Masks) (k code : Nat) : Nat → Bool
  | 0 => false
  | n + 1 =>
    let ways := carriers (s.pos k).sw code
    !ways.isEmpty && allB (fun w => w.1 == 4 || (match s.leadOf (k / 32) (k % 32) w.1 with
      | .nothing => true
      | .fifo q f => !(regionKeys ms).contains q || ((fifoUsers q (s.pos q).view f).isEmpty && s.leadsOut ms q (f + 1) n)
      | _ => false)) ways

/-- Whether a node of the region is a sink: every output it drives leaves the region, or it drives none (R229). -/
def State.isSink (s : State) (ms : Masks) (k : Nat) : Bool :=
  let x := s.pos k
  let out := fun (code : Nat) => s.leadsOut ms k code (5 * (regionKeys ms).length)
  if isBrick (k % 32) then
    brTakesPart x.node && allB (fun o => !brDrives x.node o || out (6 + o)) (rangeFrom 0 2)
  else tiMode x.node ≠ 0 && (!tiDrives x.node || out 6)

/-- Whether a port's EOS marker is still in its X FIFO (R447: such a port has not reached EOS). -/
def State.eosAtPort (s : State) (k : Nat) : Bool :=
  anyB (fun t => t.eos) ((s.pos (portKey k)).fifo.getD [] 4)

/-- Whether a port is the output kind by the stream it works on, waits for or took last. -/
def Port.isOut (p : Port) : Bool :=
  match p.cur with
  | some st => bitAt (wordAt st.words 0) 61
  | none => match p.inbox with
    | st :: _ => bitAt (wordAt st.words 0) 61
    | [] => p.out

/-- Whether a port works on a stream without end, REPEAT = 0 and EOSM = 1: it never reaches EOS by itself, and is no source whose
shortness could freeze the region (R258). -/
def Port.endless (p : Port) : Bool :=
  match p.cur.toList ++ p.inbox with
  | st :: _ => bitsAt (wordAt st.words 0) 31 0 == 0 && bitsAt (wordAt st.words 0) 58 57 == 1
  | [] => false

/-- Whether some source of the run has not reached EOS. -/
def State.sourceShort (s : State) (r : Run) : Bool :=
  anyB (fun k => s.isSource k && !(s.pos k).ended) (regionKeys r.masks)
    || anyB (fun k => let p := s.port k; p.part && (s.eosAtPort k || (!p.ended && !p.isOut && !p.endless))) (regionPorts r.masks)
    || anyB (fun c => s.feTakesPart r c && !feReads (s.fe c).words 0 && !feReads (s.fe c).words 1 && !(s.fe c).ended)
        (regionFes r.masks)

/-- Whether some sink of the run has not received EOS. -/
def State.sinkShort (s : State) (r : Run) : Bool :=
  anyB (fun k => s.isSink r.masks k && !(s.pos k).ended) (regionKeys r.masks)
    || anyB (fun k => let p := s.port k; p.part && !p.ended && p.isOut) (regionPorts r.masks)
    || anyB (fun c => s.feTakesPart r c && !feEmits (s.fe c).words && !(s.fe c).ended) (regionFes r.masks)

/-- Whether the run waits for a power grant or a wake (R232). -/
def State.runWaits (s : State) (r : Run) : Bool :=
  anyB (fun g => g.slot == r.slot) s.grants.vals
    || anyB (fun k => (s.pos k).gated && (s.pos k).ingressWaits) (regionKeys r.masks)
    || anyB (fun m => (s.course m.1).power != .active) r.masks

/-- The quiet count of a run past a wait: it stands while the run waits, and goes on from there (R232). -/
def State.countWait (s : State) (r : Run) : Run :=
  if !r.begun || r.done || r.frozen then { r with waitSince := none }
  else if s.runWaits r then { r with waitSince := some (r.waitSince.getD s.now) }
  else match r.waitSince with
  | none => r
  | some t => { r with waitSince := none, lastMove := s.now - (t - r.lastMove) }

/-- The quiet counts of all runs brought up to date. -/
def State.countWaits (s : State) : State :=
  let one : Nat × Run → Nat × Run := fun kr => (kr.1, s.countWait kr.2)
  { s with runs := s.runs.map one }

/-- BACKSTOP_STALL (R232): WIN quiet A-cycles with a source short of EOS and a sink that has not received it freeze the
region, and its thread takes trap 0x11. -/
def execBackstopStall (run : Nat) (s : State) : Out :=
  .next (match s.runs.get? run with
    | some r =>
      if r.begun && !r.done && !r.frozen && decide (r.lastMove + 2 * r.win ≤ s.now) && s.sourceShort r && s.sinkShort r
          && !s.runWaits r then
        let own := ((r.masks.find? fun m => m.1 == courseOf r.slot).map (·.2)).getD 0
        s.freeze run 1 0x11 0 (BitVec.ofNat 64 own)
      else s
    | none => s)

/-! ### Control tokens of `ctok` (R245) -/

/-- One control token into the channel a target takes it by; none while there is no space. -/
def State.ctokInto (s : State) (c target : Nat) : Option State :=
  if target / 32 = 1 then
    (if (s.fe c).ctlIn < ctlCap then some (s.modFe c fun f => { f with ctlIn := f.ctlIn + 1 }) else none)
  else
    let k := posKey c (target % 32)
    let cin := if isBrick (target % 32) then brCin (s.pos k).node else 0
    if cin = 0 then some s else (s.enterCtl k (cin - 1)).map fun s => s.movedAt k

/-- CONTROL_TOKEN_DELIVER (R245): the first `ctok` of a thread's command stream delivers a token. -/
def execControlTokenDeliver (slot : Nat) (s : State) : Out :=
  let s := s.pump slot
  .next (if (s.slot slot).switched then s else match (s.slot slot).cmds.find? fun c => c.begun && (match c.kind with | .ctok _ _ => true | _ => false) with
    | some c => match c.kind with
      | .ctok t left => match s.ctokInto (courseOf slot) t with
        | some s =>
          if left ≤ 1 then (s.dropCmd slot c.id).pump slot else s.setCmd slot { c with kind := .ctok t (left - 1) }
        | none => s
      | _ => s
    | none => s)

/-! ### Power grants (R107) -/

/-- Whether an earlier request of the same class waits on the same die. A request offered a lower class keeps its place by
arrival among that class's requests: the spec does not say whether it does (R107; the model's choice, log 20). -/
def State.grantBehind (s : State) (id : Nat) (g : Grant) : Bool :=
  anyB (fun e => decide (e.1 < id) && !e.2.granted && e.2.cls == g.cls && dieOf e.2.course == dieOf g.course) s.grants

/-- POWER_GRANT (R107): a request is granted, in arrival order within its class on a die. Whether the package budget allows
it is the power controller's (log 20). -/
def execPowerGrant (n : Nat) (s : State) : Out :=
  .next (match s.grants.get? n with
    | some g => if g.granted || s.grantBehind n g then s else { s with grants := s.grants.set n { g with granted := true } }
    | none => s)

/-- GRANT_OFFER_LOWER (R107): a request that has waited 60,000 C-cycles is offered one class lower. -/
def execGrantOfferLower (n : Nat) (s : State) : Out :=
  .next (match s.grants.get? n with
    | some g =>
      if !g.granted && decide (g.since + 60000 ≤ s.now) && decide (1 < g.cls) then
        { s with grants := s.grants.set n { g with cls := g.cls - 1, since := s.now } }
      else s
    | none => s)

end Sys2Proof.Machine
end

