-- ==== Sys2Proof/Machine/GridInsn.lean ====
section
/-! DEFINITION. The grid, stream and token-queue instructions, majors 0x32 to 0x35 (R234 to R257). -/

namespace Sys2Proof.Machine


/-! ### Configuration -/

/-- cfgload's own part (R237): the address, the region, then everything its beginning waits for, the image's checks, and
the wait for a region whose ACTIVE plane it names. -/
def exeCfgload (s : State) (va rv : W64) : Exe :=
  if va.toNat % 64 ≠ 0 then exeTrap s 0x06 va
  else match s.region rv with
  | .error t => .trap s t
  | .ok (ms, s) =>
    let s := s.pump s.cur
    let x := s.thr
    let fates := x.covering.map fun i => match (x.cmds.find? (·.id == i)).map (·.kind) with
      | some (.cond rs _) => s.condRes rs
      | _ => some true
    let spent := s.modSlot s.cur fun x => { x with cmds := x.cmds.map fun d => match d.kind with
      | .cond rs left => { d with kind := .cond rs (left - 1) }
      | _ => d }
    if anyB (· == some false) fates then .done (spent.pump s.cur)
    else if anyB Option.isNone fates || x.cmdCount ≥ cmdCap || !allBegun x.cmds || heldBack x.cmds (.load 0) then .turn s
    else match s.readImage va.toNat with
    | .error t => .trap s t
    | .ok (.error tv, s) => exeTrap s 0x19 tv
    | .ok (.ok rs, s) =>
      match s.imageBad x.decl.feng ms rs with
      | some tv => exeTrap { s with freeCnt := s.freeCnt + 1 } (if tv = 0#64 then 0x0D else 0x19) tv
      | none =>
        let loads := imageLoads ms rs
        let act := anyB s.planeActive loads
        let strmHeld := anyB (fun c => match c.kind with | .sbar 1 => true | _ => false) x.cmds
        if act && (strmHeld || !s.quiescent ms x.decl.feng s.nextId) then .turn s
        else
          let (id, s) := (loads.foldl (fun s l => s.writePlane rs l) (s.hold ms)).fresh
          let s := s.modSlot s.cur fun x => { x with cmds := x.cmds.map fun d => match d.kind with
            | .cond rs left => { d with kind := .cond rs (left - 1) }
            | _ => d }
          .done (s.modSlot s.cur fun x =>
            { x with cmds := x.cmds ++ [{ id := id, kind := .load va.toNat, masks := ms, feng := x.decl.feng, begun := true, loads := loads }] })

/-- cfgload (R237). -/
def execCfgload (st : BitVec 3) (a b : BitVec 5) (s : State) : Out :=
  runInsn (.cfgload st a b) st (fun s => exeCfgload s (s.rs a) (s.rs b)) s

/-- The first position of a region whose plane `n` is EMPTY. -/
def State.emptyAt (s : State) (ms : Masks) (n : Nat) : Option Nat :=
  (regionKeys ms).find? fun k => ((s.pos k).planes.getD {} n).st == .empty

/-- cfgsel's own part (R240). -/
def exeCfgsel (s : State) (rv : W64) (n : Nat) (drain : Bool) : Exe :=
  match s.region rv with
  | .error t => .trap s t
  | .ok (ms, s) =>
    let s := s.pump s.cur
    let feng := s.thr.decl.feng
    match s.emptyAt ms n with
    | some k => exeTrap s 0x19 (cfgTval 0x0A 0 (k % 32) n)
    | none =>
      if !drain && s.regionFrozen ms then exeTrap s 0x19 (cfgTval 0x0B 0 0 n)
      else if s.thr.cmdCount ≥ cmdCap then .turn s
      else match s.wantAll s.cur false (if feng then (regionFes ms).map (·, n) else []) with
      | (false, s) => .turn s
      | (true, s) =>
        let (id, s) := (s.hold ms).fresh
        .done (s.issueCmd id (.sel n drain) ms feng)

/-- cfgsel (R240). -/
def execCfgsel (st : BitVec 3) (a : BitVec 5) (p : BitVec 2) (e : BitVec 1) (s : State) : Out :=
  runInsn (.cfgsel st a p e) st (fun s => exeCfgsel s (s.rs a) p.toNat (e == 1#1)) s

/-- The positions an image names, (3, 7) for an engine plane. -/
def imageMask (rs : List CfgRec) : Nat :=
  (rangeFrom 0 32).foldl (fun a p => if anyB (fun r => (if r.kind = 4 then 31 else r.pos) == p) rs then a + 2 ^ p else a) 0

/-- cfgck's own part (R239). -/
def exeCfgck (s : State) (va : W64) (d : BitVec 5) : Exe :=
  if va.toNat % 64 ≠ 0 then exeTrap s 0x06 va
  else match s.readImage va.toNat with
  | .error t => .trap s t
  | .ok (.error tv, s) => exePut s d tv
  | .ok (.ok rs, s) =>
    exePut { s with freeCnt := s.freeCnt + 1 } d ((s.imageBad true [(courseOf s.cur, imageMask rs)] rs).getD 0#64)

/-- cfgck (R239). -/
def execCfgck (st : BitVec 3) (a b : BitVec 5) (s : State) : Out :=
  runInsn (.cfgck st a b) st (fun s => exeCfgck s (s.rs a) b) s

/-! ### Frozen regions and queries (R252 to R254) -/

/-- The freeze of a run lifted: its quiet count starts again, its stopped streams go on, what was trapped is offered again, a
stream that was malformed is read again, a range check that has trapped is answered, and weight rows that faulted are loaded again
(R252, R272, R280, R410). -/
def State.resumeRun (s : State) (r : Nat) (x : Run) : State :=
  let s := s.modRun r fun y => { y with frozen := false, fcause := 0, lastMove := s.now }
  let s := s.modSlot x.slot fun y => { y with faults := y.faults.filter (·.run ≠ r) }
  let s := (regionPorts x.masks).foldl (fun s k => s.modPort k fun p =>
    { p with cur := p.cur.map fun st =>
        { st with stopped := false, malformed := none, reread := st.reread || st.malformed.isSome } }) s
  (regionFes x.masks).foldl (fun s c => s.modFe c fun f =>
    { f with
      checked := f.checked || f.overRange
      overRange := false
      bufs := if x.fcause = 7 then f.bufs.map fun kb => (kb.1, { kb.2 with fault := none }) else f.bufs }) s

/-- gresume's own part (R252). -/
def exeGresume (s : State) (rv : W64) : Exe :=
  match s.region rv with
  | .error t => .trap s t
  | .ok (ms, s) => .done ((s.runsIn ms).foldl (fun s r => if r.2.frozen then s.resumeRun r.1 r.2 else s) (s.hold ms))

/-- gresume (R252). -/
def execGresume (st : BitVec 3) (a : BitVec 5) (s : State) : Out :=
  runInsn (.gresume st a) st (fun s => exeGresume s (s.rs a)) s

/-- gdrain's own part (R253). -/
def exeGdrain (s : State) (rv : W64) : Exe :=
  match s.region rv with
  | .error t => .trap s t
  | .ok (ms, s) => .done (((s.hold ms).drain ms s.thr.decl.feng none).pump s.cur)

/-- gdrain (R253). -/
def execGdrain (st : BitVec 3) (a : BitVec 5) (s : State) : Out :=
  runInsn (.gdrain st a) st (fun s => exeGdrain s (s.rs a)) s

/-- A barrier status word (R243). -/
def Run.status (r : Run) : W64 :=
  BitVec.ofNat 64 (b2n r.done * 2 ^ 9 + b2n r.drn * 2 ^ 8 + b2n r.res * 2 ^ 7 + r.flags.toNat)

/-- A region's status word (R254). -/
def State.regionStatus (s : State) (ms : Masks) : W64 :=
  let own := ((ms.find? fun m => m.1 == courseOf s.cur).map (·.2)).getD 0
  let endm := (rangeFrom 0 32).foldl (fun a p => if own.testBit p && (s.pos (posKey (courseOf s.cur) p)).ended then a + 2 ^ p else a) 0
  let rs := s.runsIn ms
  let frozen := rs.find? fun r => r.2.frozen
  let pending := anyB (fun c => match c.kind with | .sel _ _ => masksMeet c.masks ms | _ => false) s.thr.cmds
  let state := if frozen.isSome then 2 else if pending then 3 else if rs.isEmpty then 0 else 1
  let apl := (((regionKeys ms).head?.bind fun k => (s.pos k).active)).getD 0
  BitVec.ofNat 64 (endm * 2 ^ 16 + apl * 2 ^ 8 + b2n (s.quiescent ms s.thr.decl.feng s.nextId) * 32
    + ((frozen.map (·.2.fcause)).getD 0) * 4 + state)

/-- The flags gathered for a region: those of the runs that its positions take part in, or took part in last (R254). -/
def State.regionFlags (s : State) (ms : Masks) : W64 :=
  let rs := ((regionKeys ms).filterMap fun k => (s.pos k).run).eraseDups
  (rs.foldl (fun (f : Flags) r => f ||| (match s.runs.get? r with | some x => x.flags | none => flNone)) flNone).zeroExtend 64

/-- A port's stream status (R254). -/
def Port.status (p : Port) : W64 :=
  match p.cur with
  | some st => streamStatus st false (bitsAt p.last.toNat 15 8) (if st.stopped then 2 else 1)
  | none => p.last

/-- The latest run begun with a barrier. -/
def State.begunRun (s : State) (n k : Nat) : Option Run :=
  (((s.slot n).bars.getD [] k).filterMap fun r => s.runs.get? r).find? (·.begun)

/-- gquery's own part (R254). -/
def exeGquery (s : State) (v : W64) (d : BitVec 5) (sel : Nat) : Exe :=
  let s := s.pump s.cur
  if sel < 2 then
    match s.region v with
    | .error t => .trap s t
    | .ok (ms, s) => exePut (s.hold ms) d (if sel = 0 then s.regionStatus ms else s.regionFlags ms)
  else if v.toNat ≥ 8 then exeTrap s 0x04 v
  else if sel = 2 then exePut s d (s.port (courseOf s.cur * 8 + v.toNat)).status
  else exePut s d (((s.begunRun s.cur v.toNat).map Run.status).getD 0#64)

/-- gquery (R254). -/
def execGquery (st : BitVec 3) (a b : BitVec 5) (e : BitVec 2) (s : State) : Out :=
  runInsn (.gquery st a b e) st (fun s => exeGquery s (s.rs a) b e.toNat) s

/-! ### Streams, runs and control tokens -/

/-- Streams a generator's inbox holds. -/
def genInbox : Nat := 8

/-- The `cfgsel`s of the command stream that name a position of the thread's course (R236). -/
def Slot.gatesOf (x : Slot) (course p : Nat) : List Nat :=
  (x.cmds.filter fun c => match c.kind with
    | .sel _ _ => anyB (fun m => m.1 == course && m.2.testBit p) c.masks
    | _ => false).map (·.id)

/-- strm's own part (R249). -/
def exeStrm (s : State) (va off : W64) (scope : Nat) (acq rel : Bool) (n : Nat) : Exe :=
  let p := portPos n
  if va.toNat % 64 ≠ 0 then exeTrap s 0x06 va
  else match s.imageFetch va.toNat 6 with
  | .error t => .trap s t
  | .ok (ws, s) =>
    if !s.thr.decl.posmask.testBit p then exeTrap s 0x0D (BitVec.ofNat 64 (2 ^ p))
    else
      let s := s.pump s.cur
      let x := s.thr
      let k := courseOf s.cur * 8 + n
      if (s.port k).inbox.length ≥ genInbox || x.cmdCount ≥ cmdCap then .turn s
      else
        let (id, s) := s.fresh
        let str : Stream :=
          { id := id, slot := s.cur, job := x.job, ord := x.ordinal, asid := x.asid, sup := x.sup,
            words := setNth ws 2 (nth 0#64 ws 2 + off), spec := va.toNat, off := off, scope := scope, acq := acq, rel := rel,
            gates := x.gatesOf (courseOf s.cur) p, needStart := (s.port k).resel }
        let s := s.modPort k fun q =>
          { q with inbox := q.inbox ++ [str], part := q.part || (q.started && str.gates.isEmpty && !str.needStart && x.covering.isEmpty) }
        .done (s.issueCmd id (.strm k) [] false)

/-- strm (R249). -/
def execStrm (st : BitVec 3) (a b : BitVec 5) (c : BitVec 3) (q l : BitVec 1) (p : BitVec 3) (s : State) : Out :=
  runInsn (.strm st a b c q l p) st
    (fun s => exeStrm s (s.rs a) (s.rs b) c.toNat (q == 1#1) (l == 1#1) p.toNat) s

/-- The plane an engine will have once the thread's earlier `cfgsel`s take effect. -/
def State.planeComing (s : State) (c : Nat) : Option Nat :=
  match s.thr.cmds.reverse.findSome? fun d => match d.kind with
    | .sel n _ => if d.feng && (regionFes d.masks).contains c then some n else none
    | _ => none with
  | some n => some n
  | none => (s.fe c).active

/-- Whether a barrier specification sets a reserved bit (R241). -/
def specBad (v : W64) : Bool := bitsAt v.toNat 31 25 ≠ 0 || bitsAt v.toNat 15 12 ≠ 0

/-- start's own part (R241). -/
def exeStart (s : State) (rv spec : W64) (k : Nat) : Exe :=
  match s.region rv with
  | .error t => .trap s t
  | .ok (ms, s) =>
    let s := s.pump s.cur
    let feng := s.thr.decl.feng
    if specBad spec then exeTrap s 0x04 spec
    else if s.regionFrozen ms then exeTrap s 0x19 (cfgTval 0x0C 0 0 0)
    else if s.thr.cmdCount ≥ cmdCap then .turn s
    else match s.wantAll s.cur false (if feng then (regionFes ms).filterMap fun c => (s.planeComing c).map (c, ·) else []) with
    | (false, s) => .turn s
    | (true, s) =>
      let (r, s) := (s.hold ms).fresh
      let x := s.thr
      let run : Run := { slot := s.cur, masks := ms, bar := k, spec := spec, feng := feng, asid := x.asid, sup := x.sup }
      let s := { s with runs := s.runs.set r run }
      let s := s.setThr { x with bars := x.bars.set k (r :: x.bars.getD [] k) }
      let (id, s) := s.fresh
      .done (s.issueCmd id (.start r) ms feng)

/-- start (R241). -/
def execStart (st : BitVec 3) (a b : BitVec 5) (k : BitVec 3) (s : State) : Out :=
  runInsn (.start st a b k) st (fun s => exeStart s (s.rs a) (s.rs b) k.toNat) s

/-- ctok's own part (R245); an engine belongs to the thread's regions where its program declares it. -/
def exeCtok (s : State) (t n : W64) : Exe :=
  if n.toNat < 1 ∨ n.toNat > 64 then exeTrap s 0x04 n
  else if t.toNat ≥ 64 then exeTrap s 0x04 t
  else
    let dc := s.thr.decl
    if t.toNat < 32 && !dc.posmask.testBit t.toNat then exeTrap s 0x0D (BitVec.ofNat 64 (2 ^ t.toNat))
    else if 32 ≤ t.toNat && !dc.feng then exeTrap s 0x0D 0#64
    else
      let s := s.pump s.cur
      if s.thr.cmdCount ≥ cmdCap then .turn s
      else
        let (id, s) := s.fresh
        .done (s.issueCmd id (.ctok t.toNat n.toNat) [] false)

/-- ctok (R245). -/
def execCtok (st : BitVec 3) (a b : BitVec 5) (s : State) : Out :=
  runInsn (.ctok st a b) st (fun s => exeCtok s (s.rs a) (s.rs b)) s

/-! ### Barriers in the command stream (R251) and swait (R244) -/

/-- sbar.cfg (R251). -/
def execSbarCfg (st : BitVec 3) (s : State) : Out :=
  runInsn (.sbarCfg st) st (fun s => .done (s.issueSbar (.sbar 0))) s

/-- sbar.strm (R251). -/
def execSbarStrm (st : BitVec 3) (s : State) : Out :=
  runInsn (.sbarStrm st) st (fun s => .done (s.issueSbar (.sbar 1))) s

/-- sbar.mem (R251): writes are visible at every scope once performed (log 6). -/
def execSbarMem (st c : BitVec 3) (s : State) : Out :=
  runInsn (.sbarMem st c) st (fun s => .done (s.issueSbar (.sbar 2))) s

/-- sbar.cond (R251). -/
def execSbarCond (st : BitVec 3) (n : BitVec 5) (k : BitVec 3) (s : State) : Out :=
  runInsn (.sbarCond st n k) st
    (fun s => .done (s.issueSbar (.cond (s.thr.bars.getD [] k.toNat) (n.toNat + 1)))) s

/-- swait's own part (R244): the latest run of a barrier, its flags and status. -/
def exeSwait (s : State) (d : BitVec 5) (k : Nat) : Exe :=
  let s := s.pump s.cur
  match (s.thr.bars.getD [] k).findSome? fun r => s.runs.get? r with
  | none => exePut s d 0#64
  | some r => if r.done then exePut (s.raise r.flags) d r.status else .turn s

/-- swait (R244). -/
def execSwait (st : BitVec 3) (b : BitVec 5) (c k : BitVec 3) (s : State) : Out :=
  runInsn (.swait st b c k) st (fun s => exeSwait s b k.toNat) s

/-! ### Token queues (R255 to R257) -/

/-- The head token of an armed queue makes a firing, one at a time: it stays pending until the walker issues the firing
(R82). -/
def State.fireTokq (s : State) (p t : Nat) : State :=
  let q := s.tokq p t
  if !q.armed || anyB (fun f => f.p == p && f.tq == some t && !f.sent) s.firings.vals then s
  else match q.toks with
  | [] => s
  | v :: _ =>
    let (id, s) := s.fresh
    let f : Firing := { p := p, tq := some t, ref := BitVec.ofNat 64 q.tmpl, asid := q.asid, payload := v.toNat, gen := q.gen }
    { s with firings := s.firings.set id f }

/-- A firing that a queue's head token has made and the walker has not issued, withdrawn (R82). -/
def State.unfire (s : State) (p t : Nat) : State :=
  { s with firings := s.firings.filter fun f => !(f.2.p == p && f.2.tq == some t && !f.2.sent) }

/-- A token of a thread whose ASID lies in no partition's range: no queue is its own. It is dropped as one that meets a gateway
with the wrong owner is, counted in management, and the fault goes to its thread (R83, R93; the choice of log 49). -/
def State.unownedToken (s : State) (n : Nat) : State :=
  let (id, s) := s.fresh
  s.countUnowned.faultThread n
    { cause := 0x10, rsts := 0x0B, tval := BitVec.ofNat 64 (s.slot n).asid, run := id }

/-- tokq's own part (R255). -/
def exeTokq (s : State) (q v : W64) : Exe :=
  if q.toNat ≥ 4096 then exeTrap s 0x04 q
  else match s.partOfAsid s.thr.asid with
  | none => .done (s.unownedToken s.cur)
  | some p =>
    let x := s.tokq p q.toNat
    if x.toks.length + x.held.length ≥ tokqDepth then .turn s
    else .done (s.sendToken p q.toNat (v.truncate 32) (some (dieOf (courseOf s.cur))))

/-- tokq (R255). -/
def execTokq (st : BitVec 3) (a b : BitVec 5) (c : BitVec 3) (l : BitVec 1) (s : State) : Out :=
  runInsn (.tokq st a b c l) st (fun s => exeTokq s (s.rs a) (s.rs b)) s

/-- qarm's own part (R256). A thread whose ASID lies in no partition's range has no queue: trap 0x0C (the model's choice, log
49). -/
def exeQarm (s : State) (q t : W64) : Exe :=
  if q.toNat ≥ 4096 then exeTrap s 0x04 q
  else if t.toNat ≥ 2 ^ 48 then exeTrap s 0x09 t
  else if t.toNat % 128 ≠ 0 then exeTrap s 0x06 t
  else match s.threadLoad t.toNat 8 with
  | .error e => .trap s e
  | .ok (ctl, s) =>
    if bitsAt ctl.toNat 7 0 ≠ 2 then exeTrap s 0x04 t
    else match s.partOfAsid s.thr.asid with
    | none => exeTrap s 0x0C t
    | some p =>
      if (s.qctl p (bitsAt ctl.toNat 31 24)).asid ≠ s.thr.asid then exeTrap s 0x0C t
      else
        let s := (s.unfire p q.toNat).modTokq p q.toNat fun x =>
          { x with tmpl := t.toNat, asid := s.thr.asid, armed := true, err := false, rerr := false, epay := 0, erst := 0 }
        .done (s.fireTokq p q.toNat)

/-- qarm (R256). -/
def execQarm (st : BitVec 3) (a b : BitVec 5) (s : State) : Out :=
  runInsn (.qarm st a b) st (fun s => exeQarm s (s.rs a) (s.rs b)) s

/-- qdisarm's own part (R257). A thread whose ASID lies in no partition's range has no queue, and none armed: 0 (the model's
choice, log 49). -/
def exeQdisarm (s : State) (q : W64) (d : BitVec 5) : Exe :=
  if q.toNat ≥ 4096 then exeTrap s 0x04 q
  else match s.partOfAsid s.thr.asid with
  | none => exePut s d 0#64
  | some p =>
    let x := s.tokq p q.toNat
    exePut ((s.unfire p q.toNat).setTokq p q.toNat (if x.armed then x.disarm else x)) d (if x.armed then BitVec.ofNat 64 x.tmpl else 0#64)

/-- qdisarm (R257). -/
def execQdisarm (st : BitVec 3) (a b : BitVec 5) (s : State) : Out :=
  runInsn (.qdisarm st a b) st (fun s => exeQdisarm s (s.rs a) b) s

end Sys2Proof.Machine
end

