-- ==== Sys2Proof/Machine/Meters.lean ====
section
/-! DEFINITION. The port dies that traffic passes (R90, R373) and their meters (R94). -/

namespace Sys2Proof.Machine

/-- The port die that serves a port (R90). -/
def portDie (k : Nat) : Nat := let d := dieOf (k / 8); if k % 8 < 4 then (d + 7) % 8 else d

/-- The plane of a virtual address (R373). -/
def homePlane (va : Nat) : Nat := (bitsAt va 19 12 ^^^ bitsAt va 27 20) % 16

def Rop.va (r : Rop) : Nat := bitsAt r.addr.toNat 47 0
/-- The plane an operation is for (R373); a watch's is its token's serial modulo 16 (log 21). -/
def Rop.homePlane (r : Rop) : Nat := if r.kind = .token then r.addr.toNat % 16 else Machine.homePlane r.va
/-- The port die whose remote unit takes an operation (R373). -/
def Rop.pd (r : Rop) : Nat := r.homePlane / 2

/-- The port die at which an operation arrives: its remote unit's, or that of the plane it came on. -/
def Rop.atDie (r : Rop) : Nat := if r.src.isNone then r.pd else r.plane.getD 0 / 2

/-! ### Meters (R94) -/

/-- A partition's share of a port die. -/
def Part.share (a : Part) (d : Nat) : Nat := bitsAt (a.pshare.getD 0#64 d).toNat 6 0

/-- The beat slots of a window. -/
def meterSlots : Nat := 1024

/-- The beat slots that a partition's share gives it in a window: 16 for each unit, or in proportion where the shares on the
port die sum to more than 64. -/
def State.beatLimit (s : State) (d p : Nat) : Nat :=
  let sum := s.parts.foldl (fun a q => a + q.2.share d) 0
  if sum ≤ 64 then 16 * (s.part p).share d else meterSlots * (s.part p).share d / sum

/-- Whether a partition has traffic for a port die now: a stream, a copy or a remote operation that is to pass it. -/
def State.usesDie (s : State) (d p : Nat) : Bool :=
  let of' := fun (asid : Nat) => s.partOfAsid asid == some p
  anyB (fun k => portDie k.1 == d && (match k.2.cur with | some st => of' st.asid && !st.stopped | none => false)) s.ports
    || anyB (fun c => c.pd == d && of' c.asid && !c.completed) s.copies.vals
    || anyB (fun r => r.atDie == d && of' r.asid && !r.taken) s.rops.vals

/-- The beat slots of a window that another partition has used or, with a share, still claims. -/
def State.beatsTaken (s : State) (d q : Nat) : Nat :=
  let used := (s.meters.getD {} d).beats.getD 0 q
  if s.usesDie d q then max used (s.beatLimit d q) else used

/-- Whether an owner's next beat fits in a port die's window: within its partition's share, or, where the share is no ceiling
(HARD = 0), in a slot that no other partition claims. An owner in no partition is not metered. -/
def State.beatFits (s : State) (d owner : Nat) : Bool :=
  match s.partOfAsid owner with
  | none => true
  | some p =>
    let used := (s.meters.getD {} d).beats.getD 0 p
    let others := (s.parts.filter fun q => q.1 ≠ p).foldl (fun a q => a + s.beatsTaken d q.1) 0
    decide (used < s.beatLimit d p)
      || (!bitAt ((s.part p).pshare.getD 0#64 d).toNat 8 && decide (used + others < meterSlots))

/-- Beats counted. -/
def State.countBeats (s : State) (d owner n : Nat) : State :=
  match s.partOfAsid owner with
  | none => s
  | some p => { s with meters := s.meters.modify {} d fun m => { m with beats := m.beats.modify 0 p (· + n) } }

/-- GATEWAY_METER_WINDOW (R94): the window of 1,024 A-cycles ends and a new one begins; beats over a partition's limit, of a
transfer that the model makes in one step, count in the new one (log 43). -/
def execGatewayMeterWindow (pd : Nat) (s : State) : Out :=
  let m := s.meters.getD {} pd
  let over' := m.beats.foldl (fun a b => a + b.2) 0 - meterSlots
  let rest : Nat × Nat → Nat × Nat := fun b =>
    let more := b.2 - s.beatLimit pd b.1
    (b.1, if bitAt ((s.part b.1).pshare.getD 0#64 pd).toNat 8 then more else min more over')
  .next (if pd < 8 ∧ m.since + 2 * meterSlots ≤ s.now then
      { s with meters := s.meters.set pd { since := s.now, beats := (m.beats.map rest).filter fun b => b.2 ≠ 0 } }
    else s)

end Sys2Proof.Machine
end

