-- ==== Sys2Proof/Machine/Streams.lean ====
section
/-! DEFINITION. Address generators: streams accepted at their ports (R246, R249), the tokens of input streams (R247) and the
writes of output streams (R248). -/

namespace Sys2Proof.Machine

/-! ### The fields of a stream specification (R246) -/

def Stream.w0 (st : Stream) : Nat := wordAt st.words 0
def Stream.out (st : Stream) : Bool := bitAt st.w0 61
def Stream.raw (st : Stream) : Bool := bitAt st.w0 60
def Stream.rowbrk (st : Stream) : Bool := bitAt st.w0 59
def Stream.eosm (st : Stream) : Nat := bitsAt st.w0 58 57
def Stream.tagbase (st : Stream) : Nat := bitsAt st.w0 55 48
def Stream.taglen (st : Stream) : Nat := let n := bitsAt st.w0 47 43; if n = 0 then 1 else n
def Stream.repeats (st : Stream) : Nat := bitsAt st.w0 31 0
def Stream.tdesc (st : Stream) : Nat := bitsAt (wordAt st.words 1) 47 0
def Stream.cnta (st : Stream) : Nat := bitsAt (wordAt st.words 3) 47 0

/-- The tensor a stream traverses, its base moved by OFF (R246, R249). -/
def Stream.tensor (st : Stream) : Tensor :=
  let t := tensorOf st.desc
  { t with base := (t.base + wordAt st.words 2) % 2 ^ 64 }

/-- Whether a specification's own fields are malformed (R246). -/
def Stream.specBad (st : Stream) : Bool :=
  bitsAt st.w0 63 62 ≠ 0 || bitAt st.w0 56 || bitsAt st.w0 42 32 ≠ 0 || decide (2 ≤ st.eosm) || decide (16 < bitsAt st.w0 47 43)
    || bitsAt (wordAt st.words 1) 63 48 ≠ 0 || bitsAt (wordAt st.words 3) 63 48 ≠ 0 || wordAt st.words 4 ≠ 0
    || wordAt st.words 5 ≠ 0 || st.cnta % 8 ≠ 0

/-- Whether a specification is malformed with its tensor (R246). -/
def Stream.tensorMismatch (st : Stream) : Bool :=
  let t := st.tensor
  (!st.raw && (t.fmt = 8 || t.fmt = 12 || t.fmt = 14)) || t.base % t.align ≠ 0

/-- The units of one traversal: elements, or bytes under RAW. -/
def Stream.units (st : Stream) : Nat := st.tensor.count * (if st.raw then elemSize st.tensor.fmt else 1)

/-- Whether its traversals are done: an empty tensor has none to do (R247, R248). -/
def Stream.full (st : Stream) : Bool := st.units == 0 || (st.repeats ≠ 0 && decide (st.repeats ≤ st.trav))

/-- The bytes of a unit and its address. -/
def Stream.unitSize (st : Stream) : Nat := if st.raw then 1 else elemSize st.tensor.fmt
def Stream.unitAddr (st : Stream) (i : Nat) : Nat :=
  if st.raw then st.tensor.addr (i / elemSize st.tensor.fmt) + i % elemSize st.tensor.fmt else st.tensor.addr i

/-- A stream past `n` units of its traversal. -/
def Stream.move (st : Stream) (n : Nat) : Stream :=
  let i := st.idx + n
  if st.units ≤ i then { st with idx := 0, trav := st.trav + 1, moved := st.moved + n } else { st with idx := i, moved := st.moved + n }

/-- The access context of a port's generator. -/
def Stream.ctx (st : Stream) (k : Nat) : EngCtx := ⟨holdGen (k / 8) (k % 8), st.asid, st.sup⟩

/-! ### Acceptance (R249, R250) -/

/-- A fault of a stream: the region freezes and the stream stops, keeping its progress (R250). -/
def State.streamFault (s : State) (k fcause status : Nat) (tval : W64) : State :=
  (s.modPort k fun p =>
    { p with
      cur := p.cur.map fun st => { st with stopped := true }
      last := BitVec.ofNat 64 (setBits p.last.toNat 15 8 status) }).freezeAt (portKey k) fcause 0x10 status tval

/-- The specification of a stream that was malformed, read again by its generator (R410). -/
def State.specAgain (s : State) (k : Nat) (st : Stream) : Except EngErr Stream :=
  if !st.reread then .ok st
  else match s.engWords (st.ctx k) st.spec 6 with
  | .error e => .error e
  | .ok ws => .ok { st with words := setNth ws 2 (nth 0#64 ws 2 + st.off), reread := false }

/-- What a generator finds in the specification and descriptor: the stream with the descriptor's words, or a fault: FCAUSE, reply
status and address. A descriptor's read comes before the check of its own address: one that is both misaligned and unreadable reports the
failed read (the spec gives no order; the model's choice, log 28). -/
def State.streamSetup (s : State) (k : Nat) (st : Stream) : Except (Nat × Nat × Nat) Stream :=
  if st.malformed.isSome then .error (4, 2, st.malformed.getD 0)
  else if !s.dieAdmits (portDie k) st.asid then .error (5, 0x0B, dieEntrance)
  else match s.specAgain k st with
  | .error e => .error (if e.status = 0x0B then 5 else 4, e.status, e.addr)
  | .ok st =>
  if st.specBad then .error (4, 2, st.spec)
  else match s.engWords (st.ctx k) st.tdesc 16 with
  | .error e => .error (if e.status = 0x0B then 5 else 4, e.status, e.addr)
  | .ok ws =>
    if tensorBad st.tdesc ws then .error (4, 2, st.tdesc)
    else if Stream.tensorMismatch { st with desc := ws } then .error (4, 2, st.spec)
    else .ok { st with desc := ws }

/-- Whether a port's stream is one of the run that goes on at its port (R236, R242). -/
def State.inRun (s : State) (k : Nat) (st : Stream) : Bool :=
  let p := s.port k
  p.started && !p.ended && s.runLive p.run && s.openStream st

/-- A stream that cannot run, outside any run: it ends with an error reply, and its thread takes trap 0x10 (R30, R250), or its
iteration, where that has ended, the error (R415). -/
def State.streamRejected (s : State) (k : Nat) (st : Stream) (status : Nat) (tval : W64) : State :=
  let (id, s) := (s.streamGone k st false status 0).fresh
  if st.orphan then s.lateError st.job st.ord 0x10
  else s.faultThread st.slot { cause := 0x10, rsts := status, tval := tval, run := id }

/-- The port's stream set up: its descriptor is read once, as the stream is accepted (R34). What cannot run freezes its run, or
is rejected outside one. After `gresume`, what was malformed is read again, and a read that failed is tried again (R252, R410). -/
def State.setUp (s : State) (k : Nat) (st : Stream) : State :=
  match s.streamSetup k st with
  | .ok st => s.modPort k fun p => { p with cur := some st, out := bitAt (wordAt st.words 0) 61 }
  | .error (fc, status, a) =>
    let s := if status = 0x0B then s.countRefusal (st.ctx k) a else s
    let tval := BitVec.ofNat 64 (if status = 0x0B then st.asid else a)
    if s.inRun k st then
      let st := if status = 2 then { st with malformed := some a } else st
      (s.modPort k fun p => { p with cur := some st }).streamFault k fc status tval
    else s.streamRejected k st status tval

/-- STREAM_ACCEPT (R249): the generator takes the next stream of its inbox, once its command has begun and no stream is on
the port, and reads its descriptor; a setup that could not be done yet is tried again. A stream whose iteration has ended, which no
run takes up any more, ends there with what it has done (R415, log 27). -/
def execStreamAccept (c port : Nat) (s : State) : Out :=
  let k := c * 8 + port
  .next (
    if 8 ≤ port || s.runFrozen (s.port k).run then s
    else match (s.port k).cur with
    | some st =>
      if st.desc.isEmpty && !st.stopped then s.setUp k st
      else if st.orphan then s.streamGone k st false 0 0
      else s
    | none => match (s.port k).inbox with
      | [] => s
      | st :: r =>
        let s := s.pump st.slot
        if (s.slot st.slot).switched then s
        else
        let begun := match (s.slot st.slot).cmds.find? (·.id == st.id) with | some c => c.begun | none => true
        if (s.port k).inbox.head? ≠ some st || !begun then s
        else
          let s := (s.modPort k fun p => { p with inbox := r, cur := some st, out := bitAt (wordAt st.words 0) 61 }).dropCmd st.slot st.id
          ((s.setUp k st).movedAt (portKey k)).pump st.slot)

/-! ### Input streams (R247) -/

/-- Whether a port's stream may pass beats now (R236, R242, R250): an output stream takes what waits at its port, an input stream
needs the start token of a run its port has not ended. -/
def State.streamRuns (s : State) (k : Nat) (st : Stream) : Bool :=
  let r := (s.pos (portKey k)).run
  !st.orphan && st.gates.isEmpty && !st.needStart && !st.stopped && !st.desc.isEmpty && !s.runFrozen r && s.beatFits (portDie k) st.asid
    && (st.out || ((s.port k).started && !(s.port k).ended && s.runLive r))

/-- Units read from index `i` on. -/
def State.unitsIn (s : State) (e : EngCtx) (st : Stream) (i : Nat) : Nat → Except EngErr (List Nat)
  | 0 => .ok []
  | n + 1 => match s.engRead e (st.unitAddr i) st.unitSize with
    | .error x => .error x
    | .ok v => match s.unitsIn e st (i + 1) n with
      | .error x => .error x
      | .ok r => .ok (v :: r)

/-- The units of the next token: up to sixteen elements or 64 bytes, cut at the traversal's end and at a row under ROWBRK. -/
def Stream.beat (st : Stream) : Nat :=
  let n := min (if st.raw then 64 else 16) (st.units - st.idx)
  let row := nth 1 st.tensor.sizes 0 * (if st.raw then elemSize st.tensor.fmt else 1)
  if st.rowbrk then min n (row - st.idx % row) else n

/-- Bytes packed into lanes, zero-filled. -/
def packBytes (bs : List Nat) : BitVec 512 := BitVec.ofNat 512 (ofBytesLE (bs.map (BitVec.ofNat 8)))

/-- The token of a beat's units (R247). -/
def Stream.token (st : Stream) (us : List Nat) : Tok :=
  { lanes := if st.raw then packBytes us else payload (us ++ (rangeFrom 0 (16 - us.length)).map fun _ => 0)
    vm := BitVec.ofNat 16 (2 ^ (if st.raw then (us.length + 3) / 4 else us.length) - 1)
    tag := BitVec.ofNat 8 (st.tagbase + st.toks % st.taglen) }

/-- The stream at a port ends, its thread seeing the reply; `node` says whether the port's node ends with it. -/
def State.streamEnd (s : State) (k : Nat) (st : Stream) (node : Bool) : State :=
  (s.streamGone k st node 0 0).modPort k fun p => { p with ended := p.ended || node }

/-- An error of a stream under way: it freezes the run at its port, or, where none goes on, the stream ends with an error reply and
trap 0x10; a gateway's refusal is counted (R93, R250). -/
def State.beatFault (s : State) (k : Nat) (st : Stream) (e : EngErr) : State :=
  let refused := e.status == 0x0B
  let s := if refused then s.countRefusal (st.ctx k) e.addr else s
  let tval := BitVec.ofNat 64 (if refused then st.asid else e.addr)
  if s.runLive (s.pos (portKey k)).run then s.streamFault k (if refused then 5 else 4) e.status tval
  else s.streamRejected k ((s.port k).cur.getD st) e.status tval

/-- STREAM_BEAT_IN (R247): one token of an input stream, or its EOS marker, enters the X input of the port's switch, or the ring
behind it (R223). A port die that does not admit the owner any more refuses the beat (R93). -/
def execStreamBeatIn (c port : Nat) (s : State) : Out :=
  let k := c * 8 + port
  let pk := portKey k
  .next (match (s.port k).cur with
    | none => s
    | some st =>
      if 8 ≤ port || st.out || !s.streamRuns k st then s
      else if st.full then
        (if st.eosm = 0 then
          match s.arrive pk 4 eosTok with
          | .moved s => (s.streamEnd k st true).pump st.slot
          | .held s => s
          | .blocked => s
        else (s.streamEnd k st false).pump st.slot)
      else if !s.dieAdmits (portDie k) st.asid then s.beatFault k st ⟨0x0B, dieEntrance⟩
      else
        let n := st.beat
        match s.unitsIn (st.ctx k) st st.idx n with
        | .error e => s.beatFault k st e
        | .ok us => match s.arrive pk 4 (st.token us) with
          | .moved s =>
            (s.countBeats (portDie k) st.asid 1).modPort k fun p => { p with cur := some { st.move n with toks := st.toks + 1 } }
          | .held s => s
          | .blocked => s)

/-! ### Output streams (R248) -/

/-- The token that an output would pass on next, where it is not dropped as an early EOS marker of a merge. -/
def Pos.offered (x : Pos) (d : Nat) : Option Tok :=
  let o := swOut x.sw d
  if o = 8 ∨ o = 9 then
    match x.mergePick d (o - 8) with
    | none => none
    | some (code, t) =>
      let seen := x.mergeEos.getD [] (mergeConsumer d (o - 8))
      if t.eos && !allB (fun c => c == code || seen.contains c) (x.mergeSources (o - 8)) then none else some t
  else if o = 0 then none else x.headFor o (outConsumer d)

/-- The units of a token's valid lanes: lanes under ELEM, bytes under RAW. -/
def tokUnits (raw : Bool) (t : Tok) : List Nat :=
  let ls := validLanes t.vm (lanesList t.lanes)
  if raw then ls.flatMap fun v => (rangeFrom 0 4).map fun b => bitsAt v (8 * b + 7) (8 * b) else ls

/-- The count an output stream writes at CNTA: the elements of its last traversal (R248). -/
def Stream.lastCount (st : Stream) : Nat :=
  let u := if st.idx = 0 ∧ st.trav ≠ 0 then st.units else st.idx
  if st.raw then u / elemSize st.tensor.fmt else u

/-- The CNTA write of a stream that ends. A stream over an empty tensor writes its count of 0 too: R30 says that a command over an
empty tensor performs no access, R248 that an output stream's count is written (the model's choice, log 28). -/
def State.cntaWrite (s : State) (k : Nat) (st : Stream) : Except EngErr State :=
  if st.cnta = 0 then .ok s else s.engWrite (st.ctx k) st.cnta st.lastCount 8

/-- What becomes of units offered to a port's output stream: how many more have been taken, and whether the stream stops
there. -/
inductive PutRes where
  /-- All taken. -/
  | all (s : State)
  /-- The stream has ended under EOSM = 1 with this many units of the token taken. -/
  | ended (s : State) (taken : Nat)
  | fault (s : State) (taken : Nat) (e : EngErr)

/-- Units written one after another, `i` of the token's taken before. -/
def State.putUnits (s : State) (k : Nat) (st : Stream) (i : Nat) : List Nat → PutRes
  | [] => .all (s.modPort k fun p => { p with cur := some st })
  | u :: r =>
    if st.full then s.putUnits k { st with ovf := true } (i + 1) r
    else match s.engWrite (st.ctx k) (st.unitAddr st.idx) (u % 2 ^ (8 * st.unitSize)) st.unitSize with
    | .error e => .fault (s.modPort k fun p => { p with cur := some st }) i e
    | .ok s =>
      let st := st.move 1
      if st.eosm = 1 && st.full then
        match s.cntaWrite k st with
        | .error e => .fault (s.modPort k fun p => { p with cur := some st }) (i + 1) e
        | .ok s => .ended ((s.modPort k fun p => { p with cur := some st }).streamEnd k st false) (i + 1)
      else s.putUnits k st (i + 1) r

/-- The oldest token on its way out of a port: one that the gateway of the port die holds, else the one at the X output. -/
def State.portHead (s : State) (k : Nat) : Option Tok :=
  match (s.port k).gate with
  | t :: _ => some t
  | [] => (s.pos (portKey k)).offered 4

/-- That token taken. -/
def State.portTake (s : State) (k : Nat) : State :=
  match (s.port k).gate with
  | _ :: _ => s.modPort k fun q => { q with gate := q.gate.drop 1 }
  | [] => s.hopData (k / 8) (portPos (k % 8)) 4 fun s _ => .moved s

/-- A token at the X output enters the gateway at the entrance of its port die, which holds eight on the path (R93, R200), once an
output stream may take it there. -/
def State.portGate (s : State) (k : Nat) : State :=
  match (s.port k).cur with
  | some st =>
    if st.out && s.streamRuns k st && s.dieAdmits (portDie k) st.asid && decide ((s.port k).gate.length < gateCap) then
      s.hopData (k / 8) (portPos (k % 8)) 4 fun s t => .moved (s.modPort k fun q => { q with gate := q.gate ++ [t] })
    else s
  | none => s

/-- STREAM_TOKEN_OUT (R248): an output stream takes the token at the X output of its port's switch, through the gateway of its port
die. -/
def execStreamTokenOut (c port : Nat) (s : State) : Out :=
  let k := c * 8 + port
  let pk := portKey k
  let pass := fun (s : State) => s.portTake k
  .next (
    if 8 ≤ port || s.runFrozen (s.pos pk).run || s.posGated pk then s
    else match s.portHead k with
    | none => s.hopData c (portPos port) 4 fun _ _ => .blocked
    | some t => match (s.port k).cur with
      | none => s
      | some st =>
        if !st.out || !s.streamRuns k st then s
        else if !s.dieAdmits (portDie k) st.asid then s.beatFault k st ⟨0x0B, dieEntrance⟩
        else if t.eos then
          match s.cntaWrite k st with
          | .error e => s.beatFault k st e
          | .ok s => (((pass s).streamEnd k st true).modPort k fun q => { q with taken := 0 }).pump st.slot
        else if st.eosm = 1 && st.full then
          match s.cntaWrite k st with
          | .error e => s.beatFault k st e
          | .ok s => (s.streamEnd k st false).pump st.slot
        else
          let us := tokUnits st.raw t
          match s.putUnits k st (s.port k).taken (us.drop (s.port k).taken) with
          | .all s => ((pass s).countBeats (portDie k) st.asid 1).modPort k fun q => { q with taken := 0 }
          | .ended s n =>
            (if us.length ≤ n then ((pass s).countBeats (portDie k) st.asid 1).modPort k fun q => { q with taken := 0 }
             else s.modPort k fun q => { q with taken := n }).pump st.slot
          | .fault s n e => (s.modPort k fun q => { q with taken := n }).beatFault k st e)

/-- TOKEN_HOP (R198, R199, R201): outputs 0 to 3 data, 4 X into the gateway of its port die (R93), 5 to 8 control N, E, S, W, 9 the
engine's port C, 10 the engine's control input. -/
def execTokenHop (c pos out : Nat) (s : State) : Out :=
  .next (
    if out < 4 then s.hopOut c pos out false
    else if out = 4 then (match posPort pos with | some n => s.portGate (c * 8 + n) | none => s)
    else if 5 ≤ out ∧ out ≤ 8 then s.hopCtl c pos (out - 5)
    else if out = 9 then s.hopPortC c
    else if out = 10 then s.hopFecin c
    else s)

end Sys2Proof.Machine
end

