-- ==== Sys2Proof/Machine/Sync.lean ====
section
/-! DEFINITION. Synchronisation: acquiring loads and releasing stores (R352, R353), fences (R354), atomics at their homes
(R355 to R359), groups (R360 to R364) and `launch` (R161). Every access is performed at one instant in one order (log 6), so
a release or an acquire adds no order of its own. -/

namespace Sys2Proof.Machine

/-! ### Atomics (R355 to R359) -/

/-- Whether the home of a physical address takes atomics (R358). -/
def State.takesAtomics (s : State) (pa : Nat) : Bool :=
  match s.placeOf pa with
  | .ram _ => match winCourse pa with
    | some _ => decide ((pa - windowBase) % 0x1000000 < 0x200000)
    | none => true
  | _ => false

/-- A read-modify-write of the issuing thread at an address (R356, R357): the old value, and the state with what `f` writes,
if it writes. -/
def State.threadRmw (s : State) (ea size : Nat) (f : Nat → Option Nat) : Except Trap (Nat × State) :=
  match s.threadTarget s.thr .atomic ea size with
  | .error t => .error t
  | .ok (.scratch off) =>
    let old := s.thr.scratchRead off size
    .ok (old, match f old with
      | some v => s.setThr (s.thr.scratchWrite off (toBytesLE v size))
      | none => s)
  | .ok (.phys pa) =>
    if !s.takesAtomics pa then .error { cause := 0x0C, tval := BitVec.ofNat 64 ea }
    else if s.homeDown pa then .error { cause := 0x15, tval := BitVec.ofNat 64 ea, rsts := 8 }
    else if s.windowDrops s.thr.asid pa then
      (let (v, s) := s.drawWord
       .ok (v.toNat % 2 ^ (8 * size), match winCourse pa with | some c => s.countDrop c s.thr.asid | none => s))
    else if !s.goodPhys pa size then .error { cause := 0x08, tval := BitVec.ofNat 64 ea }
    else
      let old := s.readPhys pa size
      .ok (old, match f old with | some v => s.writePhys pa v size | none => s)

/-- Bytes of an atomic by its size bit. -/
def amoSize (z : BitVec 1) : Nat := if z = 1#1 then 8 else 4

/-- An old value in a register (R355): sign-extended, or zero-extended. -/
def amoExt (z : BitVec 1) (signed : Bool) (v : Nat) : W64 :=
  if z = 1#1 then BitVec.ofNat 64 v
  else if signed then (BitVec.ofNat 32 v).signExtend 64 else (BitVec.ofNat 32 v).zeroExtend 64

/-- The new value of an atomic and its flags, by its operation code (R355); `n` bits wide. -/
def amoOp (op n old b : Nat) : Nat × Flags :=
  match op with
  | 0 => ((old + b) % 2 ^ n, flNone)
  | 1 => clampInt true n flSAT (sintOf n old + sintOf n b)
  | 2 => (old &&& b, flNone)
  | 3 => (old ||| b, flNone)
  | 4 => (old ^^^ b, flNone)
  | 5 => (if sintOf n old ≤ sintOf n b then old else b, flNone)
  | 6 => (if sintOf n old ≤ sintOf n b then b else old, flNone)
  | 7 => (min old b, flNone)
  | 8 => (max old b, flNone)
  | 9 => (b, flNone)
  | _ => fpAdd (if n = 64 then .f64 else .f32) .rne 0 old b

/-- An atomic's own part (R356). -/
def exeAmo (s : State) (d a b : BitVec 5) (z : BitVec 1) (op : Nat) (signed : Bool) : Exe :=
  let size := amoSize z
  let bv := (s.rs b).toNat % 2 ^ (8 * size)
  match s.threadRmw (s.rs a).toNat size (fun old => some (amoOp op (8 * size) old bv).1) with
  | .error t => .trap s t
  | .ok (old, s') => exePut (s'.raise (amoOp op (8 * size) old bv).2) d (amoExt z signed old)

/-- cas's own part (R357). -/
def exeCas (s : State) (d a b : BitVec 5) (z : BitVec 1) : Exe :=
  let size := amoSize z
  let expd := (s.rs d).toNat % 2 ^ (8 * size)
  let new := (s.rs b).toNat % 2 ^ (8 * size)
  match s.threadRmw (s.rs a).toNat size (fun old => if old = expd then some new else none) with
  | .error t => .trap s t
  | .ok (old, s') => exePut s' d (amoExt z true old)

/-- amo.add (R355, R356). -/
def execAmoAdd (st : BitVec 3) (d a b : BitVec 5) (z : BitVec 1) (c : BitVec 3) (s : State) : Out :=
  runInsn (.amoAdd st d a b z c) st (fun s => exeAmo s d a b z 0 true) s

/-- amo.adds (R355, R356). -/
def execAmoAdds (st : BitVec 3) (d a b : BitVec 5) (z : BitVec 1) (c : BitVec 3) (s : State) : Out :=
  runInsn (.amoAdds st d a b z c) st (fun s => exeAmo s d a b z 1 true) s

/-- amo.and (R355, R356). -/
def execAmoAnd (st : BitVec 3) (d a b : BitVec 5) (z : BitVec 1) (c : BitVec 3) (s : State) : Out :=
  runInsn (.amoAnd st d a b z c) st (fun s => exeAmo s d a b z 2 true) s

/-- amo.or (R355, R356). -/
def execAmoOr (st : BitVec 3) (d a b : BitVec 5) (z : BitVec 1) (c : BitVec 3) (s : State) : Out :=
  runInsn (.amoOr st d a b z c) st (fun s => exeAmo s d a b z 3 true) s

/-- amo.xor (R355, R356). -/
def execAmoXor (st : BitVec 3) (d a b : BitVec 5) (z : BitVec 1) (c : BitVec 3) (s : State) : Out :=
  runInsn (.amoXor st d a b z c) st (fun s => exeAmo s d a b z 4 true) s

/-- amo.min (R355, R356). -/
def execAmoMin (st : BitVec 3) (d a b : BitVec 5) (z : BitVec 1) (c : BitVec 3) (s : State) : Out :=
  runInsn (.amoMin st d a b z c) st (fun s => exeAmo s d a b z 5 true) s

/-- amo.max (R355, R356). -/
def execAmoMax (st : BitVec 3) (d a b : BitVec 5) (z : BitVec 1) (c : BitVec 3) (s : State) : Out :=
  runInsn (.amoMax st d a b z c) st (fun s => exeAmo s d a b z 6 true) s

/-- amo.minn (R355, R356). -/
def execAmoMinn (st : BitVec 3) (d a b : BitVec 5) (z : BitVec 1) (c : BitVec 3) (s : State) : Out :=
  runInsn (.amoMinn st d a b z c) st (fun s => exeAmo s d a b z 7 false) s

/-- amo.maxn (R355, R356). -/
def execAmoMaxn (st : BitVec 3) (d a b : BitVec 5) (z : BitVec 1) (c : BitVec 3) (s : State) : Out :=
  runInsn (.amoMaxn st d a b z c) st (fun s => exeAmo s d a b z 8 false) s

/-- amo.swap (R355, R356). -/
def execAmoSwap (st : BitVec 3) (d a b : BitVec 5) (z : BitVec 1) (c : BitVec 3) (s : State) : Out :=
  runInsn (.amoSwap st d a b z c) st (fun s => exeAmo s d a b z 9 true) s

/-- amo.fadd (R355, R356). -/
def execAmoFadd (st : BitVec 3) (d a b : BitVec 5) (z : BitVec 1) (c : BitVec 3) (s : State) : Out :=
  runInsn (.amoFadd st d a b z c) st (fun s => exeAmo s d a b z 10 false) s

/-- cas (R357). -/
def execCas (st : BitVec 3) (d a b : BitVec 5) (z : BitVec 1) (c : BitVec 3) (s : State) : Out :=
  runInsn (.cas st d a b z c) st (fun s => exeCas s d a b z) s

/-! ### Acquiring loads, releasing stores, fences -/

/-- ldacq (R352). -/
def execLdacq (st : BitVec 3) (d a : BitVec 5) (c z : BitVec 3) (s : State) : Out :=
  runInsn (.ldacq st d a c z) st (fun s => exeLoad s d (s.rs a) z.toNat) s

/-- strel (R353). -/
def execStrel (st : BitVec 3) (d a : BitVec 5) (c : BitVec 3) (z : BitVec 2) (s : State) : Out :=
  runInsn (.strel st d a c z) st (fun s => exeStore s (s.rs a) (s.rs d) z.toNat) s

/-- fence.full (R354). -/
def execFenceFull (st c : BitVec 3) (s : State) : Out := runInsn (.fenceFull st c) st .done s

/-- fence.acq (R354). -/
def execFenceAcq (st c : BitVec 3) (s : State) : Out := runInsn (.fenceAcq st c) st .done s

/-- fence.rel (R354). -/
def execFenceRel (st c : BitVec 3) (s : State) : Out := runInsn (.fenceRel st c) st .done s

/-- A slot's copies that have not been replied to. -/
def State.copiesOut (s : State) (n : Nat) : Bool := anyB (fun c => c.2.slot == some n && !c.2.orphan && !c.2.replied) s.copies

/-- A slot's remote operations that have not completed. -/
def State.ropsOut (s : State) (n : Nat) : Bool := anyB (fun r => r.2.slot == some n && !r.2.orphan && !r.2.replied) s.rops

/-- fence.eng (R354): it waits for the thread's copies and remote operations. -/
def execFenceEng (st c : BitVec 3) (s : State) : Out :=
  runInsn (.fenceEng st c) st (fun s => if s.copiesOut s.cur || s.ropsOut s.cur then .turn s else .done s) s

/-! ### Groups (R360 to R364) -/

/-- The issuing thread's partition: the one whose range holds its ASID (R92), or, where none does, that of its job (the model's
choice, log 49). -/
def State.threadPart (s : State) : Nat :=
  match s.partOfAsid s.thr.asid with
  | some p => p
  | none => ((s.jobs.get? s.thr.job).map (·.p)).getD 0

def State.group (s : State) (p g : Nat) : Group := (s.part p).groups.getD {} g
def State.setGroup (s : State) (p g : Nat) (x : Group) : State :=
  s.modPart p fun a => { a with groups := a.groups.set g x }

/-- Whether every member of a group has arrived. -/
def Group.met (g : Group) : Bool := !g.arrived.isEmpty && allB (fun n => g.arrived.contains n) g.members

/-- A group's episode completes where its members have all arrived: each of them sees it (R363, R403). -/
def State.episode (s : State) (p g : Nat) : State :=
  let x := s.group p g
  if x.met then
    x.members.foldl (fun s n => s.modSlot n (·.woken 2)) (s.setGroup p g { x with arrived := [], episode := x.episode + 1 })
  else s

/-- The groups a slot belongs to, as partition and group slot. -/
def State.groupsOf (s : State) (n : Nat) : List (Nat × Nat) :=
  s.parts.flatMap fun kp => (kp.2.groups.filter fun kg => kg.2.members.contains n).map fun kg => (kp.1, kg.1)

/-- A thread leaves a group with its arrival (R362). -/
def State.leaveGroup (s : State) (n p g : Nat) : State :=
  let x := s.group p g
  if x.members.contains n then
    let s := s.modSlot n fun y => { y with gbar := y.gbar.erase (p * 256 + g) }
    (s.setGroup p g { x with members := x.members.filter (· ≠ n), arrived := x.arrived.filter (· ≠ n) }).episode p g
  else s

/-- A thread leaves every group it belongs to (R364). -/
def State.leaveAll (s : State) (n : Nat) : State := (s.groupsOf n).foldl (fun s pg => s.leaveGroup n pg.1 pg.2) s

/-- join's own part (R361). -/
def exeJoin (s : State) (v : W64) (d : BitVec 5) : Exe :=
  if v.toNat ≥ 256 then exeTrap s 0x04 v
  else
    let p := s.threadPart
    let g := s.group p v.toNat
    if g.members.contains s.cur then exePut s d (BitVec.ofNat 64 g.members.length)
    else if (s.groupsOf s.cur).length ≥ s.thr.decl.groups then exeTrap s 0x0D v
    else
      exePut (s.setGroup p v.toNat { g with members := g.members ++ [s.cur] }) d (BitVec.ofNat 64 (g.members.length + 1))

/-- leave's own part (R362). -/
def exeLeave (s : State) (v : W64) : Exe :=
  if v.toNat ≥ 256 then exeTrap s 0x04 v else .done (s.leaveGroup s.cur s.threadPart v.toNat)

/-- gbar's own part (R363): arrival, once, and the wait for the episode to complete. -/
def exeGbar (s : State) (v : W64) : Exe :=
  if v.toNat ≥ 256 then exeTrap s 0x04 v
  else
    let p := s.threadPart
    let g := s.group p v.toNat
    if !g.members.contains s.cur then exeTrap s 0x04 v
    else
      let key := p * 256 + v.toNat
      match s.thr.gbar.get? key with
      | some e =>
        if g.episode = e then .turn s else .done (s.setThr { s.thr with gbar := s.thr.gbar.erase key })
      | none =>
        let s' := s.setGroup p v.toNat { g with arrived := g.arrived.filter (· ≠ s.cur) ++ [s.cur] }
        if (s'.group p v.toNat).met then .done (s'.episode p v.toNat)
        else .turn (s'.setThr { s'.thr with gbar := s'.thr.gbar.set key g.episode })

/-- join (R361). -/
def execJoin (st : BitVec 3) (a b : BitVec 5) (s : State) : Out :=
  runInsn (.join st a b) st (fun s => exeJoin s (s.rs a) b) s

/-- leave (R362). -/
def execLeave (st : BitVec 3) (a : BitVec 5) (s : State) : Out :=
  runInsn (.leave st a) st (fun s => exeLeave s (s.rs a)) s

/-- gbar (R363). -/
def execGbar (st : BitVec 3) (a : BitVec 5) (c : BitVec 3) (s : State) : Out :=
  runInsn (.gbar st a c) st (fun s => exeGbar s (s.rs a)) s

/-! ### launch (R161) -/

/-- launch's own part: the record's own checks, the append, and the position; a staged launch is complete but for its position,
which its register is owed. -/
def exeLaunch (s : State) (r : W64) (d : BitVec 5) : Exe :=
    if r.toNat ≥ 2 ^ 48 then exeTrap s 0x09 r
    else if r.toNat % 128 ≠ 0 then exeTrap s 0x06 r
    else match s.threadLoad r.toNat 8 with
    | .error t => .trap s t
    | .ok (ctl, s) =>
      let p := s.threadPart
      let q := bitsAt ctl.toNat 31 24
      if (s.part p).qte && (s.qctl p q).asid ≠ s.thr.asid then
        exePut (s.modQueue p q fun x => { x with badref := true }) d (BitVec.allOnes 64)
      else match s.append p q (some s.cur) false r with
      | .accepted pos s => exePut s d (BitVec.ofNat 64 pos)
      | .refused s => exePut s d (BitVec.allOnes 64)
      | .full s => exePut s d (BitVec.allOnes 64)
      | .staged s => .done (if d = 0#5 then s
          else s.setThr { s.thr.putS d.toNat (s.rs d) with owed := s.thr.owed ++ [(d.toNat, p * 256 + q, none)] })
      | .wait => .wait s

/-- launch (R161). -/
def execLaunch (st : BitVec 3) (a b : BitVec 5) (s : State) : Out :=
  runInsn (.launch st a b) st (fun s => exeLaunch s (s.rs a) b) s

end Sys2Proof.Machine
end

