-- ==== Sys2Proof/Machine/Copies.lean ====
section
/-! DEFINITION. Copy engines: `copy` and `drain` (R327, R337), descriptors and their checks (R328, R329), pieces (R330 to
R335), completion and replies (R86, R336); copy templates and token firings (R77 to R83). -/

namespace Sys2Proof.Machine

def State.modCopy (s : State) (n : Nat) (f : Copy → Copy) : State :=
  match s.copies.get? n with
  | some c => { s with copies := s.copies.set n (f c) }
  | none => s

/-- Engines of a port die, and messages an inbox holds (R84). -/
def enginesPerDie : Nat := 8
def engineInbox : Nat := 32

/-- Copy messages on their way to a port die's engines or in their inboxes. -/
def State.copiesWaiting (s : State) (pd : Nat) : Nat :=
  (s.copies.filter fun c => c.2.pd == pd && !c.2.accepted && c.2.res.isNone && !c.2.parked).length

/-- Whether a port die's copy engines have room for one more message (R85). -/
def State.copyRoom (s : State) (pd : Nat) : Bool := decide (s.copiesWaiting pd < enginesPerDie * engineInbox)

/-- A copy message sent; one to a port die that is being reset ends with status 0x08 (R411). -/
def State.sendCopy (s : State) (c : Copy) : State :=
  let (id, s) := s.fresh
  let c := if s.dieDown (8 + c.pd) then { c with accepted := true, res := some (8, 0), completed := true } else c
  { s with copies := s.copies.set id c }

/-! ### The instructions (R327, R337) -/

/-- copy's own part (R327). -/
def exeCopy (s : State) (va : W64) (scope : Nat) (acq rel : Bool) (n : Nat) : Exe :=
  let x := s.thr
  let pd := dieOf (courseOf s.cur)
  if va.toNat ≥ 2 ^ 48 then exeTrap s 0x09 va
  else if va.toNat % 64 ≠ 0 then exeTrap s 0x06 va
  else if !s.copyRoom pd then .turn s
  else .done (s.sendCopy
    { slot := some s.cur, job := x.job, ord := x.ordinal, chan := n, asid := x.asid, sup := x.sup, scope := scope,
      acq := acq, rel := rel, pd := pd, desc := va.toNat })

/-- copy (R327). -/
def execCopy (st : BitVec 3) (a : BitVec 5) (c : BitVec 3) (q l : BitVec 1) (n : BitVec 4) (s : State) : Out :=
  runInsn (.copy st a c q l n) st
    (fun s => exeCopy s (s.rs a) c.toNat (q == 1#1) (l == 1#1) n.toNat) s

/-- A thread's copies on a channel, in issue order. -/
def State.channel (s : State) (n chan : Nat) : List (Nat × Copy) :=
  s.copies.filter fun c => c.2.slot == some n && !c.2.orphan && c.2.chan == chan

/-- Word 0 of a reply (R86). -/
def replyWord (status progress : Nat) : W64 := BitVec.ofNat 64 (status % 256 + progress % 2 ^ 48 * 2 ^ 8)

/-- drain's own part (R337). -/
def exeDrain (s : State) (d : BitVec 5) (n : Nat) : Exe :=
  let cs := s.channel s.cur n
  if anyB (fun c => !c.2.replied) cs then .turn s
  else
    let s := s.raise (cs.foldl (fun f c => f ||| c.2.flags) flNone)
    let s := cs.foldl (fun s c => s.modCopy c.1 fun x => { x with flags := 0#7 }) s
    match cs.find? fun c => !c.2.reported && (match c.2.res with | some r => r.1 != 0 | none => false) with
    | some (id, c) =>
      let (st, a) := c.res.getD (0, 0)
      let s := s.modCopy id fun x => { x with reported := true }
      .trap (s.setThr (s.thr.putS d.toNat (replyWord st c.next)))
        { cause := 0x10, tval := BitVec.ofNat 64 (if a ≠ 0 then a else c.desc), rsts := st }
    | none => exePut { s with copies := s.copies.filter fun c => !anyB (fun k => k.1 == c.1) cs } d 0#64

/-- drain (R337). -/
def execDrain (st : BitVec 3) (b : BitVec 5) (c : BitVec 3) (n : BitVec 4) (s : State) : Out :=
  runInsn (.drain st b c n) st (fun s => exeDrain s b n.toNat) s

/-! ### Copy descriptors (R328, R329) -/

def Copy.cctl (c : Copy) : Nat := wordAt c.words 0
def Copy.idxm (c : Copy) : Nat := bitsAt c.cctl 38 37
def Copy.idxSize (c : Copy) : Nat := if bitAt c.cctl 39 then 8 else 4
def Copy.acc (c : Copy) : Nat := bitsAt c.cctl 26 24
def Copy.asat (c : Copy) : Bool := bitAt c.cctl 23
def Copy.csat (c : Copy) : Bool := bitAt c.cctl 19
def Copy.idxa (c : Copy) : Nat := (wordAt c.words 3 + c.xadj) % 2 ^ 64
def Copy.cmod (c : Copy) : Nat := wordAt c.words 6
def Copy.srcd (c : Copy) : Nat := wordAt c.words 1
def Copy.dstd (c : Copy) : Nat := wordAt c.words 2

/-- A list with elements `i` and `j` exchanged. -/
def swapNth {α : Type} (d : α) (l : List α) (i j : Nat) : List α := setNth (setNth l i (nth d l j)) j (nth d l i)

/-- The source view (R330), its base moved by the adjustment (R78). -/
def Copy.view (c : Copy) : Tensor :=
  let t := tensorOf c.src
  let t := { t with base := (t.base + c.sadj) % 2 ^ 64 }
  if bitAt c.cctl 36 then
    let (i, j) := (bitsAt c.cctl 31 28, bitsAt c.cctl 35 32)
    { t with sizes := swapNth 0 t.sizes i j, strides := swapNth 0 t.strides i j }
  else t

/-- The destination tensor, its base moved by the adjustment. -/
def Copy.dest (c : Copy) : Tensor :=
  let t := tensorOf c.dst
  { t with base := (t.base + c.dadj) % 2 ^ 64 }

/-- Values in a q4 super-block. -/
def superCount : Nat := 16384

/-- The values of a side: a q4 element stands for 16,384 (R329). -/
def sideCount (t : Tensor) : Nat := t.count * (if t.fmt = 14 then superCount else 1)

/-- N (R330). -/
def Copy.total (c : Copy) : Nat := if c.idxm = 2 then sideCount c.view else sideCount c.dest

/-- The copy descriptor's own fields broken (R329). -/
def Copy.fieldsBad (c : Copy) : Bool :=
  let w := c.cctl
  bitsAt w 63 40 ≠ 0 || bitAt w 27 || bitsAt w 18 12 ≠ 0 || bitsAt w 6 0 ≠ 0
    || decide (2 ^ 48 ≤ c.srcd) || decide (2 ^ 48 ≤ c.dstd) || decide (2 ^ 48 ≤ wordAt c.words 3)
    || decide (2 ^ 32 ≤ c.cmod) || bitsAt (wordAt c.words 7) 31 13 ≠ 0
    || anyB (fun k => wordAt c.words k ≠ 0) (rangeFrom 8 24)
    || c.idxm = 3 || decide (3 < c.acc) || decide (5 < bitsAt w 22 20) || decide (4 < bitsAt w 11 9)
    || (bitsAt w 11 9 ≠ 0 && !bitAt w 8 && !bitAt w 7)
    || (if c.idxm = 0 then wordAt c.words 3 ≠ 0 else c.idxa % c.idxSize ≠ 0)

/-- The rules that join the copy descriptor with its tensors broken (R329). -/
def Copy.pairBad (c : Copy) : Bool :=
  let (s, d) := (tensorOf c.src, tensorOf c.dst)
  let (i, j) := (bitsAt c.cctl 31 28, bitsAt c.cctl 35 32)
  let q4 := s.fmt = 14 || d.fmt = 14
  (if bitAt c.cctl 36 then i = j || decide (s.ndim ≤ i) || decide (s.ndim ≤ j) else i ≠ 0 || j ≠ 0)
    || (c.idxm = 0 && sideCount s ≠ sideCount d)
    || (match kindOf s.fmt, kindOf d.fmt with
        | some .q4, some .q4 => true
        | some .q4, some k => !cvtOffered (.fp .f32) k
        | some k, some .q4 => k ≠ .fp .f32
        | some k, some l => !cvtOffered k l
          || (l = .mod && k ≠ .mod && (c.cmod % 2 = 0 || decide (c.cmod < 3) || decide (2 ^ 31 - 1 < c.cmod)))
        | _, _ => true)
    || (c.acc ≠ 0 && d.fmt ≠ 0 && d.fmt ≠ 7) || (c.asat && (d.fmt ≠ 7 || c.acc ≠ 1))
    || (q4 && (bitAt c.cctl 36 || c.idxm ≠ 0 || c.acc ≠ 0))

/-- The access context of a copy's engine. -/
def Copy.ctx (c : Copy) : EngCtx := ⟨holdEngine c.pd (c.eng.getD 0 % 8), c.asid, c.sup⟩

/-- Whether the adjusted addresses of a firing are non-canonical (R78). -/
def Copy.strayed (c : Copy) : Bool :=
  decide (2 ^ 48 ≤ c.view.base) || decide (2 ^ 48 ≤ c.dest.base) || (c.idxm ≠ 0 && decide (2 ^ 48 ≤ c.idxa))

/-- What the engine finds in the descriptors: the copy with them read, or the status and address it ends with (R34, R327). -/
def State.readCopy (s : State) (c : Copy) : Except (Nat × Nat) Copy :=
  if s.dieDown (8 + c.pd) then .error (8, 0)
  else if !s.dieAdmits c.pd c.asid then .error (0x0B, dieEntrance)
  else match s.engWords c.ctx c.desc 32 with
  | .error e => .error (e.status, e.addr)
  | .ok ws =>
    let c := { c with words := ws }
    if c.desc % 64 ≠ 0 || c.fieldsBad then .error (2, c.desc)
    else if c.srcd % 64 ≠ 0 then .error (2, c.srcd)
    else match s.engWords c.ctx c.srcd 16 with
    | .error e => .error (e.status, e.addr)
    | .ok src =>
      if tensorBad c.srcd src then .error (2, c.srcd)
      else if c.dstd % 64 ≠ 0 then .error (2, c.dstd)
      else match s.engWords c.ctx c.dstd 16 with
      | .error e => .error (e.status, e.addr)
      | .ok dst =>
        if tensorBad c.dstd dst then .error (2, c.dstd)
        else
          let c := { c with src := src, dst := dst }
          if c.pairBad then .error (2, c.desc)
          else if c.strayed then .error (1, 0)
          else if c.view.base % c.view.align ≠ 0 then .error (2, c.srcd)
          else if c.dest.base % c.dest.align ≠ 0 then .error (2, c.dstd)
          else .ok c

/-- A copy ended with a status and address. -/
def State.endCopy (s : State) (id status a : Nat) : State :=
  let s := match s.copies.get? id with
    | some c => if status ≠ 0x0B then s else s.countRefusal c.ctx a
    | none => s
  s.modCopy id fun c => { c with accepted := true, res := some (status, a % dieEntrance) }

/-- ENGINE_MESSAGE_ACCEPT's part for copies (R85): an engine's inbox takes the message while it has a free place; messages
of one sender to one inbox are taken in issue order. -/
def State.copyInbox (s : State) (n e : Nat) : State :=
  match s.copies.get? n with
  | none => s
  | some c =>
    let mine := s.copies.filter fun k => k.2.eng == some e
    let full := decide (engineInbox ≤ (mine.filter fun k => !k.2.accepted).length)
    let passed := anyB (fun k => decide (n < k.1) && k.2.slot == c.slot && k.2.firing.isSome == c.firing.isSome) mine
    if c.eng.isSome || c.accepted || c.parked || e / 8 ≠ c.pd || full || passed then s
    else s.modCopy n fun c => { c with eng := some e }

/-- COPY_ACCEPT (R327): an engine takes the oldest message of its inbox and reads the descriptors. -/
def execCopyAccept (e : Nat) (s : State) : Out :=
  .next (match s.copies.find? fun k => k.2.eng == some e && !k.2.accepted && !k.2.parked with
    | none => s
    | some (id, c) => match s.readCopy c with
      | .error (st, a) => s.endCopy id st a
      | .ok c => s.modCopy id fun _ => { c with accepted := true })

/-! ### Pieces (R330 to R334) -/

/-- The leaf and window an access lies in: level and number of the leaf, and the window's base; none where it does not
translate (R334). -/
def State.leafKey (s : State) (e : EngCtx) (k : AKind) (va : Nat) : Option (Nat × Nat × Nat) :=
  match s.translate e.holder e.asid e.sup k va with
  | .fault _ => none
  | .ok pa _ => match s.leafFor e.holder e.asid va with
    | some (pte, lvl) =>
      let n := leafSize pte.toNat lvl
      some (n, va / n, (s.windowOf pa).1)
    | none => none

/-- What one index of a piece comes to: skipped (its index out of range), or a write: address, value before accumulation,
flags. -/
inductive CopyElem where
  | skip
  | write (va v : Nat) (fl : Flags)

/-- The keys of an index's accesses: index entry, source, destination; none for an access it does not make. -/
abbrev PieceKey := Option (Option (Nat × Nat × Nat)) × Option (Option (Nat × Nat × Nat)) × Option (Option (Nat × Nat × Nat))

/-- Whether an access begins another piece than the one before it. -/
def keyBreaks (p q : Option (Option (Nat × Nat × Nat))) : Bool :=
  match p, q with
  | some a, some b => a != b
  | _, _ => false

/-- The later of two keys. -/
def keyNext (p q : Option (Option (Nat × Nat × Nat))) : Option (Option (Nat × Nat × Nat)) :=
  match q with | some a => some a | none => p

/-- The kind of a destination access. -/
def Copy.dkind (c : Copy) : AKind := if c.acc = 0 then .store else .atomic

/-- The entry of the index list for index `n`. -/
def State.copyIndex (s : State) (c : Copy) (n : Nat) : Except EngErr Nat :=
  s.engRead c.ctx ((c.idxa + n * c.idxSize) % 2 ^ 64) c.idxSize

/-- The element indices of index `n` on both sides, none where the indexed side has no such element (R330). -/
def Copy.sides (c : Copy) (n i : Nat) : Option (Nat × Nat) :=
  if c.idxm = 0 then some (n, n)
  else if c.idxm = 1 then (if i < sideCount c.view then some (i, n) else none)
  else if i < sideCount c.dest then some (n, i) else none

/-- The source address of an element of a side; a q4 side by super-blocks. -/
def sideAddr (t : Tensor) (i : Nat) : Nat := t.addr (if t.fmt = 14 then i / superCount else i)

/-- The keys of index `n`. -/
def State.pieceKey (s : State) (c : Copy) (n : Nat) : PieceKey :=
  let ik := if c.idxm = 0 then none else some (s.leafKey c.ctx .load ((c.idxa + n * c.idxSize) % 2 ^ 64))
  let i := if c.idxm = 0 then some 0 else (match s.copyIndex c n with | .ok v => some v | .error _ => none)
  match i.bind (c.sides n) with
  | none => (ik, none, none)
  | some (a, b) =>
    (ik, if c.view.fmt = 14 then none else some (s.leafKey c.ctx .load (sideAddr c.view a)),
     some (s.leafKey c.ctx c.dkind (sideAddr c.dest b)))

/-- The first index past the piece that begins at `n`: at most `fuel` further indices; `k` are the keys so far (R334). -/
def State.pieceEnd (s : State) (c : Copy) (k : PieceKey) (n : Nat) : Nat → Nat
  | 0 => n
  | fuel + 1 =>
    if n ≥ c.total then n
    else if c.view.fmt = 14 && n % superCount = 0 then n
    else
      let q := s.pieceKey c n
      if keyBreaks k.1 q.1 || keyBreaks k.2.1 q.2.1 || keyBreaks k.2.2 q.2.2 then n
      else s.pieceEnd c (keyNext k.1 q.1, keyNext k.2.1 q.2.1, keyNext k.2.2 q.2.2) (n + 1) fuel

/-- `n` bytes read by an engine one at a time, so that they may run over pages. -/
def State.engBytes (s : State) (e : EngCtx) (va : Nat) : Nat → Except EngErr (List Byte)
  | 0 => .ok []
  | n + 1 => match s.engRead e va 1 with
    | .error x => .error x
    | .ok b => match s.engBytes e ((va + 1) % 2 ^ 64) n with
      | .error x => .error x
      | .ok bs => .ok (BitVec.ofNat 8 b :: bs)

/-- Value `i` of a super-block at an address (R50, R51). -/
def State.copyQ4 (s : State) (c : Copy) (va i : Nat) : Except EngErr (Nat × Flags) :=
  match s.engBytes c.ctx va 8704 with
  | .error e => .error e
  | .ok bs =>
    let by' := fun (k : Nat) => (nth 0#8 bs k).toNat
    let code := bitsAt (by' (i / 2)) (4 * (i % 2) + 3) (4 * (i % 2))
    .ok (q4Deq code (by' (8192 + i / 64)) (ofBytesLE ((bs.drop 8448).take 4)))

/-- A value converted as the copy says (R331); a residue source is an unsigned integer (R59). -/
def Copy.conv (c : Copy) (sf df : Kind) (n v : Nat) : Nat × Flags :=
  if sf = df then (v, flNone)
  else
    let rm := (Rm.ofCode (bitsAt c.cctl 22 20)).getD .rne
    let sf := if sf = .mod then .int false 32 else sf
    convert sf df rm (srBits (nth 0#64 c.words 4) (nth 0#64 c.words 5 + BitVec.ofNat 64 n)) c.csat c.cmod v

/-- The value of index `n` read and converted (R330, R331). A gather or scatter reads its index list also where its indexed side is
empty, which R30's command that performs no access does not settle (the model's choice, log 30). -/
def State.copyElem (s : State) (c : Copy) (n : Nat) : Except EngErr CopyElem :=
  let i : Except EngErr Nat := if c.idxm = 0 then .ok 0 else s.copyIndex c n
  match i with
  | .error e => .error e
  | .ok i => match c.sides n i with
    | none => .ok .skip
    | some (a, b) =>
      let da := sideAddr c.dest b
      let df := (kindOf c.dest.fmt).getD .q4
      let place := s.engPlace c.ctx c.dkind da (elemSize c.dest.fmt)
      let v : Except EngErr (Nat × Flags) :=
        if c.view.fmt = 14 then
          (match s.copyQ4 c (sideAddr c.view a) (a % superCount) with
           | .error e => .error e
           | .ok (v, f) => let (v', f') := c.conv (.fp .f32) df n v; .ok (v', f ||| f'))
        else
          (match s.engRead c.ctx (sideAddr c.view a) (elemSize c.view.fmt) with
           | .error e => .error e
           | .ok v => .ok (c.conv ((kindOf c.view.fmt).getD .q4) df n v))
      match v with
      | .error e => .error e
      | .ok (v, f) => match place with
        | .error e => .error e
        | .ok (pl, pa) =>
          -- a delivery that accumulates reads its destination (R302, R333)
          let old : Except EngErr Nat := if c.acc = 0 then .ok 0 else s.engRead c.ctx da (elemSize c.dest.fmt)
          if c.acc ≠ 0 && !s.takesAtomics pa then .error ⟨4, da⟩
          else if (match old with | .ok _ => false | .error _ => true) then
            .error (match old with | .ok _ => ⟨5, da⟩ | .error e => e)
          else if (match pl with | .ram _ => false | _ => (s.devWrite (some c.asid) pl (BitVec.ofNat 64 v) (elemSize c.dest.fmt)).isNone)
          then .error ⟨4, da⟩
          else .ok (.write da v f)

/-- The indices of a piece checked and read, from `n` on. -/
def State.copyElems (s : State) (c : Copy) (n : Nat) : Nat → Except EngErr (List CopyElem)
  | 0 => .ok []
  | k + 1 => match s.copyElem c n with
    | .error e => .error e
    | .ok x => match s.copyElems c (n + 1) k with
      | .error e => .error e
      | .ok r => .ok (x :: r)

/-- A delivery's new value (R333). -/
def Copy.combine (c : Copy) (old v : Nat) : Nat × Flags :=
  match c.acc with
  | 0 => (v, flNone)
  | 1 => if c.dest.fmt = 0 then fpAdd .f32 .rne 0 old v
         else if c.asat then clampInt true 32 flSAT (sintOf 32 old + sintOf 32 v) else ((old + v) % 2 ^ 32, flNone)
  | k =>
    if c.dest.fmt = 0 then fpMinMax .f32 (k == 2) old v
    else (if (sintOf 32 old ≤ sintOf 32 v) = (k = 2) then v else old, flNone)

/-- The writes of a piece in ascending order, with the flags (R333, R334). -/
def State.copyDeliver (s : State) (c : Copy) : List CopyElem → State × Flags
  | [] => (s, flNone)
  | .skip :: r => let (s, f) := s.copyDeliver c r; (s, f ||| flNV)
  | .write va v fl :: r =>
    let n := elemSize c.dest.fmt
    let old := if c.acc = 0 then 0 else (match s.engRead c.ctx va n with | .ok o => o | .error _ => 0)
    let (w, f) := c.combine old v
    let s := match s.engWrite c.ctx va w n with | .ok t => t | .error _ => s
    let (s, g) := s.copyDeliver c r
    (s, fl ||| f ||| g)

/-- A super-block of a q4 destination: its 16,384 values read. -/
def State.superValues (s : State) (c : Copy) (n : Nat) : Nat → Except EngErr (List Nat)
  | 0 => .ok []
  | k + 1 => match s.engRead c.ctx (c.view.addr n) 4 with
    | .error e => .error e
    | .ok v => match s.superValues c (n + 1) k with
      | .error e => .error e
      | .ok r => .ok (v :: r)

/-- Bytes written by an engine one at a time, or the first failure; nothing of them counts where one fails. -/
def State.engPutBytes (s : State) (e : EngCtx) (va : Nat) : List Byte → Except EngErr State
  | [] => .ok s
  | b :: r => match s.engWrite e va b.toNat 1 with
    | .error x => .error x
    | .ok t => t.engPutBytes e ((va + 1) % 2 ^ 64) r

/-- The beats of 64 bytes that `n` elements of a copy's destination make; a super-block is 8,704 bytes (R94, log 43). -/
def Copy.beats (c : Copy) (n : Nat) : Nat := if c.dest.fmt = 14 then 136 else (n * elemSize c.dest.fmt + 63) / 64

/-- A super-block of a q4 destination quantised and written as one unit (R331). -/
def State.superPiece (s : State) (id : Nat) (c : Copy) : State :=
  match s.superValues c c.next superCount with
  | .error e => s.endCopy id e.status e.addr
  | .ok vs =>
    let (bs, f) := q4Quant vs
    match s.engPutBytes c.ctx (sideAddr c.dest c.next) bs with
    | .error e => s.endCopy id e.status e.addr
    | .ok t => (t.modCopy id fun c => { c with next := c.next + superCount, flags := c.flags ||| f }).countBeats c.pd c.asid
        (c.beats superCount)

/-- COPY_PIECE (R334): one piece translated, checked and read in full, then written in ascending order; a failure ends the
copy at the piece's first index. -/
def execCopyPiece (id : Nat) (s : State) : Out :=
  .next (match s.copies.get? id with
    | none => s
    | some c =>
      if !c.accepted || c.res.isSome || c.parked || c.next ≥ c.total || s.parkedCopy id || !s.beatFits c.pd c.asid then s
      else if s.dieDown (8 + c.pd) then s.endCopy id 8 0
      else if !s.dieAdmits c.pd c.asid then s.endCopy id 0x0B dieEntrance
      else if c.dest.fmt = 14 then s.superPiece id c
      else
        let hi := s.pieceEnd c (s.pieceKey c c.next) (c.next + 1) 255
        match s.copyElems c c.next (hi - c.next) with
        | .error e => s.endCopy id e.status e.addr
        | .ok es =>
          let (t, f) := s.copyDeliver c es
          (t.modCopy id fun c => { c with next := hi, flags := c.flags ||| f }).countBeats c.pd c.asid (c.beats (hi - c.next)))

/-- COPY_COMPLETE (R336): every write performed, the reply and the completion token of a normal end are sent. -/
def execCopyComplete (id : Nat) (s : State) : Out :=
  .next (match s.copies.get? id with
    | none => s
    | some c =>
      if !c.accepted || c.completed || c.parked || s.parkedCopy id || (c.res.isNone && c.next < c.total) then s
      else
        let (st, a) := c.res.getD (0, 0)
        let s := s.modCopy id fun c => { c with res := some (st, a), completed := true }
        let w := wordAt c.words 7
        match s.partOfAsid c.asid with
        | some p =>
          if st = 0 && bitAt w 12 then s.sendToken p (bitsAt w 11 0) (BitVec.ofNat 32 (bitsAt w 63 32)) (some (8 + c.pd)) else s
        | none => s)

/-- A reply that no thread and no walker takes (R86): of kind 2, a done one sends its token and another sets RERR; a failure of
it, or of a message of kind 0, counts as an engine error. No instruction sends such a message (R249, R327, R372). -/
def State.freeReply (s : State) (c : Copy) (st : Nat) : State :=
  match s.partOfAsid c.asid, c.rtok with
  | some p, some (t, v) =>
    if st = 0 then s.sendToken p t v (some (8 + c.pd)) else (s.modTokq p t fun x => { x with rerr := true }).bumpPeerr p
  | some p, none => if st = 0 then s else s.bumpPeerr p
  | none, _ => s.countUnowned

/-- REPLY's part for copies (R86): the reply reaches the thread's channel, the walker, a token queue, or a thread that has
ended. -/
def State.copyReply (s : State) (id : Nat) (c : Copy) : State :=
  if !c.completed || c.replied then s
  else
    let st := (c.res.getD (0, 0)).1
    match c.firing with
    | some f =>
      { s with
        copies := s.copies.erase id
        firings := (match s.firings.get? f with
          | some x => s.firings.set f { x with result := some st }
          | none => s.firings) }
    | none =>
      if c.slot.isNone && !c.orphan then { s with copies := s.copies.erase id }.freeReply c st
      else if c.orphan then
        let s := { s with copies := s.copies.erase id }
        if st ≠ 0 then s.lateError c.job c.ord 0x10 else s
      else
        let s := s.modCopy id fun c => { c with replied := true }
        match c.slot with | some n => s.modSlot n (·.woken 2) | none => s

/-! ### Templates (R77, R78) -/

/-- The lowest malformed word of the words read of a copy template (R77). -/
def tmplMalformed (ws : List W64) : Option Nat :=
  let n := ws.length
  if n = 0 then none
  else if recKind ws ≠ 2 || recNest ws ≠ 0 || bitsAt (recW ws 0) 13 11 ≠ 0 || recSuccn ws > 8 || bitsAt (recW ws 0) 46 36 ≠ 0
      || bitsAt (recW ws 0) 23 17 ≠ 0 || (recSuccxe ws && recSuccn ws ≠ 8) then some 0
  else if bitsAt (recW ws 1) 31 30 ≠ 0 || bitsAt (recW ws 1) 17 0 ≠ 0 then some 1
  else if recW ws 2 ≥ 2 ^ 48 || recW ws 2 % 64 ≠ 0 then some 2
  else if bitsAt (recW ws 6) 63 3 ≠ 0 then some 6
  else if decide (7 < n) && badSuccx ws then some 7
  else badSucc ws

/-- A firing's end recorded. -/
def State.fired (s : State) (f : Nat) (g : Firing → Firing) : State :=
  match s.firings.get? f with
  | some x => { s with firings := s.firings.set f (g x) }
  | none => s

/-- A firing issued by the walker: a token firing takes its token from its queue, and the next pending one may fire (R82). -/
def State.issueFiring (s : State) (f : Nat) (x : Firing) (g : Firing → Firing) : State :=
  let s := s.fired f fun y => { g y with sent := true }
  match x.tq with
  | some t => (s.modTokq x.p t fun q => { q with toks := q.toks.drop 1 }).fireTokq x.p t
  | none => s

/-- TEMPLATE_FIRE (R78): the walker reads the template, all but its USER word (R14), and sends the copy message, its addresses
adjusted by the payload. -/
def execTemplateFire (f : Nat) (s : State) : Out :=
  .next (match s.firings.get? f with
    | none => s
    | some x =>
      if x.sent then s
      else
        let (ws, bad) := s.recordWords holdWalker x.asid x.ref.toNat
        if bad.isSome || (tmplMalformed ws).isSome then s.issueFiring f x fun x => { x with words := ws, result := some 1 }
        else if x.tq.isNone && recTaint ws && !recRunerr ws then
          s.issueFiring f x fun x => { x with words := ws, result := some 0 }
        else
          let pd := bitsAt (recW ws 6) 2 0
          if !s.copyRoom pd then s
          else
            let adj := fun (k : Nat) => x.payload * recW ws k % 2 ^ 64
            (s.sendCopy
              { slot := none, firing := some f, asid := (s.qctl x.p (recQnum ws)).asid, sup := false, pd := pd,
                desc := recW ws 2, sadj := adj 3, dadj := adj 4, xadj := adj 5 }).issueFiring f x
                fun x => { x with words := ws })

/-- The status a graph firing writes (R22, R78). EWORD of status 0x03 is the template's lowest malformed word; where none of the words
read is malformed it is the model's choice (log 31): the word that could not be read, as of a job record (R23), or 0xFF where an
adjusted address is non-canonical. -/
def Firing.status (x : Firing) : W64 :=
  match x.result with
  | some 1 => statusWord 3 0 ((tmplMalformed x.words).getD (if x.words.length < 15 then x.words.length else 0xFF)) 0
  | r =>
    if recTaint x.words && !recRunerr x.words then statusWord 4 0 0xFF 0
    else if r = some 0 then statusWord 1 0 0xFF 0
    else statusWord 2 0x10 0xFF 0

/-- A node's STATUS word written; where it cannot be, a graph error is counted (log 17). -/
def State.putStatus (s : State) (p asid ref : Nat) (v : W64) : State :=
  match s.vwrite holdWalker asid true ((ref + 0x40) % 2 ^ 64) v.toNat 8 with
  | .ok t => t
  | .error _ => s.bumpPgerr p

/-- TEMPLATE_GRAPH_COMPLETE (R78): STATUS, the release, the successors and the token, in this order. -/
def execTemplateGraphComplete (f : Nat) (s : State) : Out :=
  .next (match s.firings.get? f with
    | none => s
    | some x =>
      if x.tq.isSome || x.result.isNone then s
      else
        let st := x.status
        let s := { s with firings := s.firings.erase f }
        let s := s.putStatus x.p x.asid x.ref.toNat st
        let s := s.decSuccessors x.p x.asid x.words (st.toNat % 256 ≠ 1)
        if recCte x.words && st.toNat % 256 ≠ 4 then
          s.sendToken x.p (recCtq x.words) (BitVec.ofNat 32 (recCtpay x.words))
        else s)

/-- TOKEN_FIRING_COMPLETE (R82): a normal end sends its token; a failure disarms its queue and is recorded, or, where the queue
has been disarmed since the firing was issued, is counted. -/
def execTokenFiringComplete (f : Nat) (s : State) : Out :=
  .next (match s.firings.get? f with
    | none => s
    | some x => match x.tq, x.result with
      | some t, some r =>
        let s := { s with firings := s.firings.erase f }
        if r = 0 then
          (if recCte x.words then s.sendToken x.p (recCtq x.words) (BitVec.ofNat 32 (recCtpay x.words + x.payload)) else s)
        else
          let q := s.tokq x.p t
          if q.armed && q.gen == x.gen then
            (s.unfire x.p t).setTokq x.p t { q.disarm with err := true, epay := x.payload, erst := r }
          else s.bumpPeerr x.p
      | _, _ => s)

/-- TOKEN_ARRIVAL (R81 to R83): a held token enters its queue while there is room, and fires the template where one is
armed. -/
def execTokenArrival (p t : Nat) (s : State) : Out :=
  let q := s.tokq p t
  .next (match q.held with
    | [] => s
    | v :: r =>
      if q.toks.length ≥ tokqDepth then s
      else
        let s := s.setTokq p t { q with held := r, toks := q.toks ++ [v.1] }
        (if q.armed then s.awake else s).fireTokq p t)

end Sys2Proof.Machine
end

