-- ==== Sys2Proof/Machine/Factor.lean ====
section
/-! DEFINITION. The Factor Engine (R259 to R286): frames and passes (R267, R268), weights and their buffers (R270 to R272),
block and row-gather mode (R274 to R276), transforms (R277 to R279), the modular range check (R280). -/

namespace Sys2Proof.Machine

/-! ### Accumulator memory (R269) -/

/-- The physical address of a line. -/
def accAddr (c line : Nat) : Nat := windowBase + c * 0x1000000 + 0x200000 + line % 8192 * 64

def State.readLine (s : State) (c line : Nat) : BitVec 512 := BitVec.ofNat 512 (s.readPhys (accAddr c line) 64)
def State.writeLine (s : State) (c line : Nat) (v : BitVec 512) : State := s.writePhys (accAddr c line) v.toNat 64
/-- Word `w` counted from a line on. -/
def State.accWord (s : State) (c line w : Nat) : Nat := s.readPhys (accAddr c (line + w / 16) + w % 16 * 4) 4

/-- Lines written one after another. -/
def State.writeLines (s : State) (c line : Nat) : List (BitVec 512) → State
  | [] => s
  | v :: r => (s.writeLine c line v).writeLines c (line + 1) r

/-! ### Frames (R267) -/

/-- The points of a transform. -/
def feN (f : List W64) : Nat := 2 ^ feLogn f

/-- The points of a transform frame. -/
def fePoints (f : List W64) : Nat :=
  match feTfmt f with
  | 0 => max (feN f) 64
  | 1 => max (feN f) 64
  | 2 => max (feN f) 8
  | _ => max (feN f) 16

/-- The tokens of a frame. -/
def feTokens (f : List W64) : Nat :=
  if feMode f ≠ 3 then 8
  else match feTfmt f with
  | 0 => 5 * (fePoints f / 64)
  | 1 => 3 * (fePoints f / 64)
  | 2 => fePoints f / 8
  | _ => fePoints f / 16

/-- A lane as a frame reads it: invalid lanes are zero. -/
def Tok.lane0 (t : Tok) (j : Nat) : Nat := if t.vm.getLsbD j then laneOf t.lanes j else 0

/-- Lane `e` counted over the tokens of a frame. -/
def frameLane (ts : List Tok) (e : Nat) : Nat := (nth {} ts (e / 16)).lane0 (e % 16)

/-- The floating-point format of a code. -/
def feFmt (code : Nat) : Fmt := match kindOf code with | some (.fp f) => f | _ => .f32

/-- 32-bit words in tokens of 16. -/
def packWords (ws : List Nat) : List (BitVec 512) := (piecesOf 16 ws ((ws.length + 15) / 16)).map payload

/-- What a frame comes to: payloads for port C and for accumulator memory, flags, the largest input residue. -/
structure FrameOut where
  port : List (BitVec 512)
  lines : List (BitVec 512)
  flags : Flags
  maxIn : Nat := 0
  deriving DecidableEq, Repr

/-! ### Weights (R270) -/

/-- The weight operand of a step as a tensor. -/
def feTensor (f : List W64) (step : Nat) : Tensor :=
  let act := (rangeFrom 0 4).filter fun d => allB (fun i => feSz f i ≠ 0) (rangeFrom 0 (d + 1))
  { fmt := feWfmt f, grp := 0, layout := 0, ndim := act.length,
    base := natOfInt 64 ((feWbase f : Int) + (step : Int) * feWstep f),
    sizes := act.map (feSz f), strides := act.map (feStr f) }

/-- Weight element `k` of a step as the cells take it: in WFMT, or E4M3 from a Q4N super-block. -/
def State.weightElem (s : State) (e : EngCtx) (f : List W64) (step k : Nat) : Except EngErr Nat :=
  let t := feTensor f step
  if feWfmt f = 14 then
    let sb := t.base + k / 16384 * 8704
    let i := k % 16384
    match s.engRead e ((sb + i / 2) % 2 ^ 64) 1, s.engRead e ((sb + 8192 + i / 64) % 2 ^ 64) 1,
        s.engRead e ((sb + 8448) % 2 ^ 64) 4 with
    | .ok b, .ok c, .ok sup =>
      let v := (q4Deq (bitsAt b (4 * (i % 2) + 3) (4 * (i % 2))) c sup).1
      .ok (cvtToFp .e4 .rne 0 true (Fmt.f32.value v)).1
    | .error x, _, _ => .error x
    | _, .error x, _ => .error x
    | _, _, .error x => .error x
  else s.engRead e (t.addr k) (elemSize (feWfmt f))

/-- The elements of a row from index `k` on. -/
def State.weightRow (s : State) (e : EngCtx) (f : List W64) (step k : Nat) : Nat → Except EngErr (List Nat)
  | 0 => .ok []
  | n + 1 => match s.weightElem e f step k with
    | .error x => .error x
    | .ok v => match s.weightRow e f step (k + 1) n with
      | .error x => .error x
      | .ok r => .ok (v :: r)

/-- A row's elements as a buffer holds them, 32 bits each, and one of them. -/
def packRow (ls : List Nat) : BitVec 4096 := BitVec.ofNat 4096 (ofWords32 (ls.map (BitVec.ofNat 32)))
def rowElem (r : BitVec 4096) (j : Nat) : Nat := (r.extractLsb' (32 * j) 32).toNat

/-- Rows of a weight block. -/
def feRows : Nat := 128

/-- The buffer the current pass uses (R271). -/
def Fe.bufNo (x : Fe) : Nat :=
  match feWmode x.words with
  | 0 => 0
  | 1 => x.wsn % 2
  | _ => paWb (fePass x.words x.pass)

/-- The rows a buffer is to hold: the block's, or one for each gathered entry. -/
def Fe.rowsDue (x : Fe) : Nat := if feMode x.words = 2 then x.gathered.length else feRows

/-- The access context of a run's load pipes. -/
def State.pipeCtx (s : State) (c : Nat) (x : Fe) : EngCtx :=
  match x.run.bind fun r => s.runs.get? r with
  | some r => ⟨holdPipe c, r.asid, r.sup⟩
  | none => ⟨holdPipe c, 0, false⟩

/-- Whether an engine works: its run goes on and is not frozen, its plane takes part, it has not ended. -/
def State.feActs (s : State) (c : Nat) : Bool :=
  let x := s.fe c
  s.runLive x.run && !s.runFrozen x.run && !x.ended && fePcls x.words ≠ 0
    && (s.course c).power == .active

/-- WEIGHT_ROW_LOAD (R271, R276): the next row of a buffer; a fault is held until the row is needed (R272). -/
def execWeightRowLoad (c buf : Nat) (s : State) : Out :=
  let x := s.fe c
  let f := x.words
  let b := x.bufs.getD {} buf
  .next (
    if !s.feActs c || feMode f = 0 || feMode f = 3 || !b.loading || b.fault.isSome || x.rowsDue ≤ b.next
        || (feMode f = 2 && buf ≠ x.bufNo) then s
    else
      let put := fun (row : Option (BitVec 4096)) =>
        s.modFe c fun y =>
          { y with
            bufs := y.bufs.set buf { b with next := b.next + 1, rows := match row with | some r => b.rows.set b.next r | none => b.rows }
            rowp := if buf = x.bufNo then max y.rowp (b.next + 1) else y.rowp }
      let go := fun (k n : Nat) =>
        match s.weightRow (s.pipeCtx c x) f b.step k n with
        | .ok ls => put (some (packRow ls))
        | .error e => s.modFe c fun y => { y with bufs := y.bufs.set buf { b with fault := some (e.status, e.addr) } }
      if feMode f = 2 then
        let r := (nth (0, 0) x.gathered b.next).1
        if feSz f 1 ≤ r then put none else go (r * 128) 128
      else go (b.next * feRowLen f) (feRowLen f))

/-- WEIGHT_STEP_SWAP (R271): after WFR frames the buffers swap, and the step after next is fetched into the one left. -/
def execWeightStepSwap (c : Nat) (s : State) : Out :=
  let x := s.fe c
  .next (
    if !s.feActs c || feWmode x.words ≠ 1 || feMode x.words = 3 || x.stepFrames < feWfr x.words then s
    else s.modFe c fun y =>
      { y with
        wsn := y.wsn + 1
        stepFrames := 0
        rowp := (y.bufs.getD {} ((y.wsn + 1) % 2)).next
        bufs := y.bufs.set (y.wsn % 2) { loading := true, step := y.wsn + 2 } })

/-! ### Block and row-gather sums (R274 to R276) -/

/-- The exact product of a weight and an activation (R63). -/
def feProd (f : List W64) (w x : Nat) : Fv × Flags :=
  blockProd ((if feWfmt f = 14 then Fmt.e4 else feFmt (feWfmt f)).value w) ((feFmt (feAfmt f)).value x)

/-- An FP32 result converted to OFMT for port C (R275). -/
def feConvert (f : List W64) (frame o v : Nat) : Nat × Flags :=
  let r := srBits (feSkey f) (feScnt f + BitVec.ofNat 64 (frame * 128 + o))
  cvtToFp (feFmt (feOfmt f)) ((Rm.ofCode (feRnd f)).getD .rne) r (feOsat f) (Fmt.f32.value v)

/-- The 128 results of a frame made tokens and lines; the conversion to OFMT takes place for port C alone (R275). -/
def feResults (f : List W64) (p frame : Nat) (ys : List (Nat × Flags)) : FrameOut :=
  let fl := ys.foldl (fun a y => a ||| y.2) flNone
  let vs := ys.map (·.1)
  if (feMode f = 1 ∧ feAfmt f = 13) ∨ !paOc p then { port := packWords vs, lines := packWords vs, flags := fl }
  else
    let cs := (rangeFrom 0 vs.length).map fun o => feConvert f frame o (nth 0 vs o)
    { port := packWords (cs.map (·.1)), lines := packWords vs, flags := cs.foldl (fun a y => a ||| y.2) fl }

/-- The accumulator input of output `o` of a frame. -/
def State.accIn (s : State) (c : Nat) (p frame o : Nat) : Nat :=
  if paAcc p then s.accWord c (paOline p + frame * 8) o else 0

/-- A block-mode output (R274). -/
def State.blockOut (s : State) (c : Nat) (f : List W64) (p frame : Nat) (rows : Map (BitVec 4096)) (ts : List Tok) (o : Nat) :
    Nat × Flags :=
  let wd := feRowLen f
  let row := rows.getD 0#4096 o
  let b := o / wd
  let acc := s.accIn c p frame o
  let xs := (rangeFrom 0 wd).map fun j => (rowElem row j, frameLane ts (b * wd + j))
  if feAfmt f = 13 then
    let q := feQ f
    xs.foldl (fun a wx =>
      let (m, f1) := modMul q wx.1 wx.2
      let (t, f2) := modAdd q a.1 m
      (t, a.2 ||| f1 ||| f2)) (modRed q acc)
  else
    let act := 2 ^ (feFmt (feAfmt f)).width
    blockSum (piecesOf 16 (xs.map fun wx => feProd f wx.1 (wx.2 % act)) (wd / 16)) acc

/-- A block-mode frame. -/
def State.blockFrame (s : State) (c : Nat) (f : List W64) (p frame : Nat) (rows : Map (BitVec 4096)) (ts : List Tok) : FrameOut :=
  feResults f p frame ((rangeFrom 0 128).map (s.blockOut c f p frame rows ts))

/-- A row-gather frame (R276). -/
def State.gatherFrame (s : State) (c : Nat) (f : List W64) (p frame : Nat) (rows : Map (BitVec 4096)) (es : List (Nat × Nat)) :
    FrameOut :=
  let inRange' := fun (t : Nat) => decide ((nth (0, 0) es t).1 < feSz f 1)
  let left := (rangeFrom 0 es.length).filter inRange'
  let nv := if left.length = es.length then flNone else flNV
  let act := 2 ^ (feFmt (feAfmt f)).width
  let out := fun (j : Nat) =>
    let ps := left.map fun t => feProd f (rowElem (rows.getD 0#4096 t) j) ((nth (0, 0) es t).2 % act)
    blockSum (piecesOf 16 ps ((ps.length + 15) / 16)) (s.accIn c p frame j)
  let r := feResults f p frame ((rangeFrom 0 128).map out)
  { r with flags := r.flags ||| nv }

/-! ### Transforms (R277 to R279) -/

/-- A twiddle table word (R277). -/
def State.twWord (s : State) (c : Nat) (f : List W64) (m : Nat) : Nat := s.accWord c (feTwline f) m

/-- The bit reversal of `t` in `n` bits. -/
def revBits (t : Nat) : Nat → Nat
  | 0 => 0
  | n + 1 => b2n (t.testBit 0) * 2 ^ n + revBits (t / 2) n

/-- Each transform of a frame bit-reversed. -/
def bitReverse {α : Type} (d : α) (n : Nat) (xs : List α) : List α :=
  (rangeFrom 0 xs.length).map fun i => nth d xs (i / 2 ^ n * 2 ^ n + revBits (i % 2 ^ n) n)

/-- The twiddle index of a stage and position, inverted for an inverse pass. -/
def twIndex (T : Nat) (inv : Bool) (m : Nat) : Nat := if inv then (T - m % T) % T else m % T

/-- Stage `s` over a frame: `bf a b m` are the sum, the difference and flags of a butterfly with twiddle `m`. -/
def fftStage {α : Type} (d : α) (bf : α → α → Nat → α × α × Flags) (n T : Nat) (inv : Bool) (s : Nat) (xs : List α) :
    List α × Flags :=
  let h := 2 ^ s
  let one := fun (i : Nat) =>
    let r := i % 2 ^ n % (2 * h)
    if r < h then
      let (u, _, fl) := bf (nth d xs i) (nth d xs (i + h)) (twIndex T inv (r * (T >>> (s + 1))))
      (u, fl)
    else
      let (_, v, fl) := bf (nth d xs (i - h)) (nth d xs i) (twIndex T inv ((r - h) * (T >>> (s + 1))))
      (v, fl)
  let rs := (rangeFrom 0 xs.length).map one
  (rs.map (·.1), rs.foldl (fun a r => a ||| r.2) flNone)

/-- Stages `s` to `s + k - 1`, each followed by `grow`. -/
def fftStages {α : Type} (stage : Nat → α → α) (s : Nat) (x : α) : Nat → α
  | 0 => x
  | k + 1 => fftStages stage (s + 1) (stage s x) k

/-- The output permutation of each transform (R278). -/
def strideOut {α : Type} (d : α) (n lg : Nat) (xs : List α) : List α :=
  let N := 2 ^ n
  let S := 2 ^ lg
  (rangeFrom 0 xs.length).map fun i =>
    let j := i % N
    nth d xs (i / N * N + j % (N / S) * S + j / (N / S))

/-- The pre-multiplication's twiddle index for point `t` of a transform in pass frame `frame`. -/
def xtwIndex (f : List W64) (inv : Bool) (frame t : Nat) : Nat :=
  let T := 2 ^ feTwlog f
  let M := 2 ^ (feXlog f - feLogn f)
  twIndex T inv (t * (frame % M) * (T >>> feXlog f))

/-- Points in BFP16: parts, exponent, flags. -/
structure BfpFrame where
  pts : List (Int × Int)
  e : Int
  flags : Flags
  deriving DecidableEq, Repr

/-- Growth over a whole frame (R47, R48). -/
def BfpFrame.grow (x : BfpFrame) (real : Bool) (fixed : Option Nat) : BfpFrame :=
  let cs := if real then x.pts.map (·.1) else x.pts.flatMap fun p => [p.1, p.2]
  let (ds, e, fl) := bfpGrow cs x.e fixed
  let n := x.pts.length
  { pts := (rangeFrom 0 n).map fun i => if real then (nth 0 ds i, 0) else (nth 0 ds (2 * i), nth 0 ds (2 * i + 1))
    e := e, flags := x.flags ||| fl }

/-- The shift of a stage under FIXED; none under ADAPT. -/
def feShift (f : List W64) (s : Nat) : Option Nat := if feGrow f then some (bitsAt (feShf f) (2 * s + 1) (2 * s)) else none

/-- A block of a BFP16 frame from its tokens (R45). -/
def bfpBlock (real : Bool) (ts : List Tok) : List (Int × Int) × Int :=
  let w := fun (i : Nat) => laneOf (nth {} ts (i / 16)).lanes (i % 16)
  if real then
    ((rangeFrom 0 64).map fun i => (sintOf 16 (w (i / 2) >>> (16 * (i % 2))), 0), sintOf 8 (w 32))
  else ((rangeFrom 0 64).map fun i => (sintOf 16 (w i), sintOf 16 (w i >>> 16)), sintOf 8 (w 64))

/-- A frame of one or two blocks, aligned to the larger exponent (R279). -/
def bfpFrame (real : Bool) (ts : List Tok) : BfpFrame :=
  let per := if real then 3 else 5
  let (a, ea) := bfpBlock real (ts.take per)
  if ts.length ≤ per then { pts := a, e := ea, flags := flNone }
  else
    let (b, eb) := bfpBlock real (ts.drop per)
    let e := max ea eb
    let al := fun (ps : List (Int × Int)) (k : Int) =>
      (ps.map fun p => (rneShr p.1 k, rneShr p.2 k), if anyB (fun p => shrInexact p.1 k || shrInexact p.2 k) ps then flNX else flNone)
    let (a, f1) := al a (e - ea)
    let (b, f2) := al b (e - eb)
    { pts := a ++ b, e := e, flags := f1 ||| f2 }

/-- A BFP16 frame's beats (R45). -/
def bfpBeats (real : Bool) (x : BfpFrame) : List (BitVec 512) :=
  (piecesOf 64 x.pts (x.pts.length / 64)).flatMap fun b =>
    let n16 := fun (v : Int) => natOfInt 16 v
    let ws := if real then (rangeFrom 0 32).map fun w => n16 (nth (0, 0) b (2 * w)).1 + n16 (nth (0, 0) b (2 * w + 1)).1 * 2 ^ 16
      else b.map fun p => n16 p.1 + n16 p.2 * 2 ^ 16
    packWords ws ++ [BitVec.ofNat 512 (natOfInt 8 x.e)]

/-- SCALE on a BFP16 frame: e − n, held at −128 by right shifts (R279). -/
def BfpFrame.scale (x : BfpFrame) (n : Nat) : BfpFrame :=
  let e := x.e - n
  if e ≥ -128 then { x with e := e }
  else
    let k := -128 - e
    let bad := anyB (fun p => shrInexact p.1 k || shrInexact p.2 k) x.pts
    { pts := x.pts.map fun p => (rneShr p.1 k, rneShr p.2 k), e := -128,
      flags := if bad then x.flags ||| flUF ||| flNX else x.flags }

/-- A BFP16 transform frame (R278, R279). -/
def State.bfpTransform (s : State) (c : Nat) (f : List W64) (p frame : Nat) (real : Bool) (ts : List Tok) : FrameOut :=
  let n := feLogn f
  let T := 2 ^ feTwlog f
  let inv := paInv p
  let tw := fun (m : Nat) =>
    let w := s.twWord c f m
    (sintOf 16 w, if real then 0 else sintOf 16 (w >>> 16))
  let mul := fun (b : Int × Int) (m : Nat) => let t := tw m; bfpTwiddle b.1 b.2 t.1 t.2
  let bf := fun (a b : Int × Int) (m : Nat) =>
    let q := mul b m
    ((a.1 + q.1, a.2 + q.2), (a.1 - q.1, a.2 - q.2), flNone)
  let x := bfpFrame real ts
  let x := if paXtw p then
      { x with pts := (rangeFrom 0 x.pts.length).map fun i => mul (nth (0, 0) x.pts i) (xtwIndex f inv frame (i % 2 ^ n)) }.grow
        real (feShift f 7)
    else x
  let x := { x with pts := bitReverse (0, 0) n x.pts }
  let x := fftStages (fun k (x : BfpFrame) =>
    { x with pts := (fftStage (0, 0) bf n T inv k x.pts).1 }.grow real (feShift f k)) 0 x n
  let x := if feScale f && inv then x.scale n else x
  let out := bfpBeats real { x with pts := strideOut (0, 0) n (feOperm f) x.pts }
  { port := out, lines := out, flags := x.flags }

/-- A complex FP32 product, each part rounded once (R279). -/
def c32Mul (b w : Nat × Nat) : (Nat × Nat) × Flags :=
  let v := Fmt.f32.value
  let nan := sNanFlag [v b.1, v b.2, v w.1, v w.2]
  let part := fun (x y z u : Nat) (neg : Bool) =>
    let (m1, f1) := mulEx (v x) (v y)
    let (m2, f2) := mulEx (v z) (v u)
    let (t, f3) := addEx .rne m1 (if neg then m2.negate else m2)
    Fmt.f32.ofFv .rne 0 false (t, f1 ||| f2 ||| f3)
  let (re, f1) := part b.1 w.1 b.2 w.2 true
  let (im, f2) := part b.1 w.2 b.2 w.1 false
  ((re, im), nan ||| f1 ||| f2)

/-- An FP32 complex transform frame. -/
def State.c32Transform (s : State) (c : Nat) (f : List W64) (p frame : Nat) (ts : List Tok) : FrameOut :=
  let n := feLogn f
  let T := 2 ^ feTwlog f
  let inv := paInv p
  let tw := fun (m : Nat) => (s.twWord c f (2 * m), s.twWord c f (2 * m + 1))
  let both := fun (op : Nat → Nat → Nat × Flags) (a b : Nat × Nat) =>
    let (x, f1) := op a.1 b.1
    let (y, f2) := op a.2 b.2
    ((x, y), f1 ||| f2)
  let bf := fun (a b : Nat × Nat) (m : Nat) =>
    let (q, f0) := c32Mul b (tw m)
    let (u, f1) := both (fpAdd .f32 .rne 0) a q
    let (v, f2) := both (fpSub .f32 .rne 0) a q
    (u, v, f0 ||| f1 ||| f2)
  let x0 := (rangeFrom 0 (fePoints f)).map fun e => (frameLane ts (2 * e), frameLane ts (2 * e + 1))
  let (x, fl) := if paXtw p then
      (let rs := (rangeFrom 0 x0.length).map fun i => c32Mul (nth (0, 0) x0 i) (tw (xtwIndex f inv frame (i % 2 ^ n)))
       (rs.map (·.1), rs.foldl (fun a r => a ||| r.2) flNone))
    else (x0, flNone)
  let (x, fl) := fftStages (fun k (a : List (Nat × Nat) × Flags) =>
    let (ys, g) := fftStage (0, 0) bf n T inv k a.1
    (ys, a.2 ||| g)) 0 (bitReverse (0, 0) n x, fl) n
  let (x, fl) := if feScale f && inv then
      (let rs := x.map fun v => both (fpMul .f32 .rne 0) v ((127 - n) * 2 ^ 23, (127 - n) * 2 ^ 23)
       (rs.map (·.1), rs.foldl (fun a r => a ||| r.2) fl))
    else (x, fl)
  let out := packWords ((strideOut (0, 0) n (feOperm f) x).flatMap fun v => [v.1, v.2])
  { port := out, lines := out, flags := fl }

/-- An m32 transform frame. -/
def State.modTransform (s : State) (c : Nat) (f : List W64) (p frame : Nat) (ts : List Tok) : FrameOut :=
  let n := feLogn f
  let T := 2 ^ feTwlog f
  let q := feQ f
  let inv := paInv p
  let tw := s.twWord c f
  let bf := fun (a b m : Nat) =>
    let (t, f0) := modMul q b (tw m)
    let (u, f1) := modAdd q a t
    let (v, f2) := modSub q a t
    (u, v, f0 ||| f1 ||| f2)
  let ins := (rangeFrom 0 (fePoints f)).map fun e => modRed q (frameLane ts e)
  let mx := ins.foldl (fun a r => max a r.1) 0
  let fl := ins.foldl (fun a r => a ||| r.2) flNone
  let x0 := ins.map (·.1)
  let (x, fl) := if paXtw p then
      (let rs := (rangeFrom 0 x0.length).map fun i => modMul q (nth 0 x0 i) (tw (xtwIndex f inv frame (i % 2 ^ n)))
       (rs.map (·.1), rs.foldl (fun a r => a ||| r.2) fl))
    else (x0, fl)
  let (x, fl) := fftStages (fun k (a : List Nat × Flags) =>
    let (ys, g) := fftStage 0 bf n T inv k a.1
    (ys, a.2 ||| g)) 0 (bitReverse 0 n x, fl) n
  let out := packWords (strideOut 0 n (feOperm f) x)
  { port := out, lines := out, flags := fl, maxIn := mx }

/-- A transform frame. -/
def State.transformFrame (s : State) (c : Nat) (f : List W64) (p frame : Nat) (ts : List Tok) : FrameOut :=
  match feTfmt f with
  | 0 => s.bfpTransform c f p frame false ts
  | 1 => s.bfpTransform c f p frame true ts
  | 2 => s.c32Transform c f p frame ts
  | _ => s.modTransform c f p frame ts

/-! ### Frames taken and emitted -/

/-- The tokens at a port. -/
def Fe.inPort (x : Fe) (port : Nat) : List Tok := if port = 0 then x.inA else x.inB
def Fe.setIn (x : Fe) (port : Nat) (ts : List Tok) : Fe := if port = 0 then { x with inA := ts } else { x with inB := ts }
def Fe.eosOf (x : Fe) (port : Nat) : Bool := if port = 0 then x.eosA else x.eosB

/-- The next frame at a port: its tokens, filled up with zero tokens where an EOS marker cuts it, and what stays. -/
def takeFrame (n : Nat) (q : List Tok) : Option (List Tok × List Tok) :=
  let data := q.takeWhile fun t => !t.eos
  if n ≤ data.length then some (q.take n, q.drop n)
  else if data.isEmpty || data.length = q.length then none
  else some (data ++ (rangeFrom 0 (n - data.length)).map fun _ => { vm := BitVec.allOnes 16 }, q.drop data.length)

/-- Whether the current pass may take a frame. -/
def Fe.passOpen (x : Fe) : Bool :=
  let p := fePass x.words x.pass
  paPv p && (paFrm p == 0 || decide (x.frames < paFrm p))
    && (feMode x.words = 3 || feWmode x.words ≠ 1 || decide (x.stepFrames < feWfr x.words))

/-- The outcome of the range check of a frame (R280): whether B exceeds q − 1, and B as TVAL gives it. -/
def Fe.rangeCheck (x : Fe) : Bool × W64 :=
  let b := feN x.words * x.maxa * x.maxb
  (decide (b > feQ x.words - 1), if b ≥ 2 ^ 64 then BitVec.allOnes 64 else BitVec.ofNat 64 b)

/-- A computed frame emitted: lines, port C, counts, range registers, flags. -/
def State.emitFrame (s : State) (c : Nat) (x : Fe) (o : FrameOut) : State :=
  let f := x.words
  let p := fePass f x.pass
  let (over', _) := x.rangeCheck
  let mr := if paMr p = 3 && over' then flMR else flNone
  let s := if paOm p then s.writeLines c (paOline p + x.frames * o.lines.length) o.lines else s
  let toks := o.port.map fun v => ({ lanes := v, vm := BitVec.allOnes 16, tag := BitVec.ofNat 8 (paOtag p) } : Tok)
  ((s.setFe c
    { x with
      outC := if paOc p then x.outC ++ toks else x.outC
      frames := x.frames + 1
      fdone := x.fdone + 1
      stepFrames := x.stepFrames + 1
      checked := false
      maxa := if paMr p = 1 then max x.maxa o.maxIn else x.maxa
      maxb := if paMr p = 2 then max x.maxb o.maxIn else x.maxb }).runFlags x.run (o.flags ||| mr)).feMoved c

/-- Whether port C has room for a frame. -/
def Fe.roomC (x : Fe) : Bool :=
  !paOc (fePass x.words x.pass) || decide (x.outC.length + feTokens x.words ≤ fePortCap)

/-- The entries a token pair of row-gather adds: lanes valid in both (R276). -/
def pairEntries (a b : Tok) : List (Nat × Nat) :=
  ((rangeFrom 0 16).filter fun j => a.vm.getLsbD j && b.vm.getLsbD j).map fun j => (laneOf b.lanes j, laneOf a.lanes j)

/-- A row-gather step: the pair at the ports joins the frame in progress, or the frame, ended by another tag or by EOS and
with its rows loaded, is computed. Its rows stand in the buffer of the pass's weights, counted anew for each frame (R271,
R272). -/
def State.gatherStep (s : State) (c : Nat) (x : Fe) : State :=
  let f := x.words
  let p := fePass f x.pass
  let b := x.bufs.getD {} x.bufNo
  let begin' := fun (a b' : Tok) (restB : List Tok) =>
    (s.setFe c { x with
      inA := x.inA.drop 1, inB := restB, gathered := x.gathered ++ pairEntries a b', frameTag := some a.tag,
      rowp := if x.frameTag.isSome then x.rowp else 0
      bufs := x.bufs.set x.bufNo { b with loading := true } }).feMoved c
  let finish := fun (_ : Unit) =>
    if b.next < x.gathered.length || !x.roomC then s
    else
      let o := s.gatherFrame c f p x.frames b.rows x.gathered
      let fresh : WBuf := { loading := true, step := b.step }
      s.emitFrame c { x with gathered := [], frameTag := none, bufs := x.bufs.set x.bufNo fresh } o
  match x.inA with
  | [] => s
  | a :: _ =>
    if a.eos then (if x.frameTag.isSome then finish () else s)
    else if x.frameTag.isSome && x.frameTag ≠ some a.tag then finish ()
    else match x.inB with
    | [] => if x.eosB then begin' a { vm := 0#16 } [] else s
    | b :: rb => if b.eos then begin' a { vm := 0#16 } (b :: rb) else begin' a b rb

/-- The next frame of a pass of block or transform mode, with the engine after it is taken. -/
def State.nextFrame (s : State) (c : Nat) (x : Fe) : Option (List Tok × Fe) :=
  let f := x.words
  let p := fePass f x.pass
  let n := feTokens f
  if paIn p = 2 then
    some ((rangeFrom 0 n).map fun i => { lanes := s.readLine c (paIline p + x.frames * n + i), vm := BitVec.allOnes 16 }, x)
  else (takeFrame n (x.inPort (paIn p))).map fun r => (r.1, x.setIn (paIn p) r.2)

/-- A frame of block or transform mode. -/
def State.frameStep (s : State) (c : Nat) (x : Fe) : State :=
  let f := x.words
  let p := fePass f x.pass
  let b := x.bufs.getD {} x.bufNo
  match s.nextFrame c x with
  | none => s
  | some (ts, y) =>
    if !x.roomC || (feMode f = 1 && b.next < feRows) then s
    else
      let (bad, tv) := x.rangeCheck
      if feMode f = 3 && paMr p = 3 && bad && feMrtrap f && !x.checked then
        (match x.run with
          | some r => (s.modFe c fun y => { y with overRange := true }).freeze r 6 0x13 0 tv
          | none => s)
      else s.emitFrame c y (if feMode f = 1 then s.blockFrame c f p x.frames b.rows ts else s.transformFrame c f p x.frames ts)

/-- Whether a frame waits for the next row of the current pass's buffer: one whose entries are gathered, or a whole one that the
pass could take (R272). -/
def State.rowNeeded (s : State) (c : Nat) (x : Fe) : Bool :=
  if feMode x.words = 2 then decide ((x.bufs.getD {} x.bufNo).next < x.gathered.length)
  else x.passOpen && x.roomC && (s.nextFrame c x).isSome

/-- WEIGHT_FAULT (R272): the row that a frame needs has faulted: ROWP names it, the region freezes, and its thread takes trap
0x14. -/
def execWeightFault (c : Nat) (s : State) : Out :=
  let x := s.fe c
  let b := x.bufs.getD {} x.bufNo
  .next (match b.fault, x.run with
    | some (_, a), some r =>
      if s.feActs c && (feMode x.words = 1 || feMode x.words = 2) && s.rowNeeded c x then
        (s.modFe c fun y => { y with rowp := b.next, fva := a % 2 ^ 48 }).freeze r 7 0x14 0 (BitVec.ofNat 64 a)
      else s
    | _, _ => s)

/-- ENGINE_FRAME (R267, R274, R276, R278): the engine takes and computes a frame of its current pass. -/
def execEngineFrame (c : Nat) (s : State) : Out :=
  let x := s.fe c
  .next (
    if !s.feActs c || !x.passOpen then s
    else match feMode x.words with
    | 1 => s.frameStep c x
    | 2 => s.gatherStep c x
    | 3 => s.frameStep c x
    | _ => s)

/-! ### Passes (R268) -/

/-- The ports a pass reads. -/
def passPorts (f : List W64) (p : Nat) : List Nat :=
  if feMode f = 2 then [0, 1] else if paIn p < 2 then [paIn p] else []

/-- The ports some pass reads. -/
def fePorts (f : List W64) : List Nat := (rangeFrom 0 2).filter fun q => anyB (fun e => (passPorts f e).contains q) (fePasses f)

/-- Whether the pass is over: its frames are done, an EOS marker stands at its input, or a control token has come. -/
def Fe.passOver (x : Fe) : Bool :=
  let f := x.words
  let p := fePass f x.pass
  let atEos := anyB (fun q => x.eosOf q || (match x.inPort q with | t :: _ => t.eos | [] => false))
    (if feMode f = 2 then [0] else passPorts f p)
  let between := x.gathered.isEmpty && x.frameTag.isNone
  (paFrm p ≠ 0 && decide (paFrm p ≤ x.frames)) || (between && atEos) || (between && feCtla f && decide (0 < x.ctlIn))

/-- The EOS markers at the heads of a pass's ports taken; in row-gather port B is emptied up to its marker when port A has
ended (R276). -/
def Fe.takeEos (x : Fe) : Fe :=
  let pop := fun (x : Fe) (q : Nat) => match x.inPort q with
    | t :: r => if t.eos then (let y := x.setIn q r; if q = 0 then { y with eosA := true } else { y with eosB := true }) else x
    | [] => x
  let x := (passPorts x.words (fePass x.words x.pass)).foldl pop x
  if feMode x.words = 2 && x.eosA && !x.eosB then
    pop { x with inB := x.inB.dropWhile fun t => !t.eos } 1
  else x

/-- The next pass whose input has not delivered EOS, from entry `p` on, within `n` entries (R268). -/
def Fe.nextPass (x : Fe) (p : Nat) : Nat → Nat
  | 0 => p
  | n + 1 =>
    let p := if p > fePcnt x.words then 0 else p
    if anyB x.eosOf (passPorts x.words (fePass x.words p)) then x.nextPass (p + 1) n else p

/-- Whether the engine ends: every port that a pass reads has delivered EOS, or passes that read none have run once. -/
def Fe.mayEnd (x : Fe) : Bool :=
  let ps := fePorts x.words
  if ps.isEmpty then decide (fePcnt x.words < x.passesDone) else allB x.eosOf ps

/-- PASS_END (R268): the current pass ends and the next begins, or the engine ends with a marker on port C. A control token
that ends no pass is discarded. PCTO's token follows the pass's last output token, and waits for no space (R192). -/
def execPassEnd (c : Nat) (s : State) : Out :=
  let x := s.fe c
  let f := x.words
  .next (
    if !s.feActs c || feMode f = 0 then s
    else
      let x := if feCtla f then x else { x with ctlIn := 0 }
      let s := s.setFe c x
      let full := fun (fin : Bool) => fin && feEmits f && decide (fePortCap ≤ x.outC.length)
      if feMode f = 2 && x.eosA && !x.eosB then
        -- port B's marker is still to come
        (let y := x.takeEos
         let fin := y.mayEnd
         if full fin then s
         else (s.setFe c { y with ended := fin, outC := if fin && feEmits f then y.outC ++ [eosTok] else y.outC }).feMoved c)
      else if !x.passOver then s
      else
        let byFrames := paFrm (fePass f x.pass) ≠ 0 && decide (paFrm (fePass f x.pass) ≤ x.frames)
        let y := if byFrames then x else x.takeEos
        let byEos := y.eosA != x.eosA || y.eosB != x.eosB || anyB x.eosOf (passPorts f (fePass f x.pass))
        let y := { y with ctlIn := if !byFrames && !byEos then y.ctlIn - 1 else y.ctlIn, passesDone := y.passesDone + 1, frames := 0 }
        let fin := y.mayEnd
        let next := y.nextPass (y.pass + 1) 8
        let pn := fePass f next
        -- a pass that uses the other buffer counts that buffer's rows (R271, R272)
        let turn := { y with pass := next }.bufNo
        let ctlDue := fePcto f && !y.outC.isEmpty
        let y := { y with
          pass := if fin then y.pass else next
          rowp := if fin || turn = y.bufNo then y.rowp else (y.bufs.getD { next := 0 } turn).next
          maxa := if !fin && paMr pn = 1 then 0 else y.maxa
          maxb := if !fin && paMr pn = 2 then 0 else y.maxb
          ended := fin
          ctlAfter := if ctlDue then y.ctlAfter ++ [y.outC.length] else y.ctlAfter
          outC := if fin && feEmits f then y.outC ++ [eosTok] else y.outC }
        if full fin then s
        else
          let s := (s.setFe c y).feMoved c
          if fePcto f && !ctlDue then s.feCtlOut c else s)

end Sys2Proof.Machine
end

