-- ==== Sys2Proof/Machine/Retire.lean ====
section
/-! DEFINITION. The end of an iteration (R415), a thread slot's way back to the walker or to the thread that lent it (R405),
and the package's wake-latency tolerance (R423). -/

namespace Sys2Proof.Machine

/-! ### The tolerance (R423) -/

/-- The smallest LATT of the enabled queues, in nanoseconds; none without one (R423). -/
def State.tolerance (s : State) : Option Nat :=
  let ls := s.parts.flatMap fun kp =>
    if kp.2.qte then ((rangeFrom 0 256).filter fun q => (s.qctl kp.1 q).en).map fun q => s.qword kp.1 q qLATT % 2 ^ 32 else []
  ls.foldl (fun b l => match b with | none => some l | some m => some (min m l)) none

/-- Whether the tolerance admits a state that takes `ns` to leave. -/
def State.tolerates (s : State) (ns : Nat) : Bool := match s.tolerance with | none => true | some t => decide (ns ≤ t)

/-! ### Slots that come back -/

/-- A slot whose context has gone: free, its control registers as they were until the next iteration's start (R58, R126), or back with
the thread it was lent from (R405). -/
def State.vacate (s : State) (m : Nat) : State :=
  let x := s.slot m
  let y := { x.fresh with lentFrom := none }
  match x.lentFrom with
  | none => s.setSlot m { y with csr := x.csr }
  | some (l, k) =>
    (s.setSlot m { y with use := if (s.slot l).use = .resThread then .resSlice l k else .slice l k }).modSlot l fun z =>
      { z with lent := z.lent.filter (· ≠ k) }

/-- The slots that hold slices of a thread, running or reserved. -/
def State.sliceSlots (s : State) (n : Nat) : List Nat :=
  s.slots.filterMap fun kx => match kx.2.use with
    | .slice l _ => if l = n then some kx.1 else none
    | .resSlice l _ => if l = n then some kx.1 else none
    | _ => none

/-! ### The end of an iteration (R415) -/

/-- The runs a thread has started that have not completed. -/
def State.openRuns (s : State) (n : Nat) : List (Nat × Run) := s.runs.filter fun r => r.2.slot == n && r.2.begun && !r.2.done

/-- The cause that an unreported error of a remote operation ends an iteration with (R377, R415). -/
def ropCause (status : Nat) : Nat := if status = 0x0A then 0x16 else 0x15

/-- The unreported error of a thread's operations, as the cause it ends the iteration with. -/
def State.unreported (s : State) (n : Nat) : Option Nat :=
  let x := s.slot n
  let copy := anyB (fun k => k.2.slot == some n && !k.2.orphan && k.2.replied && !k.2.reported
    && (match k.2.res with | some r => r.1 != 0 | none => false)) s.copies
  if copy || anyB (fun f => f.cause == 0x10) x.faults then some 0x10
  else match s.rops.vals.find? fun r => r.slot == some n && !r.orphan && r.replied && !r.reported
      && (match r.res with | some v => v.1 != 0 | none => false) with
  | some r => some (ropCause (r.res.getD (0, 0#64)).1)
  | none => if x.async15.isEmpty then none else some 0x15

/-- A stream as its iteration ends: one whose command has begun runs on without its thread, another is none any more (R415). -/
def Slot.leaveStream (x : Slot) (n : Nat) (st : Stream) : Option Stream :=
  if st.slot ≠ n then some st
  else if (match x.cmds.find? (·.id == st.id) with | some c => c.begun | none => true) then
    some { st with slot := noSlot, gates := [], needStart := true, stopped := false }
  else none

/-- What a thread leaves in the grid: its runs drained, which ends their streams, its planes complete, its positions and grants free;
its other streams run on. -/
def State.leaveGrid (s : State) (n : Nat) : State :=
  let s := (s.openRuns n).foldl (fun s r => s.drain r.2.masks r.2.feng none) s
  let s := ((s.slot n).cmds.flatMap (·.loads)).foldl State.planeLoaded s
  { s with
    runs := s.runs.filter fun r => r.2.slot ≠ n
    ports := s.ports.map fun kp => (kp.1,
      { kp.2 with inbox := kp.2.inbox.filterMap ((s.slot n).leaveStream n), cur := kp.2.cur.bind ((s.slot n).leaveStream n) })
    poss := s.poss.map fun kx => (kx.1, if kx.2.holder = some n then { kx.2 with holder := none } else kx.2)
    grants := s.grants.filter fun g => g.2.slot ≠ n }

/-- A thread's operations go on without it; those that have been replied to are gone, and a FAILED token whose error this
reports is FREE (R388). -/
def State.orphanOps (s : State) (n : Nat) : State :=
  let gone := (s.rops.filter fun k => k.2.slot == some n && !k.2.orphan && k.2.replied).map (·.1)
  { s with
    toks := s.toks.filter fun t => !(t.2.st == .failed && gone.contains t.2.op)
    copies := (s.copies.filter fun k => !(k.2.slot == some n && !k.2.orphan && k.2.replied)).map fun k =>
      (k.1, if k.2.slot = some n then { k.2 with orphan := true } else k.2)
    rops := (s.rops.filter fun k => !(k.2.slot == some n && !k.2.orphan && k.2.replied)).map fun k =>
      (k.1, if k.2.slot = some n then { k.2 with orphan := true } else k.2)
    watches := s.watches.filter fun w => w.2.by' ≠ .thread n }

/-- THE END OF AN ITERATION (R415): regions drained, groups left, everything it held freed, and its end reported to the queue
manager with its error. -/
def State.endIteration (s : State) (n : Nat) (err : Option Nat) : State :=
  let x := s.slot n
  let err := match err with | some c => some c | none => s.unreported n
  let held := (s.poss.filter fun kx => kx.2.holder = some n).map fun kx => kx.1 / 32
  let s := (s.leaveGrid n).leaveAll n
  let s := s.orphanOps n
  let s := s.modJob x.job fun j =>
    { j with
      triggered := if x.triggered then j.triggered else j.triggered + 1
      ended := j.ended + 1
      err := match j.err, err with
        | none, some c => some (x.ordinal, c)
        | e, _ => e }
  let own := n :: s.sliceSlots n
  let s := { s with slots := s.slots.map fun kx => (kx.1,
    match kx.2.lentFrom with
    | some (l, _) => if l = n then { kx.2 with lentFrom := none, back := false } else kx.2
    | none => kx.2) }
  let s := own.foldl State.vacate s
  (own.map courseOf ++ held).foldl State.noteIdle s

end Sys2Proof.Machine
end

