-- ==== Sys2Proof/Machine/Links.lean ====
section
/-! DEFINITION. The bond ports' links (R365 to R370): flits and their headers, counters and keys, replay, retraining, and planes
that are left (R394). The spec gives the flit's header and no payload layout: log 21 says which one the model takes. -/

namespace Sys2Proof.Machine

def State.link (s : State) (p : Nat) : Link := s.links.getD {} p
def State.setLink (s : State) (p : Nat) (x : Link) : State := { s with links := s.links.set p x }
def State.modLink (s : State) (p : Nat) (f : Link → Link) : State := s.setLink p (f (s.link p))

/-! ### Flits (R367, R368) -/

/-- The channel of a flit kind; a remote store with a dependency goes on channel 2 (R368). -/
def vcOf (kind : Nat) (dep : Bool) : Nat :=
  if 0x20 ≤ kind then 3 else if kind % 2 = 0 then 1 else if kind = 3 ∧ dep then 2 else 0

/-- A flit's header under a counter (R367). -/
def Flit.header (f : Flit) (dep : Bool) (ctr : Nat) : BitVec 128 :=
  let w0 := f.kind % 256 * 2 ^ 56 + f.dpkg % 4096 * 2 ^ 44 + f.spkg % 4096 * 2 ^ 32 + vcOf f.kind dep * 2 ^ 30
    + (f.words.length + 1) / 2 * 2 ^ 27 + f.xtag % 2 ^ 24
  let w1 := ctr % 2 ^ 32 * 2 ^ 32 + f.asid % 4096 * 2 ^ 20 + f.port % 16 * 2 ^ 16
  BitVec.ofNat 128 (w0 + w1 * 2 ^ 64)

/-- A flit's payload: 96 bytes. -/
def Flit.payload (f : Flit) : BitVec 768 := BitVec.ofNat 768 (ofWords f.words)
where
  /-- Words as one number, the first lowest. -/
  ofWords : List W64 → Nat
    | [] => 0
    | w :: r => w.toNat + 2 ^ 64 * ofWords r

/-- The assigned flit kinds (R368). -/
def kindAssigned (k : Nat) : Bool := (decide (1 ≤ k) && decide (k ≤ 0x0E)) || (decide (0x20 ≤ k) && decide (k ≤ 0x22))

/-- A received flit's fields, of its header and its payload; none where a reserved field is set or its kind is unassigned
(R367). -/
def readFlit (h : BitVec 128) (p : BitVec 768) : Option Flit :=
  let w0 := h.toNat % 2 ^ 64
  let w1 := h.toNat / 2 ^ 64
  if bitsAt w0 26 24 ≠ 0 || bitsAt w1 15 0 ≠ 0 || bitsAt w0 29 27 = 7 || !kindAssigned (bitsAt w0 63 56) then none
  else some
    { kind := bitsAt w0 63 56, dpkg := bitsAt w0 55 44, spkg := bitsAt w0 43 32, xtag := bitsAt w0 23 0,
      asid := bitsAt w1 31 20, port := bitsAt w1 19 16,
      words := (rangeFrom 0 12).map fun i => p.extractLsb' (64 * i) 64 }

/-- A payload word of a flit. -/
def Flit.w (f : Flit) (i : Nat) : Nat := (nth 0#64 f.words i).toNat

/-! ### Keys (R369) -/

/-- A key's bytes. -/
def keyBytes (k : BitVec 512) : List Byte := (rangeFrom 0 64).map fun i => k.extractLsb' (8 * i) 8

/-- Byte order. -/
def bytesLess : List Byte → List Byte → Bool
  | [], _ => false
  | _ :: _, [] => false
  | a :: r, b :: t => decide (a.toNat < b.toNat) || (a == b && bytesLess r t)

/-- Whether this end's public key in force is the lower one. -/
def Link.lower (l : Link) (port : Nat) : Bool := bytesLess (keyBytes (Config.ephemeralKey port l.epoch)) (keyBytes l.peer)

/-- The 72 bytes that both ends derive: the salt is the two public keys, the lower first. -/
def Link.derived (l : Link) (port : Nat) : BitVec 576 :=
  let own := keyBytes (Config.ephemeralKey port l.epoch)
  let peer := keyBytes l.peer
  Config.hkdf72 (if l.lower port then own ++ peer else peer ++ own) (Config.ecdhSecret port l.epoch l.peer)

/-- The 36 bytes of a direction: the first serve the direction sent by the end whose key is lower. -/
def Link.half (l : Link) (port : Nat) (tx : Bool) : BitVec 288 :=
  (l.derived port).extractLsb' (if tx == l.lower port then 0 else 288) 288

/-- A direction's key and its salt. -/
def Link.key (l : Link) (port : Nat) (tx : Bool) : BitVec 256 := (l.half port tx).extractLsb' 0 256
def Link.salt (l : Link) (port : Nat) (tx : Bool) : BitVec 32 := (l.half port tx).extractLsb' 256 32

/-- The GCM nonce: the salt, then the 64-bit flit counter. -/
def Link.nonce (l : Link) (port : Nat) (tx : Bool) (ctr : Nat) : BitVec 96 :=
  BitVec.ofNat 96 ((l.salt port tx).toNat + ctr % 2 ^ 64 * 2 ^ 32)

/-- A flit as it goes on the wire: its header in clear, its payload encrypted, its tag (R367). -/
def Link.seal (l : Link) (port ctr : Nat) (f : Flit) (dep : Bool) : BitVec 1024 :=
  let h := f.header dep ctr
  let (c, t) := Config.gcmSeal (l.key port true) (l.nonce port true ctr) h f.payload
  BitVec.ofNat 1024 (h.toNat + c.toNat * 2 ^ 128 + t.toNat * 2 ^ 896)

/-- The header and the payload of a flit as received under the next counter; none where its tag fails (R367). -/
def Link.unseal (l : Link) (port : Nat) (b : BitVec 1024) : Option (BitVec 128 × BitVec 768) :=
  let h := b.extractLsb' 0 128
  match Config.gcmOpen (l.key port false) (l.nonce port false l.rxCtr) h (b.extractLsb' 128 768) (b.extractLsb' 896 128) with
  | some p => some (h, p)
  | none => none

/-- The flit counters at which an exchange begins and at which a link stops (R369). -/
def rekeyAt : Nat := 2 ^ 39
def stopAt : Nat := 2 ^ 40

/-- A flit sent on a port under its next counter, kept for replay; none while the link is not up or waits for its exchange. -/
def State.sendFlit (s : State) (port : Nat) (f : Flit) (dep : Bool) : Option State :=
  let l := s.link port
  if !l.up || stopAt ≤ l.txCtr then none
  else
    let b := l.seal port l.txCtr f dep
    let e : ReplayEnt := { ctr := l.txCtr, dep := dep, flit := f, sent := b }
    some (s.setLink port { l with txCtr := l.txCtr + 1, replay := l.replay ++ [e], wire := b :: l.wire })

/-! ### Planes (R365, R373) -/

/-- Whether a plane is live: its link is up or retrains, and its port die is in service. -/
def State.planeLive (s : State) (p : Nat) : Bool :=
  let l := s.link p
  (l.up || l.rekeying) && !(s.dieDown (8 + p / 2))

/-- The first live plane from `p` on, in cyclic order. -/
def State.liveFrom (s : State) (p : Nat) : Option Nat := ((rangeFrom 0 16).map fun i => (p + i) % 16).find? s.planeLive

/-- A flit of this package on a plane. -/
def State.sendOn (s : State) (q : Nat) (f : Flit) : Option State := s.sendFlit q { f with spkg := s.pkg, port := q } false

/-- A flit of this package on the first live plane from `p`. -/
def State.sendFrom (s : State) (p : Nat) (f : Flit) : Option State :=
  match s.liveFrom p with
  | none => none
  | some q => s.sendOn q f

/-- The operations outstanding on a plane back at their remote units, watches sent on it to be sent again, and invalidations not
yet acknowledged by other packages to be told again (R394). -/
def State.leavePlane (s : State) (port : Nat) : State :=
  let back := fun (r : Rop) => r.src.isNone && r.plane == some port && r.taken && r.res.isNone && bitsAt r.addr.toNat 59 48 ≠ s.pkg
  let gone := (s.rops.filter fun k => back k.2).map (·.1)
  let rops : Map Rop := s.rops.map fun (k : Nat × Rop) => (k.1,
    let r := k.2
    if back r then { r with xl := none, plane := none, asked := false, inside := false, comb := [] } else r)
  let watches : Map Watch := s.watches.map fun (k : Nat × Watch) => (k.1,
    let w := k.2
    if w.st = .sent && w.landing ≠ s.pkg && w.plane = port then { w with st := .refused s.now } else w)
  let invals : Map Inval := s.invals.map fun (k : Nat × Inval) => (k.1,
    let v := k.2
    if v.src.isNone && v.told && anyB (fun h => decide (0x1000000 ≤ h)) v.waiting then
      { v with told := false, waiting := v.waiting.filter (· < 0x1000000) }
    else v)
  { s with rops := rops, watches := watches, invals := invals, forwarded := s.forwarded.dropKeys gone.contains }

/-- What a package waits for an acknowledgement of: flits other than link control (log 21). -/
def Link.unacked (l : Link) : List ReplayEnt := l.replay.filter fun e => decide (e.flit.kind < 0x20)

/-- A flit of an exchange, KIND 0x22 on channel 3 (R368): transaction tag 0 with a public key, 1 with its signature, as a payload
of eight words (log 21). -/
def exchangeFlit (pkg port part : Nat) (v : BitVec 512) : Flit :=
  { kind := 0x22, dpkg := 0, spkg := pkg, xtag := part, asid := 0, port := port,
    words := (rangeFrom 0 8).map fun i => v.extractLsb' (64 * i) 64 }

/-- A flit of an exchange put on the wire: under the key in force, or, where the link is not up or its counter has no room left, in
clear with no tag (log 21). -/
def Link.sendExchange (l : Link) (port : Nat) (f : Flit) : Link :=
  if l.up && decide (l.txCtr < stopAt) then
    let b := l.seal port l.txCtr f false
    let e : ReplayEnt := { ctr := l.txCtr, dep := false, flit := f, sent := b }
    { l with txCtr := l.txCtr + 1, replay := l.replay ++ [e], wire := b :: l.wire }
  else
    let b := BitVec.ofNat 1024 ((f.header false 0).toNat + f.payload.toNat * 2 ^ 128)
    { l with wire := b :: l.wire }

/-- THE KEY EXCHANGE (R366, R369): this end's fresh signed key goes out and the peer's is checked. On success the link is up with
counters at 0 under new keys, and the package has its number; flits that were not acknowledged before a retraining are sent again
under the new key. On a failed check the link is left down, its plane is left, and management records the failure. A link that is up
changes keys where no flit of it waits for an acknowledgement, and a link of a die that is being reset makes no exchange (R411). -/
def State.exchangeKeys (s : State) (port : Nat) (peerKey sig : BitVec 512) : State :=
  if 16 ≤ port || (s.link port).down || s.dieDown (8 + port / 2) || ((s.link port).up && !(s.link port).unacked.isEmpty) then s
  else
    let l := s.link port
    let own := Config.ephemeralKey port (l.tries + 1)
    let mine := Config.identitySign (Config.sha256 (keyBytes own))
    let l := (l.sendExchange port (exchangeFlit s.pkg port 0 own)).sendExchange port (exchangeFlit s.pkg port 1 mine)
    let l := { l with tries := l.tries + 1 }
    if Config.ecdsaVerify (Config.peerIdentity port) (Config.sha256 (keyBytes peerKey)) sig then
      let fresh : Link :=
        { l with up := true, epoch := l.tries, peer := peerKey, rekeying := false, txCtr := 0, rxCtr := 0, failures := 0, replay := [] }
      l.unacked.foldl (fun s e => (s.sendFlit port e.flit e.dep).getD s)
        { s.setLink port fresh with pkg := Config.packageNumber % 4096 }
    else
      let bad : Mgmt := { s.mgmt with badSigs := s.mgmt.badSigs + 1 }
      { (s.leavePlane port).setLink port { l with up := false, rekeying := false, replay := [] } with mgmt := bad }

/-- LINK_KEY_EXCHANGE (R366, R369): a peer's signed public key at a port. -/
def execLinkKeyExchange (port : Nat) (peerKey sig : BitVec 512) (s : State) : Out := .next (s.exchangeKeys port peerKey sig)

/-- REKEY_COUNTER_LIMIT (R369): a direction's counter has reached 2^39, and a new exchange begins. -/
def execRekeyCounterLimit (port : Nat) (dir : Bool) (s : State) : Out :=
  let l := s.link port
  .next (if l.up && decide (rekeyAt ≤ (if dir then l.txCtr else l.rxCtr)) then s.setLink port { l with rekeying := true } else s)

/-! ### Replay and retraining (R370, R395) -/

/-- FLIT_REPLAY (R370): a flit not yet acknowledged is sent again, byte for byte. -/
def execFlitReplay (port ctr : Nat) (s : State) : Out :=
  let l := s.link port
  .next (match l.replay.find? fun f => f.ctr == ctr with
    | some e => if l.up then s.setLink port { l with wire := e.sent :: l.wire } else s
    | none => s)

/-- Consecutive failures after which a link retrains. -/
def failLimit : Nat := 16

/-- LINK_RETRAIN (R370): after 16 consecutive failures the link retrains; it is up again after a new exchange. -/
def execLinkRetrain (port : Nat) (s : State) : Out :=
  let l := s.link port
  .next (if failLimit ≤ l.failures then s.setLink port { l with up := false, rekeying := true, failures := 0 } else s)

/-- MANAGEMENT_PORT_RETRAIN (R395): a port that is down may exchange keys again, and its plane then returns to the choice. -/
def execManagementPortRetrain (port : Nat) (s : State) : Out :=
  .next (if port < 16 ∧ (s.link port).down then
      s.awake.modLink port fun l => { l with down := false, failures := 0, replay := [] }
    else s)

end Sys2Proof.Machine
end

