-- ==== Sys2Proof/Machine/Remote.lean ====
section
/-! DEFINITION. Remote operations at their source: `rld`, `rst`, `ramo`, `rfadd` and `tokwait` (R371 to R379, R393), the remote
units of the port dies (R84, R85, R372, R373), tokens (R387 to R389), remote translations (R385), and replies (R86, R377). -/

namespace Sys2Proof.Machine

def State.modRop (s : State) (n : Nat) (f : Rop → Rop) : State :=
  match s.rops.get? n with
  | some r => { s with rops := s.rops.set n (f r) }
  | none => s

/-! ### Remote addresses, dependency words (R366, R387) -/

def Rop.dpkg (r : Rop) : Nat := bitsAt r.addr.toNat 59 48
/-- Whether an operation is this package's own. -/
def Rop.own (r : Rop) : Bool := r.src.isNone
/-- Whether an operation's home is this package. -/
def State.here (s : State) (r : Rop) : Bool := !r.own || r.dpkg == s.pkg

/-- A dependency word of a token and its landing package. -/
def depWord (landing tok : Nat) : W64 := BitVec.ofNat 64 (landing % 4096 * 2 ^ 32 + tok % 2 ^ 32)
def depTok (d : W64) : Nat := bitsAt d.toNat 31 0
def depLanding (d : W64) : Nat := bitsAt d.toNat 43 32
def tokPkg (t : Nat) : Nat := bitsAt t 31 20
def tokSerial (t : Nat) : Nat := bitsAt t 19 0
/-- Whether a word breaks the layout of dependency words. -/
def depBad (d : W64) : Bool := bitsAt d.toNat 63 44 ≠ 0

/-- The checks of a remote address at issue (R375). -/
def addrTrap (a : W64) (size : Nat) : Option Trap :=
  if bitsAt a.toNat 63 60 ≠ 0 then some { cause := 0x04, tval := a }
  else if a.toNat % size ≠ 0 then some { cause := 0x06, tval := a }
  else none

/-! ### Messages (R84, R85, R372) -/

/-- Messages the inboxes of a port die's remote unit and of its atomic handlers hold (R84). -/
def remoteInbox : Nat := 64
def handlerInbox : Nat := 16

/-- Whether a message is for the atomic handlers' inbox (R84). -/
def Rop.forHandler (r : Rop) : Bool := match r.kind with | .handler _ => true | _ => false

/-- Whether the inbox that a message is for has room. -/
def State.ropRoom (s : State) (r : Rop) : Bool :=
  decide ((s.rops.filter fun k => k.2.own && !k.2.taken && k.2.pd == r.pd && k.2.forHandler == r.forHandler).length
    < if r.forHandler then handlerInbox else remoteInbox)

/-- A message of the issuing thread. -/
def State.newRop (s : State) (kind : RKind) (addr : W64) (size : Nat) (c : BitVec 3) (acq rel : Bool) : Rop :=
  { kind := kind, addr := addr, size := size, scope := c.toNat, acq := acq, rel := rel, asid := s.thr.asid, sup := s.thr.sup,
    slot := some s.cur, job := s.thr.job, ord := s.thr.ordinal }

/-- A message put into an inbox: its number. -/
def State.putRop (s : State) (r : Rop) : Nat × State :=
  let (id, s) := s.fresh
  (id, { s with rops := s.rops.set id r })

/-- An interlocked operation: its message sent at its first turn, then the wait for its reply (R375). -/
def exeInterlocked (s : State) (check : State → Except Exe Rop) (fin : State → Rop → Exe) : Exe :=
  match s.thr.rop with
  | some id => match s.rops.get? id with
    | some r =>
      if r.replied then fin ({ s with rops := s.rops.erase id }.setThr { s.thr with rop := none }) r else .turn s
    | none => .turn (s.setThr { s.thr with rop := none })
  | none => match check s with
    | .error e => e
    | .ok r =>
      if !s.ropRoom r then .turn s
      else
        let (id, s) := s.putRop r
        .turn (s.setThr { s.thr with rop := some id })

/-- A reply landed in a register: the value, or reply word 0 with trap 0x15 (R375). -/
def finRemote (b : BitVec 5) (ext : W64 → W64) (s : State) (r : Rop) : Exe :=
  let (st, v) := r.res.getD (0, 0#64)
  if st = 0 then exePut s b (ext v)
  else .trap (s.setThr (s.thr.putS b.toNat (replyWord st 0))) { cause := 0x15, tval := r.addr, rsts := st }

/-- rld (R375). -/
def execRld (st : BitVec 3) (a b : BitVec 5) (c : BitVec 3) (q : BitVec 1) (z : BitVec 3) (s : State) : Out :=
  runInsn (.rld st a b c q z) st
    (fun s => exeInterlocked s
      (fun s => match addrTrap (s.rs a) (sizeOf' z.toNat) with
        | some t => .error (.trap s t)
        | none => .ok { s.newRop .load (s.rs a) (sizeOf' z.toNat) c (q == 1#1) false with code := z.toNat })
      (finRemote b (loadExt z.toNat))) s

/-- rfadd (R379). -/
def execRfadd (st : BitVec 3) (a b : BitVec 5) (c : BitVec 3) (q l : BitVec 1) (s : State) : Out :=
  runInsn (.rfadd st a b c q l) st
    (fun s => exeInterlocked s
      (fun s => match addrTrap (s.rs a) 8 with
        | some t => .error (.trap s t)
        | none => .ok { s.newRop .fadd (s.rs a) 8 c (q == 1#1) (l == 1#1) with x := s.rs b })
      (finRemote b id)) s

/-- A trap 0x04 for an ill-formed register choice; the spec gives it no TVAL, so it is free. -/
def exeBadRegs (s : State) : Exe :=
  let (v, s) := s.drawWord
  exeTrap s 0x04 v

/-- ramo's own part (R378). -/
def exeRamo (fn : Nat) (a b : BitVec 5) (c : BitVec 3) (q l : BitVec 1) (s : State) : Exe :=
  let reg := fun (k : Nat) => s.thr.readS (a.toNat + k)
  exeInterlocked s
    (fun s =>
      if a.toNat % 4 ≠ 0 || a.toNat = 0 then .error (exeBadRegs s)
      else if bitsAt (reg 3).toNat 63 8 ≠ 0 then .error (exeBadRegs s)
      else match addrTrap (reg 0) 8 with
      | some t => .error (.trap s t)
      | none =>
        if fn ≠ 0 && !s.thr.sup then .error (exeTrap s 0x0C (reg 0))
        else .ok { s.newRop (.handler fn) (reg 0) 8 c (q == 1#1) (l == 1#1) with
          x := reg 1, y := reg 2, entry := (reg 3).toNat })
    (finRemote b id)


/-- ramo.inv (R378, R383). -/
def execRamoInv (st : BitVec 3) (a b : BitVec 5) (c : BitVec 3) (q l : BitVec 1) (s : State) : Out :=
  runInsn (.ramoInv st a b c q l) st (exeRamo 0 a b c q l) s

/-- ramo.begin (R378, R383). -/
def execRamoBegin (st : BitVec 3) (a b : BitVec 5) (c : BitVec 3) (q l : BitVec 1) (s : State) : Out :=
  runInsn (.ramoBegin st a b c q l) st (exeRamo 1 a b c q l) s

/-- ramo.body (R378, R383). -/
def execRamoBody (st : BitVec 3) (a b : BitVec 5) (c : BitVec 3) (q l : BitVec 1) (s : State) : Out :=
  runInsn (.ramoBody st a b c q l) st (exeRamo 2 a b c q l) s

/-- ramo.valid (R378, R383). -/
def execRamoValid (st : BitVec 3) (a b : BitVec 5) (c : BitVec 3) (q l : BitVec 1) (s : State) : Out :=
  runInsn (.ramoValid st a b c q l) st (exeRamo 3 a b c q l) s

/-- ramo.clear (R378, R383). -/
def execRamoClear (st : BitVec 3) (a b : BitVec 5) (c : BitVec 3) (q l : BitVec 1) (s : State) : Out :=
  runInsn (.ramoClear st a b c q l) st (exeRamo 4 a b c q l) s

/-! ### rst (R376) -/

/-- rst's own part: posted, or interlocked until its token has been allocated. -/
def exeRst (s : State) (a b : BitVec 5) (c : BitVec 3) (rel dep tok : Bool) (z : BitVec 2) : Exe :=
  let size := 2 ^ z.toNat
  match s.thr.rop with
  | some id => match s.rops.get? id with
    | some r =>
      if r.tok.getD 0 = 0 then .turn s
      else
        let ended := r.replied && (r.res.getD (0, 0#64)).1 == 0
        let s := if ended then { s with rops := s.rops.erase id } else s
        .done (s.setThr { s.thr.putS (a.toNat + 1) (depWord r.dpkg (r.tok.getD 0)) with rop := none })
    | none => .turn (s.setThr { s.thr with rop := none })
  | none =>
    match addrTrap (s.rs a) size with
    | some t => .trap s t
    | none =>
      let d := s.thr.readS (a.toNat + 1)
      if (tok || dep) && (a.toNat = 0 || a.toNat = 31) then exeBadRegs s
      else if dep && depBad d then exeTrap s 0x04 d
      else
        let r := { s.newRop .store (s.rs a) size c false rel with
          x := BitVec.ofNat 64 ((s.rs b).toNat % 2 ^ (8 * size))
          dep := if dep && tokSerial (depTok d) ≠ 0 then some d else none
          tok := if tok then some 0 else none }
        if !s.ropRoom r then .turn s
        else
          let (id, s) := s.putRop r
          if tok then .turn (s.setThr { s.thr with rop := some id }) else .done s

/-- rst (R376). -/
def execRst (st : BitVec 3) (a b : BitVec 5) (c : BitVec 3) (l e h : BitVec 1) (z : BitVec 2) (s : State) : Out :=
  runInsn (.rst st a b c l e h z) st
    (fun s => exeRst s a b c (l == 1#1) (e == 1#1) (h == 1#1) z) s

/-! ### Tokens (R387, R388) -/

/-- Entries of the token table. -/
def tokEntries : Nat := 65536

def State.tokEnt (s : State) (serial : Nat) : TokEnt := s.toks.getD {} (serial % tokEntries)

/-- The next serial: 0 is never allocated. -/
def nextSerial (n : Nat) : Nat := if (n + 1) % 2 ^ 20 = 0 then 1 else (n + 1) % 2 ^ 20

/-- The entry that still holds a token of this package. -/
def State.heldTok (s : State) (t : Nat) : Option TokEnt :=
  let e := s.tokEnt (tokSerial t)
  if tokPkg t = s.pkg ∧ e.serial = tokSerial t ∧ e.st ≠ .free then some e else none

/-- A token allocated for an operation; none while its entry is PENDING or FAILED. -/
def State.allocTok (s : State) (op : Nat) : Option (Nat × State) :=
  let n := nextSerial s.serial
  let e := s.tokEnt n
  if e.st = .pending ∨ e.st = .failed then none
  else some (s.pkg * 2 ^ 20 + n,
    { s with serial := n, toks := s.toks.set (n % tokEntries) { st := .pending, serial := n, op := op } })

/-- The entry of an operation's own token settled. -/
def State.settleTok (s : State) (n : Nat) (r : Rop) (ok : Bool) : State :=
  match r.tok with
  | some t => match s.heldTok t with
    | some e => if e.op = n then
        { s with toks := s.toks.set (tokSerial t % tokEntries) { e with st := if ok then .landed else .failed } } else s
    | none => s
  | none => s

/-- A FAILED entry freed once its error has been reported (R388). -/
def State.freeTok (s : State) (n : Nat) (r : Rop) : State :=
  match r.tok with
  | some t => match s.heldTok t with
    | some e => if e.op = n ∧ e.st = .failed then { s with toks := s.toks.erase (tokSerial t % tokEntries) } else s
    | none => s
  | none => s

/-! ### Remote translations (R385) -/

/-- What an operation needs of its page; the management functions of handlers need no translation (R383, R384). -/
def Rop.need (r : Rop) : Option AKind :=
  match r.kind with
  | .load => some .load
  | .store => some .store
  | .fadd => some .atomic
  | .handler 0 => some .atomic
  | .handler _ => none
  | .xlat => none
  | .token => none

/-- A port die's cached translation of a package's page. -/
def rtcFind (pkg asid va : Nat) (l : List RXlat) : Option RXlat :=
  l.find? fun e => e.pkg == pkg && e.asid == asid && decide (e.va ≤ va) && decide (va < e.va + e.size)

/-- Whether a leaf allows an operation (R308, R385). -/
def leafAllows (sup : Bool) (k : AKind) (pte : Nat) : Bool := k.allowed pte && (sup || bitAt pte 4)

/-- The translation an operation uses: none while it is not cached, an error status where it refuses, or the physical address
with its leaf. -/
def State.ropXlat (s : State) (r : Rop) : Option (Except Nat (Nat × Nat)) :=
  match r.need with
  | none => some (.ok (0, 0))
  | some k => match rtcFind r.dpkg r.asid r.va (s.rtcs.getD [] r.pd) with
    | none => none
    | some e =>
      if leafAllows r.sup k e.pte.toNat then some (.ok (leafAddr e.pte.toNat e.lvl r.va, e.pte.toNat)) else some (.error 4)

/-- The page an operation's cached translation is of: its address and size. -/
def State.ropPage (s : State) (r : Rop) : Option (Nat × Nat) :=
  (rtcFind r.dpkg r.asid r.va (s.rtcs.getD [] r.pd)).map fun e => (e.va, e.size)

/-- Whether an operation asks its target for a translation: none is cached, or the cached one refuses a store whose token the
target must then record as FAILED (R385, R390). -/
def State.asksXlat (s : State) (r : Rop) : Bool :=
  match s.ropXlat r with
  | none => true
  | some (.error _) => r.tok.isSome && r.dpkg != s.pkg
  | some (.ok _) => false

/-! ### The remote unit (R373, R389) -/

/-- An operation ended with a status before it reaches its home. -/
def State.endRop (s : State) (n status : Nat) : State := s.modRop n fun r => { r with res := some (status, 0#64) }

/-- Whether two operations of one thread, or of another package on one plane, touch one location. -/
def Rop.sameLocation (a b : Rop) : Bool :=
  (if a.own then b.own && a.slot == b.slot && a.job == b.job && a.ord == b.ord && a.dpkg == b.dpkg
    else a.src.map (·.1) == b.src.map (·.1) && a.plane == b.plane && a.asid == b.asid)
    && decide (a.va < b.va + b.size) && decide (b.va < a.va + a.size)

/-- Whether an operation waits at its source for an earlier one of its thread to the same location: one not sent yet, one sent on
another plane, or a dependent store not completed (R373). -/
def State.ropBehind (s : State) (n : Nat) (r : Rop) : Bool :=
  let q := if r.dpkg = s.pkg then none else s.liveFrom r.homePlane
  anyB (fun k => decide (k.1 < n) && k.2.sameLocation r && !k.2.replied && k.2.res.isNone
    && (k.2.xl.isNone || k.2.dep.isSome || k.2.plane != q)) s.rops

/-- The flit kind of an operation's request (R368). -/
def RKind.flit : RKind → Nat
  | .load => 1
  | .store => 3
  | .fadd => 5
  | .handler _ => 7
  | .xlat => 0x0B
  | .token => 9

/-- A request's payload (log 21): the operands of R372, word 0 of its message, the physical address. -/
def Rop.payload (r : Rop) (pa : Nat) : List W64 :=
  let sub := match r.kind with | .handler f => f | _ => 0
  let opc := match r.kind with | .load => 4 | .store => 5 | .fadd => 6 | _ => 3
  let opnds : List W64 := match r.kind with
    | .load => [r.addr, BitVec.ofNat 64 r.code, 0#64, 0#64, 0#64, 0#64]
    | .store =>
      [r.addr, r.x, BitVec.ofNat 64 ((match r.size with | 1 => 0 | 2 => 1 | 4 => 2 | _ => 3) + b2n r.tok.isSome * 2 ^ 8
        + b2n r.dep.isSome * 2 ^ 9), r.dep.getD 0#64, BitVec.ofNat 64 (r.tok.getD 0), 0#64]
    | .handler _ => [r.addr, r.x, r.y, BitVec.ofNat 64 r.entry, 0#64, BitVec.ofNat 64 (b2n r.sup * 2 ^ 63)]
    | _ => [r.addr, r.x, 0#64, 0#64, 0#64, 0#64]
  opnds ++ [BitVec.ofNat 64 (opc * 2 ^ 56 + sub * 2 ^ 48 + r.asid * 2 ^ 36 + r.scope * 2 ^ 33 + b2n r.acq * 2 ^ 32
    + b2n r.rel * 2 ^ 31 + b2n r.sup * 2 ^ 30), BitVec.ofNat 64 pa]

/-- An operation sent on its way: with its translation, over the first live plane where its home is another package. -/
def State.sendRop (s : State) (n : Nat) (r : Rop) : State :=
  if s.ropBehind n r then s
  else if r.dpkg = s.pkg then
    match s.ropXlat r with
    | none => s
    | some (.error st) => s.endRop n st
    | some (.ok x) => s.modRop n fun y => { y with xl := some x, page := s.ropPage r }
  else if s.asksXlat r && (s.liveFrom r.homePlane).isSome then s
  else match s.liveFrom r.homePlane with
  | none => s.endRop n 0x0C
  | some p => match s.ropXlat r with
    | none => s
    | some (.error st) => s.endRop n st
    | some (.ok x) =>
      match s.sendFlit p { kind := r.kind.flit, dpkg := r.dpkg, spkg := s.pkg, xtag := n, asid := r.asid, port := p,
                           words := r.payload x.1 } r.dep.isSome with
      | none => s
      | some t => t.modRop n fun y => { y with xl := some x, page := s.ropPage r, plane := some p, sentAt := s.now }

/-- What the source finds of a dependency (R389): a token of its own that has landed is none; one that failed ends the store. -/
def State.sourceDep (s : State) (r : Rop) : Rop :=
  match r.dep with
  | none => r
  | some d => match s.heldTok (depTok d) with
    | some e =>
      if e.st = .landed then { r with dep := none }
      else if e.st = .failed then { r with res := some (0x0A, 0#64) }
      else r
    | none => r

/-- A watch sent for a token: to this package's own watch table, or over the fabric. -/
def State.sendWatch (s : State) (tok landing : Nat) (by' : Watcher) : Nat × State :=
  let (id, s) := s.fresh
  let w : Watch := { tok := tok, landing := landing, by' := by', made := s.now }
  let s := { s with watches := s.watches.set id w }
  if landing = s.pkg then (id, s)
  else
    let f : Flit := { kind := 9, dpkg := landing, spkg := s.pkg, xtag := id, asid := 0, port := 0, words := [BitVec.ofNat 64 tok] }
    match s.sendFrom (tok % 16) f with
    | some t =>
      let w := { w with plane := (s.liveFrom (tok % 16)).getD 0 }
      (id, { t with watches := t.watches.set id w })
    | none =>
      let w : Watch := { tok := tok, landing := landing, by' := by', made := s.now, st := .refused s.now }
      (id, { s with watches := s.watches.set id w })

/-- A `tokwait`'s message taken: its watch is sent, and the thread waits for the answer (R393). -/
def State.sendTokwait (s : State) (n : Nat) (r : Rop) : State :=
  match r.slot with
  | none => { s with rops := s.rops.erase n }
  | some k =>
    let (id, s) := { s with rops := s.rops.erase n }.sendWatch (depTok r.addr) (depLanding r.addr) (.thread k)
    s.modSlot k fun x => { x with rop := none, watch := some id }

/-- A message taken from the inbox: its token allocated, its dependency looked up, the gateway passed; then it is sent. -/
def State.takeRop (s : State) (n : Nat) (r : Rop) : State :=
  let before := anyB (fun k => decide (k.1 < n) && k.2.own && !k.2.taken && k.2.slot == r.slot && k.2.pd == r.pd
    && k.2.forHandler == r.forHandler) s.rops
  let got : Option (Option Nat × State) := match r.tok with
    | none => some (none, s)
    | some _ => (match s.allocTok n with | some (t, s) => some (some t, s) | none => none)
  match (if before || !s.beatFits r.pd r.asid then none else got) with
  | none => s
  | some (tok, s) =>
    let r := { r with taken := true, tok := tok }
    let r := if s.dieDown (8 + r.pd) then { r with res := some (8, 0#64) }
      else if !s.dieAdmits r.pd r.asid then { r with res := some (0x0B, 0#64) }
      else s.sourceDep r
    let s := if r.res = some (0x0B, 0#64) then s.countAtDie r.asid else s
    let s := (s.modRop n fun _ => r).countBeats r.pd r.asid 1
    if r.res.isSome then s else if r.kind = .token then s.sendTokwait n r else s.sendRop n r

/-- ENGINE_MESSAGE_ACCEPT (R85): a message for an engine's inbox; a remote unit takes its message and sends it on when it can. -/
def execEngineMessageAccept (n e : Nat) (s : State) : Out :=
  .next (match s.rops.get? n with
    | none => s.copyInbox n e
    | some r =>
      if !r.own || r.res.isSome then s
      else if !r.taken then s.takeRop n r
      else if r.xl.isNone then s.sendRop n r
      else s)

/-! ### Replies (R86, R377) -/

/-- An operation's reply reaches its thread, or the queue manager where the thread has ended (R403, R415). A store that its thread
still stands in is kept until the thread's turn (R376). -/
def State.ropReplied (s : State) (n : Nat) (r : Rop) : State :=
  let st := (r.res.getD (0, 0#64)).1
  if r.orphan then
    let s := { s with rops := s.rops.erase n }.freeTok n r
    if st ≠ 0 then s.lateError r.job r.ord (ropCause st) else s
  else
    let waits := match r.slot with | some k => (s.slot k).rop == some n | none => false
    let s := if r.kind = .store && st = 0 && !waits then { s with rops := s.rops.erase n }
      else s.modRop n fun r => { r with replied := true }
    match r.slot with | some k => s.modSlot k (·.woken 2) | none => s

/-- The reply of another package's operation goes back on the plane that it came on (R365). -/
def State.replyAbroad (s : State) (n : Nat) (r : Rop) : State :=
  match r.src, r.res with
  | some (pkg, xtag), some (st, v) =>
    let f : Flit := { kind := r.kind.flit + 1, dpkg := pkg, spkg := s.pkg, xtag := xtag, asid := r.asid, port := 0,
                      words := [v, BitVec.ofNat 64 st] }
    (match s.sendOn (r.plane.getD 0) f with
      | some t => { t with rops := t.rops.erase n }
      | none => s)
  | _, _ => s

/-- Whether an operation's outcome is complete: a token it allocated has been recorded where it lands (R390), and the
requests combined into it have been answered (R380). -/
def State.settled (s : State) (r : Rop) : Bool := r.res.isSome && r.comb.isEmpty && (r.recorded || r.tok.getD 0 == 0 || !s.here r)

/-- REPLY (R86): a copy's reply, a remote operation's, or the one that another package's operation is sent. -/
def execReply (n : Nat) (s : State) : Out :=
  .next (match s.copies.get? n with
    | some c => s.copyReply n c
    | none => match s.rops.get? n with
      | none => s
      | some r =>
        if !s.settled r || r.replied || r.kind = .xlat then s
        else if !r.own then s.replyAbroad n r
        else if r.kind = .store then s
        else s.ropReplied n r)

/-- REMOTE_STORE_COMPLETION (R377, R388): a store's completion reaches its source, and its token LANDED or FAILED. -/
def execRemoteStoreCompletion (n : Nat) (s : State) : Out :=
  .next (match s.rops.get? n with
    | none => s
    | some r =>
      if !r.own || r.kind ≠ .store || !r.taken || !s.settled r || r.replied then s
      else (s.settleTok n r ((r.res.getD (0, 0#64)).1 == 0)).ropReplied n r)

/-! ### tokwait (R393) -/

/-- The thread's earliest unreported error (R377, R393). -/
def State.firstError (s : State) : Option (Nat × Rop) :=
  s.rops.find? fun k => k.2.slot == some s.cur && !k.2.orphan && k.2.replied
    && (match k.2.res with | some r => r.1 != 0 | none => false)

/-- A token's outcome known to this package by its table: 0 landed, a status where it failed, none while it is in flight (R393). -/
def State.tokOutcome (s : State) (e : TokEnt) : Option (Nat × State) :=
  match e.st with
  | .landed => some (0, s)
  | .failed => match s.rops.get? e.op with
    | some r =>
      if r.slot = some s.cur && !r.orphan then
        let s := { s with rops := s.rops.erase e.op }
        some ((r.res.getD (0x0A, 0#64)).1, s.freeTok e.op r)
      else some (0x0A, s)
    | none => some (0x0A, s)
  | _ => none

/-- A `tokwait` whose token's fate only another table knows: its message is sent at its first turn, then the watch's answer is
waited for; a message that was refused is trap 0x15 (log 37). -/
def exeTokwaitWatch (s : State) (d : W64) (b : BitVec 5) : Exe :=
  match s.thr.rop, s.thr.watch with
  | some m, _ => (match s.rops.get? m with
    | some r => if r.replied then finRemote b id ({ s with rops := s.rops.erase m }.setThr { s.thr with rop := none }) r else .turn s
    | none => .turn (s.setThr { s.thr with rop := none }))
  | none, some id => (match s.watches.get? id with
    | some w => (match w.st with
      | .answered ok =>
        exePut ({ s with watches := s.watches.erase id }.setThr { s.thr with watch := none }) b
          (BitVec.ofNat 64 (if ok then 0 else 0x0A))
      | _ => .turn s)
    | none => .turn (s.setThr { s.thr with watch := none }))
  | none, none =>
    let r := s.newRop .token d 8 0#3 false false
    if !s.ropRoom r then .turn s
    else
      let (id, s) := s.putRop r
      .turn (s.setThr { s.thr with rop := some id })

/-- tokwait's own part. With s(a) = 0 it reports one error a time: eret runs it again, for the next error or for 0 (R393). -/
def exeTokwait (s : State) (d : W64) (b : BitVec 5) : Exe :=
  if d = 0#64 then
    if s.ropsOut s.cur then .turn s
    else match s.firstError with
    | none => exePut s b 0#64
    | some (n, r) =>
      let st := (r.res.getD (0, 0#64)).1
      let s := { s with rops := s.rops.erase n }.freeTok n r
      .trap (s.setThr (s.thr.putS b.toNat (replyWord st 0)))
        { cause := ropCause st, tval := r.addr, rsts := st, again := true }
  else if depBad d then exeTrap s 0x04 d
  else if tokSerial (depTok d) = 0 then exePut s b 0#64
  else match s.heldTok (depTok d) with
  | some e => match s.tokOutcome e with
    | some (st, s) => exePut s b (BitVec.ofNat 64 st)
    | none => .turn s
  | none => exeTokwaitWatch s d b

/-- tokwait (R393). -/
def execTokwait (st : BitVec 3) (a b : BitVec 5) (s : State) : Out :=
  runInsn (.tokwait st a b) st (fun s => exeTokwait s (s.rs a) b) s

end Sys2Proof.Machine
end

