-- ==== Sys2Proof/Machine/Tlb.lean ====
section
/-! DEFINITION. Withdrawing translations: `tlbinv`, `tlbsync` and the holders' acknowledgements (R311 to R317); refresh and its
takeover (R299 to R301); enumeration of CXL ports (R303, R451). -/

namespace Sys2Proof.Machine

/-! ### Invalidations (R312 to R315) -/

/-- The holders of a course: its CP, its engine's load pipes, the generators of its ports (R313). -/
def courseHolders (c : Nat) : List Nat := [holdCp c, holdPipe c] ++ (rangeFrom 0 8).map (holdGen c)

/-- The copy engines of a port die. -/
def dieHolders (d : Nat) : List Nat := (rangeFrom 0 8).map (holdEngine d)

/-- The holders that a scope reaches from a course (R313). -/
def holdersIn (scope c : Nat) : List Nat :=
  let d := dieOf c
  match scope with
  | 1 => courseHolders c
  | 2 => (rangeFrom (d * 32) 32).flatMap courseHolders ++ dieHolders ((d + 7) % 8) ++ dieHolders d
  | _ =>
    (rangeFrom 0 256).flatMap courseHolders ++ (rangeFrom 0 8).flatMap dieHolders ++ [holdQm, holdWalker]
      ++ (if scope = 4 then [holdRemote] else [])

/-- tlbinv's own part (R312). -/
def exeTlbinv (s : State) (pg cnt : W64) (scope : Nat) (all : Bool) : Exe :=
  let range := (s.part s.threadPart).pasid
  let asid := bitsAt pg.toNat 11 0
  if bitsAt pg.toNat 63 48 ≠ 0 ∨ (all ∧ asid ≠ 0) ∨ (!all ∧ !inRange range asid) then exeTrap s 0x04 pg
  else
    let lo := if cnt = 0#64 then 0 else bitsAt pg.toNat 47 12 * 4096
    let hi := if cnt = 0#64 then 2 ^ 48 else min (2 ^ 48) (lo + cnt.toNat * 4096)
    let (id, s) := s.fresh
    let v : Inval :=
      { slot := s.cur, asidLo := if all then bitsAt range.toNat 11 0 else asid,
        asidN := if all then bitsAt range.toNat 28 16 else 1, lo := lo, hi := hi, scope := scope,
        waiting := holdersIn scope (courseOf s.cur) }
    .done ({ s with invals := s.invals.set id v }.setThr { s.thr with
      invs := s.thr.invs ++ [id], invScope := max s.thr.invScope scope })

/-- tlbinv (R312). -/
def execTlbinv (st : BitVec 3) (a b : BitVec 5) (c : BitVec 3) (g : BitVec 1) (s : State) : Out :=
  runInsn (.tlbinv st a b c g) st
    (fun s => exeTlbinv s (s.rs a) (s.rs b) c.toNat (g == 1#1)) s

/-- Whether an invalidation has been acknowledged by all. -/
def State.invDone (s : State) (i : Nat) : Bool := (s.invals.get? i).isNone

/-- tlbsync (R315): it waits for the acknowledgements of the thread's earlier invalidations. -/
def execTlbsync (st : BitVec 3) (s : State) : Out :=
  runInsn (.tlbsync st) st
    (fun s => if allB s.invDone s.thr.invs then .done (s.setThr { s.thr with invs := [], invScope := 0 }) else .turn s) s

/-- Whether a cached translation is withdrawn by an invalidation (R312). -/
def Inval.hits (v : Inval) (asid va size : Nat) : Bool :=
  decide (v.asidLo ≤ asid) && decide (asid < v.asidLo + v.asidN) && decide (va < v.hi) && decide (v.lo < va + size)

/-- A holder without the leaves and pointers that an invalidation withdraws (R312, R313). -/
def State.withdraw (s : State) (v : Inval) (holder : Nat) : State :=
  let keep := fun (l : List TlbEnt) => l.filter fun e => !v.hits e.asid e.va e.size
  { s with tlbs := s.tlbs.modify [] holder keep, ptrs := s.ptrs.modify [] holder keep }

/-- The lists of remote holders of an invalidation's pages cleared, where it is this package's own at system scope (R386). -/
def State.clearHolders (s : State) (v : Inval) : State :=
  if v.src.isNone && v.scope == 4 then
    let dirs : Map (List DirEnt) := s.dirs.map fun (kl : Nat × List DirEnt) => (kl.1, kl.2.filter fun e => !v.hits e.asid e.va e.size)
    { s with dirs := dirs }
  else s

/-- An acknowledgement: the invalidation is over once none is missing, and its pages have no remote holders then. -/
def State.acknowledge (s : State) (i holder : Nat) : State :=
  match s.invals.get? i with
  | none => s
  | some v =>
    let w := v.waiting.filter (· ≠ holder)
    if w.isEmpty then { s with invals := s.invals.erase i }.clearHolders v
    else { s with invals := s.invals.set i { v with waiting := w } }

/-- Whether an invalidation withdraws what a parked access waits for (R314). -/
def Inval.cancels (v : Inval) (holder : Nat) (k : Parked) : Bool := k.holder == holder && v.hits k.asid k.va 1

/-- INVALIDATION_RECEIVE (R314): a holder drops what the invalidation withdraws, cancels the accesses parked on it and
acknowledges; its other accesses are performed where they are made, so none is outstanding. A cancelled access walks again at
its stream's next turn and takes what the page table then gives. The remote holders answer in TARGET_INVALIDATION. -/
def execInvalidationReceive (inv holder : Nat) (s : State) : Out :=
  .next (match s.invals.get? inv with
    | none => s
    | some v =>
      if holder = holdRemote || decide (0x10000 ≤ holder) || v.src.isSome || !v.waiting.contains holder then s
      else
        { (s.withdraw v holder).acknowledge inv holder with parked := s.parked.filter fun k => !v.cancels holder k })

/-! ### Parked misses (R317) -/

/-- The address of a thread's memory instruction, where it has one; `some none` where it has one for each element. -/
def accessOf (s : State) : Instr → Option (Option Nat)
  | .ld _ _ a z o => some (some (eaOff s a o z.toNat).toNat)
  | .st _ _ a z o => some (some (eaOff s a o z.toNat).toNat)
  | .ldx _ _ a b z => some (some (eaIdx s a b z.toNat).toNat)
  | .stx _ _ a b z => some (some (eaIdx s a b z.toNat).toNat)
  | .amoAdd _ _ a _ _ _ => some (some (s.rs a).toNat)
  | .amoAdds _ _ a _ _ _ => some (some (s.rs a).toNat)
  | .amoAnd _ _ a _ _ _ => some (some (s.rs a).toNat)
  | .amoOr _ _ a _ _ _ => some (some (s.rs a).toNat)
  | .amoXor _ _ a _ _ _ => some (some (s.rs a).toNat)
  | .amoMin _ _ a _ _ _ => some (some (s.rs a).toNat)
  | .amoMax _ _ a _ _ _ => some (some (s.rs a).toNat)
  | .amoMinn _ _ a _ _ _ => some (some (s.rs a).toNat)
  | .amoMaxn _ _ a _ _ _ => some (some (s.rs a).toNat)
  | .amoSwap _ _ a _ _ _ => some (some (s.rs a).toNat)
  | .amoFadd _ _ a _ _ _ => some (some (s.rs a).toNat)
  | .cas _ _ a _ _ _ => some (some (s.rs a).toNat)
  | .ldacq _ _ a _ _ => some (some (s.rs a).toNat)
  | .strel _ _ a _ _ => some (some (s.rs a).toNat)
  | .vld _ _ _ _ => some none
  | .vlds _ _ _ _ _ => some none
  | .vldx _ _ _ _ _ _ => some none
  | .vldxa _ _ _ _ _ _ => some none
  | .vst _ _ _ _ => some none
  | .vsts _ _ _ _ _ => some none
  | .vstx _ _ _ _ _ _ => some none
  | .vstxa _ _ _ _ _ _ => some none
  | _ => none

/-- A thread's access misses in its CP's TLB and parks until the walk ends (R309, R317): its instruction has issued, and its
turns wait. -/
def State.parkThread (s : State) (i : Instr) (va : Nat) : State :=
  let s := s.landDue
  let u := usesOf s.thr i
  let h := holdCp (courseOf s.cur)
  match accessOf s i with
  | none => s
  | some ea =>
    if (ea.getD va) ≠ va || va ≥ 2 ^ 48 || inScratch va || (tlbFind s.thr.asid va (s.tlbs.getD [] h)).isSome then s
    else match s.boundary u (wordOf i) with
      | some t => t
      | none =>
        let k : Parked := { slot := some s.cur, holder := h, asid := s.thr.asid, va := va }
        { s.underWay u (wordOf i) s.thr.grp with parked := k :: s.parked }

/-- An access of a copy's next piece misses in its engine's TLB and parks (R317): the copy, and the release behind its pieces,
waits. -/
def State.parkCopy (s : State) (id va : Nat) : State :=
  match s.copies.get? id with
  | none => s
  | some c => match c.eng with
    | none => s
    | some e =>
      let h := holdEngine c.pd e
      if !c.accepted || c.res.isSome || c.parked || c.next ≥ c.total || va ≥ 2 ^ 48 || (tlbFind c.asid va (s.tlbs.getD [] h)).isSome then s
      else
        let k : Parked := { copy := some id, holder := h, asid := c.asid, va := va }
        { s with parked := k :: s.parked }

/-- PARKED_ACCESS_RESOLVE (R309, R317): the walk of a miss ends; a valid leaf is kept by its holder, and the accesses parked on
the page go on: each is sent or faulted at its stream's next turn. -/
def execParkedAccessResolve (holder asid : Nat) (va : W64) (s : State) : Out :=
  let t := s.tlbFill holder asid va.toNat
  .next { t with parked := t.parked.filter fun k => !(k.holder == holder && k.asid == asid && k.va / 4096 == va.toNat / 4096) }

/-! ### Refresh (R299 to R301) -/

/-- A row group's key: its stack and number. -/
def rowKey (stack rg : Nat) : Nat := stack * 2 ^ 22 + rg

/-- The retention window, 32 ms, and the C-cycles before its end by which a group is refreshed, 16 µs (R299). -/
def retention : Nat := 38400000
def refreshLead : Nat := 19200

/-- A row group as it stands now (R299): where its window has come within 16 µs of its end, it has been refreshed then, or its
refresh skipped where every row was activated and skipping is in force. -/
def RowGroup.roll (g : RowGroup) (skip : Bool) (now : Nat) : RowGroup :=
  let w := retention - refreshLead
  if now < g.since + w then g
  else { since := now - (now - g.since) % w, bits := 0#16, skipped := skip && g.bits == BitVec.allOnes 16 && decide (now < g.since + 2 * w) }

/-- Whether a stack's refresh skipping is in force (R300, R301). -/
def State.skips (s : State) (stack : Nat) : Bool := bitAt (s.hrsOf stack).toNat 0

/-- A row group now. -/
def State.rowGroup (s : State) (stack rg : Nat) : RowGroup :=
  (s.rowGroups.getD {} (rowKey stack rg)).roll (s.skips stack) s.now

/-- An activation of a location's row sets its bit in its group's bitmap (R296, R299). When an access opens a row is the memory
controller's (log 40). -/
def State.rowActivate (s : State) (loc : Nat) : State :=
  if loc < 2 ^ 39 then
    let a := hbmSplit loc
    let g := s.rowGroup a.stack a.rowGroup
    { s with rowGroups := s.rowGroups.set (rowKey a.stack a.rowGroup) { g with bits := g.bits ||| 1#16 <<< (a.row % 16) } }
  else s

/-- The listed row groups of a stack, by number. -/
def State.rowsOf (s : State) (stack : Nat) : List Nat :=
  (s.rowGroups.filter fun kg => kg.1 / 2 ^ 22 == stack).map fun kg => kg.1 % 2 ^ 22

/-- The deadline that a stack manager's last heartbeat carried for a row group (R300). -/
def StackMgr.deadline (m : StackMgr) (rg : Nat) : Nat :=
  (match m.carried.get? rg with | some t => t | none => (({} : RowGroup).roll false m.lastBeat).since) + retention

/-- Whether a port die that has taken over has still to refresh a row group for the first time (R300). -/
def State.awaits (s : State) (stack t0 rg : Nat) : Bool := decide ((s.rowGroup stack rg).since < t0)

/-- Whether row groups that nothing has listed wait for their first refresh since a takeover at `t0`. -/
def State.plainAwait (s : State) (stack t0 : Nat) : Bool :=
  decide ((s.rowsOf stack).length < 2 ^ 22) && decide ((({} : RowGroup).roll false s.now).since < t0)

/-- Whether the port die's first pass since a takeover at `t0` goes on: some row group waits for its refresh (R300). -/
def State.firstPass (s : State) (stack t0 : Nat) : Bool := anyB (s.awaits stack t0) (s.rowsOf stack) || s.plainAwait stack t0

/-- Whether the port die's refresh comes to a row group: in its first pass, one that waits while no group with an earlier deadline
does (R300). -/
def State.nextDeadline (s : State) (stack rg : Nat) : Bool :=
  let m := s.stackMgrs.getD {} stack
  match m.tookAt with
  | none => true
  | some t0 => !s.firstPass stack t0 || (s.awaits stack t0 rg
      && allB (fun r => !s.awaits stack t0 r || decide (m.deadline rg ≤ m.deadline r)) (s.rowsOf stack)
      && (!s.plainAwait stack t0 || decide (m.deadline rg ≤ (({} : RowGroup).roll false m.lastBeat).since + retention)))

/-- The row groups that one refresh reaches: the group, or, once the port die's first pass is over, the same
rows of every bank of the pseudo-channel (R300: all-bank refresh). -/
def State.refreshed (s : State) (stack rg : Nat) : List Nat :=
  let m := s.stackMgrs.getD {} stack
  match m.tookAt with
  | some t0 =>
    if s.firstPass stack t0 then [rg]
    else (rangeFrom 0 16).map fun b => rg / 2 ^ 16 * 2 ^ 16 + b * 2 ^ 12 + rg % 2 ^ 12
  | none => [rg]

/-- REFRESH_ROW_GROUP (R299, R300): the group is refreshed, or, where every row of it has been activated in its window and skipping
is in force, its refresh is skipped; its bitmap clears and a new window begins. -/
def execRefreshRowGroup (stack rg : Nat) (s : State) : Out :=
  .next (if stack < 8 ∧ rg < 2 ^ 22 ∧ s.nextDeadline stack rg then
      (s.refreshed stack rg).foldl (fun t r =>
        let g : RowGroup :=
          { since := s.now, bits := 0#16, skipped := s.skips stack && (s.rowGroup stack r).bits == BitVec.allOnes 16 }
        { t with rowGroups := t.rowGroups.set (rowKey stack r) g }) s
    else s)

/-- STACK_HEARTBEAT (R300): every 1,200 C-cycles the stack manager's heartbeat reaches its port die with the next deadline of
every row group. -/
def execStackHeartbeat (stack : Nat) (s : State) : Out :=
  let m := s.stackMgrs.getD {} stack
  let m : StackMgr :=
    { m with lastBeat := s.now, missed := 0, carried := (s.rowsOf stack).map fun r => (r, (s.rowGroup stack r).since) }
  .next (if stack < 8 ∧ (s.stackMgrs.getD {} stack).lastBeat + 1200 ≤ s.now then { s with stackMgrs := s.stackMgrs.set stack m }
    else s)

/-- REFRESH_TAKEOVER (R300, R301): two heartbeats missed in a row; the port die refreshes from here on, without skipping. -/
def execRefreshTakeover (stack : Nat) (s : State) : Out :=
  let h := (s.hrsOf stack).toNat
  .next (if stack < 8 ∧ !bitAt h 1 ∧ (s.stackMgrs.getD {} stack).lastBeat + 2400 ≤ s.now then
      { s with
        hrs := s.hrs.set stack (BitVec.ofNat 64 ((bitsAt h 63 32 + 1) % 2 ^ 32 * 2 ^ 32 + 2))
        stackMgrs := s.stackMgrs.modify {} stack fun m => { m with missed := 2, tookAt := some s.now } }
    else s)

/-- STACK_MANAGER_RESET (R300): management ends the takeover; skipping is in force again. -/
def execStackManagerReset (stack : Nat) (s : State) : Out :=
  let h := (s.hrsOf stack).toNat
  .next (if stack < 8 then
      { s.awake with
        hrs := s.hrs.set stack (BitVec.ofNat 64 (bitsAt h 63 32 * 2 ^ 32 + 1))
        stackMgrs := s.stackMgrs.set stack { lastBeat := s.now } }
    else s)

/-! ### The second tier (R303, R451) -/

/-- CXL_ENUMERATION (R303, R413, R451): firmware enumerates a port and sets CXLCAPj from the device's capacity in bytes, none
for a port without a device or whose enumeration failed. -/
def execCxlEnumeration (port : Nat) (cap : Option Nat) (s : State) : Out :=
  .next (if port < 16 then
      let v : W64 := match cap with
        | some b => BitVec.ofNat 64 (2 ^ 14 + min 8192 (b / 2 ^ 28))
        | none => 0#64
      { s with
        cxlcap := s.cxlcap.set port v
        dies := s.dies.modify {} (8 + port / 2) fun d => { d with enumerating := d.enumerating.filter (· ≠ port % 2) } }
    else s)

end Sys2Proof.Machine
end

