-- ==== Sys2Proof/Machine/Target.lean ====
section
/-! DEFINITION. Remote operations at their home: translation requests and the directory of holders (R385, R386), the accesses
(R374, R379), combining at the bond switches (R380), atomic handlers (R381 to R384), and withdrawn translations. -/

namespace Sys2Proof.Machine

/-! ### Translation at the target (R385, R386) -/

/-- Holders a page has at most, pages of a port die's directory, and entries of its remote translation cache. -/
def holdersPerPage : Nat := 16
def directoryPages : Nat := 16384
def rtcEntries : Nat := 4096

/-- Where an address's page begins and its size, as its translations that remote holders keep have it, and as the tables do. -/
def State.pagesAt (s : State) (asid va : Nat) : List (Nat × Nat) :=
  let size := match s.walk asid va with | some (e, lvl) => leafSize e.toNat lvl | none => 4096
  (va - va % size, size) :: ((s.dirs.flatMap (·.2)).filter fun e =>
    e.asid == asid && decide (e.va ≤ va) && decide (va < e.va + e.size)).map fun e => (e.va, e.size)

/-- Whether an own invalidation at system scope is under way on the page of an address, in any byte of it (R312, R385). -/
def State.pageWithdrawn (s : State) (asid va : Nat) : Bool :=
  anyB (fun v => v.src.isNone && v.scope == 4 && anyB (fun p => v.hits asid p.1 p.2) (s.pagesAt asid va)) s.invals.vals

/-- What a port die's walk of its own tables finds for a remote sender: the leaf with its level, or a status. -/
def State.remoteWalk (s : State) (asid va : Nat) (sup : Bool) (k : AKind) : Except Nat (W64 × Nat) :=
  match s.walk asid va with
  | none => .error 9
  | some (e, lvl) =>
    if !leafAllows sup k e.toNat then .error 4
    else match s.translate holdNone asid sup k va with
    | .ok _ _ => .ok (e, lvl)
    | .fault c => .error (if c = 0x08 then 5 else 4)

/-- A holder (package × 8 + port die) recorded for a page in a port die's directory (R386). -/
def State.recordHolder (s : State) (pd asid va size holder : Nat) : State :=
  let page := va - va % size
  let l := s.dirs.getD [] pd
  let l' := match l.find? fun e => e.asid == asid && e.va == page with
    | some e => l.map fun f => if f = e then
        (if f.broadcast || f.holders.contains holder then f
         else if f.holders.length < holdersPerPage then { f with holders := f.holders ++ [holder] }
         else { f with broadcast := true }) else f
    | none =>
      if l.length < directoryPages then { asid := asid, va := page, size := size, holders := [holder] } :: l
      else { asid := asid, va := page, size := size, broadcast := true } :: l
  { s with dirs := s.dirs.set pd l' }

/-- A translation kept by a port die's remote translation cache. -/
def State.rtcKeep (s : State) (pd : Nat) (e : RXlat) : State :=
  { s with rtcs := s.rtcs.modify [] pd fun l => e :: l.take (rtcEntries - 1) }

/-- The kind of access a translation request asks for, by its code in the flit (log 21). -/
def needOf (code : Nat) : AKind := if code = 0 then .load else if code = 1 then .store else .atomic

/-- Whether a package admits remote traffic of an ASID at a port die (R385). -/
def State.remoteAdmits (s : State) (pd asid : Nat) : Bool :=
  anyB (fun a => (inRange a.pasid asid || inRange a.padmit asid) && bitsAt (a.pshare.getD 0#64 pd).toNat 6 0 ≠ 0) s.parts.vals

/-- A translation request of this package to itself: the page walked, kept and its holder recorded, or the operation ended. -/
def State.xlatHere (s : State) (n : Nat) (r : Rop) (k : AKind) : State :=
  if s.pageWithdrawn r.asid r.va then s
  else if !s.remoteAdmits r.pd r.asid then (s.countAtDie r.asid).endRop n 0x0B
  else match s.remoteWalk r.asid r.va r.sup k with
  | .error st => s.endRop n st
  | .ok (e, lvl) =>
    let size := leafSize e.toNat lvl
    (s.rtcKeep r.pd { pkg := s.pkg, asid := r.asid, va := r.va - r.va % size, size := size, pte := e, lvl := lvl }).recordHolder
      r.pd r.asid r.va size (s.pkg * 8 + r.pd)

/-- What a watch's answer makes of it: one for a `tokwait` that comes after 400 µs gives what no answer gives (R393). -/
def Watch.fate (w : Watch) (now : Nat) (ok : Bool) : WatchSt :=
  match w.by' with
  | .thread _ => .answered (ok && decide (now ≤ w.made + 480000))
  | _ => .answered ok

/-- A token recorded in the landed table (R390): none while no entry is free; the watches for it made within 400 µs are answered. -/
def State.land? (s : State) (tok : Nat) (ok : Bool) : Option State :=
  let e : Landed := { tok := tok, ok := ok, since := s.now }
  let room : Option (List Landed) :=
    if s.landed.length < 262144 then some (s.landed ++ [e])
    else match s.landed with
    | [] => none
    | f :: r => if f.since + 240000 ≤ s.now then some (r ++ [e]) else none
  match room with
  | none => none
  | some l =>
    some { s with
      landed := l
      watches := s.watches.map fun kw => (kw.1, match kw.2.st with
        | .entered t => if kw.2.tok = tok ∧ s.now < t + 480000 then { kw.2 with st := kw.2.fate s.now ok } else kw.2
        | _ => kw.2) }

/-- A translation request of another package: walked and answered on the plane it came on, with status 0x08 where its port die
has been reset (R411); a refusal of a token's store records it FAILED, and waits for room in the landed table (R365, R385, R390). -/
def State.xlatAbroad (s : State) (n : Nat) (r : Rop) : State :=
  match r.src with
  | none => s
  | some (pkg, xtag) =>
    let pd := (r.plane.getD 0) / 2
    let k := needOf r.code
    if r.res.isNone && s.pageWithdrawn r.asid r.va then s
    else
      let res : Except Nat (W64 × Nat) :=
        if r.res.isSome || s.dieDown (8 + pd) then .error 8
        else if !s.remoteAdmits pd r.asid then .error 0x0B
        else s.remoteWalk r.asid r.va r.sup k
      let words : List W64 := match res with
        | .error st => [0#64, 0#64, 0#64, BitVec.ofNat 64 st]
        | .ok (e, lvl) => [e, BitVec.ofNat 64 lvl, BitVec.ofNat 64 (leafAddr e.toNat lvl r.va), 0#64]
      let f : Flit := { kind := 0x0C, dpkg := pkg, spkg := s.pkg, xtag := xtag, asid := r.asid, port := 0, words := words }
      let told : Option State := match res with
        | .ok (e, lvl) => some (s.recordHolder pd r.asid r.va (leafSize e.toNat lvl) (pkg * 8 + r.entry % 8))
        | .error st =>
          let s := if st = 0x0B then s.countAtDie r.asid else s
          match r.tok with
          | some k => s.land? k false
          | none => some s
      match told with
      | none => s
      | some t => match t.sendOn (r.plane.getD 0) f with
        | none => s
        | some t => { t with rops := t.rops.erase n }

/-- TRANSLATION_REQUEST (R385): the page of an operation is asked for, or walked for whoever asks. -/
def execTranslationRequest (n : Nat) (s : State) : Out :=
  .next (match s.rops.get? n with
    | none => s
    | some r =>
      if r.kind = .xlat then s.xlatAbroad n r
      else if !r.own || !r.taken || r.xl.isSome || r.res.isSome || !s.asksXlat r then s
      else match r.need with
      | none => s
      | some k =>
        if r.dpkg = s.pkg then s.xlatHere n r k
        else if r.asked then s
        else
          let code := match k with | .load => 0 | .store => 1 | _ => 2
          match s.liveFrom r.homePlane with
          | none => s.endRop n 0x0C
          | some p =>
            let f : Flit :=
              { kind := 0x0B, dpkg := r.dpkg, spkg := s.pkg, xtag := n, asid := r.asid, port := p,
                words := [r.addr, BitVec.ofNat 64 (code + 4 * b2n r.sup), BitVec.ofNat 64 (r.tok.getD 0)] }
            match s.sendFlit p f false with
            | some t => t.modRop n fun r => { r with asked := true, plane := some p }
            | none => s)

/-! ### Withdrawn remote translations (R386) -/

/-- The number under which a holder of another package stands among those awaited. -/
def remoteHolder (h : Nat) : Nat := 0x1000000 + h

/-- The cached translations of a package's pages that an invalidation withdraws, dropped. -/
def State.dropRemote (s : State) (pkg : Nat) (v : Inval) : State :=
  { s with rtcs := s.rtcs.map fun kl => (kl.1, kl.2.filter fun e => !(e.pkg == pkg && v.hits e.asid e.va e.size)) }

/-- Whether an operation of this package still uses a withdrawn translation of a package: one of its page. -/
def State.usesWithdrawn (s : State) (pkg : Nat) (v : Inval) : Bool :=
  anyB (fun r => r.own && r.dpkg == pkg && r.need.isSome && r.xl.isSome && r.res.isNone
    && (let p := r.page.getD (r.va, r.size); v.hits r.asid p.1 p.2)) s.rops.vals

/-- The holders of the pages in an invalidation's range: every port die of every package where a page is marked broadcast. -/
def State.holdersOf (s : State) (v : Inval) : List Nat :=
  let pages := (s.dirs.flatMap (·.2)).filter fun e => v.hits e.asid e.va e.size
  let hs := if anyB (·.broadcast) pages then rangeFrom 0 32768 else (pages.flatMap (·.holders)).dedup
  hs.filter fun h => h / 8 ≠ s.pkg

/-- Invalidations sent to holders of other packages: none where one cannot be sent. -/
def State.tellHolders (s : State) (inv : Nat) (v : Inval) : List Nat → Option State
  | [] => some s
  | h :: r =>
    let f : Flit :=
      { kind := 0x0D, dpkg := h / 8, spkg := s.pkg, xtag := inv, asid := v.asidLo, port := 0,
        words := [BitVec.ofNat 64 v.asidLo, BitVec.ofNat 64 v.asidN, BitVec.ofNat 64 v.lo, BitVec.ofNat 64 v.hi,
                  BitVec.ofNat 64 h] }
    match s.sendFrom (h % 8 * 2) f with
    | none => none
    | some t => t.tellHolders inv v r

/-- The remote holders of an own invalidation told. -/
def State.tellRemote (s : State) (inv : Nat) (v : Inval) : State :=
  let hs := s.holdersOf v
  match s.tellHolders inv v hs with
  | none => s
  | some t =>
    let w : Inval := { v with told := true, waiting := v.waiting ++ hs.map remoteHolder }
    { t with invals := t.invals.set inv w }.dropRemote t.pkg v

/-- TARGET_INVALIDATION (R386): an invalidation at system scope reaches the remote holders, and this package's own remote units
acknowledge last, so that those of other packages can still be told again (R394); a holder acknowledges, on the plane the
invalidation came on, once its operations that used what it withdraws have been replied to. -/
def execTargetInvalidation (inv : Nat) (s : State) : Out :=
  .next (match s.invals.get? inv with
    | none => s
    | some v => match v.src with
      | some (pkg, xtag) =>
        let s := s.dropRemote pkg v
        if s.usesWithdrawn pkg v then s
        else
          let f : Flit :=
            { kind := 0x0E, dpkg := pkg, spkg := s.pkg, xtag := xtag, asid := v.asidLo, port := 0,
              words := [BitVec.ofNat 64 (v.waiting.headD 0 - remoteHolder 0)] }
          match s.sendOn v.plane f with
          | some t => { t with invals := t.invals.erase inv }
          | none => s
      | none =>
        if !v.waiting.contains holdRemote then s
        else if !v.told then s.tellRemote inv v
        else if s.usesWithdrawn s.pkg v || anyB (fun h => decide (remoteHolder 0 ≤ h)) v.waiting then s
        else s.acknowledge inv holdRemote)

/-! ### Accesses at the home (R374, R379) -/

/-- An operation ended at its home with a status; a refusal at a course's gateway is counted there (R93). -/
def State.refuseRop (s : State) (n : Nat) (r : Rop) (st : Nat) : State :=
  let s := if st ≠ 0x0B then s
    else if !s.remoteAdmits r.atDie r.asid then s.countAtDie r.asid
    else match r.xl.bind fun x => winCourse x.1 with
    | some c => s.countDrop c r.asid
    | none => s
  s.endRop n st

/-- The checks of an operation at its home: the status of the first that fails, or the physical address. -/
def State.homeCheck (s : State) (r : Rop) : Except Nat Nat :=
  let pa := (r.xl.getD (0, 0)).1
  if s.dieDown (8 + r.atDie) then .error 8
  else if !s.remoteAdmits r.atDie r.asid then .error 0x0B
  else if r.need.isNone then .ok 0
  else match s.placeOf pa with
  | .hole => .error 5
  | pl =>
    if !placeAllows r.sup pl then .error 4
    else if s.homeDown pa then .error 8
    else if (match winCourse pa with | some c => !s.courseAdmits c r.asid | none => false) then .error 0x0B
    else if r.need = some .atomic && !s.takesAtomics pa then .error 4
    else match pl with
      | .ram _ => if r.kind ≠ .store && !s.goodPhys pa r.size then .error 5 else .ok pa
      | _ => .ok pa

/-- Whether an operation must wait at its home: its dependency is not settled, or an earlier one of its thread to the location
has not been performed (R373, R389). -/
def State.homeWaits (s : State) (n : Nat) (r : Rop) : Bool :=
  (r.dep.isSome && !r.clear) || r.inside
    || anyB (fun k => decide (k.1 < n) && k.2.sameLocation r && k.2.res.isNone && (k.2.own || k.2.dep.isNone)) s.rops

/-! ### Handlers (R381 to R384) -/

def State.handler (s : State) (e : Nat) : Handler := s.handlers.getD {} e

/-- Whether a body's words are rejected (R382). -/
def bodyBad (ws : List W64) : Bool :=
  let b := ws.take 16
  let c := (nth 0#64 ws 16).toNat
  (brickBad b).isSome || bitsAt c 63 3 ≠ 0 || bitAt c 0 || anyB (fun w => w ≠ 0#64) (ws.drop 17)
    || brMcnt b ≠ 0 || !brMadv b || !brCons b 0 0 || !brCons b 0 1 || !brCons b 0 2 || brCons b 0 3
    || brInit b ≠ 0 || brTchk b || anyB (fun k => brStageOn b 0 k && (stOp b k == 0x3A || stOp b k == 0x3C)) (rangeFrom 0 6)
    || brOutOn b 0 0 != bitAt c 1 || brOutOn b 0 1 != bitAt c 2

/-- The invocations held on an entry (R384). -/
def State.heldOn (s : State) (e : Nat) : List (Nat × Rop) :=
  s.rops.filter fun k => k.2.kind == .handler 0 && k.2.entry == e && k.2.res.isNone && !k.2.ready && s.here k.2 && k.2.held.isSome

/-- How long an invocation is held, 4,096 A-cycles (R384). -/
def handlerHold : Nat := 8192

/-- The invocations held on an entry that has become VALID or EMPTY: those within their time run, or end with a status; the others
have found the handler busy (R384). -/
def State.endHolds (s : State) (e : Nat) (status : Option Nat) : State :=
  (s.heldOn e).foldl (fun s k => s.modRop k.1 fun r =>
    if s.now ≤ (r.held.getD 0) + handlerHold then
      match status with
      | none => { r with ready := true, held := none }
      | some st => { r with res := some (st, 0#64) }
    else { r with res := some (7, 0#64) }) s

/-- A management function at its target (R383): its status. -/
def State.manage (s : State) (r : Rop) (fn : Nat) : Nat × State :=
  let h := s.handler r.entry
  let set := fun (h : Handler) => { s with handlers := s.handlers.set r.entry h }
  match (if r.own && r.sup then s.partOfAsid r.asid else none) with
  | none => (4, s)
  | some p =>
    match fn with
    | 1 => (0, set { h with st := .updating, fresh := false })
    | 2 =>
      if h.st ≠ .updating then (1, s)
      else match s.vwords holdNone r.asid r.sup .load r.x.toNat 32 with
      | .error (c, _) => (statusOf c, s)
      | .ok ws => if bodyBad ws then (2, s) else (0, set { h with words := ws, fresh := true, part := p, lost := [] })
    | 3 => if h.st = .updating && h.fresh then (0, (set { h with st := .valid }).endHolds r.entry none) else (1, s)
    | _ => (0, (set {}).endHolds r.entry (some 6))

/-- Lanes 0 and 1 of a token from a 64-bit value (R382). -/
def pairTok (v : W64) : Tok := { lanes := v.zeroExtend 512, vm := 3#16 }

/-- A handler's brick fired on an old value: what it writes and what it returns (R382, R384). -/
def fireHandler (b : List W64) (free old : Nat) (x y : W64) : Nat × Nat :=
  let heads : Map Tok := [(0, pairTok (BitVec.ofNat 64 old)), (1, pairTok x), (2, pairTok y)]
  let f := stagesRun b 0 0 heads 3#16 0 free { prev := (rangeFrom 0 16).map fun _ => 0, p := 0#16, l := [] } 6
  let two := fun (o : Option (List Nat)) => (nth 0 (o.getD []) 0) % 2 ^ 32 + (nth 0 (o.getD []) 1) % 2 ^ 32 * 2 ^ 32
  (two f.o0, two f.o1)

/-- HANDLER_INVOCATION (R384): an invocation that has reached its home fires on its location, or waits or fails by its entry; a
location that reads as an error is one of a hole (R302). -/
def execHandlerInvocation (n : Nat) (s : State) : Out :=
  .next (match s.rops.get? n with
    | none => s
    | some r =>
      if r.kind ≠ .handler 0 || !r.ready || r.res.isSome then s
      else
        let h := s.handler r.entry
        let pa := (r.xl.getD (0, 0)).1
        let a := s.part h.part
        match h.st with
        | .empty => s.endRop n 6
        | .updating => s.modRop n fun r => { r with ready := false, held := some s.now }
        | .valid =>
          if h.lost.contains ((s.homeDie pa).getD 16) then s.endRop n 6
          else if !(inRange a.pasid r.asid || inRange a.padmit r.asid) then s.endRop n 0x0B
          else if !s.goodPhys pa 8 then s.endRop n 5
          else
            let c := (nth 0#64 h.words 16).toNat
            let old := s.readPhys pa 8
            let (w, v) := fireHandler (h.words.take 16) s.freeCnt old r.x r.y
            let s := { s with freeCnt := s.freeCnt + 96 }
            let s := if bitAt c 1 then s.writePhys pa w 8 else s
            s.modRop n fun r => { r with res := some (0, BitVec.ofNat 64 (if bitAt c 2 then v else old)) })

/-- HANDLER_HOLD_EXPIRY (R384): an invocation held on an UPDATING entry for 4,096 A-cycles. -/
def execHandlerHoldExpiry (n : Nat) (s : State) : Out :=
  .next (match s.rops.get? n with
    | none => s
    | some r => match r.held with
      | some t =>
        if r.kind = .handler 0 && r.res.isNone && !r.ready && decide (t + handlerHold ≤ s.now)
            && (s.handler r.entry).st = .updating then s.endRop n 7
        else s
      | none => s)

/-- Whether an invocation that has found its entry VALID has not fired yet (R384). -/
def State.runningOn (s : State) (e : Nat) : Bool :=
  anyB (fun r => r.kind == .handler 0 && r.entry == e && r.ready && r.res.isNone) s.rops.vals

/-- An operation performed at its home, at a physical address that has passed its checks. `begin` waits for the invocations that
run (R384). -/
def State.performRop (s : State) (n : Nat) (r : Rop) (pa : Nat) : State :=
  let ram := match s.placeOf pa with | .ram _ => true | _ => false
  let done := fun (s : State) (v : W64) => s.modRop n fun r => { r with res := some (0, v) }
  match r.kind with
  | .load =>
    if ram then done s (BitVec.ofNat 64 (s.readPhys pa r.size))
    else done { s with freeCnt := s.freeCnt + 1 } (s.devRead (s.placeOf pa) r.size)
  | .store =>
    if r.tok.isSome then s.modRop n fun r => { r with ready := true }
    else if ram then done (s.writePhys pa r.x.toNat r.size) 0#64
    else (match s.devWrite (some r.asid) (s.placeOf pa) r.x r.size with
      | some t => done t 0#64
      | none => s.endRop n 4)
  | .fadd =>
    let old := s.readPhys pa 8
    done (s.writePhys pa ((old + r.x.toNat) % 2 ^ 64) 8) (BitVec.ofNat 64 old)
  | .handler 0 => match (s.handler r.entry).st with
    | .empty => s.endRop n 6
    | .updating => s.modRop n fun r => { r with held := some (r.held.getD s.now) }
    | .valid => s.modRop n fun r => { r with ready := true }
  | .handler fn =>
    if fn = 1 && s.runningOn r.entry then s else let (st, s) := s.manage r fn; s.modRop n fun r => { r with res := some (st, 0#64) }
  | .xlat => s
  | .token => s

/-- An operation of another package let in by the gateway of the port die it has arrived at: one beat of its owner's partition;
none while the window has no slot for it (R94). -/
def State.letIn (s : State) (n : Nat) (r : Rop) : Option State :=
  if r.own || r.taken then some s
  else if s.beatFits r.atDie r.asid then some ((s.modRop n fun r => { r with taken := true }).countBeats r.atDie r.asid 1)
  else none

/-- REMOTE_OP_AT_TARGET (R374, R385): an operation whose home this package is, performed there; a store that allocates a token
is performed as it is recorded (LANDED_RECORD), an invocation as it fires (HANDLER_INVOCATION). -/
def execRemoteOpAtTarget (n : Nat) (s : State) : Out :=
  .next (match s.rops.get? n with
    | none => s
    | some r =>
      if !s.here r || r.xl.isNone || r.res.isSome || r.ready || s.homeWaits n r then s
      else match s.letIn n r with
      | none => s
      | some s => match s.homeCheck r with
        | .error st => s.refuseRop n r st
        | .ok pa => s.performRop n r pa)

/-! ### Combining (R380) -/

/-- The window in which two requests combine, in C-cycles (64 ns), and the entries of a wait buffer. -/
def combineWindow : Nat := 76
def waitBuffer : Nat := 512

/-- The addend that a request, combined or not, carries to its home (R380). -/
def State.carried (s : State) (n : Nat) (r : Rop) : W64 :=
  match s.forwarded.get? n with
  | some f => nth 0#64 f.words 1
  | none => r.x

/-- SWITCH_COMBINE (R380): a switch of a plane combines two rfadd requests to one address: it forwards one request that carries
the sum of their addends, under the first one's tag, and its wait buffer keeps the addends. -/
def execSwitchCombine (plane i j : Nat) (s : State) : Out :=
  .next (match s.rops.get? i, s.rops.get? j with
    | some a, some b =>
      let waiting := (s.rops.filter fun k => k.2.inside && k.2.plane == some plane).length
      if a.own && b.own && a.kind = .fadd && b.kind = .fadd && a.plane = some plane && b.plane = some plane
          && a.xl.isSome && b.xl.isSome && a.res.isNone && b.res.isNone && !a.inside && !b.inside && i ≠ j
          && a.addr = b.addr && a.asid = b.asid && decide (a.sentAt ≤ b.sentAt) && decide (b.sentAt ≤ a.sentAt + combineWindow)
          && decide (waiting < waitBuffer) then
        let sum : Rop := { a with x := s.carried i a + s.carried j b }
        let f : Flit := { kind := 5, dpkg := a.dpkg, spkg := s.pkg, xtag := i, asid := a.asid, port := plane,
                          words := sum.payload (a.xl.getD (0, 0)).1 }
        let s := { s with forwarded := (s.forwarded.erase j).set i f }
        (s.modRop j fun r => { r with inside := true, comb := [] }).modRop i fun r => { r with comb := r.comb ++ j :: b.comb }
      else s
    | _, _ => s)

/-- The requesters behind the first, each with its predecessors' addends added (R380). -/
def State.splitReply (s : State) (st : Nat) (v : W64) : List Nat → State
  | [] => s
  | j :: r =>
    let x := match s.rops.get? j with | some b => b.x | none => 0#64
    (s.modRop j fun b => { b with res := some (st, if st = 0 then v else 0#64), inside := false, comb := [] }).splitReply st (v + x) r

/-- COMBINED_REPLY_SPLIT (R380): the reply of a combined request split among its requesters. -/
def execCombinedReplySplit (plane i : Nat) (s : State) : Out :=
  .next (match s.rops.get? i with
    | some a => match a.res with
      | some (st, v) =>
        if a.plane = some plane && !a.inside then
          ({ s with forwarded := s.forwarded.erase i }.splitReply st (v + a.x) a.comb).modRop i fun r => { r with comb := [] }
        else s
      | none => s
    | none => s)

end Sys2Proof.Machine
end

