-- ==== Sys2Proof/Machine/Watch.lean ====
section
/-! DEFINITION. Dependent stores at their destination, the landed table and the watches (R389 to R393). -/

namespace Sys2Proof.Machine

/-- Entries of the hold queue, the landed table and the watch table. -/
def holdQueue : Nat := 8192
def landedTable : Nat := 262144
def watchTable : Nat := 16384

/-- 400 µs and 1 µs in C-cycles. -/
def holdLimit : Nat := 480000
def resendDelay : Nat := 1200

/-- What the landed table says of a token. -/
def State.landedAs (s : State) (tok : Nat) : Option Bool := (s.landed.find? fun e => e.tok == tok).map (·.ok)

/-- Whether a store waits here for its dependency. -/
def State.depWaits (s : State) (r : Rop) : Bool :=
  s.here r && (match r.kind with | .store => true | _ => false) && r.xl.isSome && !r.clear && r.res.isNone

/-- Stores in the hold queue. -/
def State.holdCount (s : State) : Nat := (s.rops.filter fun k => s.depWaits k.2 && k.2.dep.isSome && k.2.held.isSome).length

/-- DEPENDENT_STORE_ARRIVAL (R389): a store with a dependency at its destination: settled by the destination's own landed
table, or held with a watch sent; a full hold queue holds it back. -/
def execDependentStoreArrival (n : Nat) (s : State) : Out :=
  .next (match s.rops.get? n with
    | none => s
    | some r => match r.dep with
      | none => s
      | some d =>
        if !s.depWaits r || r.held.isSome then s
        else match s.letIn n r with
        | none => s
        | some s => match (if depLanding d = s.pkg then s.landedAs (depTok d) else none) with
          | some true => s.modRop n fun r => { r with clear := true }
          | some false => s.endRop n 0x0A
          | none =>
            if holdQueue ≤ s.holdCount then s
            else
              let s := s.modRop n fun r => { r with held := some s.now }
              (s.sendWatch (depTok d) (depLanding d) (.op n)).2)

/-- A token-allocating store performed at its home at the moment its token is recorded. -/
def State.recordStore (s : State) (n tok : Nat) (r : Rop) (pa : Nat) : State :=
  let done := fun (s : State) (st : Nat) => s.modRop n fun r => { r with res := some (st, 0#64), recorded := true }
  match s.placeOf pa with
  | .ram _ => match s.land? tok true with
    | some s => done (s.writePhys pa r.x.toNat r.size) 0
    | none => s
  | pl => match s.devWrite (some r.asid) pl r.x r.size with
    | some t => (match t.land? tok true with | some t => done t 0 | none => s)
    | none => (match s.land? tok false with | some s => done s 4 | none => s)

/-- LANDED_RECORD (R390): a token recorded at the moment its store is performed or fails; with no room the store waits. -/
def execLandedRecord (n : Nat) (s : State) : Out :=
  .next (match s.rops.get? n with
    | none => s
    | some r =>
      let tok := r.tok.getD 0
      if !s.here r || tok = 0 || r.recorded then s
      else match r.res with
      | some (0, _) => s
      | some _ => (match s.land? tok false with
        | some s => s.modRop n fun r => { r with recorded := true }
        | none => s)
      | none =>
        if !r.ready then s
        else match s.homeCheck r with
        | .error st => s.refuseRop n r st
        | .ok pa => s.recordStore n tok r pa)

def State.setWatch (s : State) (n : Nat) (w : Watch) (st : WatchSt) : State :=
  let w : Watch := { w with st := st }
  { s with watches := s.watches.set n w }

/-- Entries of the watch table in use: those made within 400 µs. -/
def State.watchCount (s : State) : Nat :=
  (s.watches.filter fun k => match k.2.st with | .entered t => decide (s.now < t + holdLimit) | _ => false).length

/-- WATCH_ARRIVAL (R390): a watch at the landing package. -/
def execWatchArrival (n : Nat) (s : State) : Out :=
  .next (match s.watches.get? n with
    | none => s
    | some w =>
      if w.landing ≠ s.pkg || w.st ≠ .sent then s
      else match s.landedAs w.tok with
      | some ok => s.setWatch n w (w.fate s.now ok)
      | none => if watchTable ≤ s.watchCount then s.setWatch n w (.refused s.now) else s.setWatch n w (.entered s.now))

/-- The last A-cycle in which an answer for a held store is used (R391). -/
def Rop.lastAnswer (r : Rop) : Nat := (r.held.getD 0 + holdLimit) / 2

/-- An answer at the store that waits for it: used up to the A-cycle of its expiry. -/
def State.answerStore (s : State) (n : Nat) (ok : Bool) : State :=
  match s.rops.get? n with
  | some r =>
    if !s.depWaits r || r.held.isNone || decide (r.lastAnswer < s.now / 2) then s
    else if ok then s.modRop n fun r => { r with clear := true } else s.endRop n 0x0A
  | none => s

/-- A watch's answer on its way to the package that sent it, on the plane the watch came on: 1 landed, 2 failed, 3 refused (R365,
log 21). -/
def State.answerAbroad (s : State) (n plane pkg xtag tok code : Nat) : State :=
  let f : Flit := { kind := 0x0A, dpkg := pkg, spkg := s.pkg, xtag := xtag, asid := 0, port := 0,
                    words := [BitVec.ofNat 64 tok, BitVec.ofNat 64 code] }
  match s.sendOn plane f with
  | some t => { t with watches := t.watches.erase n }
  | none => s

/-- WATCH_ANSWER (R391): an answer reaches the store or the thread that waits for it, or leaves for another package. -/
def execWatchAnswer (n : Nat) (s : State) : Out :=
  .next (match s.watches.get? n with
    | none => s
    | some w => match w.by', w.st with
      | .op m, .answered ok => { s with watches := s.watches.erase n }.answerStore m ok
      | .thread k, .answered _ => s.modSlot k (·.woken 2)
      | .pkg p x, .answered ok => s.answerAbroad n w.plane p x w.tok (if ok then 1 else 2)
      | .pkg p x, .refused _ => s.answerAbroad n w.plane p x w.tok 3
      | _, _ => s)

/-- A watch sent again: to this package's table or over the fabric. -/
def State.watchAgain (s : State) (n : Nat) (w : Watch) : State :=
  if w.landing = s.pkg then s.setWatch n w .sent
  else
    let f : Flit := { kind := 9, dpkg := w.landing, spkg := s.pkg, xtag := n, asid := 0, port := 0,
                      words := [BitVec.ofNat 64 w.tok] }
    match s.sendFrom (w.tok % 16) f with
    | some t => t.setWatch n { w with plane := (s.liveFrom (w.tok % 16)).getD 0 } .sent
    | none => s.setWatch n w (.refused s.now)

/-- WATCH_RESEND (R390): a refused watch is sent again after 1 µs. -/
def execWatchResend (n : Nat) (s : State) : Out :=
  .next (match s.watches.get? n with
    | some w => (match w.by', w.st with
      | .pkg _ _, _ => s
      | _, .refused t => if t + resendDelay ≤ s.now then s.watchAgain n w else s
      | _, _ => s)
    | none => s)

/-- WATCH_ENTRY_DROP (R390): an entry 400 µs old leaves the watch table; its watch is never answered. -/
def execWatchEntryDrop (n : Nat) (s : State) : Out :=
  .next (match s.watches.get? n with
    | some w => (match w.st with
      | .entered t =>
        if s.now < t + holdLimit then s
        else match w.by' with
        | .pkg _ _ => { s with watches := s.watches.erase n }
        | _ => s.setWatch n w .dropped
      | _ => s)
    | none => s)

/-- Whether an answer for a held store has come back already. -/
def State.answerWaits (s : State) (n : Nat) : Bool :=
  anyB (fun w => w.by' == .op n && (match w.st with | .answered _ => true | _ => false)) s.watches.vals

/-- HELD_STORE_EXPIRY (R391): a store held for 400 µs is discarded with status 0x0A; an answer in the same A-cycle is used. -/
def execHeldStoreExpiry (n : Nat) (s : State) : Out :=
  .next (match s.rops.get? n with
    | none => s
    | some r => match r.held with
      | none => s
      | some t =>
        if s.depWaits r && r.dep.isSome && decide (t + holdLimit ≤ s.now)
            && (!s.answerWaits n || decide (r.lastAnswer < s.now / 2)) then s.endRop n 0x0A
        else s)

/-- TOKWAIT_WATCH_TIMEOUT (R393): a tokwait's watch unanswered for 400 µs gives 0x0A. -/
def execTokwaitWatchTimeout (slot : Nat) (s : State) : Out :=
  .next (match (s.slot slot).watch with
    | none => s
    | some n => match s.watches.get? n with
      | none => s
      | some w => match w.st with
        | .answered _ => s
        | _ => if w.made + holdLimit ≤ s.now then s.setWatch n w (.answered false) else s)

/-- LANDED_ENTRY_AGING (R390): an entry older than 200 µs makes room in a full landed table. -/
def execLandedEntryAging (n : Nat) (s : State) : Out :=
  .next (match nth none (s.landed.map some) n with
    | none => s
    | some e =>
      if landedTable ≤ s.landed.length && decide (e.since + 240000 < s.now) && allB (fun f => decide (e.since ≤ f.since)) s.landed then
        { s with landed := s.landed.eraseIdx n }
      else s)

end Sys2Proof.Machine
end

