-- ==== Sys2Proof/Machine/Flits.lean ====
section
/-! DEFINITION. Flits that arrive at a bond port (R367, R368, R370): requests of other packages, replies to this one's, and
link control; ports that go down and packages that reset (R394). -/

namespace Sys2Proof.Machine

/-! ### Requests of other packages (log 21) -/

/-- The message word 0 of a request's payload: scope, ACQ, REL and SUP (R84, log 21). -/
def Flit.msg (f : Flit) : Nat := f.w 6

/-- What every request of another package has in common. -/
def Flit.request (f : Flit) (kind : RKind) (size port : Nat) : Rop :=
  { kind := kind, addr := nth 0#64 f.words 0, size := size, scope := bitsAt f.msg 35 33, acq := bitAt f.msg 32,
    rel := bitAt f.msg 31, asid := f.asid, sup := bitAt f.msg 30, slot := none, src := some (f.spkg, f.xtag),
    plane := some port, xl := some (f.w 7, 0) }

/-- The opcode of the message that a request's kind carries (R84, R368). -/
def opcOf (kind : Nat) : Nat := match kind with | 1 => 4 | 3 => 5 | 5 => 6 | _ => 3

/-- Whether a request's message is malformed: a reserved field, a reserved scope, another opcode or sub-operation than its kind's,
or a reserved bit of an operand (R8, R84, R372). -/
def Flit.malformed (f : Flit) : Bool :=
  let zero := fun (l : List Nat) => allB (fun k => f.w k == 0) l
  bitsAt f.msg 29 0 ≠ 0 || bitsAt f.msg 35 33 > 4 || bitsAt f.msg 47 36 ≠ f.asid || bitsAt f.msg 63 56 ≠ opcOf f.kind
    || bitsAt f.msg 55 48 > (if f.kind = 7 then 4 else 0) || bitsAt (f.w 0) 63 60 ≠ 0
    || (match f.kind with
      | 1 => decide (6 < f.w 1) || !zero [2, 3, 4, 5]
      | 3 => (f.w 2 &&& (2 ^ 64 - 1 - 0x303)) ≠ 0 || (bitAt (f.w 2) 9 && depBad (nth 0#64 f.words 3)) || decide (2 ^ 32 ≤ f.w 4)
          || !zero [5]
      | 5 => !zero [2, 3, 4, 5]
      | _ => decide (256 ≤ f.w 3) || !zero [4] || f.w 5 % 2 ^ 63 ≠ 0)

/-- A remote load, store, fetch-and-add or handler request as it arrives; a malformed one is refused with reply status 0x01
(R8, R86, R368). -/
def Flit.rop (f : Flit) (port : Nat) : Rop :=
  let x := nth 0#64 f.words 1
  let r : Rop := match f.kind with
    | 1 => { f.request .load (sizeOf' (f.w 1)) port with code := f.w 1 % 8 }
    | 3 =>
      { f.request .store (2 ^ bitsAt (f.w 2) 1 0) port with
        x := x, tok := if bitAt (f.w 2) 8 then some (f.w 4 % 2 ^ 32) else none
        dep := if bitAt (f.w 2) 9 then some (nth 0#64 f.words 3) else none }
    | 5 => { f.request .fadd 8 port with x := x }
    | _ => { f.request (.handler (bitsAt f.msg 55 48)) 8 port with x := x, y := nth 0#64 f.words 2, entry := f.w 3 % 256 }
  if f.malformed then { r with res := some (1, 0#64) } else r

/-- A request of another package that is here: one that is here already and was sent again is not performed twice, and its reply
goes back on the plane it came on last (R365, R394). -/
def State.addRequest (s : State) (f : Flit) (port : Nat) (r : Rop) : State :=
  match s.rops.find? fun k => k.2.src == some (f.spkg, f.xtag) with
  | some (n, _) => s.modRop n fun r => { r with plane := some port }
  | none => (s.putRop r).2

/-- A watch of another package that is here. -/
def State.addWatch (s : State) (f : Flit) (port : Nat) : State :=
  let w : Watch := { tok := f.w 0 % 2 ^ 32, landing := s.pkg, by' := .pkg f.spkg f.xtag, made := s.now, plane := port }
  match s.watches.find? fun k => k.2.by' == .pkg f.spkg f.xtag with
  | some (n, v) => { s with watches := s.watches.set n { v with plane := port } }
  | none => let (id, s) := s.fresh; { s with watches := s.watches.set id w }

def State.dropFlit (s : State) : State := { s with mgmt := { s.mgmt with flitsDropped := s.mgmt.flitsDropped + 1 } }

/-- A translation request of another package: the page it asks for, the access, the asking port die, its store's token. -/
def Flit.xlat (f : Flit) (port : Nat) : Rop :=
  { kind := .xlat, addr := nth 0#64 f.words 0, size := 1, code := f.w 1 % 4, asid := f.asid, sup := bitAt (f.w 1) 2, slot := none,
    src := some (f.spkg, f.xtag), taken := true, plane := some port, entry := f.port / 2,
    tok := if f.w 2 = 0 then none else some (f.w 2 % 2 ^ 32) }

/-- An invalidation of another package. -/
def Flit.inval (f : Flit) (port : Nat) : Inval :=
  { slot := noSlot, asidLo := f.w 0, asidN := f.w 1, lo := f.w 2, hi := f.w 3, scope := 4, waiting := [remoteHolder (f.w 4)],
    src := some (f.spkg, f.xtag), told := true, plane := port }

/-- An invalidation of another package that is here. -/
def State.addInval (s : State) (f : Flit) (port : Nat) : State :=
  match s.invals.find? fun k => k.2.src == some (f.spkg, f.xtag) && k.2.waiting == [remoteHolder (f.w 4)] with
  | some (n, v) => { s with invals := s.invals.set n { v with plane := port } }
  | none => let (id, s) := s.fresh; { s with invals := s.invals.set id (f.inval port) }

/-! ### Replies -/

/-- The operation of this package that a reply answers. -/
def State.replyTo (s : State) (f : Flit) : Option (Nat × Rop) :=
  s.rops.find? fun k => k.2.own && k.1 % 2 ^ 24 == f.xtag && k.2.dpkg == f.spkg && k.2.taken && k.2.res.isNone

/-- A reply's value and status at its operation (R86). -/
def State.takeReply (s : State) (f : Flit) : State :=
  match s.replyTo f with
  | some (n, r) =>
    if r.kind.flit + 1 = f.kind && r.xl.isSome && !r.inside then
      s.modRop n fun r => { r with res := some (f.w 1 % 256, nth 0#64 f.words 0) }
    else s
  | none => s

/-- A translation that the target has answered with, kept, or the operation ended with the status (R385). -/
def State.takeXlat (s : State) (f : Flit) : State :=
  match s.replyTo f with
  | some (n, r) =>
    if !r.asked then s
    else
      let s := s.modRop n fun r => { r with asked := false }
      if f.w 3 % 256 ≠ 0 then s.endRop n (f.w 3 % 256)
      else
        let size := leafSize (f.w 0) (f.w 1)
        s.rtcKeep r.pd
          { pkg := r.dpkg, asid := r.asid, va := r.va - r.va % size, size := size, pte := nth 0#64 f.words 0, lvl := f.w 1 }
  | none => s

/-- A watch's answer (R390, R391). -/
def State.takeAnswer (s : State) (f : Flit) : State :=
  match s.watches.find? fun k => k.1 % 2 ^ 24 == f.xtag && k.2.landing == f.spkg && k.2.st == .sent with
  | some (n, w) =>
    s.setWatch n w (match f.w 1 with | 1 => w.fate s.now true | 2 => w.fate s.now false | _ => .refused s.now)
  | none => s

/-- An acknowledgement of an invalidation (R386). -/
def State.takeAck (s : State) (f : Flit) : State :=
  match s.invals.find? fun k => k.1 % 2 ^ 24 == f.xtag && k.2.src.isNone with
  | some (i, _) => s.acknowledge i (remoteHolder (f.w 0))
  | none => s

/-! ### Arrival -/

/-- A flit of another package for this one. -/
def State.takeFlit (s : State) (port : Nat) (f : Flit) : State :=
  match f.kind with
  | 0x02 => s.takeReply f
  | 0x04 => s.takeReply f
  | 0x06 => s.takeReply f
  | 0x08 => s.takeReply f
  | 0x09 => s.addWatch f port
  | 0x0A => s.takeAnswer f
  | 0x0B => s.addRequest f port (f.xlat port)
  | 0x0C => s.takeXlat f
  | 0x0D => s.addInval f port
  | 0x0E => s.takeAck f
  | _ => s.addRequest f port (f.rop port)

/-- A flit of link control (R368 to R370): flits acknowledged leave the replay buffer, or those from a counter on are sent again;
of an exchange the peer's public key comes first, then its signature, with which the exchange is made. -/
def State.linkControl (s : State) (port : Nat) (f : Flit) : State :=
  match f.kind with
  | 0x20 => s.modLink port fun l => { l with replay := l.replay.filter fun e => decide (f.w 0 < e.ctr) }
  | 0x21 => s.modLink port fun l => { l with wire := ((l.replay.filter fun e => decide (f.w 0 ≤ e.ctr)).map (·.sent)).reverse ++ l.wire }
  | _ =>
    let v : BitVec 512 := BitVec.ofNat 512 (Flit.payload.ofWords (f.words.take 8))
    if f.xtag = 0 then s.modLink port fun l => { l with offered := some v }
    else match (s.link port).offered with
      | some k => (s.modLink port fun l => { l with offered := none }).exchangeKeys port k v
      | none => s

/-- A flit of link control sent to the other end of a port. -/
def State.control (s : State) (port kind ctr : Nat) : State :=
  let f : Flit := { kind := kind, dpkg := 0, spkg := s.pkg, xtag := 0, asid := 0, port := port, words := [BitVec.ofNat 64 ctr] }
  (s.sendFlit port f false).getD s

/-- FLIT_RECEIVE (R367, R370): a flit at a bond port is opened under its key and counter; one whose tag fails is asked for
again, one that is malformed or for another package is dropped and counted, and one that is accepted is acknowledged. -/
def execFlitReceive (port : Nat) (flit : BitVec 1024) (s : State) : Out :=
  let l := s.link port
  .next (
    if 16 ≤ port || !l.up then s
    else
      let s := s.awake
      match l.unseal port flit with
      | none => (s.setLink port { l with failures := l.failures + 1 }).control port 0x21 l.rxCtr
      | some (h, p) =>
        let s := s.setLink port { l with rxCtr := l.rxCtr + 1, failures := 0 }
        match readFlit h p with
        | none => s.dropFlit
        | some f =>
          if 0x20 ≤ f.kind then s.linkControl port f
          else
            let s := s.control port 0x20 l.rxCtr
            if f.dpkg ≠ s.pkg then s.dropFlit else s.takeFlit port f)

/-! ### Ports down, packages reset (R394, R395) -/

/-- PORT_DOWN (R394, R395): the plane leaves the choice; the operations outstanding on it go back to their remote units, which
send them on the next live plane or end them with 0x0C, and so do watches. -/
def execPortDown (port : Nat) (s : State) : Out :=
  .next (
    if 16 ≤ port then s
    else (s.leavePlane port).modLink port fun l => { l with up := false, down := true, rekeying := false })

/-- TARGET_PACKAGE_RESET (R391, R394): every operation outstanding to a package that resets ends with status 0x08; watches
there are lost, and what this package kept of its pages with them. -/
def execTargetPackageReset (pkg : Nat) (s : State) : Out :=
  .next (
    if pkg = s.pkg then s
    else
      let rops : Map Rop := s.rops.map fun (k : Nat × Rop) => (k.1,
        let r := k.2
        if r.own && r.dpkg = pkg && r.taken && r.res.isNone && (r.xl.isSome || r.asked) then
          { r with res := some (8, 0#64), asked := false, inside := false, comb := [] }
        else r)
      let forwarded := s.forwarded.filter fun k => k.2.dpkg ≠ pkg
      let watches : Map Watch := s.watches.map fun (k : Nat × Watch) => (k.1,
        let w := k.2
        match w.st with
        | .answered _ => w
        | _ => if w.landing = pkg then { w with st := .dropped } else w)
      let rtcs : Map (List RXlat) := s.rtcs.map fun (k : Nat × List RXlat) => (k.1, k.2.filter fun e => e.pkg ≠ pkg)
      let invs := s.invals.flatMap fun k => (k.2.waiting.filter fun h =>
        decide (remoteHolder 0 ≤ h) && (h - remoteHolder 0) / 8 == pkg && k.2.src.isNone).map fun h => (k.1, h)
      invs.foldl (fun s ih => s.acknowledge ih.1 ih.2) { s with rops := rops, watches := watches, rtcs := rtcs, forwarded := forwarded })

end Sys2Proof.Machine
end

