-- ==== Sys2Proof/Machine/Jobs.lean ====
section
/-! DEFINITION. Jobs as the queue manager and the walker slices carry them: appends that waited (R69), activation (R17, R21,
R23, R25, R71), dispatch and stealing (R72, R73, R96 to R98), the early trigger (R417), retirement and PROGC (R70, R88,
R419, R420), and switching a partition's queues out and in (R69, R74). -/

namespace Sys2Proof.Machine

/-- Whether a partition is enabled, has a queue table and is not switched out (R74, R92). -/
def State.partOn (s : State) (p : Nat) : Bool := (s.part p).pen && (s.part p).qte && !(s.part p).swout

/-- Whether a partition's queues work: it is enabled, has a table and is not switched out, and the package is awake (R74,
R92, R424). -/
def State.partWorks (s : State) (p : Nat) : Bool := s.partOn p && s.power == .active

/-- APPEND (R69): what waits at a queue is performed as far as its ring has room: the staged reference, held TAILP writes, then
graph appends. -/
def execAppend (p q : Nat) (s : State) : Out :=
  let t := s.drainStaged p q
  .next (t.acceptWaiting p q (t.queue p q).waiting.length)

/-! ### Activation (R71) -/

/-- The job of a queue at a place of its order, not yet retired. -/
def State.jobAt (s : State) (p q pos : Nat) : Option Job :=
  s.jobs.vals.find? fun j => j.p == p && j.q == q && j.pos == some pos

/-- A program header fetched for a queue's address space: its words, or the ECAUSE of the failure (R22, R23). -/
def State.fetchProg (s : State) (asid va : Nat) : Nat → Except Nat (List W64)
  | 0 => .ok []
  | n + 1 => match s.translate holdQm asid false .fetch va with
    | .fault c => .error (if c = 0x0C then 0x0C else 0x0B)
    | .ok pa _ =>
      if s.placeOf pa = .spill then .error 0x0C
      else if pa ≥ windowBase || !s.goodPhys pa 8 then .error 0x0B
      else match s.fetchProg asid (va + 8) n with
        | .error c => .error c
        | .ok ws => .ok (BitVec.ofNat 64 (s.readPhys pa 8) :: ws)

/-- A record's job, checked in order: its words, its TAINT, its header (R17, R21, R23, R25). -/
def State.checkJob (s : State) (j : Job) : Job :=
  match recMalformed j.words with
  | some w => { j with preset := some (statusWord 3 0 w 0) }
  | none =>
    if recTaint j.words && !recRunerr j.words then { j with preset := some (statusWord 4 0 0xFF 0) }
    else match s.fetchProg j.asid (recProg j.words) 8 with
    | .error c => { j with preset := some (statusWord 5 c 0xFF 0) }
    | .ok h =>
      let j := { j with hdr := h }
      match hdrMalformed h (bitsAt (recW j.words 0) 12 11) with
      | some w => { j with preset := some (statusWord 5 0 w 0) }
      | none =>
        let j := { j with total := recTotal j.words }
        if j.total = 0 then { j with preset := some (statusWord 1 0 0xFF 0) } else s.handOut j

/-- The record at a place of the ring: its reference, its words, and the index of the one that cannot be read, the words being those
before it; 0xFF stands for a ring entry that cannot be read (log 17). -/
def State.readRecord (s : State) (p q : Nat) (c : QCtl) (pos : Nat) : W64 × List W64 × Option Nat :=
  match s.vread holdQm c.asid true .load ((s.qword p q qRINGB + (pos % c.ring) * 8) % 2 ^ 64) 8 with
  | .error _ => (0#64, [], some 0xFF)
  | .ok r => (BitVec.ofNat 64 r, s.recordWords holdQm c.asid r)

/-- JOB_ACTIVATE (R71): the job at HEADC becomes active once the one before it has retired, or has met its early trigger where
this one's OVL is 1. -/
def execJobActivate (p q : Nat) (s : State) : Out :=
  .next (
    if !s.partWorks p then s
    else
      let (c, s) := s.readQctl p q
      let h := s.qword p q qHEADC
      if !c.en || countGap (s.qword p q qTAILC) h = 0 then s
      else
        let (ref, words, bad) := s.readRecord p q c h
        let ready := match s.jobAt p q (countGap h 1) with
          | none => true
          | some j => j.trigDone && recOvl words
        if !ready then s
        else
          let s := s.setQword p q qHEADC ((h + 1) % 2 ^ 64)
          let j : Job := { p := p, q := q, pos := some h, ref := ref, asid := c.asid, words := words }
          let j := match bad with
            | none => s.checkJob j
            | some w => { j with preset := some (statusWord 3 0 ((recMalformed words).getD w) 0) }
          let (id, s) := s.fresh
          let s := { s with jobs := s.jobs.set id j }
          (s.modQueue p q fun x => { x with st := .run }).codeInvalidate c.asid)

/-! ### Dispatch (R72, R96) -/

/-- Whether a position of a course is free for a job (R96): no thread's POSMASK and no hold of R235 takes it. -/
def State.posFree (s : State) (c p : Nat) : Bool :=
  (s.pos (posKey c p)).holder.isNone
    && !anyB (fun n => !s.slotFree n && (s.slot n).decl.posmask.testBit p) (slotsOf c)

/-- Whether a course's Factor Engine is free. -/
def State.feFree (s : State) (c : Nat) : Bool := !anyB (fun n => !s.slotFree n && (s.slot n).decl.feng) (slotsOf c)

/-- Whether a course is free for a job, as the lead of its span (R96). -/
def State.courseFree (s : State) (j : Job) (c : Nat) : Bool :=
  s.partOfCourse c == some j.p && (s.freeSlot c).isSome && !s.dieDown (dieOf c)
    && allB (s.posFree c) (setPositions (hdrPosmask j.hdr) 32)
    && (!hdrFeng j.hdr || s.feFree c)
    && allB (fun k => s.partOfCourse (c + 32 * k) == some j.p && (s.freeSlot (c + 32 * k)).isSome
        && !s.dieDown (dieOf (c + 32 * k))) (rangeFrom 1 (recSpanw j.words - 1))

/-- The course a slice takes: the free one with the fewest occupied slots, the lowest of those (R96). -/
def State.pickCourse (s : State) (j : Job) (die : Nat) : Option Nat :=
  ((rangeFrom (die * 32) 32).filter (s.courseFree j)).foldl (fun b c => match b with
    | none => some c
    | some d => if s.occupied c < s.occupied d then some c else b) none

/-- Whether a die's slice can dispatch an iteration of a job now. -/
def State.jobHasWork (s : State) (die : Nat) (j : Job) : Bool :=
  (match j.chunks.get? die with | some ch => decide (ch.lo < ch.hi) | none => false) && (s.pickCourse j die).isSome

/-- A job's place among its queue's, counted from PROGC (R421). -/
def State.place' (s : State) (j : Job) : Nat := countGap (j.pos.getD 0) (s.qword j.p j.q qPROGC)

/-- The job of a queue that a die's slice would dispatch: the earliest in placement order (R72). -/
def State.jobToRun (s : State) (die p q : Nat) : Option (Nat × Job) :=
  (s.jobs.filter fun k => k.2.p == p && k.2.q == q && s.jobHasWork die k.2).foldl (fun b k => match b with
    | none => some k
    | some m => if s.place' k.2 < s.place' m.2 then some k else b) none

/-- Whether a queue has work (R72): an active job of it with an undispatched ordinal and a course free for it. -/
def State.queueHasWork (s : State) (p q : Nat) : Bool := anyB (fun d => (s.jobToRun d p q).isSome) (rangeFrom 0 8)

/-- What a queue's aging timer has counted (R73). -/
def State.queueAge (s : State) (p q : Nat) : Nat :=
  let x := s.queue p q
  x.aged + (match x.ageSince with | some t => s.now - t | none => 0)

/-- A queue's effective priority (R72, R73); one at 7 is never lifted. -/
def State.effPri (s : State) (p q : Nat) : Nat :=
  let pri := (s.qctl p q).pri
  if (s.queue p q).lifted ∧ pri < 7 then pri + 1 else pri

/-- The queues of a partition with work for a die's slice. -/
def State.queuesWithWork (s : State) (die p : Nat) : List Nat :=
  (rangeFrom 0 256).filter fun q =>
    anyB (fun j => j.p == p && j.q == q) s.jobs.vals && (s.qctl p q).en && (s.jobToRun die p q).isSome

/-- The next queue in turn among some: the first above the one served last, else the lowest (R72). -/
def nextTurn (last : Option Nat) (qs : List Nat) : Option Nat :=
  match last with
  | some l => (match qs.find? fun q => decide (l < q) with | some q => some q | none => qs.head?)
  | none => qs.head?

/-- The level indices of ordinal `k`, from the innermost entry outward (R18). -/
def levelIdx (ws : List W64) (k : Nat) : Nat → Map Nat
  | 0 => []
  | j + 1 =>
    let lvl := recOrder ws j
    let n := recCount ws lvl
    (levelIdx ws (k / n) j).set lvl (k % n)

/-- A course wakes for a thread: the C-cycles its wake takes (R422). -/
def State.wakeFor (s : State) (c : Nat) : Nat × State :=
  match (s.course c).power with
  | .active => (0, s.modCourse c fun x => { x with idleSince := none })
  | .gated => (48, s.wakeCourse c)
  | .dark => (2400, s.wakeCourse c)

/-- A thread slot set up for an ordinal of a job (R19, R126). -/
def Slot.launch (x : Slot) (id : Nat) (j : Job) (k earliest : Nat) : Slot :=
  let ix := levelIdx j.words k (recNest j.words)
  let regs : Map W64 := (rangeFrom 0 6).foldl (fun m l => m.set (l + 1) (BitVec.ofNat 64 (ix.getD 0 l))) []
  let w := recSpanw j.words
  let y := x.fresh
  { y with
    use := .thread
    pc := BitVec.ofNat 64 (recProg j.words + hdrEntry j.hdr)
    s := (regs.set 7 (BitVec.ofNat 64 k)).set 8 (recArgp j.words)
    csr := y.csr.set csrASID (BitVec.ofNat 64 j.asid)
    att := 2 ^ w - 1, ranks := rangeFrom 0 w, spanw := w
    earliest := earliest, job := id, ordinal := k, decl := declOf j.hdr }

/-- An iteration placed on its lead course: its thread and its slice slots (R96, R99). -/
def State.place (s : State) (id : Nat) (j : Job) (k c : Nat) : State :=
  let w := recSpanw j.words
  let n := (s.freeSlot c).getD 0
  let (lat, s) := s.wakeFor c
  let (lat, s) := (rangeFrom 1 (w - 1)).foldl (fun ls i =>
    let (m, t) := State.wakeFor ls.2 (c + 32 * i)
    (max ls.1 m, t)) (lat, s)
  let s := (rangeFrom 1 (w - 1)).foldl (fun s i => match s.freeSlot (c + 32 * i) with
    | some m => (s.takenOver m).modSlot m fun x => { x.fresh with use := .slice n i }
    | none => s) s
  (s.takenOver n).modSlot n fun x => x.launch id j k (s.now + lat)

/-- The lowest ordinal of a die's chunk dispatched (R96, R97). -/
def Job.dispatch (j : Job) (die : Nat) (ch : Chunk) : Job :=
  { j with
    dispatched := j.dispatched + 1
    chunks := j.chunks.set die { ch with lo := ch.lo + 1, st := if ch.lo + 1 < ch.hi then ch.st else .dry } }

/-- QCTL of every queue of a partition with a job, read before a dispatch decision (R67). -/
def State.readQctls (s : State) (p : Nat) : State :=
  ((s.jobs.vals.filter fun j => j.p == p).map (·.q)).dedup.foldl (fun s q => (s.readQctl p q).2) s

/-- ITERATION_DISPATCH (R72, R73, R96): the slice of a die dispatches the lowest ordinal of the job whose turn it is. -/
def execIterationDispatch (die p : Nat) (s : State) : Out :=
  .next (
    if !s.partWorks p || 8 ≤ die || s.dieDown die then s
    else
      let s := s.readQctls p
      let qs := s.queuesWithWork die p
      let lvl := qs.foldl (fun m q => max m (s.effPri p q)) 0
      let key := die * 16 + lvl
      match nextTurn ((s.part p).turns.get? key) (qs.filter fun q => s.effPri p q == lvl) with
      | none => s
      | some q => match s.jobToRun die p q with
        | none => s
        | some (id, j) => match j.chunks.get? die, s.pickCourse j die with
          | some ch, some c =>
            let s := (s.place id j ch.lo c).modJob id fun j => j.dispatch die ch
            let s := s.modPart p fun a => { a with turns := a.turns.set key q }
            let s := s.bumpQword p q qITERC
            let s := if (s.queue p q).lifted then s.bumpQword p q qAGEC else s
            s.modQueue p q fun x => { x with lifted := false, aged := 0, ageSince := none }
          | _, _ => s)

/-- Whether a queue's next job may become active: it is enabled, a reference waits in its ring, and the job before has retired or met
its early trigger (R71). -/
def State.mayActivate (s : State) (p q : Nat) : Bool :=
  let h := s.qword p q qHEADC
  (s.qctl p q).en && s.qword p q qTAILC != h && (match s.jobAt p q (countGap h 1) with | none => true | some j => j.trigDone)

/-- The conditions of the package's idle states but for the tolerance and the time: every course gated or dark, no queue with work or
with a job to make active, and nothing in progress (R423). -/
def State.packageIdle (s : State) : Bool :=
  allB (fun c => (s.course c).power != .active) (rangeFrom 0 256)
    && s.copies.isEmpty && s.rops.isEmpty && s.firings.isEmpty
    && allB (fun p => p.2.inbox.isEmpty && p.2.cur.isNone) s.ports
    && !anyB (fun k => bitAt k.2.toNat 1) s.hrs
    && !anyB (fun p => s.partOn p && anyB (fun q => (s.qctl p q).en && (s.queueHasWork p q || s.mayActivate p q)) (rangeFrom 0 256))
      s.parts.keys

/-- AGING_TIMER_EXPIRY (R73): a queue that has had work for 10 ms without a dispatch is lifted for one dispatch. -/
def execAgingTimerExpiry (p q : Nat) (s : State) : Out :=
  let c := s.qctl p q
  .next (if s.partWorks p && c.en && c.agen && decide (c.pri < 7) && !(s.queue p q).lifted
      && decide (12000000 ≤ s.queueAge p q) && s.queueHasWork p q then
      s.modQueue p q fun x => { x with lifted := true }
    else s)

/-! ### Stealing (R97, R98) -/

/-- The busiest slice of a job among those that may be stolen from: a STRANDED one with ordinals, else the one with the most; ties
to the lowest die. -/
def Job.busiest (j : Job) (thief : Nat) (may : Nat → Bool) : Option (Nat × Chunk) :=
  let most := fun (cs : List (Nat × Chunk)) => cs.foldl (fun b k => match b with
    | none => some k
    | some m => if m.2.hi - m.2.lo < k.2.hi - k.2.lo then some k else b) none
  let others := j.chunks.filter fun k => k.1 ≠ thief && may k.1 && decide (k.2.lo < k.2.hi)
  match most (others.filter fun k => k.2.st == .stranded) with
  | some v => some v
  | none => most others

/-- A DRY slice's steal, once a course is `free` for the job, or its giving up where no slice offers one (R97, R98). -/
def Job.steal (j : Job) (thief : Nat) (free : Bool) (may : Nat → Bool) : Job :=
  match j.busiest thief may with
  | some (d, v) =>
    let m := v.hi - v.lo
    if !free ∧ (v.st = .stranded ∨ 2 ≤ m) then j
    else if v.st = .stranded then
      { j with chunks := (j.chunks.set d { v with lo := v.hi, st := .spent }).set thief ⟨v.lo, v.hi, .holding⟩ }
    else if 2 ≤ m then
      let cut := v.lo + (m + 1) / 2
      { j with chunks := (j.chunks.set d { v with hi := cut }).set thief ⟨cut, v.hi, .holding⟩ }
    else { j with chunks := j.chunks.modify ⟨0, 0, .dry⟩ thief fun c => { c with st := .spent } }
  | none => { j with chunks := j.chunks.modify ⟨0, 0, .dry⟩ thief fun c => { c with st := .spent } }

/-- Whether a slice takes part in the steals of a job: of a span job, an eligible one alone (R98). -/
def State.stealsIn (s : State) (j : Job) (d : Nat) : Bool :=
  recSpanw j.words == 1 || s.eligible j.p (recSpanw j.words) d

/-- STEAL (R98): DRY slices of a job, those with a course free for it (R97), are served in ascending die order. -/
def execSteal (die job : Nat) (s : State) : Out :=
  .next (match s.jobs.get? job with
    | none => s
    | some j =>
      let out := fun (d : Nat) => match j.chunks.get? d with | some c => c.st == .dry | none => false
      let free := fun (d : Nat) => s.stealsIn j d && (s.pickCourse j d).isSome
      if out die && !anyB (fun d => out d && free d) (rangeFrom 0 die) then
        s.modJob job (·.steal die (free die) (s.stealsIn j))
      else s)

/-! ### The early trigger, retirement, PROGC -/

/-- EARLY_TRIGGER (R417). -/
def execEarlyTrigger (job : Nat) (s : State) : Out :=
  .next (s.modJob job fun j => if j.trigHolds then { j with trigDone := true } else j)

/-- Whether an operation of a job's iterations is outstanding: a copy, a remote operation or a stream (R415, R419). -/
def State.jobBusy (s : State) (job : Nat) : Bool :=
  anyB (fun c => c.firing.isNone && c.job == job && !c.replied) s.copies.vals
    || anyB (fun r => r.src.isNone && r.job == job && !r.replied) s.rops.vals
    || anyB (fun p => anyB (fun st => st.job == job) (p.inbox ++ p.cur.toList)) s.ports.vals

/-- Whether a job has done everything (R419). -/
def State.jobDone (s : State) (id : Nat) (j : Job) : Bool := j.allSpent && j.ended == j.dispatched && !s.jobBusy id

/-- The status a job retires with (R420). -/
def Job.status (j : Job) : W64 :=
  match j.preset with
  | some w => w
  | none => match j.err with
    | some (ord, cause) => statusWord 2 cause 0xFF ord
    | none => statusWord 1 0 0xFF 0

/-- JOB_RETIRE (R419): STATUS, the release, PROGC past the leading retired jobs, the successors and the token, in this order. A graph
append refused before its record was read has its successors read now (R69, R76). -/
def execJobRetire (job : Nat) (s : State) : Out :=
  .next (match s.jobs.get? job with
    | none => s
    | some j =>
      if !s.jobDone job j || (s.part j.p).swout then s
      else
        let st := j.status
        let s := { s with jobs := s.jobs.erase job }
        let words := if j.pos.isSome then j.words
          else (s.recordWords holdWalker j.asid j.ref.toNat).1
        let s := if j.ref = 0#64 then s else s.putStatus j.p j.asid j.ref.toNat st
        let s := s.modQueue j.p j.q fun x =>
          { x with
            retired := (match j.pos with | some n => x.retired ++ [n] | none => x.retired)
            st := if x.st = .run && !anyB (fun k => k.p == j.p && k.q == j.q && k.pos.isSome) s.jobs.vals then
                (if s.qword j.p j.q qTAILC = s.qword j.p j.q qHEADC then .off else .held)
              else x.st }
        let s := s.progress j.p j.q
        let s := s.decSuccessors j.p j.asid words (st.toNat % 256 ≠ 1)
        if recCte words && st.toNat % 256 = 1 then s.sendToken j.p (recCtq words) (BitVec.ofNat 32 (recCtpay words)) else s)

/-- PROGC_ADVANCE (R70, R88): PROGC passes the leading retired jobs, and its interrupt is sent once its window has passed, of a
partition switched out since as well (R419). -/
def execProgcAdvance (p q : Nat) (s : State) : Out :=
  .next (if (s.part p).swout then s.sendIrq p q else (s.progress p q).sendIrq p q)

/-! ### Switching a partition's queues (R69, R74) -/

/-- QSAVE written with the manager's own form of a queue's state (R66, log 9). -/
def State.saveQueue (s : State) (p q : Nat) : State :=
  let s := { s with freeCnt := s.freeCnt + 22 }
  (rangeFrom 0 22).foldl (fun s i => s.setQword p q (qQSAVE + 8 * i) (Config.freeWord (s.freeCnt - 22 + i)).toNat) s

/-- PARTITION_SWITCH_OUT (R74): every queue is switched out, the state before it saved in QSAVE, where a table holds one. -/
def execPartitionSwitchOut (p : Nat) (s : State) : Out :=
  .next (if (s.part p).swout then s
    else
      let t := s.modPart p fun a => { a with swout := true }
      if (s.part p).qte then (rangeFrom 0 256).foldl (fun s q => s.saveQueue p q) t else t)

/-- PARTITION_SWITCH_IN (R74): each queue's staged append is accepted, then the writes held at it (R69). -/
def execPartitionSwitchIn (p : Nat) (s : State) : Out :=
  .next (if !(s.part p).swout then s
    else (s.part p).queues.keys.foldl (fun s q => s.drainStaged p q) (s.modPart p fun a => { a with swout := false }))

/-! ### Power caps (R103) -/

/-- PCAP_UPDATE (R103): the power controller writes PCAP for every thread of a die. -/
def execPcapUpdate (die v : Nat) (s : State) : Out :=
  let c := min 32 (max 1 v)
  .next (if die < 8 then (rangeFrom (die * 128) 128).foldl (fun s n => s.modSlot n fun x => { x with pcap := c }) s else s)

end Sys2Proof.Machine
end

