-- ==== Sys2Proof/Machine/Reset.lean ====
section
/-! DEFINITION. Die resets (R411 to R413): what a reset of a compute die, of a port die and of the config die settles, the quiesce
of the linked dies, and the die's return to service. Dies are numbered as State.dies numbers them: 0 to 7 the compute dies,
8 to 15 the port dies; 16 stands for the config die. -/

namespace Sys2Proof.Machine

/-- The dies linked to a die (R90): a compute die stands between its two port dies. -/
def linkedDies (die : Nat) : List Nat :=
  if die < 8 then [8 + (die + 7) % 8, 8 + die] else [die - 8, (die - 7) % 8]

/-- Memory cells of a range of locations cleared. -/
def State.clearCells (s : State) (lo hi : Nat) : State :=
  (s.mem.filter fun c => decide (lo ≤ c.1) && decide (c.1 < hi)).foldl (fun s c => s.putByte c.1 0#8) s

/-- Holders that have gone acknowledge every invalidation, and keep no translation and no parked access (R314). -/
def State.dropHolders (s : State) (hs : List Nat) : State :=
  let s := { s with parked := s.parked.filter fun k => !hs.contains k.holder }
  let gone := (s.invals.flatMap fun k => (k.2.waiting.filter hs.contains).map fun h => (k.1, h))
  gone.foldl (fun s ih => s.acknowledge ih.1 ih.2) { s with
    tlbs := s.tlbs.dropKeys hs.contains, ptrs := s.ptrs.dropKeys hs.contains }

/-- Walker slices and chunks after a die left service or came back (R92, R97, R411). -/
def State.restrandAll (s : State) (old : State) : State := s.parts.foldl (fun s kp => s.restrand old kp.1) s

/-! ### Other threads' grids (R412) -/

/-- A fault for a thread that no run waits for. -/
def State.resetFault (s : State) (slot tval : Nat) : State :=
  let (id, s) := s.fresh
  s.faultThread slot { cause := 0x10, rsts := 8, tval := BitVec.ofNat 64 tval, run := id }

/-- The courses of a die that a thread's regions and held positions touch, lowest first. -/
def State.touchedBy (s : State) (die n : Nat) : List Nat :=
  (rangeFrom (die * 32) 32).filter fun c =>
    anyB (fun r => r.2.slot == n && anyB (fun m => m.1 == c) r.2.masks) (s.openRuns n)
      || anyB (fun k => (s.pos k).holder == some n) (coursePoss c)

/-- A region drained by a reset, its owner to take trap 0x10 with TVAL the course, for each course of its own on the die. -/
def State.loseCourses (s : State) (n : Nat) (cs : List Nat) : State :=
  let s := ((s.openRuns n).filter fun r => anyB (fun m => cs.contains m.1) r.2.masks).foldl (fun s r => s.drain r.2.masks r.2.feng none) s
  cs.foldl (fun s c => s.resetFault n c) s

/-- The slots of threads and reserved contexts, by course. -/
def State.leadsOn (s : State) (die : Nat) : List Nat :=
  (s.slots.filter fun kx => dieOf (courseOf kx.1) == die && (kx.2.use == .thread || kx.2.use == .resThread)).map (·.1)

/-- The slots of slices on a die, lent ones among them. -/
def State.slicesOn (s : State) (die : Nat) : List Nat :=
  (s.slots.filter fun kx => dieOf (courseOf kx.1) == die && !kx.2.leads.isEmpty).map (·.1)

/-- The planes of a die that commands are loading, no longer theirs. -/
def State.dropLoads (s : State) (die : Nat) : State :=
  let on := fun (l : Nat × Nat) => (if l.1 < 2 ^ 16 then l.1 / 32 else l.1 - 2 ^ 16) / 32 == die
  let slots : Map Slot := s.slots.map fun (k : Nat × Slot) =>
    let cmds : List Cmd := k.2.cmds.map fun (c : Cmd) => { c with loads := c.loads.filter fun l => !on l }
    (k.1, { k.2 with cmds := cmds })
  { s with slots := slots }

/-- What a compute die held is gone (R413). -/
def State.clearDie (s : State) (die : Nat) : State :=
  let s := s.dropLoads die
  let s := { s with
    slots := s.slots.dropKeys fun n => dieOf (courseOf n) == die
    courses := s.courses.dropKeys fun c => dieOf c == die
    poss := s.poss.dropKeys fun k => dieOf (k / 32) == die
    ports := s.ports.dropKeys fun k => dieOf (k / 8) == die
    spills := s.spills.dropKeys fun r => dieOf (r / 64) == die
    gates := s.gates.dropKeys fun i => dieOf (i / 256) == die
    ctlGates := s.ctlGates.dropKeys fun i => dieOf (i / 256) == die
    fes := s.fes.dropKeys fun c => dieOf c == die
    icaches := s.icaches.dropKeys fun c => dieOf c == die
    grants := s.grants.filter fun g => dieOf g.2.course ≠ die }
  let s := (rangeFrom (die * 32) 32).foldl (fun s c => s.modCourse c fun x => { x with idleSince := some s.now }) s
  let s := s.dropHolders ((rangeFrom (die * 32) 32).flatMap courseHolders)
  s.clearCells (windowBase + die * 32 * 0x1000000) (windowBase + (die + 1) * 32 * 0x1000000)

/-- A compute die reset (R411 to R413): its threads end with 0xF0, slices on it detach, other threads lose what they had
there. -/
def State.resetCompute (s : State) (die : Nat) : State :=
  let s := (s.leadsOn die).foldl (fun s n => s.endIteration n (some 0xF0)) s
  let s := (s.slicesOn die).foldl (fun s n => (s.detachLent n).detach n) s
  let owners := (s.slots.filter fun kx => kx.2.use == .thread || kx.2.use == .resThread).map (·.1)
  let s := owners.foldl (fun s n => s.loseCourses n (s.touchedBy die n)) s
  s.clearDie die

/-! ### Port dies -/

/-- Streams through a port die: their regions are drained and their threads take trap 0x10 with the die's number. -/
def State.loseStreams (s : State) (e : Nat) : State :=
  let ks := (s.ports.filter fun kp => portDie kp.1 == e && (kp.2.cur.isSome || !kp.2.inbox.isEmpty)).map (·.1)
  ks.foldl (fun s k =>
    let owners := ((((s.port k).inbox ++ (s.port k).cur.toList).map (·.slot)).filter (· ≠ noSlot)).dedup
    let s := match (s.pos (portKey k)).run.bind s.runs.get? with
      | some r => if r.done then s else s.drain r.masks r.feng none
      | none => s
    let s := s.drainPort none k
    owners.foldl (fun s n => s.resetFault n e) s) s

/-- Spill rings whose first tier a port die holds: their regions are drained, and their threads take trap 0x10. -/
def State.loseSpills (s : State) (e : Nat) : State :=
  let rs := (s.spills.filter fun kp => portDie (kp.1 / 64 * 8) == e && !kp.2.recs.isEmpty).map fun kp => kp.1 / 64
  rs.dedup.foldl (fun s c =>
    (s.runsIn [(c, 2 ^ 32 - 1)]).foldl (fun s r => (s.drain r.2.masks r.2.feng none).resetFault r.2.slot c) s) s

/-- Whether a port die serves an operation: at its source, or where it arrives. -/
def Rop.through (r : Rop) (e : Nat) : Bool := (r.taken || !r.own) && r.res.isNone && r.atDie == e

/-- A port die reset (R411 to R413): copies, operations and streams through it end; its scratchpad reads as zero, its handler
entries hold no body, its CXL ports are enumerated again and its bond ports exchange keys anew. -/
def State.resetPort (s : State) (e : Nat) : State :=
  let copies : Map Copy := s.copies.map fun (k : Nat × Copy) => (k.1,
    let c := k.2
    if c.pd = e && c.res.isNone then { c with accepted := true, res := some (8, 0) } else c)
  let rops : Map Rop := s.rops.map fun (k : Nat × Rop) => (k.1,
    let r := k.2
    if r.through e then
      { r with res := some (8, 0#64), asked := false, inside := false, comb := [] }
    else r)
  let handlers : Map Handler := s.handlers.map fun (k : Nat × Handler) => (k.1, { k.2 with lost := e :: k.2.lost })
  let s := { s with copies := copies, rops := rops, handlers := handlers, rtcs := s.rtcs.erase e, meters := s.meters.erase e }
  let s := (s.loseStreams e).loseSpills e
  let s := s.dropHolders (dieHolders e)
  let s := (s.leavePlane (2 * e)).leavePlane (2 * e + 1)
  let lose := fun (l : Link) => { l with up := false, rekeying := true, failures := 0, replay := [], offered := none }
  let s := (s.modLink (2 * e) lose).modLink (2 * e + 1) lose
  s.clearCells (scratchpadBase + e * 0x8000000) (scratchpadBase + (e + 1) * 0x8000000)

/-! ### The whole package -/

/-- The config die reset: the package as after reset, with what HBM and the second tier hold, the firmware store, the model's
own fields and what has left the package already. Each link keeps the count of its exchanges. -/
def State.resetPackage (s : State) : State :=
  let links : Map Link := s.links.map fun (k : Nat × Link) => (k.1, { tries := k.2.tries, wire := k.2.wire })
  let boot : Boot := { store := s.boot.store }
  let t : State := { State.reset with
    tick := s.tick, freeCnt := s.freeCnt, agenda := s.agenda, cur := s.cur, nextId := s.nextId, stores := s.stores, mem := s.mem,
    poison := s.poison, irqs := s.irqs, links := links, mgmt := s.mgmt, report := s.report, hostRead := s.hostRead, boot := boot }
  t.clearCells scratchpadBase controlBase

/-- DIE_RESET (R411 to R413): management, or the die itself, has asked for it. -/
def execDieReset (die : Nat) (s : State) : Out :=
  .next (
    if die = 16 then s.resetPackage
    else if 16 ≤ die || s.dieDown die then s
    else
      let d : Die := { resetting := true, quiesce := linkedDies die, since := s.now, enumerating := if die < 8 then [] else [0, 1] }
      let t := { s with dies := s.dies.set die d }.loseTokens die
      ((if die < 8 then t.resetCompute die else t.resetPort (die - 8)).restrandAll s).awake)

/-- QUIESCE_ACK (R411): a linked die's links have drained. -/
def execQuiesceAck (die peer : Nat) (s : State) : Out :=
  .next (if s.dieDown die then
      { s with dies := s.dies.modify {} die fun d => { d with quiesce := d.quiesce.filter (· ≠ peer) } }
    else s)

/-- DIE_RETURN (R411): the die, reloaded from the measured image, is in service again. -/
def execDieReturn (die : Nat) (s : State) : Out :=
  .next (if s.dieDown die && (s.die die).quiesce.isEmpty then
      { s with dies := s.dies.modify {} die fun d => { d with resetting := false } }.restrandAll s
    else s)

end Sys2Proof.Machine
end

