-- ==== Sys2Proof/Machine/Power.lean ====
section
/-! DEFINITION. Power states of courses and of the package (R422 to R424), the boot ROM (R425) and attestation (R427). -/

namespace Sys2Proof.Machine

/-! ### Idle states (R422, R423) -/

/-- Whether a thing idle since `t` has been so for `n` C-cycles. -/
def State.idleFor (s : State) (t : Option Nat) (n : Nat) : Bool := match t with | some t => decide (t + n ≤ s.now) | none => false

/-- COURSE_GATE (R423): an idle course enters GATED after 64 A-cycles, DARK after 2 µs, where the tolerance admits it. -/
def execCourseGate (c : Nat) (dark : Bool) (s : State) : Out :=
  let x := s.course c
  .next (
    if 256 ≤ c || !s.courseIdle c then s
    else if dark then
      (if x.power ≠ .dark && s.idleFor x.idleSince 2400 && s.tolerates 2000 then s.modCourse c fun x => { x with power := .dark } else s)
    else if x.power = .active && s.idleFor x.idleSince 128 && s.tolerates 40 then s.modCourse c fun x => { x with power := .gated }
    else s)

/-- PACKAGE_STANDBY (R423): after 200 µs. -/
def execPackageStandby (s : State) : Out :=
  .next (if s.power = .active && s.packageIdle && s.idleFor s.idleSince 240000 && s.tolerates 200000 then
      { s with power := .standby }
    else s)

/-- Planes, tiles, accumulator memories and port scratchpads without their contents (R423). -/
def State.loseSram (s : State) : State :=
  let poss : Map Pos := s.poss.map fun (k : Nat × Pos) => (k.1, { k.2 with planes := [], active := none })
  let fes : Map Fe := s.fes.map fun (k : Nat × Fe) => (k.1, { k.2 with planes := [], active := none, bufs := [] })
  { s with poss := poss, fes := fes }.clearCells scratchpadBase controlBase

/-- PACKAGE_PARKED (R423): after 20 ms. -/
def execPackageParked (s : State) : Out :=
  .next (if s.power ≠ .parked && s.packageIdle && s.idleFor s.idleSince 24000000 && s.tolerates 20000000 then
      { s with power := .parked }.loseSram
    else s)

/-- WAKE (R424): a cause brings the package back, or the course it concerns. -/
def execWake (c : Option Nat) (s : State) : Out :=
  .next (match c with
    | none => s.awake
    | some c => if c < 256 && (s.course c).power ≠ .active then (s.wakeCourse c).noteIdle c else s)

/-! ### Boot (R425, R426) -/

/-- POWER_ON_BOOT (R425, R426): the boot ROM verifies the image in the firmware store, or the one that recovery has staged, and boots
from it, or stays in recovery. -/
def execPowerOnBoot (s : State) : Out :=
  .next (
    if s.boot.phase = .verifying then s.verifyStaged
    else if s.boot.phase ≠ .powerOn then s
    else
      let im := s.boot.store.getD Config.factoryImage
      match imageWhy im with
      | none => s.bootFrom im
      | some w => { s with boot := { s.boot with phase := .recovery, why := w } })

/-! ### Attestation (R427) -/

/-- The partition registers a report covers, in partition order. -/
def State.partWords (s : State) : List Byte :=
  (rangeFrom 0 256).flatMap fun p =>
    let a := s.part p
    ((rangeFrom 0 4).map (a.pcm.getD 0#64) ++ [a.pasid] ++ (rangeFrom 0 8).map (a.pshare.getD 0#64)).flatMap fun w =>
      toBytesLE w.toNat 8

/-- The enabled partitions as a mask; its 8 bytes hold those numbered up to 63. -/
def State.enabledParts (s : State) : Nat := (rangeFrom 0 64).foldl (fun m p => if (s.part p).pen then m + 2 ^ p else m) 0

/-- The first 0x1C0 bytes of a report. -/
def State.reportBody (s : State) (nonce : BitVec 256) : List Byte :=
  toBytesLE nonce.toNat 32 ++ toBytesLE s.boot.meas.toNat 32 ++ toBytesLE s.boot.ver 4 ++ toBytesLE (s.pkg % 4096) 4
    ++ toBytesLE Config.identityKey.toNat 64 ++ toBytesLE s.enabledParts 8
    ++ toBytesLE (Config.sha256 s.partWords).toNat 32 ++ toBytesLE 0 272

/-- ATTESTATION_REQUEST (R427): a report over the host's nonce, signed. -/
def execAttestationRequest (nonce : BitVec 256) (s : State) : Out :=
  .next (
    if s.boot.phase ≠ .running then s
    else
      let s := s.awake
      let body := s.reportBody nonce
      { s with report := body ++ toBytesLE (Config.identitySign (Config.sha256 body)).toNat 64 })

end Sys2Proof.Machine
end

