-- ==== Sys2Proof/Machine/Scalar.lean ====
section
/-! DEFINITION. Scalar instructions: integer register operations (R140 to R144), control transfer (R149 to R153), scalar
floating point (R154 to R157), control registers (R158) and nop (R159). -/

namespace Sys2Proof.Machine

/-! ### Integer values (R140) -/

/-- Signed minimum and the three others. -/
def minS (a b : W64) : W64 := if a.slt b then a else b
def maxS (a b : W64) : W64 := if a.slt b then b else a
def minU (a b : W64) : W64 := if a.ult b then a else b
def maxU (a b : W64) : W64 := if a.ult b then b else a
def bit1 (b : Bool) : W64 := if b then 1#64 else 0#64
/-- Bits [5:0] of a shift amount. -/
def amt (b : W64) : Nat := b.toNat % 64
/-- Bits [127:64] of the signed and of the unsigned product. -/
def mulhS (a b : W64) : W64 := BitVec.ofInt 64 ((a.toInt * b.toInt) / 2 ^ 64)
def mulhU (a b : W64) : W64 := BitVec.ofNat 64 (a.toNat * b.toNat / 2 ^ 64)
/-- Leading zero bits, 0 to 64. -/
def clz64 (a : W64) : W64 := BitVec.ofNat 64 (64 - bitLen a.toNat)
/-- Trailing zero bits, 0 to 64. -/
def ctz64 (a : W64) : W64 := BitVec.ofNat 64 ((findFrom (fun i => a.toNat.testBit i) 0 64).getD 64)
def popc64 (a : W64) : W64 := BitVec.ofNat 64 (popCount a.toNat 64)

/-- The quotients and remainders of R144, with its results for a zero divisor and for −2^63 by −1. -/
def divS (a b : W64) : W64 := if b = 0#64 then BitVec.allOnes 64 else a.sdiv b
def divU (a b : W64) : W64 := if b = 0#64 then BitVec.allOnes 64 else a.udiv b
def remS (a b : W64) : W64 := if b = 0#64 then a else a.srem b
def remU (a b : W64) : W64 := if b = 0#64 then a else a.umod b

/-! ### Major 0x01: integer register operations (R140) -/

/-- add (R140): A + B mod 2^64. -/
def execAdd (st : BitVec 3) (d a b : BitVec 5) (s : State) : Out :=
  runInsn (.add st d a b) st (fun s => exeLater s 1 d (s.rs a + s.rs b)) s

/-- sub (R140): A − B mod 2^64. -/
def execSub (st : BitVec 3) (d a b : BitVec 5) (s : State) : Out :=
  runInsn (.sub st d a b) st (fun s => exeLater s 1 d (s.rs a - s.rs b)) s

/-- and (R140): A AND B. -/
def execAnd (st : BitVec 3) (d a b : BitVec 5) (s : State) : Out :=
  runInsn (.and st d a b) st (fun s => exeLater s 1 d (s.rs a &&& s.rs b)) s

/-- or (R140): A OR B. -/
def execOr (st : BitVec 3) (d a b : BitVec 5) (s : State) : Out :=
  runInsn (.or st d a b) st (fun s => exeLater s 1 d (s.rs a ||| s.rs b)) s

/-- xor (R140): A XOR B. -/
def execXor (st : BitVec 3) (d a b : BitVec 5) (s : State) : Out :=
  runInsn (.xor st d a b) st (fun s => exeLater s 1 d (s.rs a ^^^ s.rs b)) s

/-- andn (R140): A AND NOT B. -/
def execAndn (st : BitVec 3) (d a b : BitVec 5) (s : State) : Out :=
  runInsn (.andn st d a b) st (fun s => exeLater s 1 d (s.rs a &&& ~~~ s.rs b)) s

/-- sll (R140): A << B[5:0]. -/
def execSll (st : BitVec 3) (d a b : BitVec 5) (s : State) : Out :=
  runInsn (.sll st d a b) st (fun s => exeLater s 1 d (s.rs a <<< amt (s.rs b))) s

/-- srl (R140): A >> B[5:0], zeros shifted in. -/
def execSrl (st : BitVec 3) (d a b : BitVec 5) (s : State) : Out :=
  runInsn (.srl st d a b) st (fun s => exeLater s 1 d (s.rs a >>> amt (s.rs b))) s

/-- sra (R140): A >> B[5:0], copies of A[63] shifted in. -/
def execSra (st : BitVec 3) (d a b : BitVec 5) (s : State) : Out :=
  runInsn (.sra st d a b) st (fun s => exeLater s 1 d ((s.rs a).sshiftRight (amt (s.rs b)))) s

/-- rol (R140): A rotated left by B[5:0]. -/
def execRol (st : BitVec 3) (d a b : BitVec 5) (s : State) : Out :=
  runInsn (.rol st d a b) st (fun s => exeLater s 1 d ((s.rs a).rotateLeft (amt (s.rs b)))) s

/-- min (R140): signed minimum. -/
def execMin (st : BitVec 3) (d a b : BitVec 5) (s : State) : Out :=
  runInsn (.min st d a b) st (fun s => exeLater s 1 d (minS (s.rs a) (s.rs b))) s

/-- max (R140): signed maximum. -/
def execMax (st : BitVec 3) (d a b : BitVec 5) (s : State) : Out :=
  runInsn (.max st d a b) st (fun s => exeLater s 1 d (maxS (s.rs a) (s.rs b))) s

/-- minn (R140): unsigned minimum. -/
def execMinn (st : BitVec 3) (d a b : BitVec 5) (s : State) : Out :=
  runInsn (.minn st d a b) st (fun s => exeLater s 1 d (minU (s.rs a) (s.rs b))) s

/-- maxn (R140): unsigned maximum. -/
def execMaxn (st : BitVec 3) (d a b : BitVec 5) (s : State) : Out :=
  runInsn (.maxn st d a b) st (fun s => exeLater s 1 d (maxU (s.rs a) (s.rs b))) s

/-- slt (R140): 1 if A < B signed, else 0. -/
def execSlt (st : BitVec 3) (d a b : BitVec 5) (s : State) : Out :=
  runInsn (.slt st d a b) st (fun s => exeLater s 1 d (bit1 ((s.rs a).slt (s.rs b)))) s

/-- sltn (R140): 1 if A < B unsigned, else 0. -/
def execSltn (st : BitVec 3) (d a b : BitVec 5) (s : State) : Out :=
  runInsn (.sltn st d a b) st (fun s => exeLater s 1 d (bit1 ((s.rs a).ult (s.rs b)))) s

/-- seq (R140): 1 if A = B, else 0. -/
def execSeq (st : BitVec 3) (d a b : BitVec 5) (s : State) : Out :=
  runInsn (.seq st d a b) st (fun s => exeLater s 1 d (bit1 (s.rs a == s.rs b))) s

/-- mul (R140): bits [63:0] of the product, at L = 4. -/
def execMul (st : BitVec 3) (d a b : BitVec 5) (s : State) : Out :=
  runInsn (.mul st d a b) st (fun s => exeLater s 4 d (s.rs a * s.rs b)) s

/-- mulh (R140): bits [127:64] of the signed product, at L = 4. -/
def execMulh (st : BitVec 3) (d a b : BitVec 5) (s : State) : Out :=
  runInsn (.mulh st d a b) st (fun s => exeLater s 4 d (mulhS (s.rs a) (s.rs b))) s

/-- mulhn (R140): bits [127:64] of the unsigned product, at L = 4. -/
def execMulhn (st : BitVec 3) (d a b : BitVec 5) (s : State) : Out :=
  runInsn (.mulhn st d a b) st (fun s => exeLater s 4 d (mulhU (s.rs a) (s.rs b))) s

/-- clz (R140): leading zero bits of A. -/
def execClz (st : BitVec 3) (d a : BitVec 5) (s : State) : Out :=
  runInsn (.clz st d a) st (fun s => exeLater s 1 d (clz64 (s.rs a))) s

/-- ctz (R140): trailing zero bits of A. -/
def execCtz (st : BitVec 3) (d a : BitVec 5) (s : State) : Out :=
  runInsn (.ctz st d a) st (fun s => exeLater s 1 d (ctz64 (s.rs a))) s

/-- popc (R140): set bits of A. -/
def execPopc (st : BitVec 3) (d a : BitVec 5) (s : State) : Out :=
  runInsn (.popc st d a) st (fun s => exeLater s 1 d (popc64 (s.rs a))) s

/-- csel (R140): B if A ≠ 0; otherwise s(d) keeps its value, which is read at issue as a third source. -/
def execCsel (st : BitVec 3) (d a b : BitVec 5) (s : State) : Out :=
  runInsn (.csel st d a b) st
    (fun s => exeLater s 1 d (if s.rs a = 0#64 then s.rs d else s.rs b)) s

/-! ### Majors 0x02 to 0x0B: immediates (R141 to R143) -/

/-- addi (R141): A + imm, sign-extended. -/
def execAddi (st : BitVec 3) (d a : BitVec 5) (i : BitVec 13) (s : State) : Out :=
  runInsn (.addi st d a i) st (fun s => exeLater s 1 d (s.rs a + sx i)) s

/-- andi (R141): A AND imm, zero-extended. -/
def execAndi (st : BitVec 3) (d a : BitVec 5) (i : BitVec 13) (s : State) : Out :=
  runInsn (.andi st d a i) st (fun s => exeLater s 1 d (s.rs a &&& zx i)) s

/-- ori (R141): A OR imm, zero-extended. -/
def execOri (st : BitVec 3) (d a : BitVec 5) (i : BitVec 13) (s : State) : Out :=
  runInsn (.ori st d a i) st (fun s => exeLater s 1 d (s.rs a ||| zx i)) s

/-- xori (R141): A XOR imm, zero-extended. -/
def execXori (st : BitVec 3) (d a : BitVec 5) (i : BitVec 13) (s : State) : Out :=
  runInsn (.xori st d a i) st (fun s => exeLater s 1 d (s.rs a ^^^ zx i)) s

/-- slli (R141): A shifted left by the amount [5:0]. -/
def execSlli (st : BitVec 3) (d a : BitVec 5) (h : BitVec 6) (s : State) : Out :=
  runInsn (.slli st d a h) st (fun s => exeLater s 1 d (s.rs a <<< h.toNat)) s

/-- srli (R141): A shifted right with zeros by the amount [5:0]. -/
def execSrli (st : BitVec 3) (d a : BitVec 5) (h : BitVec 6) (s : State) : Out :=
  runInsn (.srli st d a h) st (fun s => exeLater s 1 d (s.rs a >>> h.toNat)) s

/-- srai (R141): A shifted right with copies of A[63] by the amount [5:0]. -/
def execSrai (st : BitVec 3) (d a : BitVec 5) (h : BitVec 6) (s : State) : Out :=
  runInsn (.srai st d a h) st (fun s => exeLater s 1 d ((s.rs a).sshiftRight h.toNat)) s

/-- roli (R141): A rotated left by the amount [5:0]. -/
def execRoli (st : BitVec 3) (d a : BitVec 5) (h : BitVec 6) (s : State) : Out :=
  runInsn (.roli st d a h) st (fun s => exeLater s 1 d ((s.rs a).rotateLeft h.toNat)) s

/-- slti (R141): 1 if A < imm signed. -/
def execSlti (st : BitVec 3) (d a : BitVec 5) (i : BitVec 13) (s : State) : Out :=
  runInsn (.slti st d a i) st (fun s => exeLater s 1 d (bit1 ((s.rs a).slt (sx i)))) s

/-- sltni (R141): 1 if A < imm, sign-extended and compared unsigned. -/
def execSltni (st : BitVec 3) (d a : BitVec 5) (i : BitVec 13) (s : State) : Out :=
  runInsn (.sltni st d a i) st (fun s => exeLater s 1 d (bit1 ((s.rs a).ult (sx i)))) s

/-- li (R142): imm18 sign-extended. -/
def execLi (st : BitVec 3) (d : BitVec 5) (i : BitVec 18) (s : State) : Out :=
  runInsn (.li st d i) st (fun s => exeLater s 1 d (sx i)) s

/-- lext (R142): (s(d) << 18) OR imm18, zero-extended; s(d) is read at issue. -/
def execLext (st : BitVec 3) (d : BitVec 5) (i : BitVec 18) (s : State) : Out :=
  runInsn (.lext st d i) st (fun s => exeLater s 1 d ((s.rs d <<< 18) ||| zx i)) s

/-- lea (R143): PC + imm18, sign-extended bytes. -/
def execLea (st : BitVec 3) (d : BitVec 5) (i : BitVec 18) (s : State) : Out :=
  runInsn (.lea st d i) st (fun s => exeLater s 1 d (s.thr.pc + sx i)) s

/-! ### Major 0x0C: division (R144) -/

/-- div (R144): signed quotient, interlocked. -/
def execDiv (st : BitVec 3) (d a b : BitVec 5) (s : State) : Out :=
  runInsn (.div st d a b) st (fun s => exePut s d (divS (s.rs a) (s.rs b))) s

/-- divn (R144): unsigned quotient, interlocked. -/
def execDivn (st : BitVec 3) (d a b : BitVec 5) (s : State) : Out :=
  runInsn (.divn st d a b) st (fun s => exePut s d (divU (s.rs a) (s.rs b))) s

/-- rem (R144): signed remainder, interlocked. -/
def execRem (st : BitVec 3) (d a b : BitVec 5) (s : State) : Out :=
  runInsn (.rem st d a b) st (fun s => exePut s d (remS (s.rs a) (s.rs b))) s

/-- remn (R144): unsigned remainder, interlocked. -/
def execRemn (st : BitVec 3) (d a b : BitVec 5) (s : State) : Out :=
  runInsn (.remn st d a b) st (fun s => exePut s d (remU (s.rs a) (s.rs b))) s

/-! ### Majors 0x15 to 0x1D: control transfer (R149 to R153) -/

/-- The address `i` words from the instruction at the thread's place. -/
def State.wordsOn {n : Nat} (s : State) (i : BitVec n) : W64 := s.thr.pc + (sx i <<< 2)

/-- br (R149): to PC + 4 × imm18. -/
def execBr (st : BitVec 3) (i : BitVec 18) (s : State) : Out :=
  runInsn (.br st i) st (fun s => .goto s (s.wordsOn i)) s

/-- call (R149): as br, with s31 := PC + 4 at L = 1. -/
def execCall (st : BitVec 3) (i : BitVec 18) (s : State) : Out :=
  runInsn (.call st i) st
    (fun s => .goto (s.later 1 31#5 (s.thr.pc + 4#64)) (s.wordsOn i)) s

/-- jr (R150): to s(a) + 4 × imm13, s(d) := PC + 4; a misaligned target is trap 0x06 with no link written. -/
def execJr (st : BitVec 3) (d a : BitVec 5) (i : BitVec 13) (s : State) : Out :=
  runInsn (.jr st d a i) st
    (fun s =>
      let t := s.rs a + (sx i <<< 2)
      if t.toNat % 4 ≠ 0 then exeTrap s 0x06 t else .goto (s.later 1 d (s.thr.pc + 4#64)) t) s

/-- A conditional branch: taken to PC + 4 × off13, else on to the next instruction (R151). -/
def exeBranch (s : State) (o : BitVec 13) (taken : Bool) : Exe := if taken then .goto s (s.wordsOn o) else .done s

/-- beq (R151): branches when A = B. -/
def execBeq (st : BitVec 3) (a b : BitVec 5) (o : BitVec 13) (s : State) : Out :=
  runInsn (.beq st a b o) st (fun s => exeBranch s o (s.rs a == s.rs b)) s

/-- bne (R151): branches when A ≠ B. -/
def execBne (st : BitVec 3) (a b : BitVec 5) (o : BitVec 13) (s : State) : Out :=
  runInsn (.bne st a b o) st (fun s => exeBranch s o (s.rs a != s.rs b)) s

/-- blt (R151): branches when A < B signed. -/
def execBlt (st : BitVec 3) (a b : BitVec 5) (o : BitVec 13) (s : State) : Out :=
  runInsn (.blt st a b o) st (fun s => exeBranch s o ((s.rs a).slt (s.rs b))) s

/-- bge (R151): branches when A ≥ B signed. -/
def execBge (st : BitVec 3) (a b : BitVec 5) (o : BitVec 13) (s : State) : Out :=
  runInsn (.bge st a b o) st (fun s => exeBranch s o (!(s.rs a).slt (s.rs b))) s

/-- bltn (R151): branches when A < B unsigned. -/
def execBltn (st : BitVec 3) (a b : BitVec 5) (o : BitVec 13) (s : State) : Out :=
  runInsn (.bltn st a b o) st (fun s => exeBranch s o ((s.rs a).ult (s.rs b))) s

/-- bgen (R151): branches when A ≥ B unsigned. -/
def execBgen (st : BitVec 3) (a b : BitVec 5) (o : BitVec 13) (s : State) : Out :=
  runInsn (.bgen st a b o) st (fun s => exeBranch s o (!(s.rs a).ult (s.rs b))) s

/-- loop (R152): s(a) − 1 at L = 1, and a branch while it is not zero. -/
def execLoop (st : BitVec 3) (a : BitVec 5) (o : BitVec 13) (s : State) : Out :=
  runInsn (.loop st a o) st
    (fun s =>
      let n := s.rs a - 1#64
      exeBranch (s.later 1 a n) o (n != 0#64)) s

/-! ### Majors 0x1E and 0x1F: scalar floating point (R154 to R157) -/

/-- The precision of field P (R155). -/
def fprec (p : BitVec 1) : Fmt := if p = 1#1 then .f64 else .f32

/-- A scalar operand in a precision: f32 takes bits [31:0] (R154). -/
def fpOperand (f : Fmt) (v : W64) : Nat := v.toNat % 2 ^ f.width

/-- A floating-point result rounded by FRM: trap 0x04 for a reserved mode (R54), else the value at L = 6, or at once where
the instruction is interlocked, and its flags (R154). -/
def exeFp (s : State) (lat : Option Nat) (d : BitVec 5) (f : Rm → Nat → Nat × Flags) : Exe :=
  match s.thr.rm with
  | none => exeTrap s 0x04 (s.thr.csrv csrFRM)
  | some rm =>
    let (v, fl) := f rm (s.thr.srAt 0)
    match lat with
    | some l => exeLater (s.raise fl) l d (BitVec.ofNat 64 v)
    | none => exePut (s.raise fl) d (BitVec.ofNat 64 v)

/-- A result that does not round by FRM, at L = 6, with flags. -/
def exeFpExact (s : State) (d : BitVec 5) (r : Nat × Flags) : Exe := exeLater (s.raise r.2) 6 d (BitVec.ofNat 64 r.1)

/-- fadd (R155): a + b. -/
def execFadd (st : BitVec 3) (d a b : BitVec 5) (p : BitVec 1) (s : State) : Out :=
  runInsn (.fadd st d a b p) st
    (fun s => exeFp s (some 6) d fun rm r => fpAdd (fprec p) rm r (fpOperand (fprec p) (s.rs a)) (fpOperand (fprec p) (s.rs b))) s

/-- fsub (R155): a − b. -/
def execFsub (st : BitVec 3) (d a b : BitVec 5) (p : BitVec 1) (s : State) : Out :=
  runInsn (.fsub st d a b p) st
    (fun s => exeFp s (some 6) d fun rm r => fpSub (fprec p) rm r (fpOperand (fprec p) (s.rs a)) (fpOperand (fprec p) (s.rs b))) s

/-- fmul (R155): a × b. -/
def execFmul (st : BitVec 3) (d a b : BitVec 5) (p : BitVec 1) (s : State) : Out :=
  runInsn (.fmul st d a b p) st
    (fun s => exeFp s (some 6) d fun rm r => fpMul (fprec p) rm r (fpOperand (fprec p) (s.rs a)) (fpOperand (fprec p) (s.rs b))) s

/-- fdiv (R155): a / b, interlocked; a finite non-zero a over ±0 gives ±∞ and DZ. -/
def execFdiv (st : BitVec 3) (d a b : BitVec 5) (p : BitVec 1) (s : State) : Out :=
  runInsn (.fdiv st d a b p) st
    (fun s => exeFp s none d fun rm r => fpDiv (fprec p) rm r (fpOperand (fprec p) (s.rs a)) (fpOperand (fprec p) (s.rs b))) s

/-- fsqrt (R155): √a, interlocked. -/
def execFsqrt (st : BitVec 3) (d a : BitVec 5) (p : BitVec 1) (s : State) : Out :=
  runInsn (.fsqrt st d a p) st
    (fun s => exeFp s none d fun rm r => fpSqrt (fprec p) rm r (fpOperand (fprec p) (s.rs a))) s

/-- fmin (R155, R62): IEEE minimumNumber; it does not round (log 15). -/
def execFmin (st : BitVec 3) (d a b : BitVec 5) (p : BitVec 1) (s : State) : Out :=
  runInsn (.fmin st d a b p) st
    (fun s => exeFpExact s d (fpMinMax (fprec p) false (fpOperand (fprec p) (s.rs a)) (fpOperand (fprec p) (s.rs b)))) s

/-- fmax (R155, R62): IEEE maximumNumber; it does not round (log 15). -/
def execFmax (st : BitVec 3) (d a b : BitVec 5) (p : BitVec 1) (s : State) : Out :=
  runInsn (.fmax st d a b p) st
    (fun s => exeFpExact s d (fpMinMax (fprec p) true (fpOperand (fprec p) (s.rs a)) (fpOperand (fprec p) (s.rs b)))) s

/-- fcmp (R155): 1 if the relation holds, else 0, as an integer; it does not round (log 15). -/
def execFcmp (st : BitVec 3) (d a b : BitVec 5) (p : BitVec 1) (c : BitVec 2) (s : State) : Out :=
  runInsn (.fcmp st d a b p c) st
    (fun s => exeFpExact s d <|
      let rel : Rel := match c.toNat with | 0 => .eq | 1 => .lt | 2 => .le | _ => .un
      let x := fpOperand (fprec p) (s.rs a)
      let y := fpOperand (fprec p) (s.rs b)
      let (h, fl) := fpRel (fprec p) rel x y
      (b2n h, fl)) s

/-- The conversions of fcvt by kind (R156): to the P format from the other one, to and from 64-bit integers, and to 32-bit
integers extended to 64 bits. -/
def fcvtValue (p : BitVec 1) (k : Nat) (a : W64) (rm : Rm) (r : Nat) : Nat × Flags :=
  let f := fprec p
  let g := fprec (~~~ p)
  let src := f.value (fpOperand f a)
  match k with
  | 0 => cvtToFp f rm r false (g.value (fpOperand g a))
  | 1 => cvtToInt true 64 rm r src
  | 2 => cvtToInt false 64 rm r src
  | 3 => cvtIntToFp f rm r false a.toInt
  | 4 => cvtIntToFp f rm r false (a.toNat : Int)
  | 5 =>
    let (v, fl) := cvtToInt true 32 rm r src
    (((BitVec.ofNat 32 v).signExtend 64).toNat, fl)
  | _ => cvtToInt false 32 rm r src

/-- fcvt (R156). -/
def execFcvt (st : BitVec 3) (d a : BitVec 5) (p : BitVec 1) (k : BitVec 3) (s : State) : Out :=
  runInsn (.fcvt st d a p k) st
    (fun s => exeFp s (some 6) d (fcvtValue p k.toNat (s.rs a))) s

/-- The source of a sign operation in its precision (R155). -/
def signOp (p : BitVec 1) (a : W64) (neg : Bool → Bool) : Nat :=
  let f := fprec p
  let x := fpOperand f a
  f.withSign (neg (f.signOf x)) x

/-- fmv (R155): copies a's value unchanged. -/
def execFmv (st : BitVec 3) (d a : BitVec 5) (p : BitVec 1) (s : State) : Out :=
  runInsn (.fmv st d a p) st (fun s => exeFpExact s d (signOp p (s.rs a) id, flNone)) s

/-- fmv.neg (R155): the sign bit inverted. -/
def execFmvNeg (st : BitVec 3) (d a : BitVec 5) (p : BitVec 1) (s : State) : Out :=
  runInsn (.fmvNeg st d a p) st (fun s => exeFpExact s d (signOp p (s.rs a) not, flNone)) s

/-- fmv.abs (R155): the sign bit cleared. -/
def execFmvAbs (st : BitVec 3) (d a : BitVec 5) (p : BitVec 1) (s : State) : Out :=
  runInsn (.fmvAbs st d a p) st
    (fun s => exeFpExact s d (signOp p (s.rs a) (fun _ => false), flNone)) s

/-- fmv.sgn (R155): a's magnitude with b's sign bit. -/
def execFmvSgn (st : BitVec 3) (d a b : BitVec 5) (p : BitVec 1) (s : State) : Out :=
  runInsn (.fmvSgn st d a b p) st
    (fun s => exeFpExact s d
      (signOp p (s.rs a) (fun _ => (fprec p).signOf (fpOperand (fprec p) (s.rs b))), flNone)) s

/-- ffma (R157): a × b + c, rounded once. -/
def execFfma (st : BitVec 3) (d a b c : BitVec 5) (p : BitVec 1) (s : State) : Out :=
  runInsn (.ffma st d a b c p) st
    (fun s => exeFp s (some 6) d fun rm r =>
      fpFma (fprec p) rm r false false false (fpOperand (fprec p) (s.rs a)) (fpOperand (fprec p) (s.rs b)) (fpOperand (fprec p) (s.rs c))) s

/-- ffms (R157): a × b − c, rounded once. -/
def execFfms (st : BitVec 3) (d a b c : BitVec 5) (p : BitVec 1) (s : State) : Out :=
  runInsn (.ffms st d a b c p) st
    (fun s => exeFp s (some 6) d fun rm r =>
      fpFma (fprec p) rm r false false true (fpOperand (fprec p) (s.rs a)) (fpOperand (fprec p) (s.rs b)) (fpOperand (fprec p) (s.rs c))) s

/-- ffnma (R157): −(a × b) − c, rounded once. -/
def execFfnma (st : BitVec 3) (d a b c : BitVec 5) (p : BitVec 1) (s : State) : Out :=
  runInsn (.ffnma st d a b c p) st
    (fun s => exeFp s (some 6) d fun rm r =>
      fpFma (fprec p) rm r false true true (fpOperand (fprec p) (s.rs a)) (fpOperand (fprec p) (s.rs b)) (fpOperand (fprec p) (s.rs c))) s

/-- ffnms (R157): −(a × b) + c, rounded once. -/
def execFfnms (st : BitVec 3) (d a b c : BitVec 5) (p : BitVec 1) (s : State) : Out :=
  runInsn (.ffnms st d a b c p) st
    (fun s => exeFp s (some 6) d fun rm r =>
      fpFma (fprec p) rm r false true false (fpOperand (fprec p) (s.rs a)) (fpOperand (fprec p) (s.rs b)) (fpOperand (fprec p) (s.rs c))) s

/-! ### Major 0x20: control registers (R158) -/

/-- The CSR instructions: the old value read, the register written unless `csrs` or `csrc` names s0, the old value to s(d).
A write that R126 refuses to a supervisor is trap 0x04; to a user it is trap 0x02 before (R124 step 2). They wait
until every earlier fixed-latency write has landed (R121). -/
def exeCsr (s : State) (d : BitVec 5) (c : Nat) (write : Option (W64 → W64)) (w : W32) : Exe :=
  let old := s.csrRead s.thr c
  if !s.thr.pend.isEmpty then .wait s
  else match write with
  | none => exePut s d old
  | some f =>
    if !csrSupWrites c then exeTrap s 0x04 (w.zeroExtend 64)
    else
      let t := s.csrWrite s.cur c (f old)
      exePut t d old


/-- csrr (R158). -/
def execCsrr (st : BitVec 3) (d : BitVec 5) (e : BitVec 10) (s : State) : Out :=
  runInsn (.csrr st d e) st
    (fun s => exeCsr s d e.toNat none 0#32) s

/-- csrw (R158). -/
def execCsrw (st : BitVec 3) (d a : BitVec 5) (e : BitVec 10) (s : State) : Out :=
  runInsn (.csrw st d a e) st
    (fun s => exeCsr s d e.toNat (some fun _ => s.rs a) (wordOf (.csrw st d a e))) s

/-- csrs (R158): with s0 it only reads. -/
def execCsrs (st : BitVec 3) (d a : BitVec 5) (e : BitVec 10) (s : State) : Out :=
  runInsn (.csrs st d a e) st
    (fun s => exeCsr s d e.toNat (if a = 0#5 then none else some fun o => o ||| s.rs a) (wordOf (.csrs st d a e))) s

/-- csrc (R158): with s0 it only reads. -/
def execCsrc (st : BitVec 3) (d a : BitVec 5) (e : BitVec 10) (s : State) : Out :=
  runInsn (.csrc st d a e) st
    (fun s => exeCsr s d e.toNat (if a = 0#5 then none else some fun o => o &&& ~~~ s.rs a) (wordOf (.csrc st d a e))) s

/-! ### nop (R159) -/

/-- nop (R159): no effect but its issue slot. -/
def execNop (st : BitVec 3) (s : State) : Out :=
  runInsn (.nop st) st (fun s => .done s) s

end Sys2Proof.Machine
end

