-- ==== Sys2Proof/Machine/Switch.lean ====
section
/-! DEFINITION. The vector save area (R401), pre-emption requests (R404), full context switches with their records and the
restore (R405 to R409). -/

namespace Sys2Proof.Machine

/-! ### Words written and read for a thread by its CP, as a supervisor -/

/-- Words at rising virtual addresses from `va`, written for slot `n`; on a fault its cause and address with what stands. -/
def State.putWords (s : State) (n va : Nat) : List W64 → Except (Nat × Nat × State) State
  | [] => .ok s
  | w :: r => match s.vwrite (holdCp (courseOf n)) (s.slot n).asid true va w.toNat 8 with
    | .error c => .error (c, va, s)
    | .ok t => t.putWords n (va + 8) r

/-- A word read for slot `n`: none where it cannot be read. -/
def State.savedWord (s : State) (n va : Nat) : Except Nat W64 :=
  match s.vread (holdCp (courseOf n)) (s.slot n).asid true .load va 8 with
  | .error c => .error c
  | .ok v => .ok (BitVec.ofNat 64 v)

/-- The first of `k` words that cannot be read: its cause and address. -/
def State.badWord (s : State) (n va : Nat) : Nat → Option (Nat × Nat)
  | 0 => none
  | k + 1 => match s.savedWord n va with
    | .error c => some (c, va)
    | .ok _ => s.badWord n (va + 8) k

/-- A value of `k` words read from an address, low word first; `old` is what a word that cannot be read leaves. -/
def State.savedBits (s : State) (n va old : Nat) : Nat → Nat
  | 0 => 0
  | k + 1 =>
    (match s.savedWord n va with | .ok w => w.toNat | .error _ => old % 2 ^ 64)
      + 2 ^ 64 * s.savedBits n (va + 8) (old / 2 ^ 64) k

/-- The `k` words of a value, low word first. -/
def wordsOf (v : Nat) : Nat → List W64
  | 0 => []
  | k + 1 => BitVec.ofNat 64 v :: wordsOf (v / 2 ^ 64) k

/-! ### The vector save area (R401) -/

def saveArea (n : Nat) : Nat := 0x7F1000000000 + n * 0x20000

/-- The slice numbers whose registers a thread holds: attached and not lent. -/
def Slot.ownSlices (x : Slot) : List Nat := (setPositions x.att 8).filter fun k => !x.lent.contains k

/-- The vector registers in the layout of R401: slices that are not attached, or lent, and quarters that are not held, are
zero. -/
def Slot.vectorWords (x : Slot) : List W64 :=
  (rangeFrom 0 8).flatMap fun k => (rangeFrom 0 32).flatMap fun r =>
    wordsOf (if x.ownSlices.contains k then (x.heldPart k (x.readV k r)).toNat else 0) 32

/-- The whole save area. -/
def Slot.saveWords (x : Slot) : List W64 :=
  x.vectorWords ++ ((rangeFrom 1 7).flatMap fun m => wordsOf (x.readM m).toNat 256)
    ++ List.replicate 5888 0#64 ++ [x.csrv csrSTYPE, x.csrv csrGLEN, x.csrv csrSSTART] ++ List.replicate 509 0#64

/-- The vector state that the save area holds for a thread, as it stands; a bit outside `mask` of a register, or of a word that
cannot be read, is the old one. -/
def State.reloadVec (s : State) (n : Nat) (mask : Nat → Nat) : Slot :=
  let x := s.slot n
  let mix := fun (key old new : Nat) => (old &&& (old ^^^ (old &&& mask key))) ||| (new &&& mask key)
  let x := x.ownSlices.foldl (fun x k => (rangeFrom 0 32).foldl (fun x r =>
    let old := (x.readV k r).toNat
    x.writeV k r (x.heldPart k
      (BitVec.ofNat 2048 (mix (k * 32 + r) old (s.savedBits n (saveArea n + k * 0x2000 + r * 0x100) old 32))))) x) x
  let x := (rangeFrom 1 7).foldl (fun x m =>
    let old := (x.readM m).toNat
    x.writeM m (BitVec.ofNat 16384 (mix (256 + m) old (s.savedBits n (saveArea n + 0x10000 + (m - 1) * 0x800) old 256)))) x
  let put := fun (x : Slot) (key c off m : Nat) =>
    let old := (x.csrv c).toNat
    x.setCsr c (BitVec.ofNat 64 (mix key old (s.savedBits n (saveArea n + off) old 1) &&& m))
  put (put (put x 264 csrSTYPE 0x1F000 0x13F) 265 csrGLEN 0x1F008 0x7FFF) 266 csrSSTART 0x1F010 0xFFFF

/-- The first word of the save area that a reload needs and cannot read. -/
def State.reloadFault (s : State) (n : Nat) : Option (Nat × Nat) :=
  match (s.slot n).ownSlices.findSome? fun k => s.badWord n (saveArea n + k * 0x2000) 1024 with
  | some f => some f
  | none => match s.badWord n (saveArea n + 0x10000) 1792 with
    | some f => some f
    | none => s.badWord n (saveArea n + 0x1F000) 3

/-- A free choice of bits (R403: any mix). -/
def freeMask (base key : Nat) : Nat := (rangeFrom 0 256).foldl (fun m i =>
  m + (Config.freeWord (base + key * 256 + i)).toNat * 2 ^ (64 * i)) 0

/-! ### Pre-emption requests (R404, R105) -/

/-- A request recorded for a thread, unless one stands. -/
def State.request (s : State) (n reason : Nat) : State :=
  s.modSlot n fun x => if x.preq.isSome then x
    else { (x.woken 8) with preq := some { reason := reason, since := s.now, ieSeen := x.ie, trapAt := none } }

/-- Whether a thread has issued no setlen within 24,000 C-cycles of its SCAP being lowered (R105). -/
def State.scapLate (s : State) (n : Nat) : Bool :=
  match (s.slot n).scapAt with | some t => decide (t + 24000 ≤ s.now) | none => false

/-- Whether a queue of the thread's partition with a higher effective priority has ordinals and no course free for them. -/
def State.outranked (s : State) (n : Nat) : Bool :=
  match s.jobs.get? (s.slot n).job with
  | none => false
  | some j => anyB (fun k => k.p == j.p && decide (s.effPri j.p j.q < s.effPri k.p k.q) && (s.qctl k.p k.q).en
      && decide (0 < k.left) && !anyB (fun d => s.jobHasWork d k) (rangeFrom 0 8)) s.jobs.vals

/-- PREEMPTION_REQUEST (R404): a request arises for its reason. -/
def execPreemptionRequest (slot reason : Nat) (s : State) : Out :=
  let x := s.slot slot
  let arises := match reason with
    | 1 => s.outranked slot
    | 2 => (match s.jobs.get? x.job with | some j => (s.part j.p).swout | none => false)
    | 3 => true
    | 4 => s.scapLate slot
    | _ => false
  .next (if x.use = .thread && arises then s.request slot reason else s)

/-- SCAP written by the queue manager (R103, R405): lowered where a queue of higher priority wants the course, raised only over
quarters that have returned. -/
def State.setScap (s : State) (n c : Nat) : State :=
  let x := s.slot n
  let c := min 32 (max 1 c)
  let out := fun (k : Nat) => anyB (fun (kv : Nat × Slot) => kv.2.lentFrom == some (n, k) && !kv.2.returned) s.slots
  if x.use ≠ .thread then s
  else if c < x.scap then (if s.outranked n then s.setSlot n { x with scap := c, scapAt := some s.now } else s)
  else if anyB (fun k => decide ((x.ranks.findIdx? (· == k)).getD 8 < (c + 3) / 4) && out k) x.lent then s
  else s.setSlot n { x with scap := c }

/-- SCAP_TIMEOUT (R105, R405): no setlen within 24,000 C-cycles of a lowered SCAP. -/
def execScapTimeout (slot : Nat) (s : State) : Out :=
  .next (if (s.slot slot).use = .thread && s.scapLate slot then s.request slot 4 else s)

/-- FORCED_SWITCH_TIMEOUT (R404): 24,000 C-cycles with IE = 0 since the request, or in the handler since its trap. -/
def execForcedSwitchTimeout (slot : Nat) (s : State) : Out :=
  .next (match (s.slot slot).preq with
    | none => s
    | some r =>
      let late := match r.trapAt with
        | some t => decide (t + 24000 ≤ s.now)
        | none => !r.ieSeen && decide (r.since + 24000 ≤ s.now)
      if late then s.modSlot slot fun x => { x with forced := true } else s)

/-! ### The context record (R407) -/

def contextRecord (n : Nat) : Nat := 0x7F2000000000 + n * 0x400000

/-- The positions of a thread's own course that it owns. -/
def Slot.ownPos (x : Slot) : List Nat := setPositions x.decl.posmask 32

/-- The scalar image with Claimed (R292, R407): the word at + 0x7FF8 is also the last of m7, of which it keeps all bits but
the lowest. -/
def State.recordScalars (s : State) (n : Nat) : List W64 :=
  (rangeFrom 0 4095).map (fun i => s.scalarImage n (8 * i))
    ++ [BitVec.ofNat 64 (setBits (s.scalarImage n 0x7FF8).toNat 0 0 (b2n (s.slot n).claimed))]

/-- The tokens of a position, each as a spill record in its place; a place without a token is zero (R222, R407). -/
def Pos.tokenWords (x : Pos) : List W64 :=
  (rangeFrom 0 tokenPlaces).flatMap fun i => match x.tokenAt i with
    | some t => spillWords t
    | none => List.replicate 16 0#64

/-- The areas of a context record: offset and words. The private area holds what the device alone knows (log 9). -/
def State.recordAreas (s : State) (n : Nat) : List (Nat × List W64) :=
  let x := s.slot n
  let c := courseOf n
  let priv := fun (base k : Nat) => (rangeFrom base k).map Config.freeWord
  let mem := fun (off k : Nat) =>
    (rangeFrom 0 k).map fun i => BitVec.ofNat 64 (s.readPhys (windowBase + c * 0x1000000 + off + 8 * i) 8)
  [(0, s.recordScalars n), (0x10000, x.vectorWords)]
    ++ (x.ownPos.map fun p => (0x20000 + p * 0x400, (rangeFrom 0 128).map fun i => s.planeImage c (p * 0x400 + 8 * i)))
    ++ (if x.decl.feng then [(0x28000, (rangeFrom 0 128).map fun i => s.planeImage c (0x8000 + 8 * i))] else [])
    ++ (x.ownPos.map fun p => (0x40000 + p * 0x3000, (s.pos (posKey c p)).tokenWords))
    ++ [(0xA0000, priv s.freeCnt 0x4000)]
    ++ (if x.decl.feng then [(0x100000, mem 0x200000 0x10000)] else [])
    ++ ((rangeFrom 0 16).filter (fun t => x.decl.posmask.testBit (tilePos t))).map fun t =>
        (0x200000 + t * 0x20000, mem (t * 0x20000) 0x4000)

/-- A context record written, area by area. -/
def State.writeRecord (s : State) (n : Nat) : List (Nat × List W64) → Except (Nat × State) State
  | [] => .ok s
  | (off, ws) :: r => match s.putWords n (contextRecord n + off) ws with
    | .error (c, _, t) => .error (c, t)
    | .ok t => t.writeRecord n r

/-! ### The full switch (R406) -/

/-- A thread stopped at a boundary with everything it has started: its fixed-latency writes land, its runs freeze, its class
grants are released, its copies stop between pieces. -/
def State.stopThread (s : State) (n : Nat) : State :=
  let rops := if s.waitsToken n then s.rops.filter fun r => (s.slot n).rop != some r.1 else s.rops
  let s := State.modSlot { s with rops := rops } n fun x =>
    { x.landAll with vm := none, doing := none, wfe := none, watch := none, rop := none, held := [] }
  let fes := (s.openRuns n).flatMap fun r => regionFes r.2.masks
  let s := (s.openRuns n).foldl (fun s r => if r.2.frozen then s else s.stopRun r.1 0) s
  let s := fes.foldl (fun s c => s.modFe c fun f => { f with gcls := min f.gcls 1 }) s
  { s with
    grants := s.grants.filter fun g => g.2.slot ≠ n
    watches := s.watches.filter fun w => w.2.by' ≠ .thread n
    copies := s.copies.map fun k => (k.1,
      if k.2.slot = some n && !k.2.orphan && k.2.res.isNone then { k.2 with parked := true, eng := none, accepted := false }
      else k.2) }

/-- The slots of a switched-out context reserved for it (R406); those of them that were lent to it have returned (R405). -/
def State.reserve (s : State) (n : Nat) : State :=
  let slots : Map Slot := s.slots.map fun kx => (kx.1, match kx.2.use with
    | .slice l k => if l = n then { kx.2 with use := SlotUse.resSlice l k } else kx.2
    | _ => if kx.2.lentFrom.map (·.1) = some n then { kx.2 with back := false } else kx.2)
  State.modSlot { s with slots := slots } n fun x => { x with use := .resThread, switched := true, switchPending := false, forced := false, preq := none }

/-- What follows the writing of a switched thread's record (R406): what it owns is reserved for it, or a fault of the record
ends its iteration (R407). -/
def State.afterRecord (n : Nat) : Except (Nat × State) State → State
  | .error (c, t) => t.endIteration n (some c)
  | .ok t => { t with freeCnt := t.freeCnt + 0x4000 }.reserve n

/-- THE FULL SWITCH of a thread (R406): it stops and its context record is written, with what follows from that. -/
def State.fullSwitch (s : State) (n : Nat) : State :=
  State.afterRecord n ((s.stopThread n).writeRecord n ((s.stopThread n).recordAreas n))

/-- FULL_SWITCH (R404, R406): a forced switch, at a boundary outside an atomic block. -/
def execFullSwitch (slot : Nat) (s : State) : Out :=
  .next (if (s.slot slot).use = .thread && (s.slot slot).forced && s.stoppable slot then s.fullSwitch slot else s)

/-! ### The restore (R408) -/

/-- A context record's word. -/
def State.recordWord (s : State) (n off : Nat) : W64 :=
  match s.savedWord n (contextRecord n + off) with | .ok w => w | .error _ => 0#64

/-- The control registers whose contents a record holds; of LCAP it holds SCAP (R103), and SLSTR, PTBASE and CYC are views. -/
def recordCsrs : List Nat :=
  [csrTHS, csrTCAUSE, csrTVAL, csrTPC, csrTVEC, csrINSN, csrGLEN, csrSTYPE, csrSSTART, csrFRM, csrFFLAGS, csrSEED, csrSBASE,
   csrMODQ, csrMODQI, csrVOPEN, csrQWIN, csrASID]

/-- The fields of a control register that are not reserved. -/
def csrFields (c : Nat) : W64 :=
  if c = csrTHS then 0xBF001F#64 else if c = csrSTYPE then 0x13F#64 else if c = csrGLEN then 0x7FFF#64
  else if c = csrLCAP then 0x3F3F3F#64 else csrMask c

/-- Whether a saved control register breaks its own rules: a reserved field, or SCAP, QWIN or GLEN out of range. -/
def csrBroken (c : Nat) (v : W64) : Bool :=
  v &&& ~~~csrFields c ≠ 0#64 || (c = csrLCAP && (v.toNat % 64 = 0 || v.toNat % 64 > 32)) || (c = csrQWIN && v.toNat < 64) || (c = csrGLEN && v.toNat > 16384)

/-- The words of a plane in a record: its node's and its switch's. -/
def State.recordPlane (s : State) (n base p : Nat) : List W64 × List W64 :=
  let w := fun (i : Nat) => s.recordWord n (base + 8 * i)
  ((rangeFrom 0 (if isBrick p then 16 else 8)).map w, (rangeFrom 16 2).map w)

/-- Whether a plane put back breaks the rules of its words (R227, R407); an EMPTY one is left as it is. -/
def State.planeBroken (s : State) (n p i : Nat) : Bool :=
  let pl := (s.pos (posKey (courseOf n) p)).planes.getD {} i
  if pl.st = .empty then false
  else
    let (node, sw) := s.recordPlane n (0x20000 + p * 0x400 + i * 0x100) p
    (if isBrick p then (brickBad node).isSome else (tileBad node).isSome) || (switchBad sw p).isSome

/-- The engine's words of a plane in a record. -/
def State.recordFe (s : State) (n i : Nat) : List W64 := (rangeFrom 0 32).map fun k => s.recordWord n (0x28000 + i * 0x100 + 8 * k)

/-- Whether an engine plane put back breaks its rules. -/
def State.feBroken (s : State) (n i : Nat) : Bool :=
  let c := courseOf n
  if ((s.fe c).planes.getD {} i).st = .empty then false
  else (factorBad (s.recordFe n i) fun row => swFeatt ((s.pos (posKey c (row * 8 + 7))).planes.getD {} i).sw).isSome

/-- The spill record in place `i` of a position's tokens. -/
def State.recordSpill (s : State) (n p i : Nat) : List W64 :=
  (rangeFrom 0 16).map fun j => s.recordWord n (0x40000 + p * 0x3000 + i * 128 + 8 * j)

/-- Whether a place that holds a token has a record that breaks its rules. -/
def State.tokensBroken (s : State) (n p : Nat) : Bool :=
  let x := s.pos (posKey (courseOf n) p)
  anyB (fun i => (x.tokenAt i).isSome && spillBroken (s.recordSpill n p i)) (rangeFrom 0 tokenPlaces)

/-- Whether any field of a record breaks its own rules, or a word of it cannot be read. -/
def State.recordBroken (s : State) (n : Nat) : Bool :=
  let x := s.slot n
  let readable := fun (off k : Nat) => (s.badWord n (contextRecord n + off) k).isNone
  !readable 0 4096 || !readable 0x10000 8192
    || anyB (fun c => csrBroken c (s.recordWord n (0x1000 + 8 * c))) (csrLCAP :: recordCsrs)
    || anyB (fun p => !readable (0x20000 + p * 0x400) 128 || !readable (0x40000 + p * 0x3000) 0x600
        || anyB (fun i => s.planeBroken n p i) (rangeFrom 0 4) || s.tokensBroken n p) x.ownPos
    || (x.decl.feng && (!readable 0x28000 128 || !readable 0x100000 0x10000
      || anyB (fun i => s.feBroken n i) (rangeFrom 0 4)))
    || anyB (fun t => x.decl.posmask.testBit (tilePos t) && !readable (0x200000 + t * 0x20000) 0x4000) (rangeFrom 0 16)

/-- The registers of a record put back; a thread that left its handler resumes at the TPC the record holds, one switched where it
stood goes on there (R404, R408). -/
def State.recordSlot (s : State) (n : Nat) : Slot :=
  let x := s.slot n
  let bits := fun (off k : Nat) => (rangeFrom 0 k).foldl (fun m i => m + (s.recordWord n (off + 8 * i)).toNat * 2 ^ (64 * i)) 0
  let y := (rangeFrom 1 31).foldl (fun y r => y.writeS r (s.recordWord n (8 * r))) x
  let y := recordCsrs.foldl (fun y c => y.setCsr c (s.recordWord n (0x1000 + 8 * c))) y
  let y := (rangeFrom 1 6).foldl (fun y m => y.writeM m (BitVec.ofNat 16384 (bits (0x4000 + m * 0x800) 256))) y
  let m7 := bits 0x7800 256
  let low := b2n ((x.readM 7).getLsbD 16320)
  let y := y.writeM 7 (BitVec.ofNat 16384 (setBits m7 16320 16320 low))
  let y := x.ownSlices.foldl (fun y k => (rangeFrom 0 32).foldl (fun y r =>
    y.writeV k r (y.heldPart k (BitVec.ofNat 2048 (bits (0x10000 + k * 0x2000 + r * 0x100) 32)))) y) y
  let y := { y with v := y.v.dropKeys fun key => x.lent.contains (key / 32) }
  let y := { y with claimed := (s.recordWord n 0x7FF8).getLsbD 0, scap := bitsAt (s.recordWord n (0x1000 + 8 * csrLCAP)).toNat 5 0 }
  let y := x.owed.foldl (fun y o => match o.2.2 with | some v => y.putS o.1 v | none => y) y
  let y := { y with owed := y.owed.filter fun o => o.2.2.isNone }
  if x.hold || x.pc != x.csrv csrTPC then y
  else
    let bhdr := bitAt y.ths 23
    { y with pc := y.csrv csrTPC, atHdr := bhdr, reHdr := !bhdr, bpos := bitsAt y.ths 21 16 }

/-- Words put back into a course's memory window. -/
def State.putWindow (s : State) (n c from' to' : Nat) : Nat → State
  | 0 => s
  | k + 1 => (s.writePhys (windowBase + c * 0x1000000 + to') (s.recordWord n from').toNat 8).putWindow n c (from' + 8) (to' + 8) k

/-- Planes, tokens, tiles and accumulator memory of a record put back. -/
def State.putGrid (s : State) (n : Nat) : State :=
  let x := s.slot n
  let c := courseOf n
  let plane := fun (p : Nat) (kp : Nat × Plane) =>
    if kp.2.st = PlaneSt.empty then kp
    else
      let (node, sw) := s.recordPlane n (0x20000 + p * 0x400 + kp.1 * 0x100) p
      (kp.1, ({ kp.2 with node := node, sw := sw } : Plane))
  let back := fun (p : Nat) (y : Pos) =>
    ({ y with planes := y.planes.map (plane p) } : Pos).mapTokens fun i => spillTok (s.recordSpill n p i)
  let s := x.ownPos.foldl (fun s p => s.modPos (posKey c p) (back p)) s
  let s := if x.decl.feng then
      (s.modFe c fun f => { f with planes := f.planes.map fun kp => (kp.1,
        if kp.2.st = .empty then kp.2 else { kp.2 with node := s.recordFe n kp.1 }) }).putWindow n c 0x100000 0x200000 0x10000
    else s
  ((rangeFrom 0 16).filter fun t => x.decl.posmask.testBit (tilePos t)).foldl (fun s t =>
    s.putWindow n c (0x200000 + t * 0x20000) (t * 0x20000) 0x4000) s

/-- A context's runs, engines and copies go on (R286, R338, R408). -/
def State.resumeOps (s : State) (n : Nat) : State :=
  let frozen := (s.openRuns n).filter fun r => r.2.frozen && r.2.fcause == 0
  let s := (s.openRuns n).foldl (fun s r => (regionFes r.2.masks).foldl (fun s c => s.modFe c fun f =>
    { f with bufs := f.bufs.map fun kb => (kb.1,
        if kb.2.loading || !kb.2.rows.isEmpty then { kb.2 with rows := [], next := 0, loading := true, fault := none } else kb.2) }) s) s
  let s := frozen.foldl (fun s r => s.modRun r.1 fun x => { x with frozen := false, lastMove := s.now }) s
  { s with copies := s.copies.map fun k => (k.1, if k.2.slot = some n && !k.2.orphan then { k.2 with parked := false } else k.2) }

/-- The slots of a context taken back from their reservation, lent ones that have returned among them; a slot it was lent loses what
its owner held there (R105, R168). -/
def State.takeSlots (s : State) (n : Nat) : State :=
  let s := (n :: s.sliceSlots n).foldl State.takenOver s
  let slots : Map Slot := s.slots.map fun kx => (kx.1, match kx.2.use, kx.2.lentFrom with
    | .resSlice l k, _ => if l = n then { kx.2 with use := .slice l k } else kx.2.backTo n
    | _, _ => kx.2.backTo n)
  State.modSlot { s with slots := slots } n fun x =>
    { x with use := .thread, switched := false, lent := [], earliest := max x.earliest (s.now + 1), given := 32, scapAt := x.scapAt.map fun _ => s.now }

/-- Whether a switched-out context may be restored now: its slots are free of lent use, those of its own that it was lent and
those that it lent, and its queue would dispatch it. -/
def State.mayRestore (s : State) (n : Nat) : Bool :=
  let x := s.slot n
  x.use == .resThread && x.switched
    && !anyB (fun m => (s.slot m).back) (n :: s.sliceSlots n)
    && !anyB (fun (k : Nat × Slot) => k.2.lentFrom.map (·.1) == some n && !k.2.returned) s.slots
    && (match s.jobs.get? x.job with
      | some j => s.partWorks j.p && (s.qctl j.p j.q).en
        && allB (fun q => decide (s.effPri j.p q ≤ s.effPri j.p j.q)) (s.queuesWithWork (dieOf (courseOf n)) j.p)
      | none => false)

/-- CONTEXT_RESTORE (R408): the record is read and everything put back; a record that breaks its rules ends the iteration with
ECAUSE 0xF1 (R407). -/
def execContextRestore (slot : Nat) (s : State) : Out :=
  .next (
    if !s.mayRestore slot then s
    else if s.recordBroken slot then s.endIteration slot (some 0xF1)
    else
      let s := (s.putGrid slot).setSlot slot (s.recordSlot slot)
      (s.resumeOps slot).takeSlots slot)

/-- SLICE_DETACH (R102, R409): a slice slot of a span is taken for another context; as a switch, it waits until its thread stands
outside an atomic block (R112). -/
def execSliceDetach (slot num : Nat) (s : State) : Out :=
  .next (if (s.slot slot).use == .thread && (s.slot slot).mayShield then s
    else match (s.sliceSlots slot).find? fun m => (s.slot m).use = .slice slot num || (s.slot m).use = .resSlice slot num with
    | some m => s.detach m
    | none => match s.slots.find? fun kx => kx.2.back && kx.2.lentFrom == some (slot, num) with
      | some kx => s.detachLent kx.1
      | none => s)

end Sys2Proof.Machine
end

