-- ==== Sys2Proof/Machine/Fetch.lean ====
section
/-! DEFINITION. What a step does around an instruction: which move comes next (log 1), fetching words and checking block
headers (R108 to R115), and what the end of a step makes of the bytes it stored. -/

namespace Sys2Proof.Machine

/-! ### Moves -/

/-- The C-cycles a move lets pass before it. -/
def actionTime : Action → Nat
  | .issue _ dt => dt
  | .event _ dt => dt
  | .tlbFill _ _ _ dt => dt
  | .tlbEvict _ _ dt => dt
  | .memError _ dt => dt
  | .ptrFill _ _ _ _ dt => dt
  | .ptrEvict _ _ dt => dt
  | .codeFill _ _ _ dt => dt
  | .codeDrop _ _ dt => dt
  | .rowActivate _ dt => dt
  | .softError _ dt => dt
  | .park _ _ dt => dt
  | .parkPiece _ _ dt => dt
  | .begin _ dt => dt
  | .setScap _ _ dt => dt

/-- The next move: the agenda's first, else the one the schedule names; time passes as the move says. -/
def State.nextAction (s : State) : Action × State :=
  match s.agenda with
  | a :: r => (a, { s with agenda := r, now := s.now + actionTime a })
  | [] =>
    let a := Config.schedule s.tick
    (a, { s with tick := s.tick + 1, now := s.now + actionTime a })

/-- A location meets an uncorrectable error (R302): HBM and the second tier alone. -/
def State.memError (s : State) (loc : Nat) : State :=
  if loc < scratchpadBase then { s with poison := loc :: s.poison } else s

/-! ### Fetching -/

/-- A soft error is corrected in HBM, in an SRAM or in a link, which counts in management and shows nowhere else (R302, R395);
the second tier reports its errors (R302) and is not among them. -/
def State.softError (s : State) (loc : Option Nat) : State :=
  let tier2 := match loc with | some l => decide (2 ^ 39 ≤ l) && decide (l < scratchpadBase) | none => false
  if tier2 then s else { s with mgmt := { s.mgmt with corrected := s.mgmt.corrected + 1 } }

/-- A word fetched for the thread, the cached or the present one (R114), or the trap of R113. -/
def State.fetchWord (s : State) (x : Slot) (va : Nat) : Except Trap W32 :=
  if va ≥ 2 ^ 48 then .error { cause := 0x0B, tval := BitVec.ofNat 64 va }
  else match s.translate (holdCp (courseOf s.cur)) x.asid x.sup .fetch va with
  | .fault c => .error { cause := c, tval := BitVec.ofNat 64 va }
  | .ok pa pte =>
    if s.placeOf pa = .spill then .error { cause := 0x0C, tval := BitVec.ofNat 64 va }
    else if pa ≥ windowBase then .error { cause := 0x08, tval := BitVec.ofNat 64 va }
    else match s.codeUnder (courseOf s.cur) x.asid pa pte with
    | none => .error { cause := 0x08, tval := BitVec.ofNat 64 va }
    | some w => .ok w

/-- The word at the thread's place: the one under way, else the one fetched. -/
def State.wordHere (s : State) (x : Slot) : Except Trap W32 :=
  match x.doing with
  | some w => .ok w
  | none => s.fetchWord x x.pc.toNat

/-- The check of a block header (R110). -/
def headerTrap (dc : Decl) (w : W32) : Option Trap :=
  let h := w.toNat
  let bad : Trap := { cause := 0x01, tval := w.zeroExtend 64, insn := w }
  if bitsAt h 31 26 ≠ 0x3F then some bad
  else if bitsAt h 7 0 ≠ 0 || bitsAt h 11 10 = 3 then some bad
  else if !bitAt h 9 && (bitsAt h 19 12 ≠ 0 || bitsAt h 11 10 ≠ 0) then some bad
  else if bitAt h 8 && bitsAt h 25 20 > 15 then some bad
  else if bitAt h 9 && dc.spanmax = 0 then some { bad with cause := 0x0D }
  else none

/-- The header at an address, or its trap (R110, R113). -/
def State.fetchHeader (s : State) (x : Slot) (va : Nat) : Except Trap W32 :=
  match s.fetchWord x va with
  | .error t => .error t
  | .ok w => match headerTrap x.decl w with
    | some t => .error t
    | none => .ok w

/-- What a thread's turn comes to before its instruction. -/
inductive Fetched where
  /-- The step is over. -/
  | took (s : State)
  /-- An instruction to execute. -/
  | insn (i : Instr) (s : State)

/-- Whether a thread that has yielded is ready again: 8 C-cycles have passed, or every other thread of its CP has issued since
(R403). -/
def State.yielded (s : State) (n : Nat) : Bool :=
  match (s.slot n).yieldAt with
  | none => true
  | some t => decide (t + 8 ≤ s.now) || allB (fun m =>
      m == n || (s.slot m).use != .thread || decide (s.now < (s.slot m).earliest) || (match (s.slot m).issuedAt with | some u => decide (t < u) | none => false))
      (rangeFrom (courseOf n * 4) 4)

/-- Whether the thread has its turn now (R118, R137), no access of it parked (R317); an instruction under way needs no issue slot. A thread that is to be
switched by force stops where it may be stopped (R404). -/
def State.ready (s : State) : Bool :=
  let x := s.thr
  x.use == .thread && !x.switched && !s.parkedThread s.cur && !(x.forced && s.stoppable s.cur) && decide (x.earliest ≤ s.now) && s.yielded s.cur
    && (x.doing.isSome || (match (s.course (courseOf s.cur)).lastIssue with | none => true | some t => decide (t < s.now)))

/-- A trap at a header (R110); at the first header of a handler it ends the iteration (R398). -/
def State.trapAtHeader (s : State) (x : Slot) (t : Trap) (va : W64) : State :=
  match x.firstHdr with
  | some c => s.endIteration s.cur (some c)
  | none => s.setThr (takeTrap x t va 0 true)

/-- The instruction at the thread's place, its header accepted; one under way goes on as it was fetched. -/
def State.fetchInsn (s : State) (x : Slot) : Fetched :=
  if x.resumeNext then .took (s.setThr { x.advance with resumeNext := false })
  else match s.wordHere x with
  | .error t => .took (s.trapAt x t x.pc x.bpos false)
  | .ok w => match decode w with
    | none => .took (s.trapAt x { cause := 0x01, tval := w.zeroExtend 64, insn := w } x.pc x.bpos false)
    | some i => .insn i (s.setThr x)

/-- A thread's turn up to its instruction: the header at its place is checked when it reaches one (R110), or read again after
a return into its block (R115). Reclaiming that waited for the end of an atomic block happens where its next block begins
(R112). -/
def State.fetchIssue (s : State) : Fetched :=
  if !s.ready then .took s
  else
    let s := match s.thr.reclaimDue with | some c => if s.thr.atHdr then s.reclaimSlot s.cur c else s | none => s
    let x := s.thr
    if x.atHdr then
      match s.fetchHeader x x.pc.toNat with
      | .error t => .took (s.trapAtHeader x t x.pc)
      | .ok w => s.fetchInsn { x with hdr := w, atHdr := false, bpos := 0, pc := x.pc + 4#64, firstHdr := none }
    else if x.reHdr then
      let va := x.pc - BitVec.ofNat 64 (4 * (x.bpos + 1))
      match s.fetchHeader x va.toNat with
      | .error t => .took (s.trapAtHeader x t va)
      | .ok w =>
        let y := { x with hdr := w, reHdr := false }
        if y.forced && !y.shielded then .took (s.setThr y) else s.fetchInsn y
    else s.fetchInsn x

/-! ### The end of a step -/

/-- The queues whose aging timers may run: those with jobs, and those whose timers run (R73). -/
def State.agingQueues (s : State) : List (Nat × Nat) :=
  ((s.jobs.vals.map fun j => (j.p, j.q))
    ++ s.parts.flatMap fun kp => (kp.2.queues.filter fun kq => kq.2.ageSince.isSome).map fun kq => (kp.1, kq.1)).dedup

/-- The aging timers as a step leaves them: a timer runs while its queue has work and AGEN is 1, and stands otherwise (R73). -/
def State.ageQueues (s : State) : State :=
  s.agingQueues.foldl (fun s pq =>
    let run := (s.qctl pq.1 pq.2).agen && s.queueHasWork pq.1 pq.2
    s.modQueue pq.1 pq.2 fun x => match x.ageSince with
      | some t => if run then x else { x with aged := x.aged + (s.now - t), ageSince := none }
      | none => if run then { x with ageSince := some s.now } else x) s

/-- The end of a step that began at `s`: the bytes it stored are in memory (log 3) and seen by waiting threads (R403), aging
timers and quiet counts run or stand (R73, R232), and the package has been idle since some time or is not (R423). -/
def State.close (s t : State) : State :=
  let t := { t.ageQueues.countWaits with idleSince := if t.packageIdle then some (t.idleSince.getD t.now) else none }
  t.stores.foldl (fun u c => u.seenWrite c.1 1) { t with mem := commitStores s.mem t.stores, stores := [] }

/-- The end of a step whose instruction or event had this outcome. -/
def State.closeOut (s : State) : Out → Out
  | .next t => .next (s.close t)
  | .fault r => .fault r
  | .refused r => .refused r

end Sys2Proof.Machine
end

