-- ==== Sys2Proof/Machine/Traps.lean ====
section
/-! DEFINITION. The system instructions: `trap`, `eret`, `wfe`, `yield`, `claim` (R402, R403), `done` and `etrig` (R414 to
R416), and asynchronous traps taken between instructions (R398, R399). -/

namespace Sys2Proof.Machine

/-! ### trap, claim, eret -/

/-- trap (R402, R403). -/
def execTrap (st : BitVec 3) (a : BitVec 5) (e : BitVec 10) (s : State) : Out :=
  runInsn (.trap st a e) st (fun s => .trapNext s { cause := 0x0E, tval := s.rs a, code := e.toNat }) s

/-- claim's own part (R403): the save area is written once, and the vector unit is released. -/
def exeClaim (s : State) : Exe :=
  if s.thr.claimed then .done (s.setThr { s.thr with vfrozen := false })
  else match s.putWords s.cur (saveArea s.cur) s.thr.saveWords with
    | .error (_, va, t) => .trap t { cause := 0x0A, tval := BitVec.ofNat 64 va }
    | .ok t => .done (t.setThr { t.thr with claimed := true, vfrozen := false })

/-- claim (R403). -/
def execClaim (st : BitVec 3) (s : State) : Out :=
  runInsn (.claim st) st exeClaim s

/-- eret's own part (R403, R118): a claimed vector state is reloaded, or, where it cannot be, left a free mix with a trap at the
eret; then the return, and the full switch that waits for it. -/
def exeEret (st : BitVec 3) (s : State) : Exe :=
  let n := s.cur
  match (if s.thr.claimed then s.reloadFault n else none) with
  | some (c, va) =>
    let x := s.reloadVec n (freeMask s.freeCnt)
    .trap ({ s with freeCnt := s.freeCnt + 0x11000 }.setThr x) { cause := c, tval := BitVec.ofNat 64 va }
  | none =>
    let x := if s.thr.claimed then { s.reloadVec n (fun _ => 2 ^ 16384 - 1) with claimed := false } else s.thr
    let y := returnFromTrap x
    let s := s.setThr { y with earliest := max (s.now + st.toNat + 1) (s.now + 3), issuedAt := some s.now }
    .left (if y.switchPending then s.fullSwitch n else s)

/-- eret (R403). -/
def execEret (st : BitVec 3) (s : State) : Out :=
  runInsn (.eret st) st (exeEret st) s

/-! ### wfe, yield -/

/-- The limit of a `wfe`, in C-cycles (R403). -/
def wfeLimit : Nat := 2400

/-- The reasons for which a waiting `wfe` wakes now. -/
def Slot.wakeReasons (x : Slot) (w : Wfe) : Nat :=
  w.reasons ||| (if x.async15.isEmpty && x.faults.isEmpty && x.preq.isNone then 0 else 8)

/-- wfe's own part (R403): the check of its location at its beginning, then the wait. The private scratch is written by its own
thread alone, which issues nothing while it waits (R27). -/
def exeWfe (s : State) (d : BitVec 5) (a : W64) : Exe :=
  match s.thr.wfe with
  | some w =>
    let r := s.thr.wakeReasons w
    if r = 0 then .turn s else exePut (s.setThr { s.thr with wfe := none }) d (BitVec.ofNat 64 r)
  | none =>
    let begin' := fun (loc : Option Nat) => Exe.turn (s.setThr { s.thr with wfe := some { since := s.now, loc := loc, reasons := 0 } })
    if a = 0#64 then begin' none
    else match s.threadTarget s.thr .load a.toNat 8 with
    | .error t => .trap s t
    | .ok (.scratch _) => begin' none
    | .ok (.phys pa) => begin' (some (s.placeOf pa).addr)

/-- wfe (R403). -/
def execWfe (st : BitVec 3) (d a : BitVec 5) (s : State) : Out :=
  runInsn (.wfe st d a) st (fun s => exeWfe s d (s.rs a)) s

/-- WFE_LIMIT_EXPIRY (R403): 2,400 C-cycles have passed in a waiting wfe. -/
def execWfeLimitExpiry (slot : Nat) (s : State) : Out :=
  .next (match (s.slot slot).wfe with
    | some w => if w.since + wfeLimit ≤ s.now then s.modSlot slot (·.woken 4) else s
    | none => s)

/-- yield (R403). -/
def execYield (st : BitVec 3) (s : State) : Out :=
  runInsn (.yield st) st (fun s => .done (s.setThr { s.thr with yieldAt := some s.now })) s

/-! ### done, etrig -/

/-- done (R414, R415). -/
def execDone (st : BitVec 3) (s : State) : Out :=
  runInsn (.done st) st (fun s => .left (s.endIteration s.cur none)) s

/-- The cause that `done.err` reports (R415). -/
def Slot.doneCause (x : Slot) : Nat :=
  let c := bitsAt (x.csrv csrTCAUSE).toNat 7 0
  if x.sup && c ≠ 0 then c else 0x0E

/-- done.err (R414, R415). -/
def execDoneErr (st : BitVec 3) (s : State) : Out :=
  runInsn (.doneErr st) st (fun s => .left (s.endIteration s.cur (some s.thr.doneCause))) s

/-- etrig's own part (R416): the iteration is triggered, and reported so once. -/
def exeEtrig (s : State) : Exe :=
  if s.thr.triggered then .done s
  else .done ((s.setThr { s.thr with triggered := true }).modJob s.thr.job fun j => { j with triggered := j.triggered + 1 })

/-- etrig (R414, R416). -/
def execEtrig (st c : BitVec 3) (s : State) : Out := runInsn (.etrig st c) st exeEtrig s

/-! ### Asynchronous traps between instructions -/

/-- TRAP_ENTRY (R398, R399): the thread stands at a boundary. A trap found in fetching its next instruction or in steps 1 to 3 of
R124 comes first, then a lost slice where it is a vector instruction; then the first asynchronous cause present is taken. -/
def execTrapEntry (slot : Nat) (s : State) : Out :=
  let s := { s with cur := slot }.landDue
  .next (match (s.thr.hold || (asyncCause s s.thr {} 0#32).isNone : Bool) with
    | true => s
    | false => match s.fetchIssue with
      | .took t => t
      | .insn i t => match earlyTrap t.thr (usesOf t.thr i) (wordOf i) with
        | some c => t.trapHere c
        | none => match asyncCause t t.thr (usesOf t.thr i) (wordOf i) with
          | some (y, c) => (t.dropRequests.setThr { y with rop := none }).trapHere c
          | none => t)

end Sys2Proof.Machine
end

