-- ==== Sys2Proof/Machine/VecMem.lean ====
section
/-! DEFINITION. Vector memory instructions (R318 to R326): effective addresses, the check of a unit-stride run, and groups of
16 elements checked in full before any is performed. Each turn of the thread performs one group, so that an asynchronous
cause taken between two turns cuts the instruction back to SSTART. -/

namespace Sys2Proof.Machine

/-! ### SSTART (R321) -/

def State.setSstart (s : State) (start : Nat) (ad : Bool) : State :=
  s.setThr (s.thr.setCsr csrSSTART (BitVec.ofNat 64 (start % 2 ^ 15 + b2n ad * 2 ^ 15)))

/-! ### The check of a run (R289, R320) -/

/-- The window a page of the run lies in: none for a page that takes no part, (0, 0) for the holes; with the physical
address. -/
def State.runWindow (s : State) (x : Slot) (k : AKind) (va : Nat) : Option (Nat × Nat × Nat) :=
  if inScratch va then none
  else match s.translate (holdCp (courseOf s.cur)) x.asid x.sup k va with
  | .ok pa _ => let (lo, hi) := s.windowOf pa; some (lo, hi, pa)
  | .fault 0x08 => some (0, 0, 0)
  | .fault _ => none

/-- The first byte of [a, a + n) outside the run's window `w`, page by page; `fuel` bounds the pages. -/
def State.runLeaves (s : State) (x : Slot) (k : AKind) (w : Option (Nat × Nat)) (a n : Nat) : Nat → Option Nat
  | 0 => none
  | fuel + 1 =>
    if n = 0 then none
    else
      let va := a % 2 ^ 64
      let m := min n (4096 - va % 4096)
      match s.runWindow x k va with
      | none => s.runLeaves x k w (a + m) (n - m) fuel
      | some (lo, hi, pa) =>
        let (wl, wh) := w.getD (lo, hi)
        if (lo, hi) ≠ (wl, wh) then some va
        else if hi ≠ 0 ∧ pa + m > hi then some (va + (hi - pa))
        else s.runLeaves x k (some (wl, wh)) (a + m) (n - m) fuel

/-! ### Groups of 16 (R322) -/

/-- The check of one element: its trap, or where it goes and whether its page is missed by a scoped access (R320, R324). -/
def State.elemTarget (s : State) (m : VMem) (ea data : Nat) : Except Trap (Target × Bool) :=
  let k : AKind := if m.load then .load else .store
  match s.threadTarget s.thr k ea (m.w / 8) with
  | .error t => .error t
  | .ok t =>
    let miss := match m.scope, t with
      | some c, .phys _ => (match s.translate (holdCp (courseOf s.cur)) s.thr.asid s.thr.sup k ea with
        | .ok _ pte => bitAt pte 8 && decide (c < bitsAt pte 11 9)
        | .fault _ => false)
      | _, _ => false
    if miss then .ok (t, true)
    else if m.load then .ok (t, false)
    else match s.targetWrite s.thr t ea (m.w / 8) (BitVec.ofNat 64 data) with
      | .error e => .error e
      | .ok _ => .ok (t, false)

/-- Every element of a group checked in order: their targets, or the first trap. -/
def State.groupTargets (s : State) (m : VMem) : List (Nat × Nat × Nat) → Except Trap (List (Target × Bool))
  | [] => .ok []
  | (_, ea, data) :: r => match s.elemTarget m ea data with
    | .error t => .error t
    | .ok t => match s.groupTargets m r with
      | .error t => .error t
      | .ok ts => .ok (t :: ts)

/-- The values of a group of loads: none for a missed element. -/
def State.groupReads (s : State) (size : Nat) : List ((Nat × Nat × Nat) × (Target × Bool)) →
    Except Trap (List (Nat × Nat) × State)
  | [] => .ok ([], s)
  | ((e, ea, _), (t, miss)) :: r =>
    if miss then s.groupReads size r
    else match s.targetRead s.thr t ea size with
    | .error e => .error e
    | .ok (v, s) => match s.groupReads size r with
      | .error e => .error e
      | .ok (vs, s) => .ok ((e, v.toNat) :: vs, s)

/-- A group of stores performed in order. -/
def State.groupWrites (s : State) (size : Nat) : List ((Nat × Nat × Nat) × (Target × Bool)) → State
  | [] => s
  | ((_, ea, data), (t, miss)) :: r =>
    (if miss then s
     else match s.targetWrite s.thr t ea size (BitVec.ofNat 64 data) with
      | .error _ => s
      | .ok s' => s').groupWrites size r

/-- The bits of m7 that a landed group of a scoped access writes (R324). -/
def State.putMisses (s : State) (g : List ((Nat × Nat × Nat) × (Target × Bool))) : State :=
  let mask := bitsOfList (g.map (·.1.1))
  let data := bitsOfList ((g.filter (·.2.2)).map (·.1.1))
  let x := s.thr
  let y := x.landList (x.pend.filter (fun p => p.isM 7))
  let y := { y with pend := x.pend.filter (fun p => !p.isM 7) }
  s.setThr (y.land1 (.m 7 (BitVec.ofNat 16384 mask) (BitVec.ofNat 16384 data)))

/-- The end of a vector memory instruction: SSTART is 0; a slice lost meanwhile is trap 0x17 (R102, R322). -/
def State.vmemEnd (s : State) : Exe :=
  let s := s.setSstart 0 false
  let x := s.thr
  let lost := x.lostNew
  let s := s.setThr { x with vm := none, lostNew := 0 }
  if lost ≠ 0 then exeTrap s 0x17 (BitVec.ofNat 64 lost) else .done s

/-- One turn of a vector memory instruction: its next group checked, then performed; the instruction ends with its last
group, and a fault cuts it back (R322). A trap 0x15 ends it: eret resumes after it (R396, log 36). -/
def exeVmemTurn (m : VMem) (s : State) : Exe :=
  match m.todo with
  | [] => s.vmemEnd
  | t :: _ =>
    let k := t.1 / 16
    let grp := m.todo.takeWhile fun t => t.1 / 16 == k
    let rest := m.todo.drop grp.length
    let x0 := s.thr.sstart
    let cut := fun (t : Trap) =>
      Exe.trap (if t.cause = 0x15 then s.setSstart 0 false else s.setSstart (max x0 (16 * k)) m.append) t
    match s.groupTargets m grp with
    | .error t => cut t
    | .ok ts =>
      let el := grp.zip ts
      let next := fun (s : State) (landed : List Nat) =>
        let s := if m.scope.isSome then s.putMisses el else s
        if rest.isEmpty then s.vmemEnd
        else
          let s := s.setSstart (16 * (k + 1)) m.append
          .turn (s.setThr { s.thr with vm := some { m with todo := rest, landed := landed ++ m.landed } })
      if m.load then
        match s.groupReads (m.w / 8) el with
        | .error t => cut t
        | .ok (vs, s) => next (s.putElems none m.w m.g m.d vs) (vs.map (·.1))
      else next (s.groupWrites (m.w / 8) el) []

/-! ### The instructions' own parts -/

/-- The strip's formats a vector memory instruction accepts: every code from 0 to 13 (R318). -/
def okMem (k : Kind) (_ : Nat) : Bool := k ≠ .q4

/-- A load or store over the active elements from SSTART on: the addresses are taken at issue. -/
def exeVmem (load unit : Bool) (d : BitVec 5) (k : BitVec 3) (scope : Option Nat) (bad : Slot → Option Trap)
    (ea : Slot → Nat → Nat) (s : State) : Exe :=
  match s.thr.vm with
  | some m => exeVmemTurn m s
  | none => withStrip s okMem false fun _ =>
    let x := s.thr
    match bad x with
    | some t => .trap s t
    | none =>
      let w := widthOf x.fmt
      let x0 := x.sstart
      let act := (x.active k.toNat).filter fun e => decide (x0 ≤ e)
      let todo := act.map fun e => (e, ea x e % 2 ^ 64, if load then 0 else x.el d.toNat e)
      let m : VMem := { load := load, w := w, g := x.grp, d := d.toNat, todo := todo, scope := scope }
      if x0 ≥ x.glen then s.vmemEnd
      else
        let kind : AKind := if load then .load else .store
        let leaves := if unit then
            (match act.head?, act.getLast? with
             | some a, some b => s.runLeaves x kind none (ea x a % 2 ^ 64) ((b - a + 1) * (w / 8)) (2 ^ 17)
             | _, _ => none)
          else none
        match leaves with
        | some va => exeTrap s 0x07 (BitVec.ofNat 64 va)
        | none => exeVmemTurn m (s.setSstart x0 false)


/-- An index group whose grouping is none (R319); its other rules are step 3's. -/
def idxBad (b : BitVec 5) (x : Slot) : Option Trap :=
  let gi := x.idxGrp
  if gi > 8 then some { cause := 0x04, tval := BitVec.ofNat 64 b.toNat } else none

/-- I(x): element x of the index group, at the data's rank and lane (R319). -/
def Slot.idx (x : Slot) (b : BitVec 5) (e : Nat) : Nat :=
  let l := lanesOf (widthOf x.fmt) x.grp
  x.lane 32 x.idxGrp b.toNat (e / l) (e % l)

/-- Effective addresses (R319). -/
def eaUnit (a : BitVec 5) (x : Slot) (e : Nat) : Nat := (x.readS a.toNat).toNat + e * (widthOf x.fmt / 8)
def eaStride (a b : BitVec 5) (x : Slot) (e : Nat) : Nat := (x.readS a.toNat).toNat + e * (x.readS b.toNat).toNat
def eaIndex (a b : BitVec 5) (sc : Bool) (x : Slot) (e : Nat) : Nat :=
  (x.readS a.toNat).toNat + x.idx b e * (if sc then widthOf x.fmt / 8 else 1)



/-- vld (R318 to R322). -/
def execVld (st : BitVec 3) (d a : BitVec 5) (k : BitVec 3) (s : State) : Out :=
  runInsn (.vld st d a k) st (exeVmem true true d k none (fun _ => none) (eaUnit a)) s

/-- vlds (R318 to R322). -/
def execVlds (st : BitVec 3) (d a b : BitVec 5) (k : BitVec 3) (s : State) : Out :=
  runInsn (.vlds st d a b k) st (exeVmem true false d k none (fun _ => none) (eaStride a b)) s

/-- vldx, vldx.sc (R318 to R322). -/
def execVldx (st : BitVec 3) (d a b : BitVec 5) (k : BitVec 3) (x : BitVec 1) (s : State) : Out :=
  runInsn (.vldx st d a b k x) st
    (exeVmem true false d k none (idxBad b) (eaIndex a b (x == 1#1))) s

/-- vldxa (R318 to R324). -/
def execVldxa (st : BitVec 3) (d a b : BitVec 5) (k c : BitVec 3) (s : State) : Out :=
  runInsn (.vldxa st d a b k c) st
    (exeVmem true false d k (some c.toNat) (idxBad b) (eaIndex a b true)) s

/-- vst (R318 to R322). -/
def execVst (st : BitVec 3) (d a : BitVec 5) (k : BitVec 3) (s : State) : Out :=
  runInsn (.vst st d a k) st (exeVmem false true d k none (fun _ => none) (eaUnit a)) s

/-- vsts (R318 to R322). -/
def execVsts (st : BitVec 3) (d a b : BitVec 5) (k : BitVec 3) (s : State) : Out :=
  runInsn (.vsts st d a b k) st (exeVmem false false d k none (fun _ => none) (eaStride a b)) s

/-- vstx, vstx.sc (R318 to R322). -/
def execVstx (st : BitVec 3) (d a b : BitVec 5) (k : BitVec 3) (x : BitVec 1) (s : State) : Out :=
  runInsn (.vstx st d a b k x) st
    (exeVmem false false d k none (idxBad b) (eaIndex a b (x == 1#1))) s

/-- vstxa (R318 to R324). -/
def execVstxa (st : BitVec 3) (d a b : BitVec 5) (k c : BitVec 3) (s : State) : Out :=
  runInsn (.vstxa st d a b k c) st
    (exeVmem false false d k (some c.toNat) (idxBad b) (eaIndex a b true)) s

/-- The stores of a `vappend` once its space is reserved (R326). -/
def exeAppendStores (v k : Nat) (old : Nat) (s : State) : Exe :=
  let x := s.thr
  let w := widthOf x.fmt
  if old % (w / 8) ≠ 0 then exeTrap (s.setSstart 0 false) 0x06 (BitVec.ofNat 64 old)
  else
    let act := x.active k
    let todo := ((rangeFrom 0 act.length).zip act).map fun (t, e) => (t, (old + t * (w / 8)) % 2 ^ 64, x.el v e)
    exeVmemTurn { load := false, w := w, g := x.grp, d := v, append := true, elems := act,
                  todo := todo.filter fun t => decide (x.sstart ≤ t.1) } s

/-- vappend's own part (R326): the cursor add once, then the stores. -/
def exeVappend (v a x : BitVec 5) (k : BitVec 3) (wd : W32) (s : State) : Exe :=
  match s.thr.vm with
  | some m => exeVmemTurn m s
  | none => withStrip s okMem false fun _ =>
    let t := s.thr
    if x = 0#5 then exeTrap s 0x04 (wd.zeroExtend 64)
    else if t.sstartAd then exeAppendStores v.toNat k.toNat (s.rs x).toNat s
    else if (s.rs a).toNat % 8 ≠ 0 then exeTrap s 0x06 (s.rs a)
    else
      let n := (t.active k.toNat).length * (widthOf t.fmt / 8)
      match s.threadRmw (s.rs a).toNat 8 (fun old => some ((old + n) % 2 ^ 64)) with
      | .error t => .trap s t
      | .ok (old, s) =>
        let s := s.setThr (s.thr.putS x.toNat (BitVec.ofNat 64 old))
        exeAppendStores v.toNat k.toNat old (s.setSstart s.thr.sstart true)

/-- vappend (R325, R326). -/
def execVappend (st : BitVec 3) (v a x : BitVec 5) (k c : BitVec 3) (s : State) : Out :=
  runInsn (.vappend st v a x k c) st
    (exeVappend v a x k (wordOf (.vappend st v a x k c))) s

end Sys2Proof.Machine
end

