-- ==== Sys2Proof/Machine/Dispatch.lean ====
section
/-! DEFINITION. The dispatch: one arm per constructor of Instr. -/

namespace Sys2Proof.Machine

def exec (i : Instr) (s : State) : Host.Outcome State Fault Refusal :=
  match i with
  | .add st d a b => Sys2Proof.Machine.execAdd st d a b s
  | .sub st d a b => Sys2Proof.Machine.execSub st d a b s
  | .and st d a b => Sys2Proof.Machine.execAnd st d a b s
  | .or st d a b => Sys2Proof.Machine.execOr st d a b s
  | .xor st d a b => Sys2Proof.Machine.execXor st d a b s
  | .andn st d a b => Sys2Proof.Machine.execAndn st d a b s
  | .sll st d a b => Sys2Proof.Machine.execSll st d a b s
  | .srl st d a b => Sys2Proof.Machine.execSrl st d a b s
  | .sra st d a b => Sys2Proof.Machine.execSra st d a b s
  | .rol st d a b => Sys2Proof.Machine.execRol st d a b s
  | .min st d a b => Sys2Proof.Machine.execMin st d a b s
  | .max st d a b => Sys2Proof.Machine.execMax st d a b s
  | .minn st d a b => Sys2Proof.Machine.execMinn st d a b s
  | .maxn st d a b => Sys2Proof.Machine.execMaxn st d a b s
  | .slt st d a b => Sys2Proof.Machine.execSlt st d a b s
  | .sltn st d a b => Sys2Proof.Machine.execSltn st d a b s
  | .seq st d a b => Sys2Proof.Machine.execSeq st d a b s
  | .mul st d a b => Sys2Proof.Machine.execMul st d a b s
  | .mulh st d a b => Sys2Proof.Machine.execMulh st d a b s
  | .mulhn st d a b => Sys2Proof.Machine.execMulhn st d a b s
  | .clz st d a => Sys2Proof.Machine.execClz st d a s
  | .ctz st d a => Sys2Proof.Machine.execCtz st d a s
  | .popc st d a => Sys2Proof.Machine.execPopc st d a s
  | .csel st d a b => Sys2Proof.Machine.execCsel st d a b s
  | .addi st d a imm => Sys2Proof.Machine.execAddi st d a imm s
  | .andi st d a imm => Sys2Proof.Machine.execAndi st d a imm s
  | .ori st d a imm => Sys2Proof.Machine.execOri st d a imm s
  | .xori st d a imm => Sys2Proof.Machine.execXori st d a imm s
  | .slli st d a h => Sys2Proof.Machine.execSlli st d a h s
  | .srli st d a h => Sys2Proof.Machine.execSrli st d a h s
  | .srai st d a h => Sys2Proof.Machine.execSrai st d a h s
  | .roli st d a h => Sys2Proof.Machine.execRoli st d a h s
  | .slti st d a imm => Sys2Proof.Machine.execSlti st d a imm s
  | .sltni st d a imm => Sys2Proof.Machine.execSltni st d a imm s
  | .li st d imm => Sys2Proof.Machine.execLi st d imm s
  | .lext st d imm => Sys2Proof.Machine.execLext st d imm s
  | .lea st d imm => Sys2Proof.Machine.execLea st d imm s
  | .div st d a b => Sys2Proof.Machine.execDiv st d a b s
  | .divn st d a b => Sys2Proof.Machine.execDivn st d a b s
  | .rem st d a b => Sys2Proof.Machine.execRem st d a b s
  | .remn st d a b => Sys2Proof.Machine.execRemn st d a b s
  | .ld st d a z o => Sys2Proof.Machine.execLd st d a z o s
  | .st st d a z o => Sys2Proof.Machine.execSt st d a z o s
  | .ldx st d a b z => Sys2Proof.Machine.execLdx st d a b z s
  | .stx st d a b z => Sys2Proof.Machine.execStx st d a b z s
  | .ldacq st d a c z => Sys2Proof.Machine.execLdacq st d a c z s
  | .strel st d a c z => Sys2Proof.Machine.execStrel st d a c z s
  | .amoAdd st d a b z c => Sys2Proof.Machine.execAmoAdd st d a b z c s
  | .amoAdds st d a b z c => Sys2Proof.Machine.execAmoAdds st d a b z c s
  | .amoAnd st d a b z c => Sys2Proof.Machine.execAmoAnd st d a b z c s
  | .amoOr st d a b z c => Sys2Proof.Machine.execAmoOr st d a b z c s
  | .amoXor st d a b z c => Sys2Proof.Machine.execAmoXor st d a b z c s
  | .amoMin st d a b z c => Sys2Proof.Machine.execAmoMin st d a b z c s
  | .amoMax st d a b z c => Sys2Proof.Machine.execAmoMax st d a b z c s
  | .amoMinn st d a b z c => Sys2Proof.Machine.execAmoMinn st d a b z c s
  | .amoMaxn st d a b z c => Sys2Proof.Machine.execAmoMaxn st d a b z c s
  | .amoSwap st d a b z c => Sys2Proof.Machine.execAmoSwap st d a b z c s
  | .amoFadd st d a b z c => Sys2Proof.Machine.execAmoFadd st d a b z c s
  | .cas st d a b z c => Sys2Proof.Machine.execCas st d a b z c s
  | .fenceFull st c => Sys2Proof.Machine.execFenceFull st c s
  | .fenceAcq st c => Sys2Proof.Machine.execFenceAcq st c s
  | .fenceRel st c => Sys2Proof.Machine.execFenceRel st c s
  | .fenceEng st c => Sys2Proof.Machine.execFenceEng st c s
  | .br st imm => Sys2Proof.Machine.execBr st imm s
  | .call st imm => Sys2Proof.Machine.execCall st imm s
  | .jr st d a imm => Sys2Proof.Machine.execJr st d a imm s
  | .beq st a b o => Sys2Proof.Machine.execBeq st a b o s
  | .bne st a b o => Sys2Proof.Machine.execBne st a b o s
  | .blt st a b o => Sys2Proof.Machine.execBlt st a b o s
  | .bge st a b o => Sys2Proof.Machine.execBge st a b o s
  | .bltn st a b o => Sys2Proof.Machine.execBltn st a b o s
  | .bgen st a b o => Sys2Proof.Machine.execBgen st a b o s
  | .loop st a o => Sys2Proof.Machine.execLoop st a o s
  | .fadd st d a b p => Sys2Proof.Machine.execFadd st d a b p s
  | .fsub st d a b p => Sys2Proof.Machine.execFsub st d a b p s
  | .fmul st d a b p => Sys2Proof.Machine.execFmul st d a b p s
  | .fdiv st d a b p => Sys2Proof.Machine.execFdiv st d a b p s
  | .fsqrt st d a p => Sys2Proof.Machine.execFsqrt st d a p s
  | .fmin st d a b p => Sys2Proof.Machine.execFmin st d a b p s
  | .fmax st d a b p => Sys2Proof.Machine.execFmax st d a b p s
  | .fcmp st d a b p c => Sys2Proof.Machine.execFcmp st d a b p c s
  | .fcvt st d a p k => Sys2Proof.Machine.execFcvt st d a p k s
  | .fmv st d a p => Sys2Proof.Machine.execFmv st d a p s
  | .fmvNeg st d a p => Sys2Proof.Machine.execFmvNeg st d a p s
  | .fmvAbs st d a p => Sys2Proof.Machine.execFmvAbs st d a p s
  | .fmvSgn st d a b p => Sys2Proof.Machine.execFmvSgn st d a b p s
  | .ffma st d a b c p => Sys2Proof.Machine.execFfma st d a b c p s
  | .ffms st d a b c p => Sys2Proof.Machine.execFfms st d a b c p s
  | .ffnma st d a b c p => Sys2Proof.Machine.execFfnma st d a b c p s
  | .ffnms st d a b c p => Sys2Proof.Machine.execFfnms st d a b c p s
  | .csrr st d e => Sys2Proof.Machine.execCsrr st d e s
  | .csrw st d a e => Sys2Proof.Machine.execCsrw st d a e s
  | .csrs st d a e => Sys2Proof.Machine.execCsrs st d a e s
  | .csrc st d a e => Sys2Proof.Machine.execCsrc st d a e s
  | .trap st a e => Sys2Proof.Machine.execTrap st a e s
  | .eret st => Sys2Proof.Machine.execEret st s
  | .wfe st d a => Sys2Proof.Machine.execWfe st d a s
  | .yield st => Sys2Proof.Machine.execYield st s
  | .claim st => Sys2Proof.Machine.execClaim st s
  | .nop st => Sys2Proof.Machine.execNop st s
  | .done st => Sys2Proof.Machine.execDone st s
  | .doneErr st => Sys2Proof.Machine.execDoneErr st s
  | .etrig st c => Sys2Proof.Machine.execEtrig st c s
  | .launch st a b => Sys2Proof.Machine.execLaunch st a b s
  | .join st a b => Sys2Proof.Machine.execJoin st a b s
  | .leave st a => Sys2Proof.Machine.execLeave st a s
  | .gbar st a c => Sys2Proof.Machine.execGbar st a c s
  | .setlen st d a g f => Sys2Proof.Machine.execSetlen st d a g f s
  | .vadd st d a b k => Sys2Proof.Machine.execVadd st d a b k s
  | .vsub st d a b k => Sys2Proof.Machine.execVsub st d a b k s
  | .vmul st d a b k => Sys2Proof.Machine.execVmul st d a b k s
  | .vdiv st d a b k => Sys2Proof.Machine.execVdiv st d a b k s
  | .vmin st d a b k => Sys2Proof.Machine.execVmin st d a b k s
  | .vmax st d a b k => Sys2Proof.Machine.execVmax st d a b k s
  | .vabs st d a k => Sys2Proof.Machine.execVabs st d a k s
  | .vneg st d a k => Sys2Proof.Machine.execVneg st d a k s
  | .vsqrt st d a k => Sys2Proof.Machine.execVsqrt st d a k s
  | .vrsq st d a k => Sys2Proof.Machine.execVrsq st d a k s
  | .vrcp st d a k => Sys2Proof.Machine.execVrcp st d a k s
  | .vexp2 st d a k => Sys2Proof.Machine.execVexp2 st d a k s
  | .vclass st d a k => Sys2Proof.Machine.execVclass st d a k s
  | .vfma st d a b k => Sys2Proof.Machine.execVfma st d a b k s
  | .vfms st d a b k => Sys2Proof.Machine.execVfms st d a b k s
  | .vfnma st d a b k => Sys2Proof.Machine.execVfnma st d a b k s
  | .vfnms st d a b k => Sys2Proof.Machine.execVfnms st d a b k s
  | .viadd st d a b k => Sys2Proof.Machine.execViadd st d a b k s
  | .visub st d a b k => Sys2Proof.Machine.execVisub st d a b k s
  | .vimul st d a b k => Sys2Proof.Machine.execVimul st d a b k s
  | .vimulh st d a b k => Sys2Proof.Machine.execVimulh st d a b k s
  | .vand st d a b k => Sys2Proof.Machine.execVand st d a b k s
  | .vor st d a b k => Sys2Proof.Machine.execVor st d a b k s
  | .vxor st d a b k => Sys2Proof.Machine.execVxor st d a b k s
  | .vsll st d a b k => Sys2Proof.Machine.execVsll st d a b k s
  | .vsrl st d a b k => Sys2Proof.Machine.execVsrl st d a b k s
  | .vsra st d a b k => Sys2Proof.Machine.execVsra st d a b k s
  | .vimin st d a b k => Sys2Proof.Machine.execVimin st d a b k s
  | .vimax st d a b k => Sys2Proof.Machine.execVimax st d a b k s
  | .vminn st d a b k => Sys2Proof.Machine.execVminn st d a b k s
  | .vmaxn st d a b k => Sys2Proof.Machine.execVmaxn st d a b k s
  | .viadds st d a b k => Sys2Proof.Machine.execViadds st d a b k s
  | .visubs st d a b k => Sys2Proof.Machine.execVisubs st d a b k s
  | .vmadd st d a b k => Sys2Proof.Machine.execVmadd st d a b k s
  | .vmsub st d a b k => Sys2Proof.Machine.execVmsub st d a b k s
  | .vmmul st d a b k => Sys2Proof.Machine.execVmmul st d a b k s
  | .vmred st d a k => Sys2Proof.Machine.execVmred st d a k s
  | .vcmp st d a b k c => Sys2Proof.Machine.execVcmp st d a b k c s
  | .mand st d a b => Sys2Proof.Machine.execMand st d a b s
  | .mor st d a b => Sys2Proof.Machine.execMor st d a b s
  | .mxor st d a b => Sys2Proof.Machine.execMxor st d a b s
  | .mandn st d a b => Sys2Proof.Machine.execMandn st d a b s
  | .mnot st d a => Sys2Proof.Machine.execMnot st d a s
  | .mpopc st d a k => Sys2Proof.Machine.execMpopc st d a k s
  | .mfirst st d a k => Sys2Proof.Machine.execMfirst st d a k s
  | .mset st d a => Sys2Proof.Machine.execMset st d a s
  | .vcvt st d a k t f => Sys2Proof.Machine.execVcvt st d a k t f s
  | .vredsum st d a b k => Sys2Proof.Machine.execVredsum st d a b k s
  | .vredsumo st d a b k => Sys2Proof.Machine.execVredsumo st d a b k s
  | .vredmax st d a b k => Sys2Proof.Machine.execVredmax st d a b k s
  | .vredmin st d a b k => Sys2Proof.Machine.execVredmin st d a b k s
  | .vredand st d a b k => Sys2Proof.Machine.execVredand st d a b k s
  | .vredor st d a b k => Sys2Proof.Machine.execVredor st d a b k s
  | .vperm st d a b k => Sys2Proof.Machine.execVperm st d a b k s
  | .vslup st d a b k => Sys2Proof.Machine.execVslup st d a b k s
  | .vsldn st d a b k => Sys2Proof.Machine.execVsldn st d a b k s
  | .vmerge st d a b k => Sys2Proof.Machine.execVmerge st d a b k s
  | .vcompress st d a k => Sys2Proof.Machine.execVcompress st d a k s
  | .vexpand st d a k => Sys2Proof.Machine.execVexpand st d a k s
  | .viota st d k => Sys2Proof.Machine.execViota st d k s
  | .vbcast st d a k => Sys2Proof.Machine.execVbcast st d a k s
  | .vextract st d a b => Sys2Proof.Machine.execVextract st d a b s
  | .vxch st d a k => Sys2Proof.Machine.execVxch st d a k s
  | .vxchRot st d a k => Sys2Proof.Machine.execVxchRot st d a k s
  | .vld st d a k => Sys2Proof.Machine.execVld st d a k s
  | .vlds st d a b k => Sys2Proof.Machine.execVlds st d a b k s
  | .vldx st d a b k x => Sys2Proof.Machine.execVldx st d a b k x s
  | .vldxa st d a b k c => Sys2Proof.Machine.execVldxa st d a b k c s
  | .vst st d a k => Sys2Proof.Machine.execVst st d a k s
  | .vsts st d a b k => Sys2Proof.Machine.execVsts st d a b k s
  | .vstx st d a b k x => Sys2Proof.Machine.execVstx st d a b k x s
  | .vstxa st d a b k c => Sys2Proof.Machine.execVstxa st d a b k c s
  | .vappend st v a x k c => Sys2Proof.Machine.execVappend st v a x k c s
  | .vq4dq st d a b k => Sys2Proof.Machine.execVq4dq st d a b k s
  | .vq4q st d a b k => Sys2Proof.Machine.execVq4q st d a b k s
  | .cfgload st a b => Sys2Proof.Machine.execCfgload st a b s
  | .cfgsel st a p e => Sys2Proof.Machine.execCfgsel st a p e s
  | .cfgck st a b => Sys2Proof.Machine.execCfgck st a b s
  | .gresume st a => Sys2Proof.Machine.execGresume st a s
  | .gdrain st a => Sys2Proof.Machine.execGdrain st a s
  | .gquery st a b e => Sys2Proof.Machine.execGquery st a b e s
  | .strm st a b c q l p => Sys2Proof.Machine.execStrm st a b c q l p s
  | .start st a b k => Sys2Proof.Machine.execStart st a b k s
  | .ctok st a b => Sys2Proof.Machine.execCtok st a b s
  | .sbarCfg st => Sys2Proof.Machine.execSbarCfg st s
  | .sbarStrm st => Sys2Proof.Machine.execSbarStrm st s
  | .sbarMem st c => Sys2Proof.Machine.execSbarMem st c s
  | .sbarCond st n k => Sys2Proof.Machine.execSbarCond st n k s
  | .swait st b c k => Sys2Proof.Machine.execSwait st b c k s
  | .tokq st a b c l => Sys2Proof.Machine.execTokq st a b c l s
  | .qarm st a b => Sys2Proof.Machine.execQarm st a b s
  | .qdisarm st a b => Sys2Proof.Machine.execQdisarm st a b s
  | .copy st a c q l n => Sys2Proof.Machine.execCopy st a c q l n s
  | .drain st b c n => Sys2Proof.Machine.execDrain st b c n s
  | .rld st a b c q z => Sys2Proof.Machine.execRld st a b c q z s
  | .rst st a b c l e h z => Sys2Proof.Machine.execRst st a b c l e h z s
  | .ramoInv st a b c q l => Sys2Proof.Machine.execRamoInv st a b c q l s
  | .ramoBegin st a b c q l => Sys2Proof.Machine.execRamoBegin st a b c q l s
  | .ramoBody st a b c q l => Sys2Proof.Machine.execRamoBody st a b c q l s
  | .ramoValid st a b c q l => Sys2Proof.Machine.execRamoValid st a b c q l s
  | .ramoClear st a b c q l => Sys2Proof.Machine.execRamoClear st a b c q l s
  | .rfadd st a b c q l => Sys2Proof.Machine.execRfadd st a b c q l s
  | .tokwait st a b => Sys2Proof.Machine.execTokwait st a b s
  | .tlbinv st a b c g => Sys2Proof.Machine.execTlbinv st a b c g s
  | .tlbsync st => Sys2Proof.Machine.execTlbsync st s
  | .tailpWrite p q v => Sys2Proof.Machine.execTailpWrite p q v s
  | .qstatWrite p q v => Sys2Proof.Machine.execQstatWrite p q v s
  | .pcmkWrite p k v => Sys2Proof.Machine.execPcmkWrite p k v s
  | .pasidWrite p v => Sys2Proof.Machine.execPasidWrite p v s
  | .registerWrite pa v => Sys2Proof.Machine.execRegisterWrite pa v s
  | .asidRootEntryWrite asid writer v => Sys2Proof.Machine.execAsidRootEntryWrite asid writer v s
  | .imapWrite g v => Sys2Proof.Machine.execImapWrite g v s
  | .rchkWrite v => Sys2Proof.Machine.execRchkWrite v s
  | .rgoWrite v => Sys2Proof.Machine.execRgoWrite v s
  | .vregImageWrite slot off size v => Sys2Proof.Machine.execVregImageWrite slot off size v s
  | .lintelHostAccess wr pa size v => Sys2Proof.Machine.execLintelHostAccess wr pa size v s
  | .attestationRequest nonce => Sys2Proof.Machine.execAttestationRequest nonce s
  | .pcapUpdate die v => Sys2Proof.Machine.execPcapUpdate die v s
  | .append p q => Sys2Proof.Machine.execAppend p q s
  | .jobActivate p q => Sys2Proof.Machine.execJobActivate p q s
  | .iterationDispatch die p => Sys2Proof.Machine.execIterationDispatch die p s
  | .steal die job => Sys2Proof.Machine.execSteal die job s
  | .agingTimerExpiry p q => Sys2Proof.Machine.execAgingTimerExpiry p q s
  | .earlyTrigger job => Sys2Proof.Machine.execEarlyTrigger job s
  | .jobRetire job => Sys2Proof.Machine.execJobRetire job s
  | .progcAdvance p q => Sys2Proof.Machine.execProgcAdvance p q s
  | .partitionSwitchOut p => Sys2Proof.Machine.execPartitionSwitchOut p s
  | .partitionSwitchIn p => Sys2Proof.Machine.execPartitionSwitchIn p s
  | .templateFire f => Sys2Proof.Machine.execTemplateFire f s
  | .templateGraphComplete f => Sys2Proof.Machine.execTemplateGraphComplete f s
  | .tokenArrival p t => Sys2Proof.Machine.execTokenArrival p t s
  | .tokenFiringComplete f => Sys2Proof.Machine.execTokenFiringComplete f s
  | .engineMessageAccept n e => Sys2Proof.Machine.execEngineMessageAccept n e s
  | .reply n => Sys2Proof.Machine.execReply n s
  | .copyAccept e => Sys2Proof.Machine.execCopyAccept e s
  | .copyPiece id => Sys2Proof.Machine.execCopyPiece id s
  | .copyComplete id => Sys2Proof.Machine.execCopyComplete id s
  | .streamAccept c port => Sys2Proof.Machine.execStreamAccept c port s
  | .streamBeatIn c port => Sys2Proof.Machine.execStreamBeatIn c port s
  | .streamTokenOut c port => Sys2Proof.Machine.execStreamTokenOut c port s
  | .tokenHop c pos out => Sys2Proof.Machine.execTokenHop c pos out s
  | .brickFiring c pos => Sys2Proof.Machine.execBrickFiring c pos s
  | .controlTokenArrival c pos => Sys2Proof.Machine.execControlTokenArrival c pos s
  | .controlTokenDeliver slot => Sys2Proof.Machine.execControlTokenDeliver slot s
  | .nodeEnd c pos => Sys2Proof.Machine.execNodeEnd c pos s
  | .tileAccess c pos => Sys2Proof.Machine.execTileAccess c pos s
  | .tileRmwFiring c pos => Sys2Proof.Machine.execTileRmwFiring c pos s
  | .spillOut c pos out => Sys2Proof.Machine.execSpillOut c pos out s
  | .spillReturn c pos fifo => Sys2Proof.Machine.execSpillReturn c pos fifo s
  | .positionWake c pos => Sys2Proof.Machine.execPositionWake c pos s
  | .backstopStall run => Sys2Proof.Machine.execBackstopStall run s
  | .cfgloadComplete slot n => Sys2Proof.Machine.execCfgloadComplete slot n s
  | .cfgselTakeEffect slot n => Sys2Proof.Machine.execCfgselTakeEffect slot n s
  | .runBegin slot n => Sys2Proof.Machine.execRunBegin slot n s
  | .barrierComplete run => Sys2Proof.Machine.execBarrierComplete run s
  | .powerGrant n => Sys2Proof.Machine.execPowerGrant n s
  | .grantOfferLower n => Sys2Proof.Machine.execGrantOfferLower n s
  | .engineFrame c => Sys2Proof.Machine.execEngineFrame c s
  | .passEnd c => Sys2Proof.Machine.execPassEnd c s
  | .weightRowLoad c buf => Sys2Proof.Machine.execWeightRowLoad c buf s
  | .weightFault c => Sys2Proof.Machine.execWeightFault c s
  | .weightStepSwap c => Sys2Proof.Machine.execWeightStepSwap c s
  | .refreshRowGroup stack rg => Sys2Proof.Machine.execRefreshRowGroup stack rg s
  | .stackHeartbeat stack => Sys2Proof.Machine.execStackHeartbeat stack s
  | .refreshTakeover stack => Sys2Proof.Machine.execRefreshTakeover stack s
  | .cxlEnumeration port cap => Sys2Proof.Machine.execCxlEnumeration port cap s
  | .invalidationReceive inv holder => Sys2Proof.Machine.execInvalidationReceive inv holder s
  | .parkedAccessResolve holder asid va => Sys2Proof.Machine.execParkedAccessResolve holder asid va s
  | .trapEntry slot => Sys2Proof.Machine.execTrapEntry slot s
  | .preemptionRequest slot reason => Sys2Proof.Machine.execPreemptionRequest slot reason s
  | .forcedSwitchTimeout slot => Sys2Proof.Machine.execForcedSwitchTimeout slot s
  | .scapTimeout slot => Sys2Proof.Machine.execScapTimeout slot s
  | .fullSwitch slot => Sys2Proof.Machine.execFullSwitch slot s
  | .contextRestore slot => Sys2Proof.Machine.execContextRestore slot s
  | .sliceDetach slot num => Sys2Proof.Machine.execSliceDetach slot num s
  | .dieReset die => Sys2Proof.Machine.execDieReset die s
  | .quiesceAck die peer => Sys2Proof.Machine.execQuiesceAck die peer s
  | .dieReturn die => Sys2Proof.Machine.execDieReturn die s
  | .courseGate c dark => Sys2Proof.Machine.execCourseGate c dark s
  | .packageStandby => Sys2Proof.Machine.execPackageStandby s
  | .packageParked => Sys2Proof.Machine.execPackageParked s
  | .wake c => Sys2Proof.Machine.execWake c s
  | .powerOnBoot => Sys2Proof.Machine.execPowerOnBoot s
  | .linkKeyExchange port peerKey sig => Sys2Proof.Machine.execLinkKeyExchange port peerKey sig s
  | .rekeyCounterLimit port dir => Sys2Proof.Machine.execRekeyCounterLimit port dir s
  | .flitReceive port flit => Sys2Proof.Machine.execFlitReceive port flit s
  | .flitReplay port ctr => Sys2Proof.Machine.execFlitReplay port ctr s
  | .linkRetrain port => Sys2Proof.Machine.execLinkRetrain port s
  | .portDown port => Sys2Proof.Machine.execPortDown port s
  | .remoteOpAtTarget n => Sys2Proof.Machine.execRemoteOpAtTarget n s
  | .translationRequest n => Sys2Proof.Machine.execTranslationRequest n s
  | .targetInvalidation inv => Sys2Proof.Machine.execTargetInvalidation inv s
  | .switchCombine plane first j => Sys2Proof.Machine.execSwitchCombine plane first j s
  | .combinedReplySplit plane first => Sys2Proof.Machine.execCombinedReplySplit plane first s
  | .handlerInvocation n => Sys2Proof.Machine.execHandlerInvocation n s
  | .handlerHoldExpiry n => Sys2Proof.Machine.execHandlerHoldExpiry n s
  | .dependentStoreArrival n => Sys2Proof.Machine.execDependentStoreArrival n s
  | .landedRecord n => Sys2Proof.Machine.execLandedRecord n s
  | .watchArrival n => Sys2Proof.Machine.execWatchArrival n s
  | .watchAnswer n => Sys2Proof.Machine.execWatchAnswer n s
  | .watchResend n => Sys2Proof.Machine.execWatchResend n s
  | .watchEntryDrop n => Sys2Proof.Machine.execWatchEntryDrop n s
  | .heldStoreExpiry n => Sys2Proof.Machine.execHeldStoreExpiry n s
  | .remoteStoreCompletion n => Sys2Proof.Machine.execRemoteStoreCompletion n s
  | .gatewayMeterWindow pd => Sys2Proof.Machine.execGatewayMeterWindow pd s
  | .stackManagerReset stack => Sys2Proof.Machine.execStackManagerReset stack s
  | .managementPortRetrain port => Sys2Proof.Machine.execManagementPortRetrain port s
  | .positionClockGate c pos => Sys2Proof.Machine.execPositionClockGate c pos s
  | .wfeLimitExpiry slot => Sys2Proof.Machine.execWfeLimitExpiry slot s
  | .tokwaitWatchTimeout slot => Sys2Proof.Machine.execTokwaitWatchTimeout slot s
  | .targetPackageReset pkg => Sys2Proof.Machine.execTargetPackageReset pkg s
  | .landedEntryAging n => Sys2Proof.Machine.execLandedEntryAging n s

end Sys2Proof.Machine
end

