-- ==== Sys2Proof/Machine/Step.lean ====
section
/-! DEFINITION. One step of the machine: the next move, performed, and its end. -/

namespace Sys2Proof.Machine

/-- One step: the next move is taken; a thread's turn fetches and executes its instruction, an event is the step of another
agent. -/
def step (s : State) : Host.Outcome State Fault Refusal :=
  match s.nextAction with
  | (.issue n _, t) =>
    match ({ t with cur := n }).fetchIssue with
    | .took u => .next (s.close u)
    | .insn i u => s.closeOut (exec i u)
  | (.event e _, t) => if (encode e).isSome then .next (s.close t) else s.closeOut (exec e t)
  | (.tlbFill h a va _, t) => .next (s.close (t.tlbFill h a va))
  | (.tlbEvict h k _, t) => .next (s.close (t.tlbEvict h k))
  | (.memError l _, t) => .next (s.close (t.memError l))
  | (.ptrFill h a va l _, t) => .next (s.close (t.ptrFill h a va l))
  | (.ptrEvict h k _, t) => .next (s.close (t.ptrEvict h k))
  | (.codeFill c a pa _, t) => .next (s.close (t.codeFill c a pa))
  | (.codeDrop c k _, t) => .next (s.close (t.codeDrop c k))
  | (.begin n _, t) =>
    match ({ t with cur := n }).fetchIssue with
    | .took u => .next (s.close u)
    | .insn i u => .next (s.close (u.beginInsn i))
  | (.setScap n c _, t) => .next (s.close (t.setScap n c))
  | (.rowActivate l _, t) => .next (s.close (t.rowActivate l))
  | (.softError l _, t) => .next (s.close (t.softError l))
  | (.park n va _, t) =>
    match ({ t with cur := n }).fetchIssue with
    | .took u => .next (s.close u)
    | .insn i u => .next (s.close (u.parkThread i va))
  | (.parkPiece c va _, t) => .next (s.close (t.parkCopy c va))

/-- `s` with an instruction where its next step fetches: the issuing slot runs a program in a page at virtual address
0x1000, whose page tables and page are laid in HBM at 0x10000 to 0x14FFF; the page holds a block header and the word, and
the next move is that thread's turn. It stands for the launch of a program (log 18). -/
def State.withFetchWord (s : State) (nbits w : Nat) : State :=
  let x := s.thr
  let t := s.writePhys 0x10000 0x11001 8
  let t := t.writePhys 0x11000 0x12001 8
  let t := t.writePhys 0x12000 0x13001 8
  let t := t.writePhys 0x13008 (0x14000 + s.imapIL 0 * 32 + 0x1F) 8
  let t := t.writePhys 0x14000 0xFC000000 4
  let t := t.writePhys 0x14004 (if nbits ≤ 32 then w % 2 ^ nbits else w) 4
  { s with
    mem := commitStores s.mem t.stores
    agenda := .issue s.cur (2 + s.now % 2) :: s.agenda
    boot := { s.boot with phase := .running }
    power := .active
    artb := s.artb.set x.asid 0x10001#64
    tlbs := s.tlbs.set (holdCp (courseOf s.cur)) []
    ptrs := s.ptrs.set (holdCp (courseOf s.cur)) []
    icaches := s.icaches.set (courseOf s.cur) []
    parked := []
    slots := s.slots.set s.cur { x with
      use := .thread, switched := false, pc := 0x1000#64, atHdr := true, reHdr := false, bpos := 0, resumeNext := false,
      earliest := 0, firstHdr := none, forced := false, yieldAt := none, doing := none, vrun := none, vm := none } }

end Sys2Proof.Machine
end

