-- ==== Sys2Proof/Laws/Encoding.lean ====
section
/-! SUPPORT. Fields of a word that was built by appending: the lemmas with which decoding an encoded word computes. -/

namespace Sys2Proof

/-- A field within the low part. -/
theorem fld_append_lo {m n : Nat} (x : BitVec m) (y : BitVec n) (lo len : Nat) (h : lo + len ≤ n) :
    fld (x ++ y) lo len = fld y lo len := by
  apply BitVec.eq_of_getLsbD_eq
  intro i hi
  simp only [fld, BitVec.getLsbD_extractLsb', BitVec.getLsbD_append]
  have : lo + i < n := by omega
  simp [hi, this]

/-- A field within the high part. -/
theorem fld_append_hi {m n : Nat} (x : BitVec m) (y : BitVec n) (lo len : Nat) (h : n ≤ lo) :
    fld (x ++ y) lo len = fld x (lo - n) len := by
  apply BitVec.eq_of_getLsbD_eq
  intro i hi
  simp only [fld, BitVec.getLsbD_extractLsb', BitVec.getLsbD_append]
  have h1 : ¬ lo + i < n := by omega
  have h2 : lo + i - n = lo - n + i := by omega
  simp [hi, h1, h2]

/-- The whole of a part. -/
theorem fld_all {n : Nat} (x : BitVec n) : fld x 0 n = x := by
  simp [fld]

/-- A field of a literal. -/
theorem fld_lit (n v lo len : Nat) (h : v < 2 ^ n) : fld (BitVec.ofNat n v) lo len = BitVec.ofNat len (v / 2 ^ lo) := by
  apply BitVec.eq_of_toNat_eq
  simp [fld, BitVec.extractLsb'_toNat, BitVec.toNat_ofNat, Nat.mod_eq_of_lt h, Nat.shiftRight_eq_div_pow]

end Sys2Proof
end

