-- ==== Sys2Proof/Laws/Shapes.lean ====
section
/-! SUPPORT. The fields of a word by the shape of its encoding: for each list of widths that an instruction's word is built
from, the fields its major opcode's decoder reads. Names give the shape's widths, then the field's low bit and length. -/

namespace Sys2Proof.Laws.Shape

theorem w6_3_5_5_5_8_at_26_6 (x0 : BitVec 6) (x1 : BitVec 3) (x2 : BitVec 5) (x3 : BitVec 5) (x4 : BitVec 5) (x5 : BitVec 8) :
    fld (x0 ++ x1 ++ x2 ++ x3 ++ x4 ++ x5 : W32) 26 6 = x0 :=
  (((((fld_append_hi _ _ 26 6 (by decide)).trans (fld_append_hi _ _ 18 6 (by decide))).trans (fld_append_hi _ _ 13 6 (by decide))).trans (fld_append_hi _ _ 8 6 (by decide))).trans (fld_append_hi _ _ 3 6 (by decide))).trans (fld_all _)
theorem w6_3_5_5_5_8_at_23_3 (x0 : BitVec 6) (x1 : BitVec 3) (x2 : BitVec 5) (x3 : BitVec 5) (x4 : BitVec 5) (x5 : BitVec 8) :
    fld (x0 ++ x1 ++ x2 ++ x3 ++ x4 ++ x5 : W32) 23 3 = x1 :=
  (((((fld_append_hi _ _ 23 3 (by decide)).trans (fld_append_hi _ _ 15 3 (by decide))).trans (fld_append_hi _ _ 10 3 (by decide))).trans (fld_append_hi _ _ 5 3 (by decide))).trans (fld_append_lo _ _ 0 3 (by decide))).trans (fld_all _)
theorem w6_3_5_5_5_8_at_18_5 (x0 : BitVec 6) (x1 : BitVec 3) (x2 : BitVec 5) (x3 : BitVec 5) (x4 : BitVec 5) (x5 : BitVec 8) :
    fld (x0 ++ x1 ++ x2 ++ x3 ++ x4 ++ x5 : W32) 18 5 = x2 :=
  ((((fld_append_hi _ _ 18 5 (by decide)).trans (fld_append_hi _ _ 10 5 (by decide))).trans (fld_append_hi _ _ 5 5 (by decide))).trans (fld_append_lo _ _ 0 5 (by decide))).trans (fld_all _)
theorem w6_3_5_5_5_8_at_13_5 (x0 : BitVec 6) (x1 : BitVec 3) (x2 : BitVec 5) (x3 : BitVec 5) (x4 : BitVec 5) (x5 : BitVec 8) :
    fld (x0 ++ x1 ++ x2 ++ x3 ++ x4 ++ x5 : W32) 13 5 = x3 :=
  (((fld_append_hi _ _ 13 5 (by decide)).trans (fld_append_hi _ _ 5 5 (by decide))).trans (fld_append_lo _ _ 0 5 (by decide))).trans (fld_all _)
theorem w6_3_5_5_5_8_at_8_5 (x0 : BitVec 6) (x1 : BitVec 3) (x2 : BitVec 5) (x3 : BitVec 5) (x4 : BitVec 5) (x5 : BitVec 8) :
    fld (x0 ++ x1 ++ x2 ++ x3 ++ x4 ++ x5 : W32) 8 5 = x4 :=
  ((fld_append_hi _ _ 8 5 (by decide)).trans (fld_append_lo _ _ 0 5 (by decide))).trans (fld_all _)
theorem w6_3_5_5_5_8_at_5_3 (x0 : BitVec 6) (x1 : BitVec 3) (x2 : BitVec 5) (x3 : BitVec 5) (x4 : BitVec 5) (x5 : BitVec 8) :
    fld (x0 ++ x1 ++ x2 ++ x3 ++ x4 ++ x5 : W32) 5 3 = fld x5 5 3 :=
  (fld_append_lo _ _ 5 3 (by decide))
theorem w6_3_5_5_5_8_at_0_5 (x0 : BitVec 6) (x1 : BitVec 3) (x2 : BitVec 5) (x3 : BitVec 5) (x4 : BitVec 5) (x5 : BitVec 8) :
    fld (x0 ++ x1 ++ x2 ++ x3 ++ x4 ++ x5 : W32) 0 5 = fld x5 0 5 :=
  (fld_append_lo _ _ 0 5 (by decide))
theorem w6_3_5_5_5_8_at_0_8 (x0 : BitVec 6) (x1 : BitVec 3) (x2 : BitVec 5) (x3 : BitVec 5) (x4 : BitVec 5) (x5 : BitVec 8) :
    fld (x0 ++ x1 ++ x2 ++ x3 ++ x4 ++ x5 : W32) 0 8 = x5 :=
  (fld_append_lo _ _ 0 8 (by decide)).trans (fld_all _)
theorem w6_3_5_5_13_at_26_6 (x0 : BitVec 6) (x1 : BitVec 3) (x2 : BitVec 5) (x3 : BitVec 5) (x4 : BitVec 13) :
    fld (x0 ++ x1 ++ x2 ++ x3 ++ x4 : W32) 26 6 = x0 :=
  ((((fld_append_hi _ _ 26 6 (by decide)).trans (fld_append_hi _ _ 13 6 (by decide))).trans (fld_append_hi _ _ 8 6 (by decide))).trans (fld_append_hi _ _ 3 6 (by decide))).trans (fld_all _)
theorem w6_3_5_5_13_at_23_3 (x0 : BitVec 6) (x1 : BitVec 3) (x2 : BitVec 5) (x3 : BitVec 5) (x4 : BitVec 13) :
    fld (x0 ++ x1 ++ x2 ++ x3 ++ x4 : W32) 23 3 = x1 :=
  ((((fld_append_hi _ _ 23 3 (by decide)).trans (fld_append_hi _ _ 10 3 (by decide))).trans (fld_append_hi _ _ 5 3 (by decide))).trans (fld_append_lo _ _ 0 3 (by decide))).trans (fld_all _)
theorem w6_3_5_5_13_at_18_5 (x0 : BitVec 6) (x1 : BitVec 3) (x2 : BitVec 5) (x3 : BitVec 5) (x4 : BitVec 13) :
    fld (x0 ++ x1 ++ x2 ++ x3 ++ x4 : W32) 18 5 = x2 :=
  (((fld_append_hi _ _ 18 5 (by decide)).trans (fld_append_hi _ _ 5 5 (by decide))).trans (fld_append_lo _ _ 0 5 (by decide))).trans (fld_all _)
theorem w6_3_5_5_13_at_13_5 (x0 : BitVec 6) (x1 : BitVec 3) (x2 : BitVec 5) (x3 : BitVec 5) (x4 : BitVec 13) :
    fld (x0 ++ x1 ++ x2 ++ x3 ++ x4 : W32) 13 5 = x3 :=
  ((fld_append_hi _ _ 13 5 (by decide)).trans (fld_append_lo _ _ 0 5 (by decide))).trans (fld_all _)
theorem w6_3_5_5_13_at_10_3 (x0 : BitVec 6) (x1 : BitVec 3) (x2 : BitVec 5) (x3 : BitVec 5) (x4 : BitVec 13) :
    fld (x0 ++ x1 ++ x2 ++ x3 ++ x4 : W32) 10 3 = fld x4 10 3 :=
  (fld_append_lo _ _ 10 3 (by decide))
theorem w6_3_5_5_13_at_9_1 (x0 : BitVec 6) (x1 : BitVec 3) (x2 : BitVec 5) (x3 : BitVec 5) (x4 : BitVec 13) :
    fld (x0 ++ x1 ++ x2 ++ x3 ++ x4 : W32) 9 1 = fld x4 9 1 :=
  (fld_append_lo _ _ 9 1 (by decide))
theorem w6_3_5_5_13_at_8_1 (x0 : BitVec 6) (x1 : BitVec 3) (x2 : BitVec 5) (x3 : BitVec 5) (x4 : BitVec 13) :
    fld (x0 ++ x1 ++ x2 ++ x3 ++ x4 : W32) 8 1 = fld x4 8 1 :=
  (fld_append_lo _ _ 8 1 (by decide))
theorem w6_3_5_5_13_at_8_5 (x0 : BitVec 6) (x1 : BitVec 3) (x2 : BitVec 5) (x3 : BitVec 5) (x4 : BitVec 13) :
    fld (x0 ++ x1 ++ x2 ++ x3 ++ x4 : W32) 8 5 = fld x4 8 5 :=
  (fld_append_lo _ _ 8 5 (by decide))
theorem w6_3_5_5_13_at_7_3 (x0 : BitVec 6) (x1 : BitVec 3) (x2 : BitVec 5) (x3 : BitVec 5) (x4 : BitVec 13) :
    fld (x0 ++ x1 ++ x2 ++ x3 ++ x4 : W32) 7 3 = fld x4 7 3 :=
  (fld_append_lo _ _ 7 3 (by decide))
theorem w6_3_5_5_13_at_6_2 (x0 : BitVec 6) (x1 : BitVec 3) (x2 : BitVec 5) (x3 : BitVec 5) (x4 : BitVec 13) :
    fld (x0 ++ x1 ++ x2 ++ x3 ++ x4 : W32) 6 2 = fld x4 6 2 :=
  (fld_append_lo _ _ 6 2 (by decide))
theorem w6_3_5_5_13_at_5_1 (x0 : BitVec 6) (x1 : BitVec 3) (x2 : BitVec 5) (x3 : BitVec 5) (x4 : BitVec 13) :
    fld (x0 ++ x1 ++ x2 ++ x3 ++ x4 : W32) 5 1 = fld x4 5 1 :=
  (fld_append_lo _ _ 5 1 (by decide))
theorem w6_3_5_5_13_at_4_1 (x0 : BitVec 6) (x1 : BitVec 3) (x2 : BitVec 5) (x3 : BitVec 5) (x4 : BitVec 13) :
    fld (x0 ++ x1 ++ x2 ++ x3 ++ x4 : W32) 4 1 = fld x4 4 1 :=
  (fld_append_lo _ _ 4 1 (by decide))
theorem w6_3_5_5_13_at_4_2 (x0 : BitVec 6) (x1 : BitVec 3) (x2 : BitVec 5) (x3 : BitVec 5) (x4 : BitVec 13) :
    fld (x0 ++ x1 ++ x2 ++ x3 ++ x4 : W32) 4 2 = fld x4 4 2 :=
  (fld_append_lo _ _ 4 2 (by decide))
theorem w6_3_5_5_13_at_4_3 (x0 : BitVec 6) (x1 : BitVec 3) (x2 : BitVec 5) (x3 : BitVec 5) (x4 : BitVec 13) :
    fld (x0 ++ x1 ++ x2 ++ x3 ++ x4 : W32) 4 3 = fld x4 4 3 :=
  (fld_append_lo _ _ 4 3 (by decide))
theorem w6_3_5_5_13_at_3_7 (x0 : BitVec 6) (x1 : BitVec 3) (x2 : BitVec 5) (x3 : BitVec 5) (x4 : BitVec 13) :
    fld (x0 ++ x1 ++ x2 ++ x3 ++ x4 : W32) 3 7 = fld x4 3 7 :=
  (fld_append_lo _ _ 3 7 (by decide))
theorem w6_3_5_5_13_at_0_3 (x0 : BitVec 6) (x1 : BitVec 3) (x2 : BitVec 5) (x3 : BitVec 5) (x4 : BitVec 13) :
    fld (x0 ++ x1 ++ x2 ++ x3 ++ x4 : W32) 0 3 = fld x4 0 3 :=
  (fld_append_lo _ _ 0 3 (by decide))
theorem w6_3_5_5_13_at_0_4 (x0 : BitVec 6) (x1 : BitVec 3) (x2 : BitVec 5) (x3 : BitVec 5) (x4 : BitVec 13) :
    fld (x0 ++ x1 ++ x2 ++ x3 ++ x4 : W32) 0 4 = fld x4 0 4 :=
  (fld_append_lo _ _ 0 4 (by decide))
theorem w6_3_5_5_13_at_0_8 (x0 : BitVec 6) (x1 : BitVec 3) (x2 : BitVec 5) (x3 : BitVec 5) (x4 : BitVec 13) :
    fld (x0 ++ x1 ++ x2 ++ x3 ++ x4 : W32) 0 8 = fld x4 0 8 :=
  (fld_append_lo _ _ 0 8 (by decide))
theorem w6_3_5_5_13_at_0_10 (x0 : BitVec 6) (x1 : BitVec 3) (x2 : BitVec 5) (x3 : BitVec 5) (x4 : BitVec 13) :
    fld (x0 ++ x1 ++ x2 ++ x3 ++ x4 : W32) 0 10 = fld x4 0 10 :=
  (fld_append_lo _ _ 0 10 (by decide))
theorem w6_3_5_5_13_at_0_13 (x0 : BitVec 6) (x1 : BitVec 3) (x2 : BitVec 5) (x3 : BitVec 5) (x4 : BitVec 13) :
    fld (x0 ++ x1 ++ x2 ++ x3 ++ x4 : W32) 0 13 = x4 :=
  (fld_append_lo _ _ 0 13 (by decide)).trans (fld_all _)
theorem w6_3_5_5_7_6_at_26_6 (x0 : BitVec 6) (x1 : BitVec 3) (x2 : BitVec 5) (x3 : BitVec 5) (x4 : BitVec 7) (x5 : BitVec 6) :
    fld (x0 ++ x1 ++ x2 ++ x3 ++ x4 ++ x5 : W32) 26 6 = x0 :=
  (((((fld_append_hi _ _ 26 6 (by decide)).trans (fld_append_hi _ _ 20 6 (by decide))).trans (fld_append_hi _ _ 13 6 (by decide))).trans (fld_append_hi _ _ 8 6 (by decide))).trans (fld_append_hi _ _ 3 6 (by decide))).trans (fld_all _)
theorem w6_3_5_5_7_6_at_23_3 (x0 : BitVec 6) (x1 : BitVec 3) (x2 : BitVec 5) (x3 : BitVec 5) (x4 : BitVec 7) (x5 : BitVec 6) :
    fld (x0 ++ x1 ++ x2 ++ x3 ++ x4 ++ x5 : W32) 23 3 = x1 :=
  (((((fld_append_hi _ _ 23 3 (by decide)).trans (fld_append_hi _ _ 17 3 (by decide))).trans (fld_append_hi _ _ 10 3 (by decide))).trans (fld_append_hi _ _ 5 3 (by decide))).trans (fld_append_lo _ _ 0 3 (by decide))).trans (fld_all _)
theorem w6_3_5_5_7_6_at_18_5 (x0 : BitVec 6) (x1 : BitVec 3) (x2 : BitVec 5) (x3 : BitVec 5) (x4 : BitVec 7) (x5 : BitVec 6) :
    fld (x0 ++ x1 ++ x2 ++ x3 ++ x4 ++ x5 : W32) 18 5 = x2 :=
  ((((fld_append_hi _ _ 18 5 (by decide)).trans (fld_append_hi _ _ 12 5 (by decide))).trans (fld_append_hi _ _ 5 5 (by decide))).trans (fld_append_lo _ _ 0 5 (by decide))).trans (fld_all _)
theorem w6_3_5_5_7_6_at_13_5 (x0 : BitVec 6) (x1 : BitVec 3) (x2 : BitVec 5) (x3 : BitVec 5) (x4 : BitVec 7) (x5 : BitVec 6) :
    fld (x0 ++ x1 ++ x2 ++ x3 ++ x4 ++ x5 : W32) 13 5 = x3 :=
  (((fld_append_hi _ _ 13 5 (by decide)).trans (fld_append_hi _ _ 7 5 (by decide))).trans (fld_append_lo _ _ 0 5 (by decide))).trans (fld_all _)
theorem w6_3_5_5_7_6_at_6_7 (x0 : BitVec 6) (x1 : BitVec 3) (x2 : BitVec 5) (x3 : BitVec 5) (x4 : BitVec 7) (x5 : BitVec 6) :
    fld (x0 ++ x1 ++ x2 ++ x3 ++ x4 ++ x5 : W32) 6 7 = x4 :=
  ((fld_append_hi _ _ 6 7 (by decide)).trans (fld_append_lo _ _ 0 7 (by decide))).trans (fld_all _)
theorem w6_3_5_5_7_6_at_0_6 (x0 : BitVec 6) (x1 : BitVec 3) (x2 : BitVec 5) (x3 : BitVec 5) (x4 : BitVec 7) (x5 : BitVec 6) :
    fld (x0 ++ x1 ++ x2 ++ x3 ++ x4 ++ x5 : W32) 0 6 = x5 :=
  (fld_append_lo _ _ 0 6 (by decide)).trans (fld_all _)
theorem w6_3_5_18_at_26_6 (x0 : BitVec 6) (x1 : BitVec 3) (x2 : BitVec 5) (x3 : BitVec 18) :
    fld (x0 ++ x1 ++ x2 ++ x3 : W32) 26 6 = x0 :=
  (((fld_append_hi _ _ 26 6 (by decide)).trans (fld_append_hi _ _ 8 6 (by decide))).trans (fld_append_hi _ _ 3 6 (by decide))).trans (fld_all _)
theorem w6_3_5_18_at_23_3 (x0 : BitVec 6) (x1 : BitVec 3) (x2 : BitVec 5) (x3 : BitVec 18) :
    fld (x0 ++ x1 ++ x2 ++ x3 : W32) 23 3 = x1 :=
  (((fld_append_hi _ _ 23 3 (by decide)).trans (fld_append_hi _ _ 5 3 (by decide))).trans (fld_append_lo _ _ 0 3 (by decide))).trans (fld_all _)
theorem w6_3_5_18_at_18_5 (x0 : BitVec 6) (x1 : BitVec 3) (x2 : BitVec 5) (x3 : BitVec 18) :
    fld (x0 ++ x1 ++ x2 ++ x3 : W32) 18 5 = x2 :=
  ((fld_append_hi _ _ 18 5 (by decide)).trans (fld_append_lo _ _ 0 5 (by decide))).trans (fld_all _)
theorem w6_3_5_18_at_13_5 (x0 : BitVec 6) (x1 : BitVec 3) (x2 : BitVec 5) (x3 : BitVec 18) :
    fld (x0 ++ x1 ++ x2 ++ x3 : W32) 13 5 = fld x3 13 5 :=
  (fld_append_lo _ _ 13 5 (by decide))
theorem w6_3_5_18_at_10_3 (x0 : BitVec 6) (x1 : BitVec 3) (x2 : BitVec 5) (x3 : BitVec 18) :
    fld (x0 ++ x1 ++ x2 ++ x3 : W32) 10 3 = fld x3 10 3 :=
  (fld_append_lo _ _ 10 3 (by decide))
theorem w6_3_5_18_at_8_5 (x0 : BitVec 6) (x1 : BitVec 3) (x2 : BitVec 5) (x3 : BitVec 18) :
    fld (x0 ++ x1 ++ x2 ++ x3 : W32) 8 5 = fld x3 8 5 :=
  (fld_append_lo _ _ 8 5 (by decide))
theorem w6_3_5_18_at_6_2 (x0 : BitVec 6) (x1 : BitVec 3) (x2 : BitVec 5) (x3 : BitVec 18) :
    fld (x0 ++ x1 ++ x2 ++ x3 : W32) 6 2 = fld x3 6 2 :=
  (fld_append_lo _ _ 6 2 (by decide))
theorem w6_3_5_18_at_5_1 (x0 : BitVec 6) (x1 : BitVec 3) (x2 : BitVec 5) (x3 : BitVec 18) :
    fld (x0 ++ x1 ++ x2 ++ x3 : W32) 5 1 = fld x3 5 1 :=
  (fld_append_lo _ _ 5 1 (by decide))
theorem w6_3_5_18_at_4_1 (x0 : BitVec 6) (x1 : BitVec 3) (x2 : BitVec 5) (x3 : BitVec 18) :
    fld (x0 ++ x1 ++ x2 ++ x3 : W32) 4 1 = fld x3 4 1 :=
  (fld_append_lo _ _ 4 1 (by decide))
theorem w6_3_5_18_at_4_2 (x0 : BitVec 6) (x1 : BitVec 3) (x2 : BitVec 5) (x3 : BitVec 18) :
    fld (x0 ++ x1 ++ x2 ++ x3 : W32) 4 2 = fld x3 4 2 :=
  (fld_append_lo _ _ 4 2 (by decide))
theorem w6_3_5_18_at_0_4 (x0 : BitVec 6) (x1 : BitVec 3) (x2 : BitVec 5) (x3 : BitVec 18) :
    fld (x0 ++ x1 ++ x2 ++ x3 : W32) 0 4 = fld x3 0 4 :=
  (fld_append_lo _ _ 0 4 (by decide))
theorem w6_3_5_18_at_0_10 (x0 : BitVec 6) (x1 : BitVec 3) (x2 : BitVec 5) (x3 : BitVec 18) :
    fld (x0 ++ x1 ++ x2 ++ x3 : W32) 0 10 = fld x3 0 10 :=
  (fld_append_lo _ _ 0 10 (by decide))
theorem w6_3_5_18_at_0_18 (x0 : BitVec 6) (x1 : BitVec 3) (x2 : BitVec 5) (x3 : BitVec 18) :
    fld (x0 ++ x1 ++ x2 ++ x3 : W32) 0 18 = x3 :=
  (fld_append_lo _ _ 0 18 (by decide)).trans (fld_all _)
theorem w6_3_5_5_3_10_at_26_6 (x0 : BitVec 6) (x1 : BitVec 3) (x2 : BitVec 5) (x3 : BitVec 5) (x4 : BitVec 3) (x5 : BitVec 10) :
    fld (x0 ++ x1 ++ x2 ++ x3 ++ x4 ++ x5 : W32) 26 6 = x0 :=
  (((((fld_append_hi _ _ 26 6 (by decide)).trans (fld_append_hi _ _ 16 6 (by decide))).trans (fld_append_hi _ _ 13 6 (by decide))).trans (fld_append_hi _ _ 8 6 (by decide))).trans (fld_append_hi _ _ 3 6 (by decide))).trans (fld_all _)
theorem w6_3_5_5_3_10_at_23_3 (x0 : BitVec 6) (x1 : BitVec 3) (x2 : BitVec 5) (x3 : BitVec 5) (x4 : BitVec 3) (x5 : BitVec 10) :
    fld (x0 ++ x1 ++ x2 ++ x3 ++ x4 ++ x5 : W32) 23 3 = x1 :=
  (((((fld_append_hi _ _ 23 3 (by decide)).trans (fld_append_hi _ _ 13 3 (by decide))).trans (fld_append_hi _ _ 10 3 (by decide))).trans (fld_append_hi _ _ 5 3 (by decide))).trans (fld_append_lo _ _ 0 3 (by decide))).trans (fld_all _)
theorem w6_3_5_5_3_10_at_18_5 (x0 : BitVec 6) (x1 : BitVec 3) (x2 : BitVec 5) (x3 : BitVec 5) (x4 : BitVec 3) (x5 : BitVec 10) :
    fld (x0 ++ x1 ++ x2 ++ x3 ++ x4 ++ x5 : W32) 18 5 = x2 :=
  ((((fld_append_hi _ _ 18 5 (by decide)).trans (fld_append_hi _ _ 8 5 (by decide))).trans (fld_append_hi _ _ 5 5 (by decide))).trans (fld_append_lo _ _ 0 5 (by decide))).trans (fld_all _)
theorem w6_3_5_5_3_10_at_13_5 (x0 : BitVec 6) (x1 : BitVec 3) (x2 : BitVec 5) (x3 : BitVec 5) (x4 : BitVec 3) (x5 : BitVec 10) :
    fld (x0 ++ x1 ++ x2 ++ x3 ++ x4 ++ x5 : W32) 13 5 = x3 :=
  (((fld_append_hi _ _ 13 5 (by decide)).trans (fld_append_hi _ _ 3 5 (by decide))).trans (fld_append_lo _ _ 0 5 (by decide))).trans (fld_all _)
theorem w6_3_5_5_3_10_at_10_3 (x0 : BitVec 6) (x1 : BitVec 3) (x2 : BitVec 5) (x3 : BitVec 5) (x4 : BitVec 3) (x5 : BitVec 10) :
    fld (x0 ++ x1 ++ x2 ++ x3 ++ x4 ++ x5 : W32) 10 3 = x4 :=
  ((fld_append_hi _ _ 10 3 (by decide)).trans (fld_append_lo _ _ 0 3 (by decide))).trans (fld_all _)
theorem w6_3_5_5_3_10_at_7_3 (x0 : BitVec 6) (x1 : BitVec 3) (x2 : BitVec 5) (x3 : BitVec 5) (x4 : BitVec 3) (x5 : BitVec 10) :
    fld (x0 ++ x1 ++ x2 ++ x3 ++ x4 ++ x5 : W32) 7 3 = fld x5 7 3 :=
  (fld_append_lo _ _ 7 3 (by decide))
theorem w6_3_5_5_3_10_at_4_3 (x0 : BitVec 6) (x1 : BitVec 3) (x2 : BitVec 5) (x3 : BitVec 5) (x4 : BitVec 3) (x5 : BitVec 10) :
    fld (x0 ++ x1 ++ x2 ++ x3 ++ x4 ++ x5 : W32) 4 3 = fld x5 4 3 :=
  (fld_append_lo _ _ 4 3 (by decide))
theorem w6_3_5_5_3_10_at_3_7 (x0 : BitVec 6) (x1 : BitVec 3) (x2 : BitVec 5) (x3 : BitVec 5) (x4 : BitVec 3) (x5 : BitVec 10) :
    fld (x0 ++ x1 ++ x2 ++ x3 ++ x4 ++ x5 : W32) 3 7 = fld x5 3 7 :=
  (fld_append_lo _ _ 3 7 (by decide))
theorem w6_3_5_5_3_10_at_0_3 (x0 : BitVec 6) (x1 : BitVec 3) (x2 : BitVec 5) (x3 : BitVec 5) (x4 : BitVec 3) (x5 : BitVec 10) :
    fld (x0 ++ x1 ++ x2 ++ x3 ++ x4 ++ x5 : W32) 0 3 = fld x5 0 3 :=
  (fld_append_lo _ _ 0 3 (by decide))
theorem w6_3_5_5_3_10_at_0_4 (x0 : BitVec 6) (x1 : BitVec 3) (x2 : BitVec 5) (x3 : BitVec 5) (x4 : BitVec 3) (x5 : BitVec 10) :
    fld (x0 ++ x1 ++ x2 ++ x3 ++ x4 ++ x5 : W32) 0 4 = fld x5 0 4 :=
  (fld_append_lo _ _ 0 4 (by decide))
theorem w6_3_5_5_3_10_at_0_10 (x0 : BitVec 6) (x1 : BitVec 3) (x2 : BitVec 5) (x3 : BitVec 5) (x4 : BitVec 3) (x5 : BitVec 10) :
    fld (x0 ++ x1 ++ x2 ++ x3 ++ x4 ++ x5 : W32) 0 10 = x5 :=
  (fld_append_lo _ _ 0 10 (by decide)).trans (fld_all _)
theorem w6_3_5_5_1_2_10_at_26_6 (x0 : BitVec 6) (x1 : BitVec 3) (x2 : BitVec 5) (x3 : BitVec 5) (x4 : BitVec 1) (x5 : BitVec 2) (x6 : BitVec 10) :
    fld (x0 ++ x1 ++ x2 ++ x3 ++ x4 ++ x5 ++ x6 : W32) 26 6 = x0 :=
  ((((((fld_append_hi _ _ 26 6 (by decide)).trans (fld_append_hi _ _ 16 6 (by decide))).trans (fld_append_hi _ _ 14 6 (by decide))).trans (fld_append_hi _ _ 13 6 (by decide))).trans (fld_append_hi _ _ 8 6 (by decide))).trans (fld_append_hi _ _ 3 6 (by decide))).trans (fld_all _)
theorem w6_3_5_5_1_2_10_at_23_3 (x0 : BitVec 6) (x1 : BitVec 3) (x2 : BitVec 5) (x3 : BitVec 5) (x4 : BitVec 1) (x5 : BitVec 2) (x6 : BitVec 10) :
    fld (x0 ++ x1 ++ x2 ++ x3 ++ x4 ++ x5 ++ x6 : W32) 23 3 = x1 :=
  ((((((fld_append_hi _ _ 23 3 (by decide)).trans (fld_append_hi _ _ 13 3 (by decide))).trans (fld_append_hi _ _ 11 3 (by decide))).trans (fld_append_hi _ _ 10 3 (by decide))).trans (fld_append_hi _ _ 5 3 (by decide))).trans (fld_append_lo _ _ 0 3 (by decide))).trans (fld_all _)
theorem w6_3_5_5_1_2_10_at_18_5 (x0 : BitVec 6) (x1 : BitVec 3) (x2 : BitVec 5) (x3 : BitVec 5) (x4 : BitVec 1) (x5 : BitVec 2) (x6 : BitVec 10) :
    fld (x0 ++ x1 ++ x2 ++ x3 ++ x4 ++ x5 ++ x6 : W32) 18 5 = x2 :=
  (((((fld_append_hi _ _ 18 5 (by decide)).trans (fld_append_hi _ _ 8 5 (by decide))).trans (fld_append_hi _ _ 6 5 (by decide))).trans (fld_append_hi _ _ 5 5 (by decide))).trans (fld_append_lo _ _ 0 5 (by decide))).trans (fld_all _)
theorem w6_3_5_5_1_2_10_at_13_5 (x0 : BitVec 6) (x1 : BitVec 3) (x2 : BitVec 5) (x3 : BitVec 5) (x4 : BitVec 1) (x5 : BitVec 2) (x6 : BitVec 10) :
    fld (x0 ++ x1 ++ x2 ++ x3 ++ x4 ++ x5 ++ x6 : W32) 13 5 = x3 :=
  ((((fld_append_hi _ _ 13 5 (by decide)).trans (fld_append_hi _ _ 3 5 (by decide))).trans (fld_append_hi _ _ 1 5 (by decide))).trans (fld_append_lo _ _ 0 5 (by decide))).trans (fld_all _)
theorem w6_3_5_5_1_2_10_at_12_1 (x0 : BitVec 6) (x1 : BitVec 3) (x2 : BitVec 5) (x3 : BitVec 5) (x4 : BitVec 1) (x5 : BitVec 2) (x6 : BitVec 10) :
    fld (x0 ++ x1 ++ x2 ++ x3 ++ x4 ++ x5 ++ x6 : W32) 12 1 = x4 :=
  (((fld_append_hi _ _ 12 1 (by decide)).trans (fld_append_hi _ _ 2 1 (by decide))).trans (fld_append_lo _ _ 0 1 (by decide))).trans (fld_all _)
theorem w6_3_5_5_1_2_10_at_10_2 (x0 : BitVec 6) (x1 : BitVec 3) (x2 : BitVec 5) (x3 : BitVec 5) (x4 : BitVec 1) (x5 : BitVec 2) (x6 : BitVec 10) :
    fld (x0 ++ x1 ++ x2 ++ x3 ++ x4 ++ x5 ++ x6 : W32) 10 2 = x5 :=
  ((fld_append_hi _ _ 10 2 (by decide)).trans (fld_append_lo _ _ 0 2 (by decide))).trans (fld_all _)
theorem w6_3_5_5_1_2_10_at_0_10 (x0 : BitVec 6) (x1 : BitVec 3) (x2 : BitVec 5) (x3 : BitVec 5) (x4 : BitVec 1) (x5 : BitVec 2) (x6 : BitVec 10) :
    fld (x0 ++ x1 ++ x2 ++ x3 ++ x4 ++ x5 ++ x6 : W32) 0 10 = x6 :=
  (fld_append_lo _ _ 0 10 (by decide)).trans (fld_all _)
theorem w6_3_5_5_5_5_3_at_26_6 (x0 : BitVec 6) (x1 : BitVec 3) (x2 : BitVec 5) (x3 : BitVec 5) (x4 : BitVec 5) (x5 : BitVec 5) (x6 : BitVec 3) :
    fld (x0 ++ x1 ++ x2 ++ x3 ++ x4 ++ x5 ++ x6 : W32) 26 6 = x0 :=
  ((((((fld_append_hi _ _ 26 6 (by decide)).trans (fld_append_hi _ _ 23 6 (by decide))).trans (fld_append_hi _ _ 18 6 (by decide))).trans (fld_append_hi _ _ 13 6 (by decide))).trans (fld_append_hi _ _ 8 6 (by decide))).trans (fld_append_hi _ _ 3 6 (by decide))).trans (fld_all _)
theorem w6_3_5_5_5_5_3_at_23_3 (x0 : BitVec 6) (x1 : BitVec 3) (x2 : BitVec 5) (x3 : BitVec 5) (x4 : BitVec 5) (x5 : BitVec 5) (x6 : BitVec 3) :
    fld (x0 ++ x1 ++ x2 ++ x3 ++ x4 ++ x5 ++ x6 : W32) 23 3 = x1 :=
  ((((((fld_append_hi _ _ 23 3 (by decide)).trans (fld_append_hi _ _ 20 3 (by decide))).trans (fld_append_hi _ _ 15 3 (by decide))).trans (fld_append_hi _ _ 10 3 (by decide))).trans (fld_append_hi _ _ 5 3 (by decide))).trans (fld_append_lo _ _ 0 3 (by decide))).trans (fld_all _)
theorem w6_3_5_5_5_5_3_at_18_5 (x0 : BitVec 6) (x1 : BitVec 3) (x2 : BitVec 5) (x3 : BitVec 5) (x4 : BitVec 5) (x5 : BitVec 5) (x6 : BitVec 3) :
    fld (x0 ++ x1 ++ x2 ++ x3 ++ x4 ++ x5 ++ x6 : W32) 18 5 = x2 :=
  (((((fld_append_hi _ _ 18 5 (by decide)).trans (fld_append_hi _ _ 15 5 (by decide))).trans (fld_append_hi _ _ 10 5 (by decide))).trans (fld_append_hi _ _ 5 5 (by decide))).trans (fld_append_lo _ _ 0 5 (by decide))).trans (fld_all _)
theorem w6_3_5_5_5_5_3_at_13_5 (x0 : BitVec 6) (x1 : BitVec 3) (x2 : BitVec 5) (x3 : BitVec 5) (x4 : BitVec 5) (x5 : BitVec 5) (x6 : BitVec 3) :
    fld (x0 ++ x1 ++ x2 ++ x3 ++ x4 ++ x5 ++ x6 : W32) 13 5 = x3 :=
  ((((fld_append_hi _ _ 13 5 (by decide)).trans (fld_append_hi _ _ 10 5 (by decide))).trans (fld_append_hi _ _ 5 5 (by decide))).trans (fld_append_lo _ _ 0 5 (by decide))).trans (fld_all _)
theorem w6_3_5_5_5_5_3_at_8_5 (x0 : BitVec 6) (x1 : BitVec 3) (x2 : BitVec 5) (x3 : BitVec 5) (x4 : BitVec 5) (x5 : BitVec 5) (x6 : BitVec 3) :
    fld (x0 ++ x1 ++ x2 ++ x3 ++ x4 ++ x5 ++ x6 : W32) 8 5 = x4 :=
  (((fld_append_hi _ _ 8 5 (by decide)).trans (fld_append_hi _ _ 5 5 (by decide))).trans (fld_append_lo _ _ 0 5 (by decide))).trans (fld_all _)
theorem w6_3_5_5_5_5_3_at_3_5 (x0 : BitVec 6) (x1 : BitVec 3) (x2 : BitVec 5) (x3 : BitVec 5) (x4 : BitVec 5) (x5 : BitVec 5) (x6 : BitVec 3) :
    fld (x0 ++ x1 ++ x2 ++ x3 ++ x4 ++ x5 ++ x6 : W32) 3 5 = x5 :=
  ((fld_append_hi _ _ 3 5 (by decide)).trans (fld_append_lo _ _ 0 5 (by decide))).trans (fld_all _)
theorem w6_3_5_5_5_5_3_at_2_1 (x0 : BitVec 6) (x1 : BitVec 3) (x2 : BitVec 5) (x3 : BitVec 5) (x4 : BitVec 5) (x5 : BitVec 5) (x6 : BitVec 3) :
    fld (x0 ++ x1 ++ x2 ++ x3 ++ x4 ++ x5 ++ x6 : W32) 2 1 = fld x6 2 1 :=
  (fld_append_lo _ _ 2 1 (by decide))
theorem w6_3_5_5_5_5_3_at_0_2 (x0 : BitVec 6) (x1 : BitVec 3) (x2 : BitVec 5) (x3 : BitVec 5) (x4 : BitVec 5) (x5 : BitVec 5) (x6 : BitVec 3) :
    fld (x0 ++ x1 ++ x2 ++ x3 ++ x4 ++ x5 ++ x6 : W32) 0 2 = fld x6 0 2 :=
  (fld_append_lo _ _ 0 2 (by decide))
theorem w6_3_5_5_5_5_3_at_0_3 (x0 : BitVec 6) (x1 : BitVec 3) (x2 : BitVec 5) (x3 : BitVec 5) (x4 : BitVec 5) (x5 : BitVec 5) (x6 : BitVec 3) :
    fld (x0 ++ x1 ++ x2 ++ x3 ++ x4 ++ x5 ++ x6 : W32) 0 3 = x6 :=
  (fld_append_lo _ _ 0 3 (by decide)).trans (fld_all _)
theorem w6_3_5_5_5_6_2_at_26_6 (x0 : BitVec 6) (x1 : BitVec 3) (x2 : BitVec 5) (x3 : BitVec 5) (x4 : BitVec 5) (x5 : BitVec 6) (x6 : BitVec 2) :
    fld (x0 ++ x1 ++ x2 ++ x3 ++ x4 ++ x5 ++ x6 : W32) 26 6 = x0 :=
  ((((((fld_append_hi _ _ 26 6 (by decide)).trans (fld_append_hi _ _ 24 6 (by decide))).trans (fld_append_hi _ _ 18 6 (by decide))).trans (fld_append_hi _ _ 13 6 (by decide))).trans (fld_append_hi _ _ 8 6 (by decide))).trans (fld_append_hi _ _ 3 6 (by decide))).trans (fld_all _)
theorem w6_3_5_5_5_6_2_at_23_3 (x0 : BitVec 6) (x1 : BitVec 3) (x2 : BitVec 5) (x3 : BitVec 5) (x4 : BitVec 5) (x5 : BitVec 6) (x6 : BitVec 2) :
    fld (x0 ++ x1 ++ x2 ++ x3 ++ x4 ++ x5 ++ x6 : W32) 23 3 = x1 :=
  ((((((fld_append_hi _ _ 23 3 (by decide)).trans (fld_append_hi _ _ 21 3 (by decide))).trans (fld_append_hi _ _ 15 3 (by decide))).trans (fld_append_hi _ _ 10 3 (by decide))).trans (fld_append_hi _ _ 5 3 (by decide))).trans (fld_append_lo _ _ 0 3 (by decide))).trans (fld_all _)
theorem w6_3_5_5_5_6_2_at_18_5 (x0 : BitVec 6) (x1 : BitVec 3) (x2 : BitVec 5) (x3 : BitVec 5) (x4 : BitVec 5) (x5 : BitVec 6) (x6 : BitVec 2) :
    fld (x0 ++ x1 ++ x2 ++ x3 ++ x4 ++ x5 ++ x6 : W32) 18 5 = x2 :=
  (((((fld_append_hi _ _ 18 5 (by decide)).trans (fld_append_hi _ _ 16 5 (by decide))).trans (fld_append_hi _ _ 10 5 (by decide))).trans (fld_append_hi _ _ 5 5 (by decide))).trans (fld_append_lo _ _ 0 5 (by decide))).trans (fld_all _)
theorem w6_3_5_5_5_6_2_at_13_5 (x0 : BitVec 6) (x1 : BitVec 3) (x2 : BitVec 5) (x3 : BitVec 5) (x4 : BitVec 5) (x5 : BitVec 6) (x6 : BitVec 2) :
    fld (x0 ++ x1 ++ x2 ++ x3 ++ x4 ++ x5 ++ x6 : W32) 13 5 = x3 :=
  ((((fld_append_hi _ _ 13 5 (by decide)).trans (fld_append_hi _ _ 11 5 (by decide))).trans (fld_append_hi _ _ 5 5 (by decide))).trans (fld_append_lo _ _ 0 5 (by decide))).trans (fld_all _)
theorem w6_3_5_5_5_6_2_at_8_5 (x0 : BitVec 6) (x1 : BitVec 3) (x2 : BitVec 5) (x3 : BitVec 5) (x4 : BitVec 5) (x5 : BitVec 6) (x6 : BitVec 2) :
    fld (x0 ++ x1 ++ x2 ++ x3 ++ x4 ++ x5 ++ x6 : W32) 8 5 = x4 :=
  (((fld_append_hi _ _ 8 5 (by decide)).trans (fld_append_hi _ _ 6 5 (by decide))).trans (fld_append_lo _ _ 0 5 (by decide))).trans (fld_all _)
theorem w6_3_5_5_5_6_2_at_3_5 (x0 : BitVec 6) (x1 : BitVec 3) (x2 : BitVec 5) (x3 : BitVec 5) (x4 : BitVec 5) (x5 : BitVec 6) (x6 : BitVec 2) :
    fld (x0 ++ x1 ++ x2 ++ x3 ++ x4 ++ x5 ++ x6 : W32) 3 5 = fld x5 1 5 :=
  (fld_append_hi _ _ 3 5 (by decide)).trans (fld_append_lo _ _ 1 5 (by decide))
theorem w6_3_5_5_5_6_2_at_2_1 (x0 : BitVec 6) (x1 : BitVec 3) (x2 : BitVec 5) (x3 : BitVec 5) (x4 : BitVec 5) (x5 : BitVec 6) (x6 : BitVec 2) :
    fld (x0 ++ x1 ++ x2 ++ x3 ++ x4 ++ x5 ++ x6 : W32) 2 1 = fld x5 0 1 :=
  (fld_append_hi _ _ 2 1 (by decide)).trans (fld_append_lo _ _ 0 1 (by decide))
theorem w6_3_5_5_5_6_2_at_0_2 (x0 : BitVec 6) (x1 : BitVec 3) (x2 : BitVec 5) (x3 : BitVec 5) (x4 : BitVec 5) (x5 : BitVec 6) (x6 : BitVec 2) :
    fld (x0 ++ x1 ++ x2 ++ x3 ++ x4 ++ x5 ++ x6 : W32) 0 2 = x6 :=
  (fld_append_lo _ _ 0 2 (by decide)).trans (fld_all _)
theorem w6_3_5_5_7_3_3_at_26_6 (x0 : BitVec 6) (x1 : BitVec 3) (x2 : BitVec 5) (x3 : BitVec 5) (x4 : BitVec 7) (x5 : BitVec 3) (x6 : BitVec 3) :
    fld (x0 ++ x1 ++ x2 ++ x3 ++ x4 ++ x5 ++ x6 : W32) 26 6 = x0 :=
  ((((((fld_append_hi _ _ 26 6 (by decide)).trans (fld_append_hi _ _ 23 6 (by decide))).trans (fld_append_hi _ _ 20 6 (by decide))).trans (fld_append_hi _ _ 13 6 (by decide))).trans (fld_append_hi _ _ 8 6 (by decide))).trans (fld_append_hi _ _ 3 6 (by decide))).trans (fld_all _)
theorem w6_3_5_5_7_3_3_at_23_3 (x0 : BitVec 6) (x1 : BitVec 3) (x2 : BitVec 5) (x3 : BitVec 5) (x4 : BitVec 7) (x5 : BitVec 3) (x6 : BitVec 3) :
    fld (x0 ++ x1 ++ x2 ++ x3 ++ x4 ++ x5 ++ x6 : W32) 23 3 = x1 :=
  ((((((fld_append_hi _ _ 23 3 (by decide)).trans (fld_append_hi _ _ 20 3 (by decide))).trans (fld_append_hi _ _ 17 3 (by decide))).trans (fld_append_hi _ _ 10 3 (by decide))).trans (fld_append_hi _ _ 5 3 (by decide))).trans (fld_append_lo _ _ 0 3 (by decide))).trans (fld_all _)
theorem w6_3_5_5_7_3_3_at_18_5 (x0 : BitVec 6) (x1 : BitVec 3) (x2 : BitVec 5) (x3 : BitVec 5) (x4 : BitVec 7) (x5 : BitVec 3) (x6 : BitVec 3) :
    fld (x0 ++ x1 ++ x2 ++ x3 ++ x4 ++ x5 ++ x6 : W32) 18 5 = x2 :=
  (((((fld_append_hi _ _ 18 5 (by decide)).trans (fld_append_hi _ _ 15 5 (by decide))).trans (fld_append_hi _ _ 12 5 (by decide))).trans (fld_append_hi _ _ 5 5 (by decide))).trans (fld_append_lo _ _ 0 5 (by decide))).trans (fld_all _)
theorem w6_3_5_5_7_3_3_at_13_5 (x0 : BitVec 6) (x1 : BitVec 3) (x2 : BitVec 5) (x3 : BitVec 5) (x4 : BitVec 7) (x5 : BitVec 3) (x6 : BitVec 3) :
    fld (x0 ++ x1 ++ x2 ++ x3 ++ x4 ++ x5 ++ x6 : W32) 13 5 = x3 :=
  ((((fld_append_hi _ _ 13 5 (by decide)).trans (fld_append_hi _ _ 10 5 (by decide))).trans (fld_append_hi _ _ 7 5 (by decide))).trans (fld_append_lo _ _ 0 5 (by decide))).trans (fld_all _)
theorem w6_3_5_5_7_3_3_at_6_7 (x0 : BitVec 6) (x1 : BitVec 3) (x2 : BitVec 5) (x3 : BitVec 5) (x4 : BitVec 7) (x5 : BitVec 3) (x6 : BitVec 3) :
    fld (x0 ++ x1 ++ x2 ++ x3 ++ x4 ++ x5 ++ x6 : W32) 6 7 = x4 :=
  (((fld_append_hi _ _ 6 7 (by decide)).trans (fld_append_hi _ _ 3 7 (by decide))).trans (fld_append_lo _ _ 0 7 (by decide))).trans (fld_all _)
theorem w6_3_5_5_7_3_3_at_3_3 (x0 : BitVec 6) (x1 : BitVec 3) (x2 : BitVec 5) (x3 : BitVec 5) (x4 : BitVec 7) (x5 : BitVec 3) (x6 : BitVec 3) :
    fld (x0 ++ x1 ++ x2 ++ x3 ++ x4 ++ x5 ++ x6 : W32) 3 3 = x5 :=
  ((fld_append_hi _ _ 3 3 (by decide)).trans (fld_append_lo _ _ 0 3 (by decide))).trans (fld_all _)
theorem w6_3_5_5_7_3_3_at_0_3 (x0 : BitVec 6) (x1 : BitVec 3) (x2 : BitVec 5) (x3 : BitVec 5) (x4 : BitVec 7) (x5 : BitVec 3) (x6 : BitVec 3) :
    fld (x0 ++ x1 ++ x2 ++ x3 ++ x4 ++ x5 ++ x6 : W32) 0 3 = x6 :=
  (fld_append_lo _ _ 0 3 (by decide)).trans (fld_all _)
theorem w6_3_5_5_7_3_1_2_at_26_6 (x0 : BitVec 6) (x1 : BitVec 3) (x2 : BitVec 5) (x3 : BitVec 5) (x4 : BitVec 7) (x5 : BitVec 3) (x6 : BitVec 1) (x7 : BitVec 2) :
    fld (x0 ++ x1 ++ x2 ++ x3 ++ x4 ++ x5 ++ x6 ++ x7 : W32) 26 6 = x0 :=
  (((((((fld_append_hi _ _ 26 6 (by decide)).trans (fld_append_hi _ _ 24 6 (by decide))).trans (fld_append_hi _ _ 23 6 (by decide))).trans (fld_append_hi _ _ 20 6 (by decide))).trans (fld_append_hi _ _ 13 6 (by decide))).trans (fld_append_hi _ _ 8 6 (by decide))).trans (fld_append_hi _ _ 3 6 (by decide))).trans (fld_all _)
theorem w6_3_5_5_7_3_1_2_at_23_3 (x0 : BitVec 6) (x1 : BitVec 3) (x2 : BitVec 5) (x3 : BitVec 5) (x4 : BitVec 7) (x5 : BitVec 3) (x6 : BitVec 1) (x7 : BitVec 2) :
    fld (x0 ++ x1 ++ x2 ++ x3 ++ x4 ++ x5 ++ x6 ++ x7 : W32) 23 3 = x1 :=
  (((((((fld_append_hi _ _ 23 3 (by decide)).trans (fld_append_hi _ _ 21 3 (by decide))).trans (fld_append_hi _ _ 20 3 (by decide))).trans (fld_append_hi _ _ 17 3 (by decide))).trans (fld_append_hi _ _ 10 3 (by decide))).trans (fld_append_hi _ _ 5 3 (by decide))).trans (fld_append_lo _ _ 0 3 (by decide))).trans (fld_all _)
theorem w6_3_5_5_7_3_1_2_at_18_5 (x0 : BitVec 6) (x1 : BitVec 3) (x2 : BitVec 5) (x3 : BitVec 5) (x4 : BitVec 7) (x5 : BitVec 3) (x6 : BitVec 1) (x7 : BitVec 2) :
    fld (x0 ++ x1 ++ x2 ++ x3 ++ x4 ++ x5 ++ x6 ++ x7 : W32) 18 5 = x2 :=
  ((((((fld_append_hi _ _ 18 5 (by decide)).trans (fld_append_hi _ _ 16 5 (by decide))).trans (fld_append_hi _ _ 15 5 (by decide))).trans (fld_append_hi _ _ 12 5 (by decide))).trans (fld_append_hi _ _ 5 5 (by decide))).trans (fld_append_lo _ _ 0 5 (by decide))).trans (fld_all _)
theorem w6_3_5_5_7_3_1_2_at_13_5 (x0 : BitVec 6) (x1 : BitVec 3) (x2 : BitVec 5) (x3 : BitVec 5) (x4 : BitVec 7) (x5 : BitVec 3) (x6 : BitVec 1) (x7 : BitVec 2) :
    fld (x0 ++ x1 ++ x2 ++ x3 ++ x4 ++ x5 ++ x6 ++ x7 : W32) 13 5 = x3 :=
  (((((fld_append_hi _ _ 13 5 (by decide)).trans (fld_append_hi _ _ 11 5 (by decide))).trans (fld_append_hi _ _ 10 5 (by decide))).trans (fld_append_hi _ _ 7 5 (by decide))).trans (fld_append_lo _ _ 0 5 (by decide))).trans (fld_all _)
theorem w6_3_5_5_7_3_1_2_at_6_7 (x0 : BitVec 6) (x1 : BitVec 3) (x2 : BitVec 5) (x3 : BitVec 5) (x4 : BitVec 7) (x5 : BitVec 3) (x6 : BitVec 1) (x7 : BitVec 2) :
    fld (x0 ++ x1 ++ x2 ++ x3 ++ x4 ++ x5 ++ x6 ++ x7 : W32) 6 7 = x4 :=
  ((((fld_append_hi _ _ 6 7 (by decide)).trans (fld_append_hi _ _ 4 7 (by decide))).trans (fld_append_hi _ _ 3 7 (by decide))).trans (fld_append_lo _ _ 0 7 (by decide))).trans (fld_all _)
theorem w6_3_5_5_7_3_1_2_at_3_3 (x0 : BitVec 6) (x1 : BitVec 3) (x2 : BitVec 5) (x3 : BitVec 5) (x4 : BitVec 7) (x5 : BitVec 3) (x6 : BitVec 1) (x7 : BitVec 2) :
    fld (x0 ++ x1 ++ x2 ++ x3 ++ x4 ++ x5 ++ x6 ++ x7 : W32) 3 3 = x5 :=
  (((fld_append_hi _ _ 3 3 (by decide)).trans (fld_append_hi _ _ 1 3 (by decide))).trans (fld_append_lo _ _ 0 3 (by decide))).trans (fld_all _)
theorem w6_3_5_5_7_3_1_2_at_2_1 (x0 : BitVec 6) (x1 : BitVec 3) (x2 : BitVec 5) (x3 : BitVec 5) (x4 : BitVec 7) (x5 : BitVec 3) (x6 : BitVec 1) (x7 : BitVec 2) :
    fld (x0 ++ x1 ++ x2 ++ x3 ++ x4 ++ x5 ++ x6 ++ x7 : W32) 2 1 = x6 :=
  ((fld_append_hi _ _ 2 1 (by decide)).trans (fld_append_lo _ _ 0 1 (by decide))).trans (fld_all _)
theorem w6_3_5_5_7_3_1_2_at_0_2 (x0 : BitVec 6) (x1 : BitVec 3) (x2 : BitVec 5) (x3 : BitVec 5) (x4 : BitVec 7) (x5 : BitVec 3) (x6 : BitVec 1) (x7 : BitVec 2) :
    fld (x0 ++ x1 ++ x2 ++ x3 ++ x4 ++ x5 ++ x6 ++ x7 : W32) 0 2 = x7 :=
  (fld_append_lo _ _ 0 2 (by decide)).trans (fld_all _)
theorem w6_3_5_5_5_4_1_3_at_26_6 (x0 : BitVec 6) (x1 : BitVec 3) (x2 : BitVec 5) (x3 : BitVec 5) (x4 : BitVec 5) (x5 : BitVec 4) (x6 : BitVec 1) (x7 : BitVec 3) :
    fld (x0 ++ x1 ++ x2 ++ x3 ++ x4 ++ x5 ++ x6 ++ x7 : W32) 26 6 = x0 :=
  (((((((fld_append_hi _ _ 26 6 (by decide)).trans (fld_append_hi _ _ 23 6 (by decide))).trans (fld_append_hi _ _ 22 6 (by decide))).trans (fld_append_hi _ _ 18 6 (by decide))).trans (fld_append_hi _ _ 13 6 (by decide))).trans (fld_append_hi _ _ 8 6 (by decide))).trans (fld_append_hi _ _ 3 6 (by decide))).trans (fld_all _)
theorem w6_3_5_5_5_4_1_3_at_23_3 (x0 : BitVec 6) (x1 : BitVec 3) (x2 : BitVec 5) (x3 : BitVec 5) (x4 : BitVec 5) (x5 : BitVec 4) (x6 : BitVec 1) (x7 : BitVec 3) :
    fld (x0 ++ x1 ++ x2 ++ x3 ++ x4 ++ x5 ++ x6 ++ x7 : W32) 23 3 = x1 :=
  (((((((fld_append_hi _ _ 23 3 (by decide)).trans (fld_append_hi _ _ 20 3 (by decide))).trans (fld_append_hi _ _ 19 3 (by decide))).trans (fld_append_hi _ _ 15 3 (by decide))).trans (fld_append_hi _ _ 10 3 (by decide))).trans (fld_append_hi _ _ 5 3 (by decide))).trans (fld_append_lo _ _ 0 3 (by decide))).trans (fld_all _)
theorem w6_3_5_5_5_4_1_3_at_18_5 (x0 : BitVec 6) (x1 : BitVec 3) (x2 : BitVec 5) (x3 : BitVec 5) (x4 : BitVec 5) (x5 : BitVec 4) (x6 : BitVec 1) (x7 : BitVec 3) :
    fld (x0 ++ x1 ++ x2 ++ x3 ++ x4 ++ x5 ++ x6 ++ x7 : W32) 18 5 = x2 :=
  ((((((fld_append_hi _ _ 18 5 (by decide)).trans (fld_append_hi _ _ 15 5 (by decide))).trans (fld_append_hi _ _ 14 5 (by decide))).trans (fld_append_hi _ _ 10 5 (by decide))).trans (fld_append_hi _ _ 5 5 (by decide))).trans (fld_append_lo _ _ 0 5 (by decide))).trans (fld_all _)
theorem w6_3_5_5_5_4_1_3_at_13_5 (x0 : BitVec 6) (x1 : BitVec 3) (x2 : BitVec 5) (x3 : BitVec 5) (x4 : BitVec 5) (x5 : BitVec 4) (x6 : BitVec 1) (x7 : BitVec 3) :
    fld (x0 ++ x1 ++ x2 ++ x3 ++ x4 ++ x5 ++ x6 ++ x7 : W32) 13 5 = x3 :=
  (((((fld_append_hi _ _ 13 5 (by decide)).trans (fld_append_hi _ _ 10 5 (by decide))).trans (fld_append_hi _ _ 9 5 (by decide))).trans (fld_append_hi _ _ 5 5 (by decide))).trans (fld_append_lo _ _ 0 5 (by decide))).trans (fld_all _)
theorem w6_3_5_5_5_4_1_3_at_8_5 (x0 : BitVec 6) (x1 : BitVec 3) (x2 : BitVec 5) (x3 : BitVec 5) (x4 : BitVec 5) (x5 : BitVec 4) (x6 : BitVec 1) (x7 : BitVec 3) :
    fld (x0 ++ x1 ++ x2 ++ x3 ++ x4 ++ x5 ++ x6 ++ x7 : W32) 8 5 = x4 :=
  ((((fld_append_hi _ _ 8 5 (by decide)).trans (fld_append_hi _ _ 5 5 (by decide))).trans (fld_append_hi _ _ 4 5 (by decide))).trans (fld_append_lo _ _ 0 5 (by decide))).trans (fld_all _)
theorem w6_3_5_5_5_4_1_3_at_4_4 (x0 : BitVec 6) (x1 : BitVec 3) (x2 : BitVec 5) (x3 : BitVec 5) (x4 : BitVec 5) (x5 : BitVec 4) (x6 : BitVec 1) (x7 : BitVec 3) :
    fld (x0 ++ x1 ++ x2 ++ x3 ++ x4 ++ x5 ++ x6 ++ x7 : W32) 4 4 = x5 :=
  (((fld_append_hi _ _ 4 4 (by decide)).trans (fld_append_hi _ _ 1 4 (by decide))).trans (fld_append_lo _ _ 0 4 (by decide))).trans (fld_all _)
theorem w6_3_5_5_5_4_1_3_at_3_1 (x0 : BitVec 6) (x1 : BitVec 3) (x2 : BitVec 5) (x3 : BitVec 5) (x4 : BitVec 5) (x5 : BitVec 4) (x6 : BitVec 1) (x7 : BitVec 3) :
    fld (x0 ++ x1 ++ x2 ++ x3 ++ x4 ++ x5 ++ x6 ++ x7 : W32) 3 1 = x6 :=
  ((fld_append_hi _ _ 3 1 (by decide)).trans (fld_append_lo _ _ 0 1 (by decide))).trans (fld_all _)
theorem w6_3_5_5_5_4_1_3_at_2_1 (x0 : BitVec 6) (x1 : BitVec 3) (x2 : BitVec 5) (x3 : BitVec 5) (x4 : BitVec 5) (x5 : BitVec 4) (x6 : BitVec 1) (x7 : BitVec 3) :
    fld (x0 ++ x1 ++ x2 ++ x3 ++ x4 ++ x5 ++ x6 ++ x7 : W32) 2 1 = fld x7 2 1 :=
  (fld_append_lo _ _ 2 1 (by decide))
theorem w6_3_5_5_5_4_1_3_at_0_2 (x0 : BitVec 6) (x1 : BitVec 3) (x2 : BitVec 5) (x3 : BitVec 5) (x4 : BitVec 5) (x5 : BitVec 4) (x6 : BitVec 1) (x7 : BitVec 3) :
    fld (x0 ++ x1 ++ x2 ++ x3 ++ x4 ++ x5 ++ x6 ++ x7 : W32) 0 2 = fld x7 0 2 :=
  (fld_append_lo _ _ 0 2 (by decide))
theorem w6_3_5_5_5_4_1_3_at_0_3 (x0 : BitVec 6) (x1 : BitVec 3) (x2 : BitVec 5) (x3 : BitVec 5) (x4 : BitVec 5) (x5 : BitVec 4) (x6 : BitVec 1) (x7 : BitVec 3) :
    fld (x0 ++ x1 ++ x2 ++ x3 ++ x4 ++ x5 ++ x6 ++ x7 : W32) 0 3 = x7 :=
  (fld_append_lo _ _ 0 3 (by decide)).trans (fld_all _)
theorem w6_3_20_3_at_26_6 (x0 : BitVec 6) (x1 : BitVec 3) (x2 : BitVec 20) (x3 : BitVec 3) :
    fld (x0 ++ x1 ++ x2 ++ x3 : W32) 26 6 = x0 :=
  (((fld_append_hi _ _ 26 6 (by decide)).trans (fld_append_hi _ _ 23 6 (by decide))).trans (fld_append_hi _ _ 3 6 (by decide))).trans (fld_all _)
theorem w6_3_20_3_at_23_3 (x0 : BitVec 6) (x1 : BitVec 3) (x2 : BitVec 20) (x3 : BitVec 3) :
    fld (x0 ++ x1 ++ x2 ++ x3 : W32) 23 3 = x1 :=
  (((fld_append_hi _ _ 23 3 (by decide)).trans (fld_append_hi _ _ 20 3 (by decide))).trans (fld_append_lo _ _ 0 3 (by decide))).trans (fld_all _)
theorem w6_3_20_3_at_18_5 (x0 : BitVec 6) (x1 : BitVec 3) (x2 : BitVec 20) (x3 : BitVec 3) :
    fld (x0 ++ x1 ++ x2 ++ x3 : W32) 18 5 = fld x2 15 5 :=
  (fld_append_hi _ _ 18 5 (by decide)).trans (fld_append_lo _ _ 15 5 (by decide))
theorem w6_3_20_3_at_13_5 (x0 : BitVec 6) (x1 : BitVec 3) (x2 : BitVec 20) (x3 : BitVec 3) :
    fld (x0 ++ x1 ++ x2 ++ x3 : W32) 13 5 = fld x2 10 5 :=
  (fld_append_hi _ _ 13 5 (by decide)).trans (fld_append_lo _ _ 10 5 (by decide))
theorem w6_3_20_3_at_10_3 (x0 : BitVec 6) (x1 : BitVec 3) (x2 : BitVec 20) (x3 : BitVec 3) :
    fld (x0 ++ x1 ++ x2 ++ x3 : W32) 10 3 = fld x2 7 3 :=
  (fld_append_hi _ _ 10 3 (by decide)).trans (fld_append_lo _ _ 7 3 (by decide))
theorem w6_3_20_3_at_3_7 (x0 : BitVec 6) (x1 : BitVec 3) (x2 : BitVec 20) (x3 : BitVec 3) :
    fld (x0 ++ x1 ++ x2 ++ x3 : W32) 3 7 = fld x2 0 7 :=
  (fld_append_hi _ _ 3 7 (by decide)).trans (fld_append_lo _ _ 0 7 (by decide))
theorem w6_3_20_3_at_3_20 (x0 : BitVec 6) (x1 : BitVec 3) (x2 : BitVec 20) (x3 : BitVec 3) :
    fld (x0 ++ x1 ++ x2 ++ x3 : W32) 3 20 = x2 :=
  ((fld_append_hi _ _ 3 20 (by decide)).trans (fld_append_lo _ _ 0 20 (by decide))).trans (fld_all _)
theorem w6_3_20_3_at_0_3 (x0 : BitVec 6) (x1 : BitVec 3) (x2 : BitVec 20) (x3 : BitVec 3) :
    fld (x0 ++ x1 ++ x2 ++ x3 : W32) 0 3 = x3 :=
  (fld_append_lo _ _ 0 3 (by decide)).trans (fld_all _)
theorem w6_3_5_5_9_1_3_at_26_6 (x0 : BitVec 6) (x1 : BitVec 3) (x2 : BitVec 5) (x3 : BitVec 5) (x4 : BitVec 9) (x5 : BitVec 1) (x6 : BitVec 3) :
    fld (x0 ++ x1 ++ x2 ++ x3 ++ x4 ++ x5 ++ x6 : W32) 26 6 = x0 :=
  ((((((fld_append_hi _ _ 26 6 (by decide)).trans (fld_append_hi _ _ 23 6 (by decide))).trans (fld_append_hi _ _ 22 6 (by decide))).trans (fld_append_hi _ _ 13 6 (by decide))).trans (fld_append_hi _ _ 8 6 (by decide))).trans (fld_append_hi _ _ 3 6 (by decide))).trans (fld_all _)
theorem w6_3_5_5_9_1_3_at_23_3 (x0 : BitVec 6) (x1 : BitVec 3) (x2 : BitVec 5) (x3 : BitVec 5) (x4 : BitVec 9) (x5 : BitVec 1) (x6 : BitVec 3) :
    fld (x0 ++ x1 ++ x2 ++ x3 ++ x4 ++ x5 ++ x6 : W32) 23 3 = x1 :=
  ((((((fld_append_hi _ _ 23 3 (by decide)).trans (fld_append_hi _ _ 20 3 (by decide))).trans (fld_append_hi _ _ 19 3 (by decide))).trans (fld_append_hi _ _ 10 3 (by decide))).trans (fld_append_hi _ _ 5 3 (by decide))).trans (fld_append_lo _ _ 0 3 (by decide))).trans (fld_all _)
theorem w6_3_5_5_9_1_3_at_18_5 (x0 : BitVec 6) (x1 : BitVec 3) (x2 : BitVec 5) (x3 : BitVec 5) (x4 : BitVec 9) (x5 : BitVec 1) (x6 : BitVec 3) :
    fld (x0 ++ x1 ++ x2 ++ x3 ++ x4 ++ x5 ++ x6 : W32) 18 5 = x2 :=
  (((((fld_append_hi _ _ 18 5 (by decide)).trans (fld_append_hi _ _ 15 5 (by decide))).trans (fld_append_hi _ _ 14 5 (by decide))).trans (fld_append_hi _ _ 5 5 (by decide))).trans (fld_append_lo _ _ 0 5 (by decide))).trans (fld_all _)
theorem w6_3_5_5_9_1_3_at_13_5 (x0 : BitVec 6) (x1 : BitVec 3) (x2 : BitVec 5) (x3 : BitVec 5) (x4 : BitVec 9) (x5 : BitVec 1) (x6 : BitVec 3) :
    fld (x0 ++ x1 ++ x2 ++ x3 ++ x4 ++ x5 ++ x6 : W32) 13 5 = x3 :=
  ((((fld_append_hi _ _ 13 5 (by decide)).trans (fld_append_hi _ _ 10 5 (by decide))).trans (fld_append_hi _ _ 9 5 (by decide))).trans (fld_append_lo _ _ 0 5 (by decide))).trans (fld_all _)
theorem w6_3_5_5_9_1_3_at_8_5 (x0 : BitVec 6) (x1 : BitVec 3) (x2 : BitVec 5) (x3 : BitVec 5) (x4 : BitVec 9) (x5 : BitVec 1) (x6 : BitVec 3) :
    fld (x0 ++ x1 ++ x2 ++ x3 ++ x4 ++ x5 ++ x6 : W32) 8 5 = fld x4 4 5 :=
  ((fld_append_hi _ _ 8 5 (by decide)).trans (fld_append_hi _ _ 5 5 (by decide))).trans (fld_append_lo _ _ 4 5 (by decide))
theorem w6_3_5_5_9_1_3_at_4_4 (x0 : BitVec 6) (x1 : BitVec 3) (x2 : BitVec 5) (x3 : BitVec 5) (x4 : BitVec 9) (x5 : BitVec 1) (x6 : BitVec 3) :
    fld (x0 ++ x1 ++ x2 ++ x3 ++ x4 ++ x5 ++ x6 : W32) 4 4 = fld x4 0 4 :=
  ((fld_append_hi _ _ 4 4 (by decide)).trans (fld_append_hi _ _ 1 4 (by decide))).trans (fld_append_lo _ _ 0 4 (by decide))
theorem w6_3_5_5_9_1_3_at_3_1 (x0 : BitVec 6) (x1 : BitVec 3) (x2 : BitVec 5) (x3 : BitVec 5) (x4 : BitVec 9) (x5 : BitVec 1) (x6 : BitVec 3) :
    fld (x0 ++ x1 ++ x2 ++ x3 ++ x4 ++ x5 ++ x6 : W32) 3 1 = x5 :=
  ((fld_append_hi _ _ 3 1 (by decide)).trans (fld_append_lo _ _ 0 1 (by decide))).trans (fld_all _)
theorem w6_3_5_5_9_1_3_at_2_1 (x0 : BitVec 6) (x1 : BitVec 3) (x2 : BitVec 5) (x3 : BitVec 5) (x4 : BitVec 9) (x5 : BitVec 1) (x6 : BitVec 3) :
    fld (x0 ++ x1 ++ x2 ++ x3 ++ x4 ++ x5 ++ x6 : W32) 2 1 = fld x6 2 1 :=
  (fld_append_lo _ _ 2 1 (by decide))
theorem w6_3_5_5_9_1_3_at_0_2 (x0 : BitVec 6) (x1 : BitVec 3) (x2 : BitVec 5) (x3 : BitVec 5) (x4 : BitVec 9) (x5 : BitVec 1) (x6 : BitVec 3) :
    fld (x0 ++ x1 ++ x2 ++ x3 ++ x4 ++ x5 ++ x6 : W32) 0 2 = fld x6 0 2 :=
  (fld_append_lo _ _ 0 2 (by decide))
theorem w6_3_5_5_9_1_3_at_0_3 (x0 : BitVec 6) (x1 : BitVec 3) (x2 : BitVec 5) (x3 : BitVec 5) (x4 : BitVec 9) (x5 : BitVec 1) (x6 : BitVec 3) :
    fld (x0 ++ x1 ++ x2 ++ x3 ++ x4 ++ x5 ++ x6 : W32) 0 3 = x6 :=
  (fld_append_lo _ _ 0 3 (by decide)).trans (fld_all _)
theorem w6_3_5_5_5_4_1_1_2_at_26_6 (x0 : BitVec 6) (x1 : BitVec 3) (x2 : BitVec 5) (x3 : BitVec 5) (x4 : BitVec 5) (x5 : BitVec 4) (x6 : BitVec 1) (x7 : BitVec 1) (x8 : BitVec 2) :
    fld (x0 ++ x1 ++ x2 ++ x3 ++ x4 ++ x5 ++ x6 ++ x7 ++ x8 : W32) 26 6 = x0 :=
  ((((((((fld_append_hi _ _ 26 6 (by decide)).trans (fld_append_hi _ _ 24 6 (by decide))).trans (fld_append_hi _ _ 23 6 (by decide))).trans (fld_append_hi _ _ 22 6 (by decide))).trans (fld_append_hi _ _ 18 6 (by decide))).trans (fld_append_hi _ _ 13 6 (by decide))).trans (fld_append_hi _ _ 8 6 (by decide))).trans (fld_append_hi _ _ 3 6 (by decide))).trans (fld_all _)
theorem w6_3_5_5_5_4_1_1_2_at_23_3 (x0 : BitVec 6) (x1 : BitVec 3) (x2 : BitVec 5) (x3 : BitVec 5) (x4 : BitVec 5) (x5 : BitVec 4) (x6 : BitVec 1) (x7 : BitVec 1) (x8 : BitVec 2) :
    fld (x0 ++ x1 ++ x2 ++ x3 ++ x4 ++ x5 ++ x6 ++ x7 ++ x8 : W32) 23 3 = x1 :=
  ((((((((fld_append_hi _ _ 23 3 (by decide)).trans (fld_append_hi _ _ 21 3 (by decide))).trans (fld_append_hi _ _ 20 3 (by decide))).trans (fld_append_hi _ _ 19 3 (by decide))).trans (fld_append_hi _ _ 15 3 (by decide))).trans (fld_append_hi _ _ 10 3 (by decide))).trans (fld_append_hi _ _ 5 3 (by decide))).trans (fld_append_lo _ _ 0 3 (by decide))).trans (fld_all _)
theorem w6_3_5_5_5_4_1_1_2_at_18_5 (x0 : BitVec 6) (x1 : BitVec 3) (x2 : BitVec 5) (x3 : BitVec 5) (x4 : BitVec 5) (x5 : BitVec 4) (x6 : BitVec 1) (x7 : BitVec 1) (x8 : BitVec 2) :
    fld (x0 ++ x1 ++ x2 ++ x3 ++ x4 ++ x5 ++ x6 ++ x7 ++ x8 : W32) 18 5 = x2 :=
  (((((((fld_append_hi _ _ 18 5 (by decide)).trans (fld_append_hi _ _ 16 5 (by decide))).trans (fld_append_hi _ _ 15 5 (by decide))).trans (fld_append_hi _ _ 14 5 (by decide))).trans (fld_append_hi _ _ 10 5 (by decide))).trans (fld_append_hi _ _ 5 5 (by decide))).trans (fld_append_lo _ _ 0 5 (by decide))).trans (fld_all _)
theorem w6_3_5_5_5_4_1_1_2_at_13_5 (x0 : BitVec 6) (x1 : BitVec 3) (x2 : BitVec 5) (x3 : BitVec 5) (x4 : BitVec 5) (x5 : BitVec 4) (x6 : BitVec 1) (x7 : BitVec 1) (x8 : BitVec 2) :
    fld (x0 ++ x1 ++ x2 ++ x3 ++ x4 ++ x5 ++ x6 ++ x7 ++ x8 : W32) 13 5 = x3 :=
  ((((((fld_append_hi _ _ 13 5 (by decide)).trans (fld_append_hi _ _ 11 5 (by decide))).trans (fld_append_hi _ _ 10 5 (by decide))).trans (fld_append_hi _ _ 9 5 (by decide))).trans (fld_append_hi _ _ 5 5 (by decide))).trans (fld_append_lo _ _ 0 5 (by decide))).trans (fld_all _)
theorem w6_3_5_5_5_4_1_1_2_at_8_5 (x0 : BitVec 6) (x1 : BitVec 3) (x2 : BitVec 5) (x3 : BitVec 5) (x4 : BitVec 5) (x5 : BitVec 4) (x6 : BitVec 1) (x7 : BitVec 1) (x8 : BitVec 2) :
    fld (x0 ++ x1 ++ x2 ++ x3 ++ x4 ++ x5 ++ x6 ++ x7 ++ x8 : W32) 8 5 = x4 :=
  (((((fld_append_hi _ _ 8 5 (by decide)).trans (fld_append_hi _ _ 6 5 (by decide))).trans (fld_append_hi _ _ 5 5 (by decide))).trans (fld_append_hi _ _ 4 5 (by decide))).trans (fld_append_lo _ _ 0 5 (by decide))).trans (fld_all _)
theorem w6_3_5_5_5_4_1_1_2_at_4_4 (x0 : BitVec 6) (x1 : BitVec 3) (x2 : BitVec 5) (x3 : BitVec 5) (x4 : BitVec 5) (x5 : BitVec 4) (x6 : BitVec 1) (x7 : BitVec 1) (x8 : BitVec 2) :
    fld (x0 ++ x1 ++ x2 ++ x3 ++ x4 ++ x5 ++ x6 ++ x7 ++ x8 : W32) 4 4 = x5 :=
  ((((fld_append_hi _ _ 4 4 (by decide)).trans (fld_append_hi _ _ 2 4 (by decide))).trans (fld_append_hi _ _ 1 4 (by decide))).trans (fld_append_lo _ _ 0 4 (by decide))).trans (fld_all _)
theorem w6_3_5_5_5_4_1_1_2_at_3_1 (x0 : BitVec 6) (x1 : BitVec 3) (x2 : BitVec 5) (x3 : BitVec 5) (x4 : BitVec 5) (x5 : BitVec 4) (x6 : BitVec 1) (x7 : BitVec 1) (x8 : BitVec 2) :
    fld (x0 ++ x1 ++ x2 ++ x3 ++ x4 ++ x5 ++ x6 ++ x7 ++ x8 : W32) 3 1 = x6 :=
  (((fld_append_hi _ _ 3 1 (by decide)).trans (fld_append_hi _ _ 1 1 (by decide))).trans (fld_append_lo _ _ 0 1 (by decide))).trans (fld_all _)
theorem w6_3_5_5_5_4_1_1_2_at_2_1 (x0 : BitVec 6) (x1 : BitVec 3) (x2 : BitVec 5) (x3 : BitVec 5) (x4 : BitVec 5) (x5 : BitVec 4) (x6 : BitVec 1) (x7 : BitVec 1) (x8 : BitVec 2) :
    fld (x0 ++ x1 ++ x2 ++ x3 ++ x4 ++ x5 ++ x6 ++ x7 ++ x8 : W32) 2 1 = x7 :=
  ((fld_append_hi _ _ 2 1 (by decide)).trans (fld_append_lo _ _ 0 1 (by decide))).trans (fld_all _)
theorem w6_3_5_5_5_4_1_1_2_at_0_2 (x0 : BitVec 6) (x1 : BitVec 3) (x2 : BitVec 5) (x3 : BitVec 5) (x4 : BitVec 5) (x5 : BitVec 4) (x6 : BitVec 1) (x7 : BitVec 1) (x8 : BitVec 2) :
    fld (x0 ++ x1 ++ x2 ++ x3 ++ x4 ++ x5 ++ x6 ++ x7 ++ x8 : W32) 0 2 = x8 :=
  (fld_append_lo _ _ 0 2 (by decide)).trans (fld_all _)
theorem w6_3_5_5_5_5_1_2_at_26_6 (x0 : BitVec 6) (x1 : BitVec 3) (x2 : BitVec 5) (x3 : BitVec 5) (x4 : BitVec 5) (x5 : BitVec 5) (x6 : BitVec 1) (x7 : BitVec 2) :
    fld (x0 ++ x1 ++ x2 ++ x3 ++ x4 ++ x5 ++ x6 ++ x7 : W32) 26 6 = x0 :=
  (((((((fld_append_hi _ _ 26 6 (by decide)).trans (fld_append_hi _ _ 24 6 (by decide))).trans (fld_append_hi _ _ 23 6 (by decide))).trans (fld_append_hi _ _ 18 6 (by decide))).trans (fld_append_hi _ _ 13 6 (by decide))).trans (fld_append_hi _ _ 8 6 (by decide))).trans (fld_append_hi _ _ 3 6 (by decide))).trans (fld_all _)
theorem w6_3_5_5_5_5_1_2_at_23_3 (x0 : BitVec 6) (x1 : BitVec 3) (x2 : BitVec 5) (x3 : BitVec 5) (x4 : BitVec 5) (x5 : BitVec 5) (x6 : BitVec 1) (x7 : BitVec 2) :
    fld (x0 ++ x1 ++ x2 ++ x3 ++ x4 ++ x5 ++ x6 ++ x7 : W32) 23 3 = x1 :=
  (((((((fld_append_hi _ _ 23 3 (by decide)).trans (fld_append_hi _ _ 21 3 (by decide))).trans (fld_append_hi _ _ 20 3 (by decide))).trans (fld_append_hi _ _ 15 3 (by decide))).trans (fld_append_hi _ _ 10 3 (by decide))).trans (fld_append_hi _ _ 5 3 (by decide))).trans (fld_append_lo _ _ 0 3 (by decide))).trans (fld_all _)
theorem w6_3_5_5_5_5_1_2_at_18_5 (x0 : BitVec 6) (x1 : BitVec 3) (x2 : BitVec 5) (x3 : BitVec 5) (x4 : BitVec 5) (x5 : BitVec 5) (x6 : BitVec 1) (x7 : BitVec 2) :
    fld (x0 ++ x1 ++ x2 ++ x3 ++ x4 ++ x5 ++ x6 ++ x7 : W32) 18 5 = x2 :=
  ((((((fld_append_hi _ _ 18 5 (by decide)).trans (fld_append_hi _ _ 16 5 (by decide))).trans (fld_append_hi _ _ 15 5 (by decide))).trans (fld_append_hi _ _ 10 5 (by decide))).trans (fld_append_hi _ _ 5 5 (by decide))).trans (fld_append_lo _ _ 0 5 (by decide))).trans (fld_all _)
theorem w6_3_5_5_5_5_1_2_at_13_5 (x0 : BitVec 6) (x1 : BitVec 3) (x2 : BitVec 5) (x3 : BitVec 5) (x4 : BitVec 5) (x5 : BitVec 5) (x6 : BitVec 1) (x7 : BitVec 2) :
    fld (x0 ++ x1 ++ x2 ++ x3 ++ x4 ++ x5 ++ x6 ++ x7 : W32) 13 5 = x3 :=
  (((((fld_append_hi _ _ 13 5 (by decide)).trans (fld_append_hi _ _ 11 5 (by decide))).trans (fld_append_hi _ _ 10 5 (by decide))).trans (fld_append_hi _ _ 5 5 (by decide))).trans (fld_append_lo _ _ 0 5 (by decide))).trans (fld_all _)
theorem w6_3_5_5_5_5_1_2_at_8_5 (x0 : BitVec 6) (x1 : BitVec 3) (x2 : BitVec 5) (x3 : BitVec 5) (x4 : BitVec 5) (x5 : BitVec 5) (x6 : BitVec 1) (x7 : BitVec 2) :
    fld (x0 ++ x1 ++ x2 ++ x3 ++ x4 ++ x5 ++ x6 ++ x7 : W32) 8 5 = x4 :=
  ((((fld_append_hi _ _ 8 5 (by decide)).trans (fld_append_hi _ _ 6 5 (by decide))).trans (fld_append_hi _ _ 5 5 (by decide))).trans (fld_append_lo _ _ 0 5 (by decide))).trans (fld_all _)
theorem w6_3_5_5_5_5_1_2_at_3_5 (x0 : BitVec 6) (x1 : BitVec 3) (x2 : BitVec 5) (x3 : BitVec 5) (x4 : BitVec 5) (x5 : BitVec 5) (x6 : BitVec 1) (x7 : BitVec 2) :
    fld (x0 ++ x1 ++ x2 ++ x3 ++ x4 ++ x5 ++ x6 ++ x7 : W32) 3 5 = x5 :=
  (((fld_append_hi _ _ 3 5 (by decide)).trans (fld_append_hi _ _ 1 5 (by decide))).trans (fld_append_lo _ _ 0 5 (by decide))).trans (fld_all _)
theorem w6_3_5_5_5_5_1_2_at_2_1 (x0 : BitVec 6) (x1 : BitVec 3) (x2 : BitVec 5) (x3 : BitVec 5) (x4 : BitVec 5) (x5 : BitVec 5) (x6 : BitVec 1) (x7 : BitVec 2) :
    fld (x0 ++ x1 ++ x2 ++ x3 ++ x4 ++ x5 ++ x6 ++ x7 : W32) 2 1 = x6 :=
  ((fld_append_hi _ _ 2 1 (by decide)).trans (fld_append_lo _ _ 0 1 (by decide))).trans (fld_all _)
theorem w6_3_5_5_5_5_1_2_at_0_2 (x0 : BitVec 6) (x1 : BitVec 3) (x2 : BitVec 5) (x3 : BitVec 5) (x4 : BitVec 5) (x5 : BitVec 5) (x6 : BitVec 1) (x7 : BitVec 2) :
    fld (x0 ++ x1 ++ x2 ++ x3 ++ x4 ++ x5 ++ x6 ++ x7 : W32) 0 2 = x7 :=
  (fld_append_lo _ _ 0 2 (by decide)).trans (fld_all _)
theorem w6_3_5_8_10_at_26_6 (x0 : BitVec 6) (x1 : BitVec 3) (x2 : BitVec 5) (x3 : BitVec 8) (x4 : BitVec 10) :
    fld (x0 ++ x1 ++ x2 ++ x3 ++ x4 : W32) 26 6 = x0 :=
  ((((fld_append_hi _ _ 26 6 (by decide)).trans (fld_append_hi _ _ 16 6 (by decide))).trans (fld_append_hi _ _ 8 6 (by decide))).trans (fld_append_hi _ _ 3 6 (by decide))).trans (fld_all _)
theorem w6_3_5_8_10_at_23_3 (x0 : BitVec 6) (x1 : BitVec 3) (x2 : BitVec 5) (x3 : BitVec 8) (x4 : BitVec 10) :
    fld (x0 ++ x1 ++ x2 ++ x3 ++ x4 : W32) 23 3 = x1 :=
  ((((fld_append_hi _ _ 23 3 (by decide)).trans (fld_append_hi _ _ 13 3 (by decide))).trans (fld_append_hi _ _ 5 3 (by decide))).trans (fld_append_lo _ _ 0 3 (by decide))).trans (fld_all _)
theorem w6_3_5_8_10_at_18_5 (x0 : BitVec 6) (x1 : BitVec 3) (x2 : BitVec 5) (x3 : BitVec 8) (x4 : BitVec 10) :
    fld (x0 ++ x1 ++ x2 ++ x3 ++ x4 : W32) 18 5 = x2 :=
  (((fld_append_hi _ _ 18 5 (by decide)).trans (fld_append_hi _ _ 8 5 (by decide))).trans (fld_append_lo _ _ 0 5 (by decide))).trans (fld_all _)
theorem w6_3_5_8_10_at_13_5 (x0 : BitVec 6) (x1 : BitVec 3) (x2 : BitVec 5) (x3 : BitVec 8) (x4 : BitVec 10) :
    fld (x0 ++ x1 ++ x2 ++ x3 ++ x4 : W32) 13 5 = fld x3 3 5 :=
  (fld_append_hi _ _ 13 5 (by decide)).trans (fld_append_lo _ _ 3 5 (by decide))
theorem w6_3_5_8_10_at_10_3 (x0 : BitVec 6) (x1 : BitVec 3) (x2 : BitVec 5) (x3 : BitVec 8) (x4 : BitVec 10) :
    fld (x0 ++ x1 ++ x2 ++ x3 ++ x4 : W32) 10 3 = fld x3 0 3 :=
  (fld_append_hi _ _ 10 3 (by decide)).trans (fld_append_lo _ _ 0 3 (by decide))
theorem w6_3_5_8_10_at_0_10 (x0 : BitVec 6) (x1 : BitVec 3) (x2 : BitVec 5) (x3 : BitVec 8) (x4 : BitVec 10) :
    fld (x0 ++ x1 ++ x2 ++ x3 ++ x4 : W32) 0 10 = x4 :=
  (fld_append_lo _ _ 0 10 (by decide)).trans (fld_all _)
theorem w6_3_23_at_26_6 (x0 : BitVec 6) (x1 : BitVec 3) (x2 : BitVec 23) :
    fld (x0 ++ x1 ++ x2 : W32) 26 6 = x0 :=
  ((fld_append_hi _ _ 26 6 (by decide)).trans (fld_append_hi _ _ 3 6 (by decide))).trans (fld_all _)
theorem w6_3_23_at_23_3 (x0 : BitVec 6) (x1 : BitVec 3) (x2 : BitVec 23) :
    fld (x0 ++ x1 ++ x2 : W32) 23 3 = x1 :=
  ((fld_append_hi _ _ 23 3 (by decide)).trans (fld_append_lo _ _ 0 3 (by decide))).trans (fld_all _)
theorem w6_3_23_at_18_5 (x0 : BitVec 6) (x1 : BitVec 3) (x2 : BitVec 23) :
    fld (x0 ++ x1 ++ x2 : W32) 18 5 = fld x2 18 5 :=
  (fld_append_lo _ _ 18 5 (by decide))
theorem w6_3_23_at_13_5 (x0 : BitVec 6) (x1 : BitVec 3) (x2 : BitVec 23) :
    fld (x0 ++ x1 ++ x2 : W32) 13 5 = fld x2 13 5 :=
  (fld_append_lo _ _ 13 5 (by decide))
theorem w6_3_23_at_10_3 (x0 : BitVec 6) (x1 : BitVec 3) (x2 : BitVec 23) :
    fld (x0 ++ x1 ++ x2 : W32) 10 3 = fld x2 10 3 :=
  (fld_append_lo _ _ 10 3 (by decide))
theorem w6_3_23_at_7_3 (x0 : BitVec 6) (x1 : BitVec 3) (x2 : BitVec 23) :
    fld (x0 ++ x1 ++ x2 : W32) 7 3 = fld x2 7 3 :=
  (fld_append_lo _ _ 7 3 (by decide))
theorem w6_3_23_at_5_5 (x0 : BitVec 6) (x1 : BitVec 3) (x2 : BitVec 23) :
    fld (x0 ++ x1 ++ x2 : W32) 5 5 = fld x2 5 5 :=
  (fld_append_lo _ _ 5 5 (by decide))
theorem w6_3_23_at_4_1 (x0 : BitVec 6) (x1 : BitVec 3) (x2 : BitVec 23) :
    fld (x0 ++ x1 ++ x2 : W32) 4 1 = fld x2 4 1 :=
  (fld_append_lo _ _ 4 1 (by decide))
theorem w6_3_23_at_4_3 (x0 : BitVec 6) (x1 : BitVec 3) (x2 : BitVec 23) :
    fld (x0 ++ x1 ++ x2 : W32) 4 3 = fld x2 4 3 :=
  (fld_append_lo _ _ 4 3 (by decide))
theorem w6_3_23_at_3_7 (x0 : BitVec 6) (x1 : BitVec 3) (x2 : BitVec 23) :
    fld (x0 ++ x1 ++ x2 : W32) 3 7 = fld x2 3 7 :=
  (fld_append_lo _ _ 3 7 (by decide))
theorem w6_3_23_at_0_3 (x0 : BitVec 6) (x1 : BitVec 3) (x2 : BitVec 23) :
    fld (x0 ++ x1 ++ x2 : W32) 0 3 = fld x2 0 3 :=
  (fld_append_lo _ _ 0 3 (by decide))
theorem w6_3_23_at_0_4 (x0 : BitVec 6) (x1 : BitVec 3) (x2 : BitVec 23) :
    fld (x0 ++ x1 ++ x2 : W32) 0 4 = fld x2 0 4 :=
  (fld_append_lo _ _ 0 4 (by decide))
theorem w6_3_23_at_0_10 (x0 : BitVec 6) (x1 : BitVec 3) (x2 : BitVec 23) :
    fld (x0 ++ x1 ++ x2 : W32) 0 10 = fld x2 0 10 :=
  (fld_append_lo _ _ 0 10 (by decide))
theorem w6_3_5_5_7_2_4_at_26_6 (x0 : BitVec 6) (x1 : BitVec 3) (x2 : BitVec 5) (x3 : BitVec 5) (x4 : BitVec 7) (x5 : BitVec 2) (x6 : BitVec 4) :
    fld (x0 ++ x1 ++ x2 ++ x3 ++ x4 ++ x5 ++ x6 : W32) 26 6 = x0 :=
  ((((((fld_append_hi _ _ 26 6 (by decide)).trans (fld_append_hi _ _ 22 6 (by decide))).trans (fld_append_hi _ _ 20 6 (by decide))).trans (fld_append_hi _ _ 13 6 (by decide))).trans (fld_append_hi _ _ 8 6 (by decide))).trans (fld_append_hi _ _ 3 6 (by decide))).trans (fld_all _)
theorem w6_3_5_5_7_2_4_at_23_3 (x0 : BitVec 6) (x1 : BitVec 3) (x2 : BitVec 5) (x3 : BitVec 5) (x4 : BitVec 7) (x5 : BitVec 2) (x6 : BitVec 4) :
    fld (x0 ++ x1 ++ x2 ++ x3 ++ x4 ++ x5 ++ x6 : W32) 23 3 = x1 :=
  ((((((fld_append_hi _ _ 23 3 (by decide)).trans (fld_append_hi _ _ 19 3 (by decide))).trans (fld_append_hi _ _ 17 3 (by decide))).trans (fld_append_hi _ _ 10 3 (by decide))).trans (fld_append_hi _ _ 5 3 (by decide))).trans (fld_append_lo _ _ 0 3 (by decide))).trans (fld_all _)
theorem w6_3_5_5_7_2_4_at_18_5 (x0 : BitVec 6) (x1 : BitVec 3) (x2 : BitVec 5) (x3 : BitVec 5) (x4 : BitVec 7) (x5 : BitVec 2) (x6 : BitVec 4) :
    fld (x0 ++ x1 ++ x2 ++ x3 ++ x4 ++ x5 ++ x6 : W32) 18 5 = x2 :=
  (((((fld_append_hi _ _ 18 5 (by decide)).trans (fld_append_hi _ _ 14 5 (by decide))).trans (fld_append_hi _ _ 12 5 (by decide))).trans (fld_append_hi _ _ 5 5 (by decide))).trans (fld_append_lo _ _ 0 5 (by decide))).trans (fld_all _)
theorem w6_3_5_5_7_2_4_at_13_5 (x0 : BitVec 6) (x1 : BitVec 3) (x2 : BitVec 5) (x3 : BitVec 5) (x4 : BitVec 7) (x5 : BitVec 2) (x6 : BitVec 4) :
    fld (x0 ++ x1 ++ x2 ++ x3 ++ x4 ++ x5 ++ x6 : W32) 13 5 = x3 :=
  ((((fld_append_hi _ _ 13 5 (by decide)).trans (fld_append_hi _ _ 9 5 (by decide))).trans (fld_append_hi _ _ 7 5 (by decide))).trans (fld_append_lo _ _ 0 5 (by decide))).trans (fld_all _)
theorem w6_3_5_5_7_2_4_at_8_5 (x0 : BitVec 6) (x1 : BitVec 3) (x2 : BitVec 5) (x3 : BitVec 5) (x4 : BitVec 7) (x5 : BitVec 2) (x6 : BitVec 4) :
    fld (x0 ++ x1 ++ x2 ++ x3 ++ x4 ++ x5 ++ x6 : W32) 8 5 = fld x4 2 5 :=
  ((fld_append_hi _ _ 8 5 (by decide)).trans (fld_append_hi _ _ 4 5 (by decide))).trans (fld_append_lo _ _ 2 5 (by decide))
theorem w6_3_5_5_7_2_4_at_6_2 (x0 : BitVec 6) (x1 : BitVec 3) (x2 : BitVec 5) (x3 : BitVec 5) (x4 : BitVec 7) (x5 : BitVec 2) (x6 : BitVec 4) :
    fld (x0 ++ x1 ++ x2 ++ x3 ++ x4 ++ x5 ++ x6 : W32) 6 2 = fld x4 0 2 :=
  ((fld_append_hi _ _ 6 2 (by decide)).trans (fld_append_hi _ _ 2 2 (by decide))).trans (fld_append_lo _ _ 0 2 (by decide))
theorem w6_3_5_5_7_2_4_at_6_7 (x0 : BitVec 6) (x1 : BitVec 3) (x2 : BitVec 5) (x3 : BitVec 5) (x4 : BitVec 7) (x5 : BitVec 2) (x6 : BitVec 4) :
    fld (x0 ++ x1 ++ x2 ++ x3 ++ x4 ++ x5 ++ x6 : W32) 6 7 = x4 :=
  (((fld_append_hi _ _ 6 7 (by decide)).trans (fld_append_hi _ _ 2 7 (by decide))).trans (fld_append_lo _ _ 0 7 (by decide))).trans (fld_all _)
theorem w6_3_5_5_7_2_4_at_5_1 (x0 : BitVec 6) (x1 : BitVec 3) (x2 : BitVec 5) (x3 : BitVec 5) (x4 : BitVec 7) (x5 : BitVec 2) (x6 : BitVec 4) :
    fld (x0 ++ x1 ++ x2 ++ x3 ++ x4 ++ x5 ++ x6 : W32) 5 1 = fld x5 1 1 :=
  (fld_append_hi _ _ 5 1 (by decide)).trans (fld_append_lo _ _ 1 1 (by decide))
theorem w6_3_5_5_7_2_4_at_4_1 (x0 : BitVec 6) (x1 : BitVec 3) (x2 : BitVec 5) (x3 : BitVec 5) (x4 : BitVec 7) (x5 : BitVec 2) (x6 : BitVec 4) :
    fld (x0 ++ x1 ++ x2 ++ x3 ++ x4 ++ x5 ++ x6 : W32) 4 1 = fld x5 0 1 :=
  (fld_append_hi _ _ 4 1 (by decide)).trans (fld_append_lo _ _ 0 1 (by decide))
theorem w6_3_5_5_7_2_4_at_4_2 (x0 : BitVec 6) (x1 : BitVec 3) (x2 : BitVec 5) (x3 : BitVec 5) (x4 : BitVec 7) (x5 : BitVec 2) (x6 : BitVec 4) :
    fld (x0 ++ x1 ++ x2 ++ x3 ++ x4 ++ x5 ++ x6 : W32) 4 2 = x5 :=
  ((fld_append_hi _ _ 4 2 (by decide)).trans (fld_append_lo _ _ 0 2 (by decide))).trans (fld_all _)
theorem w6_3_5_5_7_2_4_at_0_4 (x0 : BitVec 6) (x1 : BitVec 3) (x2 : BitVec 5) (x3 : BitVec 5) (x4 : BitVec 7) (x5 : BitVec 2) (x6 : BitVec 4) :
    fld (x0 ++ x1 ++ x2 ++ x3 ++ x4 ++ x5 ++ x6 : W32) 0 4 = x6 :=
  (fld_append_lo _ _ 0 4 (by decide)).trans (fld_all _)
theorem w6_3_5_5_5_3_5_at_26_6 (x0 : BitVec 6) (x1 : BitVec 3) (x2 : BitVec 5) (x3 : BitVec 5) (x4 : BitVec 5) (x5 : BitVec 3) (x6 : BitVec 5) :
    fld (x0 ++ x1 ++ x2 ++ x3 ++ x4 ++ x5 ++ x6 : W32) 26 6 = x0 :=
  ((((((fld_append_hi _ _ 26 6 (by decide)).trans (fld_append_hi _ _ 21 6 (by decide))).trans (fld_append_hi _ _ 18 6 (by decide))).trans (fld_append_hi _ _ 13 6 (by decide))).trans (fld_append_hi _ _ 8 6 (by decide))).trans (fld_append_hi _ _ 3 6 (by decide))).trans (fld_all _)
theorem w6_3_5_5_5_3_5_at_23_3 (x0 : BitVec 6) (x1 : BitVec 3) (x2 : BitVec 5) (x3 : BitVec 5) (x4 : BitVec 5) (x5 : BitVec 3) (x6 : BitVec 5) :
    fld (x0 ++ x1 ++ x2 ++ x3 ++ x4 ++ x5 ++ x6 : W32) 23 3 = x1 :=
  ((((((fld_append_hi _ _ 23 3 (by decide)).trans (fld_append_hi _ _ 18 3 (by decide))).trans (fld_append_hi _ _ 15 3 (by decide))).trans (fld_append_hi _ _ 10 3 (by decide))).trans (fld_append_hi _ _ 5 3 (by decide))).trans (fld_append_lo _ _ 0 3 (by decide))).trans (fld_all _)
theorem w6_3_5_5_5_3_5_at_18_5 (x0 : BitVec 6) (x1 : BitVec 3) (x2 : BitVec 5) (x3 : BitVec 5) (x4 : BitVec 5) (x5 : BitVec 3) (x6 : BitVec 5) :
    fld (x0 ++ x1 ++ x2 ++ x3 ++ x4 ++ x5 ++ x6 : W32) 18 5 = x2 :=
  (((((fld_append_hi _ _ 18 5 (by decide)).trans (fld_append_hi _ _ 13 5 (by decide))).trans (fld_append_hi _ _ 10 5 (by decide))).trans (fld_append_hi _ _ 5 5 (by decide))).trans (fld_append_lo _ _ 0 5 (by decide))).trans (fld_all _)
theorem w6_3_5_5_5_3_5_at_13_5 (x0 : BitVec 6) (x1 : BitVec 3) (x2 : BitVec 5) (x3 : BitVec 5) (x4 : BitVec 5) (x5 : BitVec 3) (x6 : BitVec 5) :
    fld (x0 ++ x1 ++ x2 ++ x3 ++ x4 ++ x5 ++ x6 : W32) 13 5 = x3 :=
  ((((fld_append_hi _ _ 13 5 (by decide)).trans (fld_append_hi _ _ 8 5 (by decide))).trans (fld_append_hi _ _ 5 5 (by decide))).trans (fld_append_lo _ _ 0 5 (by decide))).trans (fld_all _)
theorem w6_3_5_5_5_3_5_at_8_5 (x0 : BitVec 6) (x1 : BitVec 3) (x2 : BitVec 5) (x3 : BitVec 5) (x4 : BitVec 5) (x5 : BitVec 3) (x6 : BitVec 5) :
    fld (x0 ++ x1 ++ x2 ++ x3 ++ x4 ++ x5 ++ x6 : W32) 8 5 = x4 :=
  (((fld_append_hi _ _ 8 5 (by decide)).trans (fld_append_hi _ _ 3 5 (by decide))).trans (fld_append_lo _ _ 0 5 (by decide))).trans (fld_all _)
theorem w6_3_5_5_5_3_5_at_5_3 (x0 : BitVec 6) (x1 : BitVec 3) (x2 : BitVec 5) (x3 : BitVec 5) (x4 : BitVec 5) (x5 : BitVec 3) (x6 : BitVec 5) :
    fld (x0 ++ x1 ++ x2 ++ x3 ++ x4 ++ x5 ++ x6 : W32) 5 3 = x5 :=
  ((fld_append_hi _ _ 5 3 (by decide)).trans (fld_append_lo _ _ 0 3 (by decide))).trans (fld_all _)
theorem w6_3_5_5_5_3_5_at_3_2 (x0 : BitVec 6) (x1 : BitVec 3) (x2 : BitVec 5) (x3 : BitVec 5) (x4 : BitVec 5) (x5 : BitVec 3) (x6 : BitVec 5) :
    fld (x0 ++ x1 ++ x2 ++ x3 ++ x4 ++ x5 ++ x6 : W32) 3 2 = fld x6 3 2 :=
  (fld_append_lo _ _ 3 2 (by decide))
theorem w6_3_5_5_5_3_5_at_2_1 (x0 : BitVec 6) (x1 : BitVec 3) (x2 : BitVec 5) (x3 : BitVec 5) (x4 : BitVec 5) (x5 : BitVec 3) (x6 : BitVec 5) :
    fld (x0 ++ x1 ++ x2 ++ x3 ++ x4 ++ x5 ++ x6 : W32) 2 1 = fld x6 2 1 :=
  (fld_append_lo _ _ 2 1 (by decide))
theorem w6_3_5_5_5_3_5_at_2_3 (x0 : BitVec 6) (x1 : BitVec 3) (x2 : BitVec 5) (x3 : BitVec 5) (x4 : BitVec 5) (x5 : BitVec 3) (x6 : BitVec 5) :
    fld (x0 ++ x1 ++ x2 ++ x3 ++ x4 ++ x5 ++ x6 : W32) 2 3 = fld x6 2 3 :=
  (fld_append_lo _ _ 2 3 (by decide))
theorem w6_3_5_5_5_3_5_at_0_2 (x0 : BitVec 6) (x1 : BitVec 3) (x2 : BitVec 5) (x3 : BitVec 5) (x4 : BitVec 5) (x5 : BitVec 3) (x6 : BitVec 5) :
    fld (x0 ++ x1 ++ x2 ++ x3 ++ x4 ++ x5 ++ x6 : W32) 0 2 = fld x6 0 2 :=
  (fld_append_lo _ _ 0 2 (by decide))
theorem w6_3_5_5_5_3_5_at_0_5 (x0 : BitVec 6) (x1 : BitVec 3) (x2 : BitVec 5) (x3 : BitVec 5) (x4 : BitVec 5) (x5 : BitVec 3) (x6 : BitVec 5) :
    fld (x0 ++ x1 ++ x2 ++ x3 ++ x4 ++ x5 ++ x6 : W32) 0 5 = x6 :=
  (fld_append_lo _ _ 0 5 (by decide)).trans (fld_all _)
theorem w6_3_2_3_5_5_3_2_3_at_26_6 (x0 : BitVec 6) (x1 : BitVec 3) (x2 : BitVec 2) (x3 : BitVec 3) (x4 : BitVec 5) (x5 : BitVec 5) (x6 : BitVec 3) (x7 : BitVec 2) (x8 : BitVec 3) :
    fld (x0 ++ x1 ++ x2 ++ x3 ++ x4 ++ x5 ++ x6 ++ x7 ++ x8 : W32) 26 6 = x0 :=
  ((((((((fld_append_hi _ _ 26 6 (by decide)).trans (fld_append_hi _ _ 23 6 (by decide))).trans (fld_append_hi _ _ 21 6 (by decide))).trans (fld_append_hi _ _ 18 6 (by decide))).trans (fld_append_hi _ _ 13 6 (by decide))).trans (fld_append_hi _ _ 8 6 (by decide))).trans (fld_append_hi _ _ 5 6 (by decide))).trans (fld_append_hi _ _ 3 6 (by decide))).trans (fld_all _)
theorem w6_3_2_3_5_5_3_2_3_at_23_3 (x0 : BitVec 6) (x1 : BitVec 3) (x2 : BitVec 2) (x3 : BitVec 3) (x4 : BitVec 5) (x5 : BitVec 5) (x6 : BitVec 3) (x7 : BitVec 2) (x8 : BitVec 3) :
    fld (x0 ++ x1 ++ x2 ++ x3 ++ x4 ++ x5 ++ x6 ++ x7 ++ x8 : W32) 23 3 = x1 :=
  ((((((((fld_append_hi _ _ 23 3 (by decide)).trans (fld_append_hi _ _ 20 3 (by decide))).trans (fld_append_hi _ _ 18 3 (by decide))).trans (fld_append_hi _ _ 15 3 (by decide))).trans (fld_append_hi _ _ 10 3 (by decide))).trans (fld_append_hi _ _ 5 3 (by decide))).trans (fld_append_hi _ _ 2 3 (by decide))).trans (fld_append_lo _ _ 0 3 (by decide))).trans (fld_all _)
theorem w6_3_2_3_5_5_3_2_3_at_21_2 (x0 : BitVec 6) (x1 : BitVec 3) (x2 : BitVec 2) (x3 : BitVec 3) (x4 : BitVec 5) (x5 : BitVec 5) (x6 : BitVec 3) (x7 : BitVec 2) (x8 : BitVec 3) :
    fld (x0 ++ x1 ++ x2 ++ x3 ++ x4 ++ x5 ++ x6 ++ x7 ++ x8 : W32) 21 2 = x2 :=
  (((((((fld_append_hi _ _ 21 2 (by decide)).trans (fld_append_hi _ _ 18 2 (by decide))).trans (fld_append_hi _ _ 16 2 (by decide))).trans (fld_append_hi _ _ 13 2 (by decide))).trans (fld_append_hi _ _ 8 2 (by decide))).trans (fld_append_hi _ _ 3 2 (by decide))).trans (fld_append_lo _ _ 0 2 (by decide))).trans (fld_all _)
theorem w6_3_2_3_5_5_3_2_3_at_18_3 (x0 : BitVec 6) (x1 : BitVec 3) (x2 : BitVec 2) (x3 : BitVec 3) (x4 : BitVec 5) (x5 : BitVec 5) (x6 : BitVec 3) (x7 : BitVec 2) (x8 : BitVec 3) :
    fld (x0 ++ x1 ++ x2 ++ x3 ++ x4 ++ x5 ++ x6 ++ x7 ++ x8 : W32) 18 3 = x3 :=
  ((((((fld_append_hi _ _ 18 3 (by decide)).trans (fld_append_hi _ _ 15 3 (by decide))).trans (fld_append_hi _ _ 13 3 (by decide))).trans (fld_append_hi _ _ 10 3 (by decide))).trans (fld_append_hi _ _ 5 3 (by decide))).trans (fld_append_lo _ _ 0 3 (by decide))).trans (fld_all _)
theorem w6_3_2_3_5_5_3_2_3_at_13_5 (x0 : BitVec 6) (x1 : BitVec 3) (x2 : BitVec 2) (x3 : BitVec 3) (x4 : BitVec 5) (x5 : BitVec 5) (x6 : BitVec 3) (x7 : BitVec 2) (x8 : BitVec 3) :
    fld (x0 ++ x1 ++ x2 ++ x3 ++ x4 ++ x5 ++ x6 ++ x7 ++ x8 : W32) 13 5 = x4 :=
  (((((fld_append_hi _ _ 13 5 (by decide)).trans (fld_append_hi _ _ 10 5 (by decide))).trans (fld_append_hi _ _ 8 5 (by decide))).trans (fld_append_hi _ _ 5 5 (by decide))).trans (fld_append_lo _ _ 0 5 (by decide))).trans (fld_all _)
theorem w6_3_2_3_5_5_3_2_3_at_8_5 (x0 : BitVec 6) (x1 : BitVec 3) (x2 : BitVec 2) (x3 : BitVec 3) (x4 : BitVec 5) (x5 : BitVec 5) (x6 : BitVec 3) (x7 : BitVec 2) (x8 : BitVec 3) :
    fld (x0 ++ x1 ++ x2 ++ x3 ++ x4 ++ x5 ++ x6 ++ x7 ++ x8 : W32) 8 5 = x5 :=
  ((((fld_append_hi _ _ 8 5 (by decide)).trans (fld_append_hi _ _ 5 5 (by decide))).trans (fld_append_hi _ _ 3 5 (by decide))).trans (fld_append_lo _ _ 0 5 (by decide))).trans (fld_all _)
theorem w6_3_2_3_5_5_3_2_3_at_5_3 (x0 : BitVec 6) (x1 : BitVec 3) (x2 : BitVec 2) (x3 : BitVec 3) (x4 : BitVec 5) (x5 : BitVec 5) (x6 : BitVec 3) (x7 : BitVec 2) (x8 : BitVec 3) :
    fld (x0 ++ x1 ++ x2 ++ x3 ++ x4 ++ x5 ++ x6 ++ x7 ++ x8 : W32) 5 3 = x6 :=
  (((fld_append_hi _ _ 5 3 (by decide)).trans (fld_append_hi _ _ 2 3 (by decide))).trans (fld_append_lo _ _ 0 3 (by decide))).trans (fld_all _)
theorem w6_3_2_3_5_5_3_2_3_at_3_2 (x0 : BitVec 6) (x1 : BitVec 3) (x2 : BitVec 2) (x3 : BitVec 3) (x4 : BitVec 5) (x5 : BitVec 5) (x6 : BitVec 3) (x7 : BitVec 2) (x8 : BitVec 3) :
    fld (x0 ++ x1 ++ x2 ++ x3 ++ x4 ++ x5 ++ x6 ++ x7 ++ x8 : W32) 3 2 = x7 :=
  ((fld_append_hi _ _ 3 2 (by decide)).trans (fld_append_lo _ _ 0 2 (by decide))).trans (fld_all _)
theorem w6_3_2_3_5_5_3_2_3_at_0_3 (x0 : BitVec 6) (x1 : BitVec 3) (x2 : BitVec 2) (x3 : BitVec 3) (x4 : BitVec 5) (x5 : BitVec 5) (x6 : BitVec 3) (x7 : BitVec 2) (x8 : BitVec 3) :
    fld (x0 ++ x1 ++ x2 ++ x3 ++ x4 ++ x5 ++ x6 ++ x7 ++ x8 : W32) 0 3 = x8 :=
  (fld_append_lo _ _ 0 3 (by decide)).trans (fld_all _)
theorem w6_3_2_3_2_3_2_3_8_at_26_6 (x0 : BitVec 6) (x1 : BitVec 3) (x2 : BitVec 2) (x3 : BitVec 3) (x4 : BitVec 2) (x5 : BitVec 3) (x6 : BitVec 2) (x7 : BitVec 3) (x8 : BitVec 8) :
    fld (x0 ++ x1 ++ x2 ++ x3 ++ x4 ++ x5 ++ x6 ++ x7 ++ x8 : W32) 26 6 = x0 :=
  ((((((((fld_append_hi _ _ 26 6 (by decide)).trans (fld_append_hi _ _ 18 6 (by decide))).trans (fld_append_hi _ _ 15 6 (by decide))).trans (fld_append_hi _ _ 13 6 (by decide))).trans (fld_append_hi _ _ 10 6 (by decide))).trans (fld_append_hi _ _ 8 6 (by decide))).trans (fld_append_hi _ _ 5 6 (by decide))).trans (fld_append_hi _ _ 3 6 (by decide))).trans (fld_all _)
theorem w6_3_2_3_2_3_2_3_8_at_23_3 (x0 : BitVec 6) (x1 : BitVec 3) (x2 : BitVec 2) (x3 : BitVec 3) (x4 : BitVec 2) (x5 : BitVec 3) (x6 : BitVec 2) (x7 : BitVec 3) (x8 : BitVec 8) :
    fld (x0 ++ x1 ++ x2 ++ x3 ++ x4 ++ x5 ++ x6 ++ x7 ++ x8 : W32) 23 3 = x1 :=
  ((((((((fld_append_hi _ _ 23 3 (by decide)).trans (fld_append_hi _ _ 15 3 (by decide))).trans (fld_append_hi _ _ 12 3 (by decide))).trans (fld_append_hi _ _ 10 3 (by decide))).trans (fld_append_hi _ _ 7 3 (by decide))).trans (fld_append_hi _ _ 5 3 (by decide))).trans (fld_append_hi _ _ 2 3 (by decide))).trans (fld_append_lo _ _ 0 3 (by decide))).trans (fld_all _)
theorem w6_3_2_3_2_3_2_3_8_at_21_2 (x0 : BitVec 6) (x1 : BitVec 3) (x2 : BitVec 2) (x3 : BitVec 3) (x4 : BitVec 2) (x5 : BitVec 3) (x6 : BitVec 2) (x7 : BitVec 3) (x8 : BitVec 8) :
    fld (x0 ++ x1 ++ x2 ++ x3 ++ x4 ++ x5 ++ x6 ++ x7 ++ x8 : W32) 21 2 = x2 :=
  (((((((fld_append_hi _ _ 21 2 (by decide)).trans (fld_append_hi _ _ 13 2 (by decide))).trans (fld_append_hi _ _ 10 2 (by decide))).trans (fld_append_hi _ _ 8 2 (by decide))).trans (fld_append_hi _ _ 5 2 (by decide))).trans (fld_append_hi _ _ 3 2 (by decide))).trans (fld_append_lo _ _ 0 2 (by decide))).trans (fld_all _)
theorem w6_3_2_3_2_3_2_3_8_at_18_3 (x0 : BitVec 6) (x1 : BitVec 3) (x2 : BitVec 2) (x3 : BitVec 3) (x4 : BitVec 2) (x5 : BitVec 3) (x6 : BitVec 2) (x7 : BitVec 3) (x8 : BitVec 8) :
    fld (x0 ++ x1 ++ x2 ++ x3 ++ x4 ++ x5 ++ x6 ++ x7 ++ x8 : W32) 18 3 = x3 :=
  ((((((fld_append_hi _ _ 18 3 (by decide)).trans (fld_append_hi _ _ 10 3 (by decide))).trans (fld_append_hi _ _ 7 3 (by decide))).trans (fld_append_hi _ _ 5 3 (by decide))).trans (fld_append_hi _ _ 2 3 (by decide))).trans (fld_append_lo _ _ 0 3 (by decide))).trans (fld_all _)
theorem w6_3_2_3_2_3_2_3_8_at_16_2 (x0 : BitVec 6) (x1 : BitVec 3) (x2 : BitVec 2) (x3 : BitVec 3) (x4 : BitVec 2) (x5 : BitVec 3) (x6 : BitVec 2) (x7 : BitVec 3) (x8 : BitVec 8) :
    fld (x0 ++ x1 ++ x2 ++ x3 ++ x4 ++ x5 ++ x6 ++ x7 ++ x8 : W32) 16 2 = x4 :=
  (((((fld_append_hi _ _ 16 2 (by decide)).trans (fld_append_hi _ _ 8 2 (by decide))).trans (fld_append_hi _ _ 5 2 (by decide))).trans (fld_append_hi _ _ 3 2 (by decide))).trans (fld_append_lo _ _ 0 2 (by decide))).trans (fld_all _)
theorem w6_3_2_3_2_3_2_3_8_at_13_3 (x0 : BitVec 6) (x1 : BitVec 3) (x2 : BitVec 2) (x3 : BitVec 3) (x4 : BitVec 2) (x5 : BitVec 3) (x6 : BitVec 2) (x7 : BitVec 3) (x8 : BitVec 8) :
    fld (x0 ++ x1 ++ x2 ++ x3 ++ x4 ++ x5 ++ x6 ++ x7 ++ x8 : W32) 13 3 = x5 :=
  ((((fld_append_hi _ _ 13 3 (by decide)).trans (fld_append_hi _ _ 5 3 (by decide))).trans (fld_append_hi _ _ 2 3 (by decide))).trans (fld_append_lo _ _ 0 3 (by decide))).trans (fld_all _)
theorem w6_3_2_3_2_3_2_3_8_at_11_2 (x0 : BitVec 6) (x1 : BitVec 3) (x2 : BitVec 2) (x3 : BitVec 3) (x4 : BitVec 2) (x5 : BitVec 3) (x6 : BitVec 2) (x7 : BitVec 3) (x8 : BitVec 8) :
    fld (x0 ++ x1 ++ x2 ++ x3 ++ x4 ++ x5 ++ x6 ++ x7 ++ x8 : W32) 11 2 = x6 :=
  (((fld_append_hi _ _ 11 2 (by decide)).trans (fld_append_hi _ _ 3 2 (by decide))).trans (fld_append_lo _ _ 0 2 (by decide))).trans (fld_all _)
theorem w6_3_2_3_2_3_2_3_8_at_8_3 (x0 : BitVec 6) (x1 : BitVec 3) (x2 : BitVec 2) (x3 : BitVec 3) (x4 : BitVec 2) (x5 : BitVec 3) (x6 : BitVec 2) (x7 : BitVec 3) (x8 : BitVec 8) :
    fld (x0 ++ x1 ++ x2 ++ x3 ++ x4 ++ x5 ++ x6 ++ x7 ++ x8 : W32) 8 3 = x7 :=
  ((fld_append_hi _ _ 8 3 (by decide)).trans (fld_append_lo _ _ 0 3 (by decide))).trans (fld_all _)
theorem w6_3_2_3_2_3_2_3_8_at_5_3 (x0 : BitVec 6) (x1 : BitVec 3) (x2 : BitVec 2) (x3 : BitVec 3) (x4 : BitVec 2) (x5 : BitVec 3) (x6 : BitVec 2) (x7 : BitVec 3) (x8 : BitVec 8) :
    fld (x0 ++ x1 ++ x2 ++ x3 ++ x4 ++ x5 ++ x6 ++ x7 ++ x8 : W32) 5 3 = fld x8 5 3 :=
  (fld_append_lo _ _ 5 3 (by decide))
theorem w6_3_2_3_2_3_2_3_8_at_0_5 (x0 : BitVec 6) (x1 : BitVec 3) (x2 : BitVec 2) (x3 : BitVec 3) (x4 : BitVec 2) (x5 : BitVec 3) (x6 : BitVec 2) (x7 : BitVec 3) (x8 : BitVec 8) :
    fld (x0 ++ x1 ++ x2 ++ x3 ++ x4 ++ x5 ++ x6 ++ x7 ++ x8 : W32) 0 5 = fld x8 0 5 :=
  (fld_append_lo _ _ 0 5 (by decide))
theorem w6_3_2_3_2_3_13_at_26_6 (x0 : BitVec 6) (x1 : BitVec 3) (x2 : BitVec 2) (x3 : BitVec 3) (x4 : BitVec 2) (x5 : BitVec 3) (x6 : BitVec 13) :
    fld (x0 ++ x1 ++ x2 ++ x3 ++ x4 ++ x5 ++ x6 : W32) 26 6 = x0 :=
  ((((((fld_append_hi _ _ 26 6 (by decide)).trans (fld_append_hi _ _ 13 6 (by decide))).trans (fld_append_hi _ _ 10 6 (by decide))).trans (fld_append_hi _ _ 8 6 (by decide))).trans (fld_append_hi _ _ 5 6 (by decide))).trans (fld_append_hi _ _ 3 6 (by decide))).trans (fld_all _)
theorem w6_3_2_3_2_3_13_at_23_3 (x0 : BitVec 6) (x1 : BitVec 3) (x2 : BitVec 2) (x3 : BitVec 3) (x4 : BitVec 2) (x5 : BitVec 3) (x6 : BitVec 13) :
    fld (x0 ++ x1 ++ x2 ++ x3 ++ x4 ++ x5 ++ x6 : W32) 23 3 = x1 :=
  ((((((fld_append_hi _ _ 23 3 (by decide)).trans (fld_append_hi _ _ 10 3 (by decide))).trans (fld_append_hi _ _ 7 3 (by decide))).trans (fld_append_hi _ _ 5 3 (by decide))).trans (fld_append_hi _ _ 2 3 (by decide))).trans (fld_append_lo _ _ 0 3 (by decide))).trans (fld_all _)
theorem w6_3_2_3_2_3_13_at_21_2 (x0 : BitVec 6) (x1 : BitVec 3) (x2 : BitVec 2) (x3 : BitVec 3) (x4 : BitVec 2) (x5 : BitVec 3) (x6 : BitVec 13) :
    fld (x0 ++ x1 ++ x2 ++ x3 ++ x4 ++ x5 ++ x6 : W32) 21 2 = x2 :=
  (((((fld_append_hi _ _ 21 2 (by decide)).trans (fld_append_hi _ _ 8 2 (by decide))).trans (fld_append_hi _ _ 5 2 (by decide))).trans (fld_append_hi _ _ 3 2 (by decide))).trans (fld_append_lo _ _ 0 2 (by decide))).trans (fld_all _)
theorem w6_3_2_3_2_3_13_at_18_3 (x0 : BitVec 6) (x1 : BitVec 3) (x2 : BitVec 2) (x3 : BitVec 3) (x4 : BitVec 2) (x5 : BitVec 3) (x6 : BitVec 13) :
    fld (x0 ++ x1 ++ x2 ++ x3 ++ x4 ++ x5 ++ x6 : W32) 18 3 = x3 :=
  ((((fld_append_hi _ _ 18 3 (by decide)).trans (fld_append_hi _ _ 5 3 (by decide))).trans (fld_append_hi _ _ 2 3 (by decide))).trans (fld_append_lo _ _ 0 3 (by decide))).trans (fld_all _)
theorem w6_3_2_3_2_3_13_at_16_2 (x0 : BitVec 6) (x1 : BitVec 3) (x2 : BitVec 2) (x3 : BitVec 3) (x4 : BitVec 2) (x5 : BitVec 3) (x6 : BitVec 13) :
    fld (x0 ++ x1 ++ x2 ++ x3 ++ x4 ++ x5 ++ x6 : W32) 16 2 = x4 :=
  (((fld_append_hi _ _ 16 2 (by decide)).trans (fld_append_hi _ _ 3 2 (by decide))).trans (fld_append_lo _ _ 0 2 (by decide))).trans (fld_all _)
theorem w6_3_2_3_2_3_13_at_13_3 (x0 : BitVec 6) (x1 : BitVec 3) (x2 : BitVec 2) (x3 : BitVec 3) (x4 : BitVec 2) (x5 : BitVec 3) (x6 : BitVec 13) :
    fld (x0 ++ x1 ++ x2 ++ x3 ++ x4 ++ x5 ++ x6 : W32) 13 3 = x5 :=
  ((fld_append_hi _ _ 13 3 (by decide)).trans (fld_append_lo _ _ 0 3 (by decide))).trans (fld_all _)
theorem w6_3_2_3_2_3_13_at_11_2 (x0 : BitVec 6) (x1 : BitVec 3) (x2 : BitVec 2) (x3 : BitVec 3) (x4 : BitVec 2) (x5 : BitVec 3) (x6 : BitVec 13) :
    fld (x0 ++ x1 ++ x2 ++ x3 ++ x4 ++ x5 ++ x6 : W32) 11 2 = fld x6 11 2 :=
  (fld_append_lo _ _ 11 2 (by decide))
theorem w6_3_2_3_2_3_13_at_8_3 (x0 : BitVec 6) (x1 : BitVec 3) (x2 : BitVec 2) (x3 : BitVec 3) (x4 : BitVec 2) (x5 : BitVec 3) (x6 : BitVec 13) :
    fld (x0 ++ x1 ++ x2 ++ x3 ++ x4 ++ x5 ++ x6 : W32) 8 3 = fld x6 8 3 :=
  (fld_append_lo _ _ 8 3 (by decide))
theorem w6_3_2_3_2_3_13_at_5_3 (x0 : BitVec 6) (x1 : BitVec 3) (x2 : BitVec 2) (x3 : BitVec 3) (x4 : BitVec 2) (x5 : BitVec 3) (x6 : BitVec 13) :
    fld (x0 ++ x1 ++ x2 ++ x3 ++ x4 ++ x5 ++ x6 : W32) 5 3 = fld x6 5 3 :=
  (fld_append_lo _ _ 5 3 (by decide))
theorem w6_3_2_3_2_3_13_at_0_5 (x0 : BitVec 6) (x1 : BitVec 3) (x2 : BitVec 2) (x3 : BitVec 3) (x4 : BitVec 2) (x5 : BitVec 3) (x6 : BitVec 13) :
    fld (x0 ++ x1 ++ x2 ++ x3 ++ x4 ++ x5 ++ x6 : W32) 0 5 = fld x6 0 5 :=
  (fld_append_lo _ _ 0 5 (by decide))
theorem w6_3_5_2_3_5_3_5_at_26_6 (x0 : BitVec 6) (x1 : BitVec 3) (x2 : BitVec 5) (x3 : BitVec 2) (x4 : BitVec 3) (x5 : BitVec 5) (x6 : BitVec 3) (x7 : BitVec 5) :
    fld (x0 ++ x1 ++ x2 ++ x3 ++ x4 ++ x5 ++ x6 ++ x7 : W32) 26 6 = x0 :=
  (((((((fld_append_hi _ _ 26 6 (by decide)).trans (fld_append_hi _ _ 21 6 (by decide))).trans (fld_append_hi _ _ 18 6 (by decide))).trans (fld_append_hi _ _ 13 6 (by decide))).trans (fld_append_hi _ _ 10 6 (by decide))).trans (fld_append_hi _ _ 8 6 (by decide))).trans (fld_append_hi _ _ 3 6 (by decide))).trans (fld_all _)
theorem w6_3_5_2_3_5_3_5_at_23_3 (x0 : BitVec 6) (x1 : BitVec 3) (x2 : BitVec 5) (x3 : BitVec 2) (x4 : BitVec 3) (x5 : BitVec 5) (x6 : BitVec 3) (x7 : BitVec 5) :
    fld (x0 ++ x1 ++ x2 ++ x3 ++ x4 ++ x5 ++ x6 ++ x7 : W32) 23 3 = x1 :=
  (((((((fld_append_hi _ _ 23 3 (by decide)).trans (fld_append_hi _ _ 18 3 (by decide))).trans (fld_append_hi _ _ 15 3 (by decide))).trans (fld_append_hi _ _ 10 3 (by decide))).trans (fld_append_hi _ _ 7 3 (by decide))).trans (fld_append_hi _ _ 5 3 (by decide))).trans (fld_append_lo _ _ 0 3 (by decide))).trans (fld_all _)
theorem w6_3_5_2_3_5_3_5_at_21_2 (x0 : BitVec 6) (x1 : BitVec 3) (x2 : BitVec 5) (x3 : BitVec 2) (x4 : BitVec 3) (x5 : BitVec 5) (x6 : BitVec 3) (x7 : BitVec 5) :
    fld (x0 ++ x1 ++ x2 ++ x3 ++ x4 ++ x5 ++ x6 ++ x7 : W32) 21 2 = fld x2 3 2 :=
  (((((fld_append_hi _ _ 21 2 (by decide)).trans (fld_append_hi _ _ 16 2 (by decide))).trans (fld_append_hi _ _ 13 2 (by decide))).trans (fld_append_hi _ _ 8 2 (by decide))).trans (fld_append_hi _ _ 5 2 (by decide))).trans (fld_append_lo _ _ 3 2 (by decide))
theorem w6_3_5_2_3_5_3_5_at_18_3 (x0 : BitVec 6) (x1 : BitVec 3) (x2 : BitVec 5) (x3 : BitVec 2) (x4 : BitVec 3) (x5 : BitVec 5) (x6 : BitVec 3) (x7 : BitVec 5) :
    fld (x0 ++ x1 ++ x2 ++ x3 ++ x4 ++ x5 ++ x6 ++ x7 : W32) 18 3 = fld x2 0 3 :=
  (((((fld_append_hi _ _ 18 3 (by decide)).trans (fld_append_hi _ _ 13 3 (by decide))).trans (fld_append_hi _ _ 10 3 (by decide))).trans (fld_append_hi _ _ 5 3 (by decide))).trans (fld_append_hi _ _ 2 3 (by decide))).trans (fld_append_lo _ _ 0 3 (by decide))
theorem w6_3_5_2_3_5_3_5_at_18_5 (x0 : BitVec 6) (x1 : BitVec 3) (x2 : BitVec 5) (x3 : BitVec 2) (x4 : BitVec 3) (x5 : BitVec 5) (x6 : BitVec 3) (x7 : BitVec 5) :
    fld (x0 ++ x1 ++ x2 ++ x3 ++ x4 ++ x5 ++ x6 ++ x7 : W32) 18 5 = x2 :=
  ((((((fld_append_hi _ _ 18 5 (by decide)).trans (fld_append_hi _ _ 13 5 (by decide))).trans (fld_append_hi _ _ 10 5 (by decide))).trans (fld_append_hi _ _ 5 5 (by decide))).trans (fld_append_hi _ _ 2 5 (by decide))).trans (fld_append_lo _ _ 0 5 (by decide))).trans (fld_all _)
theorem w6_3_5_2_3_5_3_5_at_16_2 (x0 : BitVec 6) (x1 : BitVec 3) (x2 : BitVec 5) (x3 : BitVec 2) (x4 : BitVec 3) (x5 : BitVec 5) (x6 : BitVec 3) (x7 : BitVec 5) :
    fld (x0 ++ x1 ++ x2 ++ x3 ++ x4 ++ x5 ++ x6 ++ x7 : W32) 16 2 = x3 :=
  (((((fld_append_hi _ _ 16 2 (by decide)).trans (fld_append_hi _ _ 11 2 (by decide))).trans (fld_append_hi _ _ 8 2 (by decide))).trans (fld_append_hi _ _ 3 2 (by decide))).trans (fld_append_lo _ _ 0 2 (by decide))).trans (fld_all _)
theorem w6_3_5_2_3_5_3_5_at_13_3 (x0 : BitVec 6) (x1 : BitVec 3) (x2 : BitVec 5) (x3 : BitVec 2) (x4 : BitVec 3) (x5 : BitVec 5) (x6 : BitVec 3) (x7 : BitVec 5) :
    fld (x0 ++ x1 ++ x2 ++ x3 ++ x4 ++ x5 ++ x6 ++ x7 : W32) 13 3 = x4 :=
  ((((fld_append_hi _ _ 13 3 (by decide)).trans (fld_append_hi _ _ 8 3 (by decide))).trans (fld_append_hi _ _ 5 3 (by decide))).trans (fld_append_lo _ _ 0 3 (by decide))).trans (fld_all _)
theorem w6_3_5_2_3_5_3_5_at_11_2 (x0 : BitVec 6) (x1 : BitVec 3) (x2 : BitVec 5) (x3 : BitVec 2) (x4 : BitVec 3) (x5 : BitVec 5) (x6 : BitVec 3) (x7 : BitVec 5) :
    fld (x0 ++ x1 ++ x2 ++ x3 ++ x4 ++ x5 ++ x6 ++ x7 : W32) 11 2 = fld x5 3 2 :=
  ((fld_append_hi _ _ 11 2 (by decide)).trans (fld_append_hi _ _ 6 2 (by decide))).trans (fld_append_lo _ _ 3 2 (by decide))
theorem w6_3_5_2_3_5_3_5_at_8_3 (x0 : BitVec 6) (x1 : BitVec 3) (x2 : BitVec 5) (x3 : BitVec 2) (x4 : BitVec 3) (x5 : BitVec 5) (x6 : BitVec 3) (x7 : BitVec 5) :
    fld (x0 ++ x1 ++ x2 ++ x3 ++ x4 ++ x5 ++ x6 ++ x7 : W32) 8 3 = fld x5 0 3 :=
  ((fld_append_hi _ _ 8 3 (by decide)).trans (fld_append_hi _ _ 3 3 (by decide))).trans (fld_append_lo _ _ 0 3 (by decide))
theorem w6_3_5_2_3_5_3_5_at_5_3 (x0 : BitVec 6) (x1 : BitVec 3) (x2 : BitVec 5) (x3 : BitVec 2) (x4 : BitVec 3) (x5 : BitVec 5) (x6 : BitVec 3) (x7 : BitVec 5) :
    fld (x0 ++ x1 ++ x2 ++ x3 ++ x4 ++ x5 ++ x6 ++ x7 : W32) 5 3 = x6 :=
  ((fld_append_hi _ _ 5 3 (by decide)).trans (fld_append_lo _ _ 0 3 (by decide))).trans (fld_all _)
theorem w6_3_5_2_3_5_3_5_at_0_5 (x0 : BitVec 6) (x1 : BitVec 3) (x2 : BitVec 5) (x3 : BitVec 2) (x4 : BitVec 3) (x5 : BitVec 5) (x6 : BitVec 3) (x7 : BitVec 5) :
    fld (x0 ++ x1 ++ x2 ++ x3 ++ x4 ++ x5 ++ x6 ++ x7 : W32) 0 5 = x7 :=
  (fld_append_lo _ _ 0 5 (by decide)).trans (fld_all _)
theorem w6_3_2_3_5_13_at_26_6 (x0 : BitVec 6) (x1 : BitVec 3) (x2 : BitVec 2) (x3 : BitVec 3) (x4 : BitVec 5) (x5 : BitVec 13) :
    fld (x0 ++ x1 ++ x2 ++ x3 ++ x4 ++ x5 : W32) 26 6 = x0 :=
  (((((fld_append_hi _ _ 26 6 (by decide)).trans (fld_append_hi _ _ 13 6 (by decide))).trans (fld_append_hi _ _ 8 6 (by decide))).trans (fld_append_hi _ _ 5 6 (by decide))).trans (fld_append_hi _ _ 3 6 (by decide))).trans (fld_all _)
theorem w6_3_2_3_5_13_at_23_3 (x0 : BitVec 6) (x1 : BitVec 3) (x2 : BitVec 2) (x3 : BitVec 3) (x4 : BitVec 5) (x5 : BitVec 13) :
    fld (x0 ++ x1 ++ x2 ++ x3 ++ x4 ++ x5 : W32) 23 3 = x1 :=
  (((((fld_append_hi _ _ 23 3 (by decide)).trans (fld_append_hi _ _ 10 3 (by decide))).trans (fld_append_hi _ _ 5 3 (by decide))).trans (fld_append_hi _ _ 2 3 (by decide))).trans (fld_append_lo _ _ 0 3 (by decide))).trans (fld_all _)
theorem w6_3_2_3_5_13_at_21_2 (x0 : BitVec 6) (x1 : BitVec 3) (x2 : BitVec 2) (x3 : BitVec 3) (x4 : BitVec 5) (x5 : BitVec 13) :
    fld (x0 ++ x1 ++ x2 ++ x3 ++ x4 ++ x5 : W32) 21 2 = x2 :=
  ((((fld_append_hi _ _ 21 2 (by decide)).trans (fld_append_hi _ _ 8 2 (by decide))).trans (fld_append_hi _ _ 3 2 (by decide))).trans (fld_append_lo _ _ 0 2 (by decide))).trans (fld_all _)
theorem w6_3_2_3_5_13_at_18_3 (x0 : BitVec 6) (x1 : BitVec 3) (x2 : BitVec 2) (x3 : BitVec 3) (x4 : BitVec 5) (x5 : BitVec 13) :
    fld (x0 ++ x1 ++ x2 ++ x3 ++ x4 ++ x5 : W32) 18 3 = x3 :=
  (((fld_append_hi _ _ 18 3 (by decide)).trans (fld_append_hi _ _ 5 3 (by decide))).trans (fld_append_lo _ _ 0 3 (by decide))).trans (fld_all _)
theorem w6_3_2_3_5_13_at_16_2 (x0 : BitVec 6) (x1 : BitVec 3) (x2 : BitVec 2) (x3 : BitVec 3) (x4 : BitVec 5) (x5 : BitVec 13) :
    fld (x0 ++ x1 ++ x2 ++ x3 ++ x4 ++ x5 : W32) 16 2 = fld x4 3 2 :=
  (fld_append_hi _ _ 16 2 (by decide)).trans (fld_append_lo _ _ 3 2 (by decide))
theorem w6_3_2_3_5_13_at_13_3 (x0 : BitVec 6) (x1 : BitVec 3) (x2 : BitVec 2) (x3 : BitVec 3) (x4 : BitVec 5) (x5 : BitVec 13) :
    fld (x0 ++ x1 ++ x2 ++ x3 ++ x4 ++ x5 : W32) 13 3 = fld x4 0 3 :=
  (fld_append_hi _ _ 13 3 (by decide)).trans (fld_append_lo _ _ 0 3 (by decide))
theorem w6_3_2_3_5_13_at_13_5 (x0 : BitVec 6) (x1 : BitVec 3) (x2 : BitVec 2) (x3 : BitVec 3) (x4 : BitVec 5) (x5 : BitVec 13) :
    fld (x0 ++ x1 ++ x2 ++ x3 ++ x4 ++ x5 : W32) 13 5 = x4 :=
  ((fld_append_hi _ _ 13 5 (by decide)).trans (fld_append_lo _ _ 0 5 (by decide))).trans (fld_all _)
theorem w6_3_2_3_5_13_at_11_2 (x0 : BitVec 6) (x1 : BitVec 3) (x2 : BitVec 2) (x3 : BitVec 3) (x4 : BitVec 5) (x5 : BitVec 13) :
    fld (x0 ++ x1 ++ x2 ++ x3 ++ x4 ++ x5 : W32) 11 2 = fld x5 11 2 :=
  (fld_append_lo _ _ 11 2 (by decide))
theorem w6_3_2_3_5_13_at_8_3 (x0 : BitVec 6) (x1 : BitVec 3) (x2 : BitVec 2) (x3 : BitVec 3) (x4 : BitVec 5) (x5 : BitVec 13) :
    fld (x0 ++ x1 ++ x2 ++ x3 ++ x4 ++ x5 : W32) 8 3 = fld x5 8 3 :=
  (fld_append_lo _ _ 8 3 (by decide))
theorem w6_3_2_3_5_13_at_5_3 (x0 : BitVec 6) (x1 : BitVec 3) (x2 : BitVec 2) (x3 : BitVec 3) (x4 : BitVec 5) (x5 : BitVec 13) :
    fld (x0 ++ x1 ++ x2 ++ x3 ++ x4 ++ x5 : W32) 5 3 = fld x5 5 3 :=
  (fld_append_lo _ _ 5 3 (by decide))
theorem w6_3_2_3_5_13_at_0_5 (x0 : BitVec 6) (x1 : BitVec 3) (x2 : BitVec 2) (x3 : BitVec 3) (x4 : BitVec 5) (x5 : BitVec 13) :
    fld (x0 ++ x1 ++ x2 ++ x3 ++ x4 ++ x5 : W32) 0 5 = fld x5 0 5 :=
  (fld_append_lo _ _ 0 5 (by decide))
theorem w6_3_5_5_5_3_1_4_at_26_6 (x0 : BitVec 6) (x1 : BitVec 3) (x2 : BitVec 5) (x3 : BitVec 5) (x4 : BitVec 5) (x5 : BitVec 3) (x6 : BitVec 1) (x7 : BitVec 4) :
    fld (x0 ++ x1 ++ x2 ++ x3 ++ x4 ++ x5 ++ x6 ++ x7 : W32) 26 6 = x0 :=
  (((((((fld_append_hi _ _ 26 6 (by decide)).trans (fld_append_hi _ _ 22 6 (by decide))).trans (fld_append_hi _ _ 21 6 (by decide))).trans (fld_append_hi _ _ 18 6 (by decide))).trans (fld_append_hi _ _ 13 6 (by decide))).trans (fld_append_hi _ _ 8 6 (by decide))).trans (fld_append_hi _ _ 3 6 (by decide))).trans (fld_all _)
theorem w6_3_5_5_5_3_1_4_at_23_3 (x0 : BitVec 6) (x1 : BitVec 3) (x2 : BitVec 5) (x3 : BitVec 5) (x4 : BitVec 5) (x5 : BitVec 3) (x6 : BitVec 1) (x7 : BitVec 4) :
    fld (x0 ++ x1 ++ x2 ++ x3 ++ x4 ++ x5 ++ x6 ++ x7 : W32) 23 3 = x1 :=
  (((((((fld_append_hi _ _ 23 3 (by decide)).trans (fld_append_hi _ _ 19 3 (by decide))).trans (fld_append_hi _ _ 18 3 (by decide))).trans (fld_append_hi _ _ 15 3 (by decide))).trans (fld_append_hi _ _ 10 3 (by decide))).trans (fld_append_hi _ _ 5 3 (by decide))).trans (fld_append_lo _ _ 0 3 (by decide))).trans (fld_all _)
theorem w6_3_5_5_5_3_1_4_at_18_5 (x0 : BitVec 6) (x1 : BitVec 3) (x2 : BitVec 5) (x3 : BitVec 5) (x4 : BitVec 5) (x5 : BitVec 3) (x6 : BitVec 1) (x7 : BitVec 4) :
    fld (x0 ++ x1 ++ x2 ++ x3 ++ x4 ++ x5 ++ x6 ++ x7 : W32) 18 5 = x2 :=
  ((((((fld_append_hi _ _ 18 5 (by decide)).trans (fld_append_hi _ _ 14 5 (by decide))).trans (fld_append_hi _ _ 13 5 (by decide))).trans (fld_append_hi _ _ 10 5 (by decide))).trans (fld_append_hi _ _ 5 5 (by decide))).trans (fld_append_lo _ _ 0 5 (by decide))).trans (fld_all _)
theorem w6_3_5_5_5_3_1_4_at_13_5 (x0 : BitVec 6) (x1 : BitVec 3) (x2 : BitVec 5) (x3 : BitVec 5) (x4 : BitVec 5) (x5 : BitVec 3) (x6 : BitVec 1) (x7 : BitVec 4) :
    fld (x0 ++ x1 ++ x2 ++ x3 ++ x4 ++ x5 ++ x6 ++ x7 : W32) 13 5 = x3 :=
  (((((fld_append_hi _ _ 13 5 (by decide)).trans (fld_append_hi _ _ 9 5 (by decide))).trans (fld_append_hi _ _ 8 5 (by decide))).trans (fld_append_hi _ _ 5 5 (by decide))).trans (fld_append_lo _ _ 0 5 (by decide))).trans (fld_all _)
theorem w6_3_5_5_5_3_1_4_at_8_5 (x0 : BitVec 6) (x1 : BitVec 3) (x2 : BitVec 5) (x3 : BitVec 5) (x4 : BitVec 5) (x5 : BitVec 3) (x6 : BitVec 1) (x7 : BitVec 4) :
    fld (x0 ++ x1 ++ x2 ++ x3 ++ x4 ++ x5 ++ x6 ++ x7 : W32) 8 5 = x4 :=
  ((((fld_append_hi _ _ 8 5 (by decide)).trans (fld_append_hi _ _ 4 5 (by decide))).trans (fld_append_hi _ _ 3 5 (by decide))).trans (fld_append_lo _ _ 0 5 (by decide))).trans (fld_all _)
theorem w6_3_5_5_5_3_1_4_at_5_3 (x0 : BitVec 6) (x1 : BitVec 3) (x2 : BitVec 5) (x3 : BitVec 5) (x4 : BitVec 5) (x5 : BitVec 3) (x6 : BitVec 1) (x7 : BitVec 4) :
    fld (x0 ++ x1 ++ x2 ++ x3 ++ x4 ++ x5 ++ x6 ++ x7 : W32) 5 3 = x5 :=
  (((fld_append_hi _ _ 5 3 (by decide)).trans (fld_append_hi _ _ 1 3 (by decide))).trans (fld_append_lo _ _ 0 3 (by decide))).trans (fld_all _)
theorem w6_3_5_5_5_3_1_4_at_4_1 (x0 : BitVec 6) (x1 : BitVec 3) (x2 : BitVec 5) (x3 : BitVec 5) (x4 : BitVec 5) (x5 : BitVec 3) (x6 : BitVec 1) (x7 : BitVec 4) :
    fld (x0 ++ x1 ++ x2 ++ x3 ++ x4 ++ x5 ++ x6 ++ x7 : W32) 4 1 = x6 :=
  ((fld_append_hi _ _ 4 1 (by decide)).trans (fld_append_lo _ _ 0 1 (by decide))).trans (fld_all _)
theorem w6_3_5_5_5_3_1_4_at_0_4 (x0 : BitVec 6) (x1 : BitVec 3) (x2 : BitVec 5) (x3 : BitVec 5) (x4 : BitVec 5) (x5 : BitVec 3) (x6 : BitVec 1) (x7 : BitVec 4) :
    fld (x0 ++ x1 ++ x2 ++ x3 ++ x4 ++ x5 ++ x6 ++ x7 : W32) 0 4 = x7 :=
  (fld_append_lo _ _ 0 4 (by decide)).trans (fld_all _)
theorem w6_3_5_10_3_5_at_26_6 (x0 : BitVec 6) (x1 : BitVec 3) (x2 : BitVec 5) (x3 : BitVec 10) (x4 : BitVec 3) (x5 : BitVec 5) :
    fld (x0 ++ x1 ++ x2 ++ x3 ++ x4 ++ x5 : W32) 26 6 = x0 :=
  (((((fld_append_hi _ _ 26 6 (by decide)).trans (fld_append_hi _ _ 21 6 (by decide))).trans (fld_append_hi _ _ 18 6 (by decide))).trans (fld_append_hi _ _ 8 6 (by decide))).trans (fld_append_hi _ _ 3 6 (by decide))).trans (fld_all _)
theorem w6_3_5_10_3_5_at_23_3 (x0 : BitVec 6) (x1 : BitVec 3) (x2 : BitVec 5) (x3 : BitVec 10) (x4 : BitVec 3) (x5 : BitVec 5) :
    fld (x0 ++ x1 ++ x2 ++ x3 ++ x4 ++ x5 : W32) 23 3 = x1 :=
  (((((fld_append_hi _ _ 23 3 (by decide)).trans (fld_append_hi _ _ 18 3 (by decide))).trans (fld_append_hi _ _ 15 3 (by decide))).trans (fld_append_hi _ _ 5 3 (by decide))).trans (fld_append_lo _ _ 0 3 (by decide))).trans (fld_all _)
theorem w6_3_5_10_3_5_at_18_5 (x0 : BitVec 6) (x1 : BitVec 3) (x2 : BitVec 5) (x3 : BitVec 10) (x4 : BitVec 3) (x5 : BitVec 5) :
    fld (x0 ++ x1 ++ x2 ++ x3 ++ x4 ++ x5 : W32) 18 5 = x2 :=
  ((((fld_append_hi _ _ 18 5 (by decide)).trans (fld_append_hi _ _ 13 5 (by decide))).trans (fld_append_hi _ _ 10 5 (by decide))).trans (fld_append_lo _ _ 0 5 (by decide))).trans (fld_all _)
theorem w6_3_5_10_3_5_at_13_5 (x0 : BitVec 6) (x1 : BitVec 3) (x2 : BitVec 5) (x3 : BitVec 10) (x4 : BitVec 3) (x5 : BitVec 5) :
    fld (x0 ++ x1 ++ x2 ++ x3 ++ x4 ++ x5 : W32) 13 5 = fld x3 5 5 :=
  ((fld_append_hi _ _ 13 5 (by decide)).trans (fld_append_hi _ _ 8 5 (by decide))).trans (fld_append_lo _ _ 5 5 (by decide))
theorem w6_3_5_10_3_5_at_8_5 (x0 : BitVec 6) (x1 : BitVec 3) (x2 : BitVec 5) (x3 : BitVec 10) (x4 : BitVec 3) (x5 : BitVec 5) :
    fld (x0 ++ x1 ++ x2 ++ x3 ++ x4 ++ x5 : W32) 8 5 = fld x3 0 5 :=
  ((fld_append_hi _ _ 8 5 (by decide)).trans (fld_append_hi _ _ 3 5 (by decide))).trans (fld_append_lo _ _ 0 5 (by decide))
theorem w6_3_5_10_3_5_at_5_3 (x0 : BitVec 6) (x1 : BitVec 3) (x2 : BitVec 5) (x3 : BitVec 10) (x4 : BitVec 3) (x5 : BitVec 5) :
    fld (x0 ++ x1 ++ x2 ++ x3 ++ x4 ++ x5 : W32) 5 3 = x4 :=
  ((fld_append_hi _ _ 5 3 (by decide)).trans (fld_append_lo _ _ 0 3 (by decide))).trans (fld_all _)
theorem w6_3_5_10_3_5_at_0_5 (x0 : BitVec 6) (x1 : BitVec 3) (x2 : BitVec 5) (x3 : BitVec 10) (x4 : BitVec 3) (x5 : BitVec 5) :
    fld (x0 ++ x1 ++ x2 ++ x3 ++ x4 ++ x5 : W32) 0 5 = x5 :=
  (fld_append_lo _ _ 0 5 (by decide)).trans (fld_all _)
theorem w6_3_5_5_5_3_2_1_2_at_26_6 (x0 : BitVec 6) (x1 : BitVec 3) (x2 : BitVec 5) (x3 : BitVec 5) (x4 : BitVec 5) (x5 : BitVec 3) (x6 : BitVec 2) (x7 : BitVec 1) (x8 : BitVec 2) :
    fld (x0 ++ x1 ++ x2 ++ x3 ++ x4 ++ x5 ++ x6 ++ x7 ++ x8 : W32) 26 6 = x0 :=
  ((((((((fld_append_hi _ _ 26 6 (by decide)).trans (fld_append_hi _ _ 24 6 (by decide))).trans (fld_append_hi _ _ 23 6 (by decide))).trans (fld_append_hi _ _ 21 6 (by decide))).trans (fld_append_hi _ _ 18 6 (by decide))).trans (fld_append_hi _ _ 13 6 (by decide))).trans (fld_append_hi _ _ 8 6 (by decide))).trans (fld_append_hi _ _ 3 6 (by decide))).trans (fld_all _)
theorem w6_3_5_5_5_3_2_1_2_at_23_3 (x0 : BitVec 6) (x1 : BitVec 3) (x2 : BitVec 5) (x3 : BitVec 5) (x4 : BitVec 5) (x5 : BitVec 3) (x6 : BitVec 2) (x7 : BitVec 1) (x8 : BitVec 2) :
    fld (x0 ++ x1 ++ x2 ++ x3 ++ x4 ++ x5 ++ x6 ++ x7 ++ x8 : W32) 23 3 = x1 :=
  ((((((((fld_append_hi _ _ 23 3 (by decide)).trans (fld_append_hi _ _ 21 3 (by decide))).trans (fld_append_hi _ _ 20 3 (by decide))).trans (fld_append_hi _ _ 18 3 (by decide))).trans (fld_append_hi _ _ 15 3 (by decide))).trans (fld_append_hi _ _ 10 3 (by decide))).trans (fld_append_hi _ _ 5 3 (by decide))).trans (fld_append_lo _ _ 0 3 (by decide))).trans (fld_all _)
theorem w6_3_5_5_5_3_2_1_2_at_18_5 (x0 : BitVec 6) (x1 : BitVec 3) (x2 : BitVec 5) (x3 : BitVec 5) (x4 : BitVec 5) (x5 : BitVec 3) (x6 : BitVec 2) (x7 : BitVec 1) (x8 : BitVec 2) :
    fld (x0 ++ x1 ++ x2 ++ x3 ++ x4 ++ x5 ++ x6 ++ x7 ++ x8 : W32) 18 5 = x2 :=
  (((((((fld_append_hi _ _ 18 5 (by decide)).trans (fld_append_hi _ _ 16 5 (by decide))).trans (fld_append_hi _ _ 15 5 (by decide))).trans (fld_append_hi _ _ 13 5 (by decide))).trans (fld_append_hi _ _ 10 5 (by decide))).trans (fld_append_hi _ _ 5 5 (by decide))).trans (fld_append_lo _ _ 0 5 (by decide))).trans (fld_all _)
theorem w6_3_5_5_5_3_2_1_2_at_13_5 (x0 : BitVec 6) (x1 : BitVec 3) (x2 : BitVec 5) (x3 : BitVec 5) (x4 : BitVec 5) (x5 : BitVec 3) (x6 : BitVec 2) (x7 : BitVec 1) (x8 : BitVec 2) :
    fld (x0 ++ x1 ++ x2 ++ x3 ++ x4 ++ x5 ++ x6 ++ x7 ++ x8 : W32) 13 5 = x3 :=
  ((((((fld_append_hi _ _ 13 5 (by decide)).trans (fld_append_hi _ _ 11 5 (by decide))).trans (fld_append_hi _ _ 10 5 (by decide))).trans (fld_append_hi _ _ 8 5 (by decide))).trans (fld_append_hi _ _ 5 5 (by decide))).trans (fld_append_lo _ _ 0 5 (by decide))).trans (fld_all _)
theorem w6_3_5_5_5_3_2_1_2_at_8_5 (x0 : BitVec 6) (x1 : BitVec 3) (x2 : BitVec 5) (x3 : BitVec 5) (x4 : BitVec 5) (x5 : BitVec 3) (x6 : BitVec 2) (x7 : BitVec 1) (x8 : BitVec 2) :
    fld (x0 ++ x1 ++ x2 ++ x3 ++ x4 ++ x5 ++ x6 ++ x7 ++ x8 : W32) 8 5 = x4 :=
  (((((fld_append_hi _ _ 8 5 (by decide)).trans (fld_append_hi _ _ 6 5 (by decide))).trans (fld_append_hi _ _ 5 5 (by decide))).trans (fld_append_hi _ _ 3 5 (by decide))).trans (fld_append_lo _ _ 0 5 (by decide))).trans (fld_all _)
theorem w6_3_5_5_5_3_2_1_2_at_5_3 (x0 : BitVec 6) (x1 : BitVec 3) (x2 : BitVec 5) (x3 : BitVec 5) (x4 : BitVec 5) (x5 : BitVec 3) (x6 : BitVec 2) (x7 : BitVec 1) (x8 : BitVec 2) :
    fld (x0 ++ x1 ++ x2 ++ x3 ++ x4 ++ x5 ++ x6 ++ x7 ++ x8 : W32) 5 3 = x5 :=
  ((((fld_append_hi _ _ 5 3 (by decide)).trans (fld_append_hi _ _ 3 3 (by decide))).trans (fld_append_hi _ _ 2 3 (by decide))).trans (fld_append_lo _ _ 0 3 (by decide))).trans (fld_all _)
theorem w6_3_5_5_5_3_2_1_2_at_3_2 (x0 : BitVec 6) (x1 : BitVec 3) (x2 : BitVec 5) (x3 : BitVec 5) (x4 : BitVec 5) (x5 : BitVec 3) (x6 : BitVec 2) (x7 : BitVec 1) (x8 : BitVec 2) :
    fld (x0 ++ x1 ++ x2 ++ x3 ++ x4 ++ x5 ++ x6 ++ x7 ++ x8 : W32) 3 2 = x6 :=
  (((fld_append_hi _ _ 3 2 (by decide)).trans (fld_append_hi _ _ 1 2 (by decide))).trans (fld_append_lo _ _ 0 2 (by decide))).trans (fld_all _)
theorem w6_3_5_5_5_3_2_1_2_at_2_1 (x0 : BitVec 6) (x1 : BitVec 3) (x2 : BitVec 5) (x3 : BitVec 5) (x4 : BitVec 5) (x5 : BitVec 3) (x6 : BitVec 2) (x7 : BitVec 1) (x8 : BitVec 2) :
    fld (x0 ++ x1 ++ x2 ++ x3 ++ x4 ++ x5 ++ x6 ++ x7 ++ x8 : W32) 2 1 = x7 :=
  ((fld_append_hi _ _ 2 1 (by decide)).trans (fld_append_lo _ _ 0 1 (by decide))).trans (fld_all _)
theorem w6_3_5_5_5_3_2_1_2_at_0_2 (x0 : BitVec 6) (x1 : BitVec 3) (x2 : BitVec 5) (x3 : BitVec 5) (x4 : BitVec 5) (x5 : BitVec 3) (x6 : BitVec 2) (x7 : BitVec 1) (x8 : BitVec 2) :
    fld (x0 ++ x1 ++ x2 ++ x3 ++ x4 ++ x5 ++ x6 ++ x7 ++ x8 : W32) 0 2 = x8 :=
  (fld_append_lo _ _ 0 2 (by decide)).trans (fld_all _)
theorem w6_3_5_5_5_3_3_2_at_26_6 (x0 : BitVec 6) (x1 : BitVec 3) (x2 : BitVec 5) (x3 : BitVec 5) (x4 : BitVec 5) (x5 : BitVec 3) (x6 : BitVec 3) (x7 : BitVec 2) :
    fld (x0 ++ x1 ++ x2 ++ x3 ++ x4 ++ x5 ++ x6 ++ x7 : W32) 26 6 = x0 :=
  (((((((fld_append_hi _ _ 26 6 (by decide)).trans (fld_append_hi _ _ 24 6 (by decide))).trans (fld_append_hi _ _ 21 6 (by decide))).trans (fld_append_hi _ _ 18 6 (by decide))).trans (fld_append_hi _ _ 13 6 (by decide))).trans (fld_append_hi _ _ 8 6 (by decide))).trans (fld_append_hi _ _ 3 6 (by decide))).trans (fld_all _)
theorem w6_3_5_5_5_3_3_2_at_23_3 (x0 : BitVec 6) (x1 : BitVec 3) (x2 : BitVec 5) (x3 : BitVec 5) (x4 : BitVec 5) (x5 : BitVec 3) (x6 : BitVec 3) (x7 : BitVec 2) :
    fld (x0 ++ x1 ++ x2 ++ x3 ++ x4 ++ x5 ++ x6 ++ x7 : W32) 23 3 = x1 :=
  (((((((fld_append_hi _ _ 23 3 (by decide)).trans (fld_append_hi _ _ 21 3 (by decide))).trans (fld_append_hi _ _ 18 3 (by decide))).trans (fld_append_hi _ _ 15 3 (by decide))).trans (fld_append_hi _ _ 10 3 (by decide))).trans (fld_append_hi _ _ 5 3 (by decide))).trans (fld_append_lo _ _ 0 3 (by decide))).trans (fld_all _)
theorem w6_3_5_5_5_3_3_2_at_18_5 (x0 : BitVec 6) (x1 : BitVec 3) (x2 : BitVec 5) (x3 : BitVec 5) (x4 : BitVec 5) (x5 : BitVec 3) (x6 : BitVec 3) (x7 : BitVec 2) :
    fld (x0 ++ x1 ++ x2 ++ x3 ++ x4 ++ x5 ++ x6 ++ x7 : W32) 18 5 = x2 :=
  ((((((fld_append_hi _ _ 18 5 (by decide)).trans (fld_append_hi _ _ 16 5 (by decide))).trans (fld_append_hi _ _ 13 5 (by decide))).trans (fld_append_hi _ _ 10 5 (by decide))).trans (fld_append_hi _ _ 5 5 (by decide))).trans (fld_append_lo _ _ 0 5 (by decide))).trans (fld_all _)
theorem w6_3_5_5_5_3_3_2_at_13_5 (x0 : BitVec 6) (x1 : BitVec 3) (x2 : BitVec 5) (x3 : BitVec 5) (x4 : BitVec 5) (x5 : BitVec 3) (x6 : BitVec 3) (x7 : BitVec 2) :
    fld (x0 ++ x1 ++ x2 ++ x3 ++ x4 ++ x5 ++ x6 ++ x7 : W32) 13 5 = x3 :=
  (((((fld_append_hi _ _ 13 5 (by decide)).trans (fld_append_hi _ _ 11 5 (by decide))).trans (fld_append_hi _ _ 8 5 (by decide))).trans (fld_append_hi _ _ 5 5 (by decide))).trans (fld_append_lo _ _ 0 5 (by decide))).trans (fld_all _)
theorem w6_3_5_5_5_3_3_2_at_8_5 (x0 : BitVec 6) (x1 : BitVec 3) (x2 : BitVec 5) (x3 : BitVec 5) (x4 : BitVec 5) (x5 : BitVec 3) (x6 : BitVec 3) (x7 : BitVec 2) :
    fld (x0 ++ x1 ++ x2 ++ x3 ++ x4 ++ x5 ++ x6 ++ x7 : W32) 8 5 = x4 :=
  ((((fld_append_hi _ _ 8 5 (by decide)).trans (fld_append_hi _ _ 6 5 (by decide))).trans (fld_append_hi _ _ 3 5 (by decide))).trans (fld_append_lo _ _ 0 5 (by decide))).trans (fld_all _)
theorem w6_3_5_5_5_3_3_2_at_5_3 (x0 : BitVec 6) (x1 : BitVec 3) (x2 : BitVec 5) (x3 : BitVec 5) (x4 : BitVec 5) (x5 : BitVec 3) (x6 : BitVec 3) (x7 : BitVec 2) :
    fld (x0 ++ x1 ++ x2 ++ x3 ++ x4 ++ x5 ++ x6 ++ x7 : W32) 5 3 = x5 :=
  (((fld_append_hi _ _ 5 3 (by decide)).trans (fld_append_hi _ _ 3 3 (by decide))).trans (fld_append_lo _ _ 0 3 (by decide))).trans (fld_all _)
theorem w6_3_5_5_5_3_3_2_at_3_2 (x0 : BitVec 6) (x1 : BitVec 3) (x2 : BitVec 5) (x3 : BitVec 5) (x4 : BitVec 5) (x5 : BitVec 3) (x6 : BitVec 3) (x7 : BitVec 2) :
    fld (x0 ++ x1 ++ x2 ++ x3 ++ x4 ++ x5 ++ x6 ++ x7 : W32) 3 2 = fld x6 1 2 :=
  (fld_append_hi _ _ 3 2 (by decide)).trans (fld_append_lo _ _ 1 2 (by decide))
theorem w6_3_5_5_5_3_3_2_at_2_1 (x0 : BitVec 6) (x1 : BitVec 3) (x2 : BitVec 5) (x3 : BitVec 5) (x4 : BitVec 5) (x5 : BitVec 3) (x6 : BitVec 3) (x7 : BitVec 2) :
    fld (x0 ++ x1 ++ x2 ++ x3 ++ x4 ++ x5 ++ x6 ++ x7 : W32) 2 1 = fld x6 0 1 :=
  (fld_append_hi _ _ 2 1 (by decide)).trans (fld_append_lo _ _ 0 1 (by decide))
theorem w6_3_5_5_5_3_3_2_at_2_3 (x0 : BitVec 6) (x1 : BitVec 3) (x2 : BitVec 5) (x3 : BitVec 5) (x4 : BitVec 5) (x5 : BitVec 3) (x6 : BitVec 3) (x7 : BitVec 2) :
    fld (x0 ++ x1 ++ x2 ++ x3 ++ x4 ++ x5 ++ x6 ++ x7 : W32) 2 3 = x6 :=
  ((fld_append_hi _ _ 2 3 (by decide)).trans (fld_append_lo _ _ 0 3 (by decide))).trans (fld_all _)
theorem w6_3_5_5_5_3_3_2_at_0_2 (x0 : BitVec 6) (x1 : BitVec 3) (x2 : BitVec 5) (x3 : BitVec 5) (x4 : BitVec 5) (x5 : BitVec 3) (x6 : BitVec 3) (x7 : BitVec 2) :
    fld (x0 ++ x1 ++ x2 ++ x3 ++ x4 ++ x5 ++ x6 ++ x7 : W32) 0 2 = x7 :=
  (fld_append_lo _ _ 0 2 (by decide)).trans (fld_all _)
theorem w6_3_5_5_5_3_2_3_at_26_6 (x0 : BitVec 6) (x1 : BitVec 3) (x2 : BitVec 5) (x3 : BitVec 5) (x4 : BitVec 5) (x5 : BitVec 3) (x6 : BitVec 2) (x7 : BitVec 3) :
    fld (x0 ++ x1 ++ x2 ++ x3 ++ x4 ++ x5 ++ x6 ++ x7 : W32) 26 6 = x0 :=
  (((((((fld_append_hi _ _ 26 6 (by decide)).trans (fld_append_hi _ _ 23 6 (by decide))).trans (fld_append_hi _ _ 21 6 (by decide))).trans (fld_append_hi _ _ 18 6 (by decide))).trans (fld_append_hi _ _ 13 6 (by decide))).trans (fld_append_hi _ _ 8 6 (by decide))).trans (fld_append_hi _ _ 3 6 (by decide))).trans (fld_all _)
theorem w6_3_5_5_5_3_2_3_at_23_3 (x0 : BitVec 6) (x1 : BitVec 3) (x2 : BitVec 5) (x3 : BitVec 5) (x4 : BitVec 5) (x5 : BitVec 3) (x6 : BitVec 2) (x7 : BitVec 3) :
    fld (x0 ++ x1 ++ x2 ++ x3 ++ x4 ++ x5 ++ x6 ++ x7 : W32) 23 3 = x1 :=
  (((((((fld_append_hi _ _ 23 3 (by decide)).trans (fld_append_hi _ _ 20 3 (by decide))).trans (fld_append_hi _ _ 18 3 (by decide))).trans (fld_append_hi _ _ 15 3 (by decide))).trans (fld_append_hi _ _ 10 3 (by decide))).trans (fld_append_hi _ _ 5 3 (by decide))).trans (fld_append_lo _ _ 0 3 (by decide))).trans (fld_all _)
theorem w6_3_5_5_5_3_2_3_at_18_5 (x0 : BitVec 6) (x1 : BitVec 3) (x2 : BitVec 5) (x3 : BitVec 5) (x4 : BitVec 5) (x5 : BitVec 3) (x6 : BitVec 2) (x7 : BitVec 3) :
    fld (x0 ++ x1 ++ x2 ++ x3 ++ x4 ++ x5 ++ x6 ++ x7 : W32) 18 5 = x2 :=
  ((((((fld_append_hi _ _ 18 5 (by decide)).trans (fld_append_hi _ _ 15 5 (by decide))).trans (fld_append_hi _ _ 13 5 (by decide))).trans (fld_append_hi _ _ 10 5 (by decide))).trans (fld_append_hi _ _ 5 5 (by decide))).trans (fld_append_lo _ _ 0 5 (by decide))).trans (fld_all _)
theorem w6_3_5_5_5_3_2_3_at_13_5 (x0 : BitVec 6) (x1 : BitVec 3) (x2 : BitVec 5) (x3 : BitVec 5) (x4 : BitVec 5) (x5 : BitVec 3) (x6 : BitVec 2) (x7 : BitVec 3) :
    fld (x0 ++ x1 ++ x2 ++ x3 ++ x4 ++ x5 ++ x6 ++ x7 : W32) 13 5 = x3 :=
  (((((fld_append_hi _ _ 13 5 (by decide)).trans (fld_append_hi _ _ 10 5 (by decide))).trans (fld_append_hi _ _ 8 5 (by decide))).trans (fld_append_hi _ _ 5 5 (by decide))).trans (fld_append_lo _ _ 0 5 (by decide))).trans (fld_all _)
theorem w6_3_5_5_5_3_2_3_at_8_5 (x0 : BitVec 6) (x1 : BitVec 3) (x2 : BitVec 5) (x3 : BitVec 5) (x4 : BitVec 5) (x5 : BitVec 3) (x6 : BitVec 2) (x7 : BitVec 3) :
    fld (x0 ++ x1 ++ x2 ++ x3 ++ x4 ++ x5 ++ x6 ++ x7 : W32) 8 5 = x4 :=
  ((((fld_append_hi _ _ 8 5 (by decide)).trans (fld_append_hi _ _ 5 5 (by decide))).trans (fld_append_hi _ _ 3 5 (by decide))).trans (fld_append_lo _ _ 0 5 (by decide))).trans (fld_all _)
theorem w6_3_5_5_5_3_2_3_at_5_3 (x0 : BitVec 6) (x1 : BitVec 3) (x2 : BitVec 5) (x3 : BitVec 5) (x4 : BitVec 5) (x5 : BitVec 3) (x6 : BitVec 2) (x7 : BitVec 3) :
    fld (x0 ++ x1 ++ x2 ++ x3 ++ x4 ++ x5 ++ x6 ++ x7 : W32) 5 3 = x5 :=
  (((fld_append_hi _ _ 5 3 (by decide)).trans (fld_append_hi _ _ 2 3 (by decide))).trans (fld_append_lo _ _ 0 3 (by decide))).trans (fld_all _)
theorem w6_3_5_5_5_3_2_3_at_3_2 (x0 : BitVec 6) (x1 : BitVec 3) (x2 : BitVec 5) (x3 : BitVec 5) (x4 : BitVec 5) (x5 : BitVec 3) (x6 : BitVec 2) (x7 : BitVec 3) :
    fld (x0 ++ x1 ++ x2 ++ x3 ++ x4 ++ x5 ++ x6 ++ x7 : W32) 3 2 = x6 :=
  ((fld_append_hi _ _ 3 2 (by decide)).trans (fld_append_lo _ _ 0 2 (by decide))).trans (fld_all _)
theorem w6_3_5_5_5_3_2_3_at_0_3 (x0 : BitVec 6) (x1 : BitVec 3) (x2 : BitVec 5) (x3 : BitVec 5) (x4 : BitVec 5) (x5 : BitVec 3) (x6 : BitVec 2) (x7 : BitVec 3) :
    fld (x0 ++ x1 ++ x2 ++ x3 ++ x4 ++ x5 ++ x6 ++ x7 : W32) 0 3 = x7 :=
  (fld_append_lo _ _ 0 3 (by decide)).trans (fld_all _)
theorem w6_3_5_10_2_1_5_at_26_6 (x0 : BitVec 6) (x1 : BitVec 3) (x2 : BitVec 5) (x3 : BitVec 10) (x4 : BitVec 2) (x5 : BitVec 1) (x6 : BitVec 5) :
    fld (x0 ++ x1 ++ x2 ++ x3 ++ x4 ++ x5 ++ x6 : W32) 26 6 = x0 :=
  ((((((fld_append_hi _ _ 26 6 (by decide)).trans (fld_append_hi _ _ 21 6 (by decide))).trans (fld_append_hi _ _ 20 6 (by decide))).trans (fld_append_hi _ _ 18 6 (by decide))).trans (fld_append_hi _ _ 8 6 (by decide))).trans (fld_append_hi _ _ 3 6 (by decide))).trans (fld_all _)
theorem w6_3_5_10_2_1_5_at_23_3 (x0 : BitVec 6) (x1 : BitVec 3) (x2 : BitVec 5) (x3 : BitVec 10) (x4 : BitVec 2) (x5 : BitVec 1) (x6 : BitVec 5) :
    fld (x0 ++ x1 ++ x2 ++ x3 ++ x4 ++ x5 ++ x6 : W32) 23 3 = x1 :=
  ((((((fld_append_hi _ _ 23 3 (by decide)).trans (fld_append_hi _ _ 18 3 (by decide))).trans (fld_append_hi _ _ 17 3 (by decide))).trans (fld_append_hi _ _ 15 3 (by decide))).trans (fld_append_hi _ _ 5 3 (by decide))).trans (fld_append_lo _ _ 0 3 (by decide))).trans (fld_all _)
theorem w6_3_5_10_2_1_5_at_18_5 (x0 : BitVec 6) (x1 : BitVec 3) (x2 : BitVec 5) (x3 : BitVec 10) (x4 : BitVec 2) (x5 : BitVec 1) (x6 : BitVec 5) :
    fld (x0 ++ x1 ++ x2 ++ x3 ++ x4 ++ x5 ++ x6 : W32) 18 5 = x2 :=
  (((((fld_append_hi _ _ 18 5 (by decide)).trans (fld_append_hi _ _ 13 5 (by decide))).trans (fld_append_hi _ _ 12 5 (by decide))).trans (fld_append_hi _ _ 10 5 (by decide))).trans (fld_append_lo _ _ 0 5 (by decide))).trans (fld_all _)
theorem w6_3_5_10_2_1_5_at_13_5 (x0 : BitVec 6) (x1 : BitVec 3) (x2 : BitVec 5) (x3 : BitVec 10) (x4 : BitVec 2) (x5 : BitVec 1) (x6 : BitVec 5) :
    fld (x0 ++ x1 ++ x2 ++ x3 ++ x4 ++ x5 ++ x6 : W32) 13 5 = fld x3 5 5 :=
  (((fld_append_hi _ _ 13 5 (by decide)).trans (fld_append_hi _ _ 8 5 (by decide))).trans (fld_append_hi _ _ 7 5 (by decide))).trans (fld_append_lo _ _ 5 5 (by decide))
theorem w6_3_5_10_2_1_5_at_8_5 (x0 : BitVec 6) (x1 : BitVec 3) (x2 : BitVec 5) (x3 : BitVec 10) (x4 : BitVec 2) (x5 : BitVec 1) (x6 : BitVec 5) :
    fld (x0 ++ x1 ++ x2 ++ x3 ++ x4 ++ x5 ++ x6 : W32) 8 5 = fld x3 0 5 :=
  (((fld_append_hi _ _ 8 5 (by decide)).trans (fld_append_hi _ _ 3 5 (by decide))).trans (fld_append_hi _ _ 2 5 (by decide))).trans (fld_append_lo _ _ 0 5 (by decide))
theorem w6_3_5_10_2_1_5_at_6_2 (x0 : BitVec 6) (x1 : BitVec 3) (x2 : BitVec 5) (x3 : BitVec 10) (x4 : BitVec 2) (x5 : BitVec 1) (x6 : BitVec 5) :
    fld (x0 ++ x1 ++ x2 ++ x3 ++ x4 ++ x5 ++ x6 : W32) 6 2 = x4 :=
  (((fld_append_hi _ _ 6 2 (by decide)).trans (fld_append_hi _ _ 1 2 (by decide))).trans (fld_append_lo _ _ 0 2 (by decide))).trans (fld_all _)
theorem w6_3_5_10_2_1_5_at_5_1 (x0 : BitVec 6) (x1 : BitVec 3) (x2 : BitVec 5) (x3 : BitVec 10) (x4 : BitVec 2) (x5 : BitVec 1) (x6 : BitVec 5) :
    fld (x0 ++ x1 ++ x2 ++ x3 ++ x4 ++ x5 ++ x6 : W32) 5 1 = x5 :=
  ((fld_append_hi _ _ 5 1 (by decide)).trans (fld_append_lo _ _ 0 1 (by decide))).trans (fld_all _)
theorem w6_3_5_10_2_1_5_at_4_1 (x0 : BitVec 6) (x1 : BitVec 3) (x2 : BitVec 5) (x3 : BitVec 10) (x4 : BitVec 2) (x5 : BitVec 1) (x6 : BitVec 5) :
    fld (x0 ++ x1 ++ x2 ++ x3 ++ x4 ++ x5 ++ x6 : W32) 4 1 = fld x6 4 1 :=
  (fld_append_lo _ _ 4 1 (by decide))
theorem w6_3_5_10_2_1_5_at_0_4 (x0 : BitVec 6) (x1 : BitVec 3) (x2 : BitVec 5) (x3 : BitVec 10) (x4 : BitVec 2) (x5 : BitVec 1) (x6 : BitVec 5) :
    fld (x0 ++ x1 ++ x2 ++ x3 ++ x4 ++ x5 ++ x6 : W32) 0 4 = fld x6 0 4 :=
  (fld_append_lo _ _ 0 4 (by decide))
theorem w6_3_5_5_3_1_1_1_3_4_at_26_6 (x0 : BitVec 6) (x1 : BitVec 3) (x2 : BitVec 5) (x3 : BitVec 5) (x4 : BitVec 3) (x5 : BitVec 1) (x6 : BitVec 1) (x7 : BitVec 1) (x8 : BitVec 3) (x9 : BitVec 4) :
    fld (x0 ++ x1 ++ x2 ++ x3 ++ x4 ++ x5 ++ x6 ++ x7 ++ x8 ++ x9 : W32) 26 6 = x0 :=
  (((((((((fld_append_hi _ _ 26 6 (by decide)).trans (fld_append_hi _ _ 22 6 (by decide))).trans (fld_append_hi _ _ 19 6 (by decide))).trans (fld_append_hi _ _ 18 6 (by decide))).trans (fld_append_hi _ _ 17 6 (by decide))).trans (fld_append_hi _ _ 16 6 (by decide))).trans (fld_append_hi _ _ 13 6 (by decide))).trans (fld_append_hi _ _ 8 6 (by decide))).trans (fld_append_hi _ _ 3 6 (by decide))).trans (fld_all _)
theorem w6_3_5_5_3_1_1_1_3_4_at_23_3 (x0 : BitVec 6) (x1 : BitVec 3) (x2 : BitVec 5) (x3 : BitVec 5) (x4 : BitVec 3) (x5 : BitVec 1) (x6 : BitVec 1) (x7 : BitVec 1) (x8 : BitVec 3) (x9 : BitVec 4) :
    fld (x0 ++ x1 ++ x2 ++ x3 ++ x4 ++ x5 ++ x6 ++ x7 ++ x8 ++ x9 : W32) 23 3 = x1 :=
  (((((((((fld_append_hi _ _ 23 3 (by decide)).trans (fld_append_hi _ _ 19 3 (by decide))).trans (fld_append_hi _ _ 16 3 (by decide))).trans (fld_append_hi _ _ 15 3 (by decide))).trans (fld_append_hi _ _ 14 3 (by decide))).trans (fld_append_hi _ _ 13 3 (by decide))).trans (fld_append_hi _ _ 10 3 (by decide))).trans (fld_append_hi _ _ 5 3 (by decide))).trans (fld_append_lo _ _ 0 3 (by decide))).trans (fld_all _)
theorem w6_3_5_5_3_1_1_1_3_4_at_18_5 (x0 : BitVec 6) (x1 : BitVec 3) (x2 : BitVec 5) (x3 : BitVec 5) (x4 : BitVec 3) (x5 : BitVec 1) (x6 : BitVec 1) (x7 : BitVec 1) (x8 : BitVec 3) (x9 : BitVec 4) :
    fld (x0 ++ x1 ++ x2 ++ x3 ++ x4 ++ x5 ++ x6 ++ x7 ++ x8 ++ x9 : W32) 18 5 = x2 :=
  ((((((((fld_append_hi _ _ 18 5 (by decide)).trans (fld_append_hi _ _ 14 5 (by decide))).trans (fld_append_hi _ _ 11 5 (by decide))).trans (fld_append_hi _ _ 10 5 (by decide))).trans (fld_append_hi _ _ 9 5 (by decide))).trans (fld_append_hi _ _ 8 5 (by decide))).trans (fld_append_hi _ _ 5 5 (by decide))).trans (fld_append_lo _ _ 0 5 (by decide))).trans (fld_all _)
theorem w6_3_5_5_3_1_1_1_3_4_at_13_5 (x0 : BitVec 6) (x1 : BitVec 3) (x2 : BitVec 5) (x3 : BitVec 5) (x4 : BitVec 3) (x5 : BitVec 1) (x6 : BitVec 1) (x7 : BitVec 1) (x8 : BitVec 3) (x9 : BitVec 4) :
    fld (x0 ++ x1 ++ x2 ++ x3 ++ x4 ++ x5 ++ x6 ++ x7 ++ x8 ++ x9 : W32) 13 5 = x3 :=
  (((((((fld_append_hi _ _ 13 5 (by decide)).trans (fld_append_hi _ _ 9 5 (by decide))).trans (fld_append_hi _ _ 6 5 (by decide))).trans (fld_append_hi _ _ 5 5 (by decide))).trans (fld_append_hi _ _ 4 5 (by decide))).trans (fld_append_hi _ _ 3 5 (by decide))).trans (fld_append_lo _ _ 0 5 (by decide))).trans (fld_all _)
theorem w6_3_5_5_3_1_1_1_3_4_at_10_3 (x0 : BitVec 6) (x1 : BitVec 3) (x2 : BitVec 5) (x3 : BitVec 5) (x4 : BitVec 3) (x5 : BitVec 1) (x6 : BitVec 1) (x7 : BitVec 1) (x8 : BitVec 3) (x9 : BitVec 4) :
    fld (x0 ++ x1 ++ x2 ++ x3 ++ x4 ++ x5 ++ x6 ++ x7 ++ x8 ++ x9 : W32) 10 3 = x4 :=
  ((((((fld_append_hi _ _ 10 3 (by decide)).trans (fld_append_hi _ _ 6 3 (by decide))).trans (fld_append_hi _ _ 3 3 (by decide))).trans (fld_append_hi _ _ 2 3 (by decide))).trans (fld_append_hi _ _ 1 3 (by decide))).trans (fld_append_lo _ _ 0 3 (by decide))).trans (fld_all _)
theorem w6_3_5_5_3_1_1_1_3_4_at_9_1 (x0 : BitVec 6) (x1 : BitVec 3) (x2 : BitVec 5) (x3 : BitVec 5) (x4 : BitVec 3) (x5 : BitVec 1) (x6 : BitVec 1) (x7 : BitVec 1) (x8 : BitVec 3) (x9 : BitVec 4) :
    fld (x0 ++ x1 ++ x2 ++ x3 ++ x4 ++ x5 ++ x6 ++ x7 ++ x8 ++ x9 : W32) 9 1 = x5 :=
  (((((fld_append_hi _ _ 9 1 (by decide)).trans (fld_append_hi _ _ 5 1 (by decide))).trans (fld_append_hi _ _ 2 1 (by decide))).trans (fld_append_hi _ _ 1 1 (by decide))).trans (fld_append_lo _ _ 0 1 (by decide))).trans (fld_all _)
theorem w6_3_5_5_3_1_1_1_3_4_at_8_1 (x0 : BitVec 6) (x1 : BitVec 3) (x2 : BitVec 5) (x3 : BitVec 5) (x4 : BitVec 3) (x5 : BitVec 1) (x6 : BitVec 1) (x7 : BitVec 1) (x8 : BitVec 3) (x9 : BitVec 4) :
    fld (x0 ++ x1 ++ x2 ++ x3 ++ x4 ++ x5 ++ x6 ++ x7 ++ x8 ++ x9 : W32) 8 1 = x6 :=
  ((((fld_append_hi _ _ 8 1 (by decide)).trans (fld_append_hi _ _ 4 1 (by decide))).trans (fld_append_hi _ _ 1 1 (by decide))).trans (fld_append_lo _ _ 0 1 (by decide))).trans (fld_all _)
theorem w6_3_5_5_3_1_1_1_3_4_at_7_1 (x0 : BitVec 6) (x1 : BitVec 3) (x2 : BitVec 5) (x3 : BitVec 5) (x4 : BitVec 3) (x5 : BitVec 1) (x6 : BitVec 1) (x7 : BitVec 1) (x8 : BitVec 3) (x9 : BitVec 4) :
    fld (x0 ++ x1 ++ x2 ++ x3 ++ x4 ++ x5 ++ x6 ++ x7 ++ x8 ++ x9 : W32) 7 1 = x7 :=
  (((fld_append_hi _ _ 7 1 (by decide)).trans (fld_append_hi _ _ 3 1 (by decide))).trans (fld_append_lo _ _ 0 1 (by decide))).trans (fld_all _)
theorem w6_3_5_5_3_1_1_1_3_4_at_4_3 (x0 : BitVec 6) (x1 : BitVec 3) (x2 : BitVec 5) (x3 : BitVec 5) (x4 : BitVec 3) (x5 : BitVec 1) (x6 : BitVec 1) (x7 : BitVec 1) (x8 : BitVec 3) (x9 : BitVec 4) :
    fld (x0 ++ x1 ++ x2 ++ x3 ++ x4 ++ x5 ++ x6 ++ x7 ++ x8 ++ x9 : W32) 4 3 = x8 :=
  ((fld_append_hi _ _ 4 3 (by decide)).trans (fld_append_lo _ _ 0 3 (by decide))).trans (fld_all _)
theorem w6_3_5_5_3_1_1_1_3_4_at_0_4 (x0 : BitVec 6) (x1 : BitVec 3) (x2 : BitVec 5) (x3 : BitVec 5) (x4 : BitVec 3) (x5 : BitVec 1) (x6 : BitVec 1) (x7 : BitVec 1) (x8 : BitVec 3) (x9 : BitVec 4) :
    fld (x0 ++ x1 ++ x2 ++ x3 ++ x4 ++ x5 ++ x6 ++ x7 ++ x8 ++ x9 : W32) 0 4 = x9 :=
  (fld_append_lo _ _ 0 4 (by decide)).trans (fld_all _)
theorem w6_3_5_5_6_3_4_at_26_6 (x0 : BitVec 6) (x1 : BitVec 3) (x2 : BitVec 5) (x3 : BitVec 5) (x4 : BitVec 6) (x5 : BitVec 3) (x6 : BitVec 4) :
    fld (x0 ++ x1 ++ x2 ++ x3 ++ x4 ++ x5 ++ x6 : W32) 26 6 = x0 :=
  ((((((fld_append_hi _ _ 26 6 (by decide)).trans (fld_append_hi _ _ 22 6 (by decide))).trans (fld_append_hi _ _ 19 6 (by decide))).trans (fld_append_hi _ _ 13 6 (by decide))).trans (fld_append_hi _ _ 8 6 (by decide))).trans (fld_append_hi _ _ 3 6 (by decide))).trans (fld_all _)
theorem w6_3_5_5_6_3_4_at_23_3 (x0 : BitVec 6) (x1 : BitVec 3) (x2 : BitVec 5) (x3 : BitVec 5) (x4 : BitVec 6) (x5 : BitVec 3) (x6 : BitVec 4) :
    fld (x0 ++ x1 ++ x2 ++ x3 ++ x4 ++ x5 ++ x6 : W32) 23 3 = x1 :=
  ((((((fld_append_hi _ _ 23 3 (by decide)).trans (fld_append_hi _ _ 19 3 (by decide))).trans (fld_append_hi _ _ 16 3 (by decide))).trans (fld_append_hi _ _ 10 3 (by decide))).trans (fld_append_hi _ _ 5 3 (by decide))).trans (fld_append_lo _ _ 0 3 (by decide))).trans (fld_all _)
theorem w6_3_5_5_6_3_4_at_18_5 (x0 : BitVec 6) (x1 : BitVec 3) (x2 : BitVec 5) (x3 : BitVec 5) (x4 : BitVec 6) (x5 : BitVec 3) (x6 : BitVec 4) :
    fld (x0 ++ x1 ++ x2 ++ x3 ++ x4 ++ x5 ++ x6 : W32) 18 5 = x2 :=
  (((((fld_append_hi _ _ 18 5 (by decide)).trans (fld_append_hi _ _ 14 5 (by decide))).trans (fld_append_hi _ _ 11 5 (by decide))).trans (fld_append_hi _ _ 5 5 (by decide))).trans (fld_append_lo _ _ 0 5 (by decide))).trans (fld_all _)
theorem w6_3_5_5_6_3_4_at_13_5 (x0 : BitVec 6) (x1 : BitVec 3) (x2 : BitVec 5) (x3 : BitVec 5) (x4 : BitVec 6) (x5 : BitVec 3) (x6 : BitVec 4) :
    fld (x0 ++ x1 ++ x2 ++ x3 ++ x4 ++ x5 ++ x6 : W32) 13 5 = x3 :=
  ((((fld_append_hi _ _ 13 5 (by decide)).trans (fld_append_hi _ _ 9 5 (by decide))).trans (fld_append_hi _ _ 6 5 (by decide))).trans (fld_append_lo _ _ 0 5 (by decide))).trans (fld_all _)
theorem w6_3_5_5_6_3_4_at_10_3 (x0 : BitVec 6) (x1 : BitVec 3) (x2 : BitVec 5) (x3 : BitVec 5) (x4 : BitVec 6) (x5 : BitVec 3) (x6 : BitVec 4) :
    fld (x0 ++ x1 ++ x2 ++ x3 ++ x4 ++ x5 ++ x6 : W32) 10 3 = fld x4 3 3 :=
  ((fld_append_hi _ _ 10 3 (by decide)).trans (fld_append_hi _ _ 6 3 (by decide))).trans (fld_append_lo _ _ 3 3 (by decide))
theorem w6_3_5_5_6_3_4_at_7_3 (x0 : BitVec 6) (x1 : BitVec 3) (x2 : BitVec 5) (x3 : BitVec 5) (x4 : BitVec 6) (x5 : BitVec 3) (x6 : BitVec 4) :
    fld (x0 ++ x1 ++ x2 ++ x3 ++ x4 ++ x5 ++ x6 : W32) 7 3 = fld x4 0 3 :=
  ((fld_append_hi _ _ 7 3 (by decide)).trans (fld_append_hi _ _ 3 3 (by decide))).trans (fld_append_lo _ _ 0 3 (by decide))
theorem w6_3_5_5_6_3_4_at_4_3 (x0 : BitVec 6) (x1 : BitVec 3) (x2 : BitVec 5) (x3 : BitVec 5) (x4 : BitVec 6) (x5 : BitVec 3) (x6 : BitVec 4) :
    fld (x0 ++ x1 ++ x2 ++ x3 ++ x4 ++ x5 ++ x6 : W32) 4 3 = x5 :=
  ((fld_append_hi _ _ 4 3 (by decide)).trans (fld_append_lo _ _ 0 3 (by decide))).trans (fld_all _)
theorem w6_3_5_5_6_3_4_at_0_4 (x0 : BitVec 6) (x1 : BitVec 3) (x2 : BitVec 5) (x3 : BitVec 5) (x4 : BitVec 6) (x5 : BitVec 3) (x6 : BitVec 4) :
    fld (x0 ++ x1 ++ x2 ++ x3 ++ x4 ++ x5 ++ x6 : W32) 0 4 = x6 :=
  (fld_append_lo _ _ 0 4 (by decide)).trans (fld_all _)
theorem w6_3_10_3_10_at_26_6 (x0 : BitVec 6) (x1 : BitVec 3) (x2 : BitVec 10) (x3 : BitVec 3) (x4 : BitVec 10) :
    fld (x0 ++ x1 ++ x2 ++ x3 ++ x4 : W32) 26 6 = x0 :=
  ((((fld_append_hi _ _ 26 6 (by decide)).trans (fld_append_hi _ _ 16 6 (by decide))).trans (fld_append_hi _ _ 13 6 (by decide))).trans (fld_append_hi _ _ 3 6 (by decide))).trans (fld_all _)
theorem w6_3_10_3_10_at_23_3 (x0 : BitVec 6) (x1 : BitVec 3) (x2 : BitVec 10) (x3 : BitVec 3) (x4 : BitVec 10) :
    fld (x0 ++ x1 ++ x2 ++ x3 ++ x4 : W32) 23 3 = x1 :=
  ((((fld_append_hi _ _ 23 3 (by decide)).trans (fld_append_hi _ _ 13 3 (by decide))).trans (fld_append_hi _ _ 10 3 (by decide))).trans (fld_append_lo _ _ 0 3 (by decide))).trans (fld_all _)
theorem w6_3_10_3_10_at_18_5 (x0 : BitVec 6) (x1 : BitVec 3) (x2 : BitVec 10) (x3 : BitVec 3) (x4 : BitVec 10) :
    fld (x0 ++ x1 ++ x2 ++ x3 ++ x4 : W32) 18 5 = fld x2 5 5 :=
  ((fld_append_hi _ _ 18 5 (by decide)).trans (fld_append_hi _ _ 8 5 (by decide))).trans (fld_append_lo _ _ 5 5 (by decide))
theorem w6_3_10_3_10_at_13_5 (x0 : BitVec 6) (x1 : BitVec 3) (x2 : BitVec 10) (x3 : BitVec 3) (x4 : BitVec 10) :
    fld (x0 ++ x1 ++ x2 ++ x3 ++ x4 : W32) 13 5 = fld x2 0 5 :=
  ((fld_append_hi _ _ 13 5 (by decide)).trans (fld_append_hi _ _ 3 5 (by decide))).trans (fld_append_lo _ _ 0 5 (by decide))
theorem w6_3_10_3_10_at_10_3 (x0 : BitVec 6) (x1 : BitVec 3) (x2 : BitVec 10) (x3 : BitVec 3) (x4 : BitVec 10) :
    fld (x0 ++ x1 ++ x2 ++ x3 ++ x4 : W32) 10 3 = x3 :=
  ((fld_append_hi _ _ 10 3 (by decide)).trans (fld_append_lo _ _ 0 3 (by decide))).trans (fld_all _)
theorem w6_3_10_3_10_at_7_3 (x0 : BitVec 6) (x1 : BitVec 3) (x2 : BitVec 10) (x3 : BitVec 3) (x4 : BitVec 10) :
    fld (x0 ++ x1 ++ x2 ++ x3 ++ x4 : W32) 7 3 = fld x4 7 3 :=
  (fld_append_lo _ _ 7 3 (by decide))
theorem w6_3_10_3_10_at_4_3 (x0 : BitVec 6) (x1 : BitVec 3) (x2 : BitVec 10) (x3 : BitVec 3) (x4 : BitVec 10) :
    fld (x0 ++ x1 ++ x2 ++ x3 ++ x4 : W32) 4 3 = fld x4 4 3 :=
  (fld_append_lo _ _ 4 3 (by decide))
theorem w6_3_10_3_10_at_0_4 (x0 : BitVec 6) (x1 : BitVec 3) (x2 : BitVec 10) (x3 : BitVec 3) (x4 : BitVec 10) :
    fld (x0 ++ x1 ++ x2 ++ x3 ++ x4 : W32) 0 4 = fld x4 0 4 :=
  (fld_append_lo _ _ 0 4 (by decide))
theorem w6_3_5_5_3_3_3_4_at_26_6 (x0 : BitVec 6) (x1 : BitVec 3) (x2 : BitVec 5) (x3 : BitVec 5) (x4 : BitVec 3) (x5 : BitVec 3) (x6 : BitVec 3) (x7 : BitVec 4) :
    fld (x0 ++ x1 ++ x2 ++ x3 ++ x4 ++ x5 ++ x6 ++ x7 : W32) 26 6 = x0 :=
  (((((((fld_append_hi _ _ 26 6 (by decide)).trans (fld_append_hi _ _ 22 6 (by decide))).trans (fld_append_hi _ _ 19 6 (by decide))).trans (fld_append_hi _ _ 16 6 (by decide))).trans (fld_append_hi _ _ 13 6 (by decide))).trans (fld_append_hi _ _ 8 6 (by decide))).trans (fld_append_hi _ _ 3 6 (by decide))).trans (fld_all _)
theorem w6_3_5_5_3_3_3_4_at_23_3 (x0 : BitVec 6) (x1 : BitVec 3) (x2 : BitVec 5) (x3 : BitVec 5) (x4 : BitVec 3) (x5 : BitVec 3) (x6 : BitVec 3) (x7 : BitVec 4) :
    fld (x0 ++ x1 ++ x2 ++ x3 ++ x4 ++ x5 ++ x6 ++ x7 : W32) 23 3 = x1 :=
  (((((((fld_append_hi _ _ 23 3 (by decide)).trans (fld_append_hi _ _ 19 3 (by decide))).trans (fld_append_hi _ _ 16 3 (by decide))).trans (fld_append_hi _ _ 13 3 (by decide))).trans (fld_append_hi _ _ 10 3 (by decide))).trans (fld_append_hi _ _ 5 3 (by decide))).trans (fld_append_lo _ _ 0 3 (by decide))).trans (fld_all _)
theorem w6_3_5_5_3_3_3_4_at_18_5 (x0 : BitVec 6) (x1 : BitVec 3) (x2 : BitVec 5) (x3 : BitVec 5) (x4 : BitVec 3) (x5 : BitVec 3) (x6 : BitVec 3) (x7 : BitVec 4) :
    fld (x0 ++ x1 ++ x2 ++ x3 ++ x4 ++ x5 ++ x6 ++ x7 : W32) 18 5 = x2 :=
  ((((((fld_append_hi _ _ 18 5 (by decide)).trans (fld_append_hi _ _ 14 5 (by decide))).trans (fld_append_hi _ _ 11 5 (by decide))).trans (fld_append_hi _ _ 8 5 (by decide))).trans (fld_append_hi _ _ 5 5 (by decide))).trans (fld_append_lo _ _ 0 5 (by decide))).trans (fld_all _)
theorem w6_3_5_5_3_3_3_4_at_13_5 (x0 : BitVec 6) (x1 : BitVec 3) (x2 : BitVec 5) (x3 : BitVec 5) (x4 : BitVec 3) (x5 : BitVec 3) (x6 : BitVec 3) (x7 : BitVec 4) :
    fld (x0 ++ x1 ++ x2 ++ x3 ++ x4 ++ x5 ++ x6 ++ x7 : W32) 13 5 = x3 :=
  (((((fld_append_hi _ _ 13 5 (by decide)).trans (fld_append_hi _ _ 9 5 (by decide))).trans (fld_append_hi _ _ 6 5 (by decide))).trans (fld_append_hi _ _ 3 5 (by decide))).trans (fld_append_lo _ _ 0 5 (by decide))).trans (fld_all _)
theorem w6_3_5_5_3_3_3_4_at_10_3 (x0 : BitVec 6) (x1 : BitVec 3) (x2 : BitVec 5) (x3 : BitVec 5) (x4 : BitVec 3) (x5 : BitVec 3) (x6 : BitVec 3) (x7 : BitVec 4) :
    fld (x0 ++ x1 ++ x2 ++ x3 ++ x4 ++ x5 ++ x6 ++ x7 : W32) 10 3 = x4 :=
  ((((fld_append_hi _ _ 10 3 (by decide)).trans (fld_append_hi _ _ 6 3 (by decide))).trans (fld_append_hi _ _ 3 3 (by decide))).trans (fld_append_lo _ _ 0 3 (by decide))).trans (fld_all _)
theorem w6_3_5_5_3_3_3_4_at_7_3 (x0 : BitVec 6) (x1 : BitVec 3) (x2 : BitVec 5) (x3 : BitVec 5) (x4 : BitVec 3) (x5 : BitVec 3) (x6 : BitVec 3) (x7 : BitVec 4) :
    fld (x0 ++ x1 ++ x2 ++ x3 ++ x4 ++ x5 ++ x6 ++ x7 : W32) 7 3 = x5 :=
  (((fld_append_hi _ _ 7 3 (by decide)).trans (fld_append_hi _ _ 3 3 (by decide))).trans (fld_append_lo _ _ 0 3 (by decide))).trans (fld_all _)
theorem w6_3_5_5_3_3_3_4_at_4_3 (x0 : BitVec 6) (x1 : BitVec 3) (x2 : BitVec 5) (x3 : BitVec 5) (x4 : BitVec 3) (x5 : BitVec 3) (x6 : BitVec 3) (x7 : BitVec 4) :
    fld (x0 ++ x1 ++ x2 ++ x3 ++ x4 ++ x5 ++ x6 ++ x7 : W32) 4 3 = x6 :=
  ((fld_append_hi _ _ 4 3 (by decide)).trans (fld_append_lo _ _ 0 3 (by decide))).trans (fld_all _)
theorem w6_3_5_5_3_3_3_4_at_0_4 (x0 : BitVec 6) (x1 : BitVec 3) (x2 : BitVec 5) (x3 : BitVec 5) (x4 : BitVec 3) (x5 : BitVec 3) (x6 : BitVec 3) (x7 : BitVec 4) :
    fld (x0 ++ x1 ++ x2 ++ x3 ++ x4 ++ x5 ++ x6 ++ x7 : W32) 0 4 = x7 :=
  (fld_append_lo _ _ 0 4 (by decide)).trans (fld_all _)
theorem w6_3_5_5_3_1_1_8_at_26_6 (x0 : BitVec 6) (x1 : BitVec 3) (x2 : BitVec 5) (x3 : BitVec 5) (x4 : BitVec 3) (x5 : BitVec 1) (x6 : BitVec 1) (x7 : BitVec 8) :
    fld (x0 ++ x1 ++ x2 ++ x3 ++ x4 ++ x5 ++ x6 ++ x7 : W32) 26 6 = x0 :=
  (((((((fld_append_hi _ _ 26 6 (by decide)).trans (fld_append_hi _ _ 18 6 (by decide))).trans (fld_append_hi _ _ 17 6 (by decide))).trans (fld_append_hi _ _ 16 6 (by decide))).trans (fld_append_hi _ _ 13 6 (by decide))).trans (fld_append_hi _ _ 8 6 (by decide))).trans (fld_append_hi _ _ 3 6 (by decide))).trans (fld_all _)
theorem w6_3_5_5_3_1_1_8_at_23_3 (x0 : BitVec 6) (x1 : BitVec 3) (x2 : BitVec 5) (x3 : BitVec 5) (x4 : BitVec 3) (x5 : BitVec 1) (x6 : BitVec 1) (x7 : BitVec 8) :
    fld (x0 ++ x1 ++ x2 ++ x3 ++ x4 ++ x5 ++ x6 ++ x7 : W32) 23 3 = x1 :=
  (((((((fld_append_hi _ _ 23 3 (by decide)).trans (fld_append_hi _ _ 15 3 (by decide))).trans (fld_append_hi _ _ 14 3 (by decide))).trans (fld_append_hi _ _ 13 3 (by decide))).trans (fld_append_hi _ _ 10 3 (by decide))).trans (fld_append_hi _ _ 5 3 (by decide))).trans (fld_append_lo _ _ 0 3 (by decide))).trans (fld_all _)
theorem w6_3_5_5_3_1_1_8_at_18_5 (x0 : BitVec 6) (x1 : BitVec 3) (x2 : BitVec 5) (x3 : BitVec 5) (x4 : BitVec 3) (x5 : BitVec 1) (x6 : BitVec 1) (x7 : BitVec 8) :
    fld (x0 ++ x1 ++ x2 ++ x3 ++ x4 ++ x5 ++ x6 ++ x7 : W32) 18 5 = x2 :=
  ((((((fld_append_hi _ _ 18 5 (by decide)).trans (fld_append_hi _ _ 10 5 (by decide))).trans (fld_append_hi _ _ 9 5 (by decide))).trans (fld_append_hi _ _ 8 5 (by decide))).trans (fld_append_hi _ _ 5 5 (by decide))).trans (fld_append_lo _ _ 0 5 (by decide))).trans (fld_all _)
theorem w6_3_5_5_3_1_1_8_at_13_5 (x0 : BitVec 6) (x1 : BitVec 3) (x2 : BitVec 5) (x3 : BitVec 5) (x4 : BitVec 3) (x5 : BitVec 1) (x6 : BitVec 1) (x7 : BitVec 8) :
    fld (x0 ++ x1 ++ x2 ++ x3 ++ x4 ++ x5 ++ x6 ++ x7 : W32) 13 5 = x3 :=
  (((((fld_append_hi _ _ 13 5 (by decide)).trans (fld_append_hi _ _ 5 5 (by decide))).trans (fld_append_hi _ _ 4 5 (by decide))).trans (fld_append_hi _ _ 3 5 (by decide))).trans (fld_append_lo _ _ 0 5 (by decide))).trans (fld_all _)
theorem w6_3_5_5_3_1_1_8_at_10_3 (x0 : BitVec 6) (x1 : BitVec 3) (x2 : BitVec 5) (x3 : BitVec 5) (x4 : BitVec 3) (x5 : BitVec 1) (x6 : BitVec 1) (x7 : BitVec 8) :
    fld (x0 ++ x1 ++ x2 ++ x3 ++ x4 ++ x5 ++ x6 ++ x7 : W32) 10 3 = x4 :=
  ((((fld_append_hi _ _ 10 3 (by decide)).trans (fld_append_hi _ _ 2 3 (by decide))).trans (fld_append_hi _ _ 1 3 (by decide))).trans (fld_append_lo _ _ 0 3 (by decide))).trans (fld_all _)
theorem w6_3_5_5_3_1_1_8_at_9_1 (x0 : BitVec 6) (x1 : BitVec 3) (x2 : BitVec 5) (x3 : BitVec 5) (x4 : BitVec 3) (x5 : BitVec 1) (x6 : BitVec 1) (x7 : BitVec 8) :
    fld (x0 ++ x1 ++ x2 ++ x3 ++ x4 ++ x5 ++ x6 ++ x7 : W32) 9 1 = x5 :=
  (((fld_append_hi _ _ 9 1 (by decide)).trans (fld_append_hi _ _ 1 1 (by decide))).trans (fld_append_lo _ _ 0 1 (by decide))).trans (fld_all _)
theorem w6_3_5_5_3_1_1_8_at_8_1 (x0 : BitVec 6) (x1 : BitVec 3) (x2 : BitVec 5) (x3 : BitVec 5) (x4 : BitVec 3) (x5 : BitVec 1) (x6 : BitVec 1) (x7 : BitVec 8) :
    fld (x0 ++ x1 ++ x2 ++ x3 ++ x4 ++ x5 ++ x6 ++ x7 : W32) 8 1 = x6 :=
  ((fld_append_hi _ _ 8 1 (by decide)).trans (fld_append_lo _ _ 0 1 (by decide))).trans (fld_all _)
theorem w6_3_5_5_3_1_1_8_at_7_1 (x0 : BitVec 6) (x1 : BitVec 3) (x2 : BitVec 5) (x3 : BitVec 5) (x4 : BitVec 3) (x5 : BitVec 1) (x6 : BitVec 1) (x7 : BitVec 8) :
    fld (x0 ++ x1 ++ x2 ++ x3 ++ x4 ++ x5 ++ x6 ++ x7 : W32) 7 1 = fld x7 7 1 :=
  (fld_append_lo _ _ 7 1 (by decide))
theorem w6_3_5_5_3_1_1_8_at_6_1 (x0 : BitVec 6) (x1 : BitVec 3) (x2 : BitVec 5) (x3 : BitVec 5) (x4 : BitVec 3) (x5 : BitVec 1) (x6 : BitVec 1) (x7 : BitVec 8) :
    fld (x0 ++ x1 ++ x2 ++ x3 ++ x4 ++ x5 ++ x6 ++ x7 : W32) 6 1 = fld x7 6 1 :=
  (fld_append_lo _ _ 6 1 (by decide))
theorem w6_3_5_5_3_1_1_8_at_4_2 (x0 : BitVec 6) (x1 : BitVec 3) (x2 : BitVec 5) (x3 : BitVec 5) (x4 : BitVec 3) (x5 : BitVec 1) (x6 : BitVec 1) (x7 : BitVec 8) :
    fld (x0 ++ x1 ++ x2 ++ x3 ++ x4 ++ x5 ++ x6 ++ x7 : W32) 4 2 = fld x7 4 2 :=
  (fld_append_lo _ _ 4 2 (by decide))
theorem w6_3_5_5_3_1_1_8_at_4_3 (x0 : BitVec 6) (x1 : BitVec 3) (x2 : BitVec 5) (x3 : BitVec 5) (x4 : BitVec 3) (x5 : BitVec 1) (x6 : BitVec 1) (x7 : BitVec 8) :
    fld (x0 ++ x1 ++ x2 ++ x3 ++ x4 ++ x5 ++ x6 ++ x7 : W32) 4 3 = fld x7 4 3 :=
  (fld_append_lo _ _ 4 3 (by decide))
theorem w6_3_5_5_3_1_1_8_at_0_4 (x0 : BitVec 6) (x1 : BitVec 3) (x2 : BitVec 5) (x3 : BitVec 5) (x4 : BitVec 3) (x5 : BitVec 1) (x6 : BitVec 1) (x7 : BitVec 8) :
    fld (x0 ++ x1 ++ x2 ++ x3 ++ x4 ++ x5 ++ x6 ++ x7 : W32) 0 4 = fld x7 0 4 :=
  (fld_append_lo _ _ 0 4 (by decide))
theorem w6_3_5_5_3_1_1_8_at_0_8 (x0 : BitVec 6) (x1 : BitVec 3) (x2 : BitVec 5) (x3 : BitVec 5) (x4 : BitVec 3) (x5 : BitVec 1) (x6 : BitVec 1) (x7 : BitVec 8) :
    fld (x0 ++ x1 ++ x2 ++ x3 ++ x4 ++ x5 ++ x6 ++ x7 : W32) 0 8 = x7 :=
  (fld_append_lo _ _ 0 8 (by decide)).trans (fld_all _)
theorem w6_3_5_5_3_1_1_4_4_at_26_6 (x0 : BitVec 6) (x1 : BitVec 3) (x2 : BitVec 5) (x3 : BitVec 5) (x4 : BitVec 3) (x5 : BitVec 1) (x6 : BitVec 1) (x7 : BitVec 4) (x8 : BitVec 4) :
    fld (x0 ++ x1 ++ x2 ++ x3 ++ x4 ++ x5 ++ x6 ++ x7 ++ x8 : W32) 26 6 = x0 :=
  ((((((((fld_append_hi _ _ 26 6 (by decide)).trans (fld_append_hi _ _ 22 6 (by decide))).trans (fld_append_hi _ _ 18 6 (by decide))).trans (fld_append_hi _ _ 17 6 (by decide))).trans (fld_append_hi _ _ 16 6 (by decide))).trans (fld_append_hi _ _ 13 6 (by decide))).trans (fld_append_hi _ _ 8 6 (by decide))).trans (fld_append_hi _ _ 3 6 (by decide))).trans (fld_all _)
theorem w6_3_5_5_3_1_1_4_4_at_23_3 (x0 : BitVec 6) (x1 : BitVec 3) (x2 : BitVec 5) (x3 : BitVec 5) (x4 : BitVec 3) (x5 : BitVec 1) (x6 : BitVec 1) (x7 : BitVec 4) (x8 : BitVec 4) :
    fld (x0 ++ x1 ++ x2 ++ x3 ++ x4 ++ x5 ++ x6 ++ x7 ++ x8 : W32) 23 3 = x1 :=
  ((((((((fld_append_hi _ _ 23 3 (by decide)).trans (fld_append_hi _ _ 19 3 (by decide))).trans (fld_append_hi _ _ 15 3 (by decide))).trans (fld_append_hi _ _ 14 3 (by decide))).trans (fld_append_hi _ _ 13 3 (by decide))).trans (fld_append_hi _ _ 10 3 (by decide))).trans (fld_append_hi _ _ 5 3 (by decide))).trans (fld_append_lo _ _ 0 3 (by decide))).trans (fld_all _)
theorem w6_3_5_5_3_1_1_4_4_at_18_5 (x0 : BitVec 6) (x1 : BitVec 3) (x2 : BitVec 5) (x3 : BitVec 5) (x4 : BitVec 3) (x5 : BitVec 1) (x6 : BitVec 1) (x7 : BitVec 4) (x8 : BitVec 4) :
    fld (x0 ++ x1 ++ x2 ++ x3 ++ x4 ++ x5 ++ x6 ++ x7 ++ x8 : W32) 18 5 = x2 :=
  (((((((fld_append_hi _ _ 18 5 (by decide)).trans (fld_append_hi _ _ 14 5 (by decide))).trans (fld_append_hi _ _ 10 5 (by decide))).trans (fld_append_hi _ _ 9 5 (by decide))).trans (fld_append_hi _ _ 8 5 (by decide))).trans (fld_append_hi _ _ 5 5 (by decide))).trans (fld_append_lo _ _ 0 5 (by decide))).trans (fld_all _)
theorem w6_3_5_5_3_1_1_4_4_at_13_5 (x0 : BitVec 6) (x1 : BitVec 3) (x2 : BitVec 5) (x3 : BitVec 5) (x4 : BitVec 3) (x5 : BitVec 1) (x6 : BitVec 1) (x7 : BitVec 4) (x8 : BitVec 4) :
    fld (x0 ++ x1 ++ x2 ++ x3 ++ x4 ++ x5 ++ x6 ++ x7 ++ x8 : W32) 13 5 = x3 :=
  ((((((fld_append_hi _ _ 13 5 (by decide)).trans (fld_append_hi _ _ 9 5 (by decide))).trans (fld_append_hi _ _ 5 5 (by decide))).trans (fld_append_hi _ _ 4 5 (by decide))).trans (fld_append_hi _ _ 3 5 (by decide))).trans (fld_append_lo _ _ 0 5 (by decide))).trans (fld_all _)
theorem w6_3_5_5_3_1_1_4_4_at_10_3 (x0 : BitVec 6) (x1 : BitVec 3) (x2 : BitVec 5) (x3 : BitVec 5) (x4 : BitVec 3) (x5 : BitVec 1) (x6 : BitVec 1) (x7 : BitVec 4) (x8 : BitVec 4) :
    fld (x0 ++ x1 ++ x2 ++ x3 ++ x4 ++ x5 ++ x6 ++ x7 ++ x8 : W32) 10 3 = x4 :=
  (((((fld_append_hi _ _ 10 3 (by decide)).trans (fld_append_hi _ _ 6 3 (by decide))).trans (fld_append_hi _ _ 2 3 (by decide))).trans (fld_append_hi _ _ 1 3 (by decide))).trans (fld_append_lo _ _ 0 3 (by decide))).trans (fld_all _)
theorem w6_3_5_5_3_1_1_4_4_at_9_1 (x0 : BitVec 6) (x1 : BitVec 3) (x2 : BitVec 5) (x3 : BitVec 5) (x4 : BitVec 3) (x5 : BitVec 1) (x6 : BitVec 1) (x7 : BitVec 4) (x8 : BitVec 4) :
    fld (x0 ++ x1 ++ x2 ++ x3 ++ x4 ++ x5 ++ x6 ++ x7 ++ x8 : W32) 9 1 = x5 :=
  ((((fld_append_hi _ _ 9 1 (by decide)).trans (fld_append_hi _ _ 5 1 (by decide))).trans (fld_append_hi _ _ 1 1 (by decide))).trans (fld_append_lo _ _ 0 1 (by decide))).trans (fld_all _)
theorem w6_3_5_5_3_1_1_4_4_at_8_1 (x0 : BitVec 6) (x1 : BitVec 3) (x2 : BitVec 5) (x3 : BitVec 5) (x4 : BitVec 3) (x5 : BitVec 1) (x6 : BitVec 1) (x7 : BitVec 4) (x8 : BitVec 4) :
    fld (x0 ++ x1 ++ x2 ++ x3 ++ x4 ++ x5 ++ x6 ++ x7 ++ x8 : W32) 8 1 = x6 :=
  (((fld_append_hi _ _ 8 1 (by decide)).trans (fld_append_hi _ _ 4 1 (by decide))).trans (fld_append_lo _ _ 0 1 (by decide))).trans (fld_all _)
theorem w6_3_5_5_3_1_1_4_4_at_4_4 (x0 : BitVec 6) (x1 : BitVec 3) (x2 : BitVec 5) (x3 : BitVec 5) (x4 : BitVec 3) (x5 : BitVec 1) (x6 : BitVec 1) (x7 : BitVec 4) (x8 : BitVec 4) :
    fld (x0 ++ x1 ++ x2 ++ x3 ++ x4 ++ x5 ++ x6 ++ x7 ++ x8 : W32) 4 4 = x7 :=
  ((fld_append_hi _ _ 4 4 (by decide)).trans (fld_append_lo _ _ 0 4 (by decide))).trans (fld_all _)
theorem w6_3_5_5_3_1_1_4_4_at_0_4 (x0 : BitVec 6) (x1 : BitVec 3) (x2 : BitVec 5) (x3 : BitVec 5) (x4 : BitVec 3) (x5 : BitVec 1) (x6 : BitVec 1) (x7 : BitVec 4) (x8 : BitVec 4) :
    fld (x0 ++ x1 ++ x2 ++ x3 ++ x4 ++ x5 ++ x6 ++ x7 ++ x8 : W32) 0 4 = x8 :=
  (fld_append_lo _ _ 0 4 (by decide)).trans (fld_all _)
theorem w6_3_5_5_3_2_4_4_at_26_6 (x0 : BitVec 6) (x1 : BitVec 3) (x2 : BitVec 5) (x3 : BitVec 5) (x4 : BitVec 3) (x5 : BitVec 2) (x6 : BitVec 4) (x7 : BitVec 4) :
    fld (x0 ++ x1 ++ x2 ++ x3 ++ x4 ++ x5 ++ x6 ++ x7 : W32) 26 6 = x0 :=
  (((((((fld_append_hi _ _ 26 6 (by decide)).trans (fld_append_hi _ _ 22 6 (by decide))).trans (fld_append_hi _ _ 18 6 (by decide))).trans (fld_append_hi _ _ 16 6 (by decide))).trans (fld_append_hi _ _ 13 6 (by decide))).trans (fld_append_hi _ _ 8 6 (by decide))).trans (fld_append_hi _ _ 3 6 (by decide))).trans (fld_all _)
theorem w6_3_5_5_3_2_4_4_at_23_3 (x0 : BitVec 6) (x1 : BitVec 3) (x2 : BitVec 5) (x3 : BitVec 5) (x4 : BitVec 3) (x5 : BitVec 2) (x6 : BitVec 4) (x7 : BitVec 4) :
    fld (x0 ++ x1 ++ x2 ++ x3 ++ x4 ++ x5 ++ x6 ++ x7 : W32) 23 3 = x1 :=
  (((((((fld_append_hi _ _ 23 3 (by decide)).trans (fld_append_hi _ _ 19 3 (by decide))).trans (fld_append_hi _ _ 15 3 (by decide))).trans (fld_append_hi _ _ 13 3 (by decide))).trans (fld_append_hi _ _ 10 3 (by decide))).trans (fld_append_hi _ _ 5 3 (by decide))).trans (fld_append_lo _ _ 0 3 (by decide))).trans (fld_all _)
theorem w6_3_5_5_3_2_4_4_at_18_5 (x0 : BitVec 6) (x1 : BitVec 3) (x2 : BitVec 5) (x3 : BitVec 5) (x4 : BitVec 3) (x5 : BitVec 2) (x6 : BitVec 4) (x7 : BitVec 4) :
    fld (x0 ++ x1 ++ x2 ++ x3 ++ x4 ++ x5 ++ x6 ++ x7 : W32) 18 5 = x2 :=
  ((((((fld_append_hi _ _ 18 5 (by decide)).trans (fld_append_hi _ _ 14 5 (by decide))).trans (fld_append_hi _ _ 10 5 (by decide))).trans (fld_append_hi _ _ 8 5 (by decide))).trans (fld_append_hi _ _ 5 5 (by decide))).trans (fld_append_lo _ _ 0 5 (by decide))).trans (fld_all _)
theorem w6_3_5_5_3_2_4_4_at_13_5 (x0 : BitVec 6) (x1 : BitVec 3) (x2 : BitVec 5) (x3 : BitVec 5) (x4 : BitVec 3) (x5 : BitVec 2) (x6 : BitVec 4) (x7 : BitVec 4) :
    fld (x0 ++ x1 ++ x2 ++ x3 ++ x4 ++ x5 ++ x6 ++ x7 : W32) 13 5 = x3 :=
  (((((fld_append_hi _ _ 13 5 (by decide)).trans (fld_append_hi _ _ 9 5 (by decide))).trans (fld_append_hi _ _ 5 5 (by decide))).trans (fld_append_hi _ _ 3 5 (by decide))).trans (fld_append_lo _ _ 0 5 (by decide))).trans (fld_all _)
theorem w6_3_5_5_3_2_4_4_at_10_3 (x0 : BitVec 6) (x1 : BitVec 3) (x2 : BitVec 5) (x3 : BitVec 5) (x4 : BitVec 3) (x5 : BitVec 2) (x6 : BitVec 4) (x7 : BitVec 4) :
    fld (x0 ++ x1 ++ x2 ++ x3 ++ x4 ++ x5 ++ x6 ++ x7 : W32) 10 3 = x4 :=
  ((((fld_append_hi _ _ 10 3 (by decide)).trans (fld_append_hi _ _ 6 3 (by decide))).trans (fld_append_hi _ _ 2 3 (by decide))).trans (fld_append_lo _ _ 0 3 (by decide))).trans (fld_all _)
theorem w6_3_5_5_3_2_4_4_at_8_2 (x0 : BitVec 6) (x1 : BitVec 3) (x2 : BitVec 5) (x3 : BitVec 5) (x4 : BitVec 3) (x5 : BitVec 2) (x6 : BitVec 4) (x7 : BitVec 4) :
    fld (x0 ++ x1 ++ x2 ++ x3 ++ x4 ++ x5 ++ x6 ++ x7 : W32) 8 2 = x5 :=
  (((fld_append_hi _ _ 8 2 (by decide)).trans (fld_append_hi _ _ 4 2 (by decide))).trans (fld_append_lo _ _ 0 2 (by decide))).trans (fld_all _)
theorem w6_3_5_5_3_2_4_4_at_4_4 (x0 : BitVec 6) (x1 : BitVec 3) (x2 : BitVec 5) (x3 : BitVec 5) (x4 : BitVec 3) (x5 : BitVec 2) (x6 : BitVec 4) (x7 : BitVec 4) :
    fld (x0 ++ x1 ++ x2 ++ x3 ++ x4 ++ x5 ++ x6 ++ x7 : W32) 4 4 = x6 :=
  ((fld_append_hi _ _ 4 4 (by decide)).trans (fld_append_lo _ _ 0 4 (by decide))).trans (fld_all _)
theorem w6_3_5_5_3_2_4_4_at_0_4 (x0 : BitVec 6) (x1 : BitVec 3) (x2 : BitVec 5) (x3 : BitVec 5) (x4 : BitVec 3) (x5 : BitVec 2) (x6 : BitVec 4) (x7 : BitVec 4) :
    fld (x0 ++ x1 ++ x2 ++ x3 ++ x4 ++ x5 ++ x6 ++ x7 : W32) 0 4 = x7 :=
  (fld_append_lo _ _ 0 4 (by decide)).trans (fld_all _)
theorem w6_3_5_5_3_1_2_3_4_at_26_6 (x0 : BitVec 6) (x1 : BitVec 3) (x2 : BitVec 5) (x3 : BitVec 5) (x4 : BitVec 3) (x5 : BitVec 1) (x6 : BitVec 2) (x7 : BitVec 3) (x8 : BitVec 4) :
    fld (x0 ++ x1 ++ x2 ++ x3 ++ x4 ++ x5 ++ x6 ++ x7 ++ x8 : W32) 26 6 = x0 :=
  ((((((((fld_append_hi _ _ 26 6 (by decide)).trans (fld_append_hi _ _ 22 6 (by decide))).trans (fld_append_hi _ _ 19 6 (by decide))).trans (fld_append_hi _ _ 17 6 (by decide))).trans (fld_append_hi _ _ 16 6 (by decide))).trans (fld_append_hi _ _ 13 6 (by decide))).trans (fld_append_hi _ _ 8 6 (by decide))).trans (fld_append_hi _ _ 3 6 (by decide))).trans (fld_all _)
theorem w6_3_5_5_3_1_2_3_4_at_23_3 (x0 : BitVec 6) (x1 : BitVec 3) (x2 : BitVec 5) (x3 : BitVec 5) (x4 : BitVec 3) (x5 : BitVec 1) (x6 : BitVec 2) (x7 : BitVec 3) (x8 : BitVec 4) :
    fld (x0 ++ x1 ++ x2 ++ x3 ++ x4 ++ x5 ++ x6 ++ x7 ++ x8 : W32) 23 3 = x1 :=
  ((((((((fld_append_hi _ _ 23 3 (by decide)).trans (fld_append_hi _ _ 19 3 (by decide))).trans (fld_append_hi _ _ 16 3 (by decide))).trans (fld_append_hi _ _ 14 3 (by decide))).trans (fld_append_hi _ _ 13 3 (by decide))).trans (fld_append_hi _ _ 10 3 (by decide))).trans (fld_append_hi _ _ 5 3 (by decide))).trans (fld_append_lo _ _ 0 3 (by decide))).trans (fld_all _)
theorem w6_3_5_5_3_1_2_3_4_at_18_5 (x0 : BitVec 6) (x1 : BitVec 3) (x2 : BitVec 5) (x3 : BitVec 5) (x4 : BitVec 3) (x5 : BitVec 1) (x6 : BitVec 2) (x7 : BitVec 3) (x8 : BitVec 4) :
    fld (x0 ++ x1 ++ x2 ++ x3 ++ x4 ++ x5 ++ x6 ++ x7 ++ x8 : W32) 18 5 = x2 :=
  (((((((fld_append_hi _ _ 18 5 (by decide)).trans (fld_append_hi _ _ 14 5 (by decide))).trans (fld_append_hi _ _ 11 5 (by decide))).trans (fld_append_hi _ _ 9 5 (by decide))).trans (fld_append_hi _ _ 8 5 (by decide))).trans (fld_append_hi _ _ 5 5 (by decide))).trans (fld_append_lo _ _ 0 5 (by decide))).trans (fld_all _)
theorem w6_3_5_5_3_1_2_3_4_at_13_5 (x0 : BitVec 6) (x1 : BitVec 3) (x2 : BitVec 5) (x3 : BitVec 5) (x4 : BitVec 3) (x5 : BitVec 1) (x6 : BitVec 2) (x7 : BitVec 3) (x8 : BitVec 4) :
    fld (x0 ++ x1 ++ x2 ++ x3 ++ x4 ++ x5 ++ x6 ++ x7 ++ x8 : W32) 13 5 = x3 :=
  ((((((fld_append_hi _ _ 13 5 (by decide)).trans (fld_append_hi _ _ 9 5 (by decide))).trans (fld_append_hi _ _ 6 5 (by decide))).trans (fld_append_hi _ _ 4 5 (by decide))).trans (fld_append_hi _ _ 3 5 (by decide))).trans (fld_append_lo _ _ 0 5 (by decide))).trans (fld_all _)
theorem w6_3_5_5_3_1_2_3_4_at_10_3 (x0 : BitVec 6) (x1 : BitVec 3) (x2 : BitVec 5) (x3 : BitVec 5) (x4 : BitVec 3) (x5 : BitVec 1) (x6 : BitVec 2) (x7 : BitVec 3) (x8 : BitVec 4) :
    fld (x0 ++ x1 ++ x2 ++ x3 ++ x4 ++ x5 ++ x6 ++ x7 ++ x8 : W32) 10 3 = x4 :=
  (((((fld_append_hi _ _ 10 3 (by decide)).trans (fld_append_hi _ _ 6 3 (by decide))).trans (fld_append_hi _ _ 3 3 (by decide))).trans (fld_append_hi _ _ 1 3 (by decide))).trans (fld_append_lo _ _ 0 3 (by decide))).trans (fld_all _)
theorem w6_3_5_5_3_1_2_3_4_at_9_1 (x0 : BitVec 6) (x1 : BitVec 3) (x2 : BitVec 5) (x3 : BitVec 5) (x4 : BitVec 3) (x5 : BitVec 1) (x6 : BitVec 2) (x7 : BitVec 3) (x8 : BitVec 4) :
    fld (x0 ++ x1 ++ x2 ++ x3 ++ x4 ++ x5 ++ x6 ++ x7 ++ x8 : W32) 9 1 = x5 :=
  ((((fld_append_hi _ _ 9 1 (by decide)).trans (fld_append_hi _ _ 5 1 (by decide))).trans (fld_append_hi _ _ 2 1 (by decide))).trans (fld_append_lo _ _ 0 1 (by decide))).trans (fld_all _)
theorem w6_3_5_5_3_1_2_3_4_at_8_1 (x0 : BitVec 6) (x1 : BitVec 3) (x2 : BitVec 5) (x3 : BitVec 5) (x4 : BitVec 3) (x5 : BitVec 1) (x6 : BitVec 2) (x7 : BitVec 3) (x8 : BitVec 4) :
    fld (x0 ++ x1 ++ x2 ++ x3 ++ x4 ++ x5 ++ x6 ++ x7 ++ x8 : W32) 8 1 = fld x6 1 1 :=
  ((fld_append_hi _ _ 8 1 (by decide)).trans (fld_append_hi _ _ 4 1 (by decide))).trans (fld_append_lo _ _ 1 1 (by decide))
theorem w6_3_5_5_3_1_2_3_4_at_7_1 (x0 : BitVec 6) (x1 : BitVec 3) (x2 : BitVec 5) (x3 : BitVec 5) (x4 : BitVec 3) (x5 : BitVec 1) (x6 : BitVec 2) (x7 : BitVec 3) (x8 : BitVec 4) :
    fld (x0 ++ x1 ++ x2 ++ x3 ++ x4 ++ x5 ++ x6 ++ x7 ++ x8 : W32) 7 1 = fld x6 0 1 :=
  ((fld_append_hi _ _ 7 1 (by decide)).trans (fld_append_hi _ _ 3 1 (by decide))).trans (fld_append_lo _ _ 0 1 (by decide))
theorem w6_3_5_5_3_1_2_3_4_at_6_1 (x0 : BitVec 6) (x1 : BitVec 3) (x2 : BitVec 5) (x3 : BitVec 5) (x4 : BitVec 3) (x5 : BitVec 1) (x6 : BitVec 2) (x7 : BitVec 3) (x8 : BitVec 4) :
    fld (x0 ++ x1 ++ x2 ++ x3 ++ x4 ++ x5 ++ x6 ++ x7 ++ x8 : W32) 6 1 = fld x7 2 1 :=
  (fld_append_hi _ _ 6 1 (by decide)).trans (fld_append_lo _ _ 2 1 (by decide))
theorem w6_3_5_5_3_1_2_3_4_at_4_2 (x0 : BitVec 6) (x1 : BitVec 3) (x2 : BitVec 5) (x3 : BitVec 5) (x4 : BitVec 3) (x5 : BitVec 1) (x6 : BitVec 2) (x7 : BitVec 3) (x8 : BitVec 4) :
    fld (x0 ++ x1 ++ x2 ++ x3 ++ x4 ++ x5 ++ x6 ++ x7 ++ x8 : W32) 4 2 = fld x7 0 2 :=
  (fld_append_hi _ _ 4 2 (by decide)).trans (fld_append_lo _ _ 0 2 (by decide))
theorem w6_3_5_5_3_1_2_3_4_at_4_3 (x0 : BitVec 6) (x1 : BitVec 3) (x2 : BitVec 5) (x3 : BitVec 5) (x4 : BitVec 3) (x5 : BitVec 1) (x6 : BitVec 2) (x7 : BitVec 3) (x8 : BitVec 4) :
    fld (x0 ++ x1 ++ x2 ++ x3 ++ x4 ++ x5 ++ x6 ++ x7 ++ x8 : W32) 4 3 = x7 :=
  ((fld_append_hi _ _ 4 3 (by decide)).trans (fld_append_lo _ _ 0 3 (by decide))).trans (fld_all _)
theorem w6_3_5_5_3_1_2_3_4_at_0_4 (x0 : BitVec 6) (x1 : BitVec 3) (x2 : BitVec 5) (x3 : BitVec 5) (x4 : BitVec 3) (x5 : BitVec 1) (x6 : BitVec 2) (x7 : BitVec 3) (x8 : BitVec 4) :
    fld (x0 ++ x1 ++ x2 ++ x3 ++ x4 ++ x5 ++ x6 ++ x7 ++ x8 : W32) 0 4 = x8 :=
  (fld_append_lo _ _ 0 4 (by decide)).trans (fld_all _)
theorem w6_3_5_5_3_1_1_1_1_2_4_at_26_6 (x0 : BitVec 6) (x1 : BitVec 3) (x2 : BitVec 5) (x3 : BitVec 5) (x4 : BitVec 3) (x5 : BitVec 1) (x6 : BitVec 1) (x7 : BitVec 1) (x8 : BitVec 1) (x9 : BitVec 2) (x10 : BitVec 4) :
    fld (x0 ++ x1 ++ x2 ++ x3 ++ x4 ++ x5 ++ x6 ++ x7 ++ x8 ++ x9 ++ x10 : W32) 26 6 = x0 :=
  ((((((((((fld_append_hi _ _ 26 6 (by decide)).trans (fld_append_hi _ _ 22 6 (by decide))).trans (fld_append_hi _ _ 20 6 (by decide))).trans (fld_append_hi _ _ 19 6 (by decide))).trans (fld_append_hi _ _ 18 6 (by decide))).trans (fld_append_hi _ _ 17 6 (by decide))).trans (fld_append_hi _ _ 16 6 (by decide))).trans (fld_append_hi _ _ 13 6 (by decide))).trans (fld_append_hi _ _ 8 6 (by decide))).trans (fld_append_hi _ _ 3 6 (by decide))).trans (fld_all _)
theorem w6_3_5_5_3_1_1_1_1_2_4_at_23_3 (x0 : BitVec 6) (x1 : BitVec 3) (x2 : BitVec 5) (x3 : BitVec 5) (x4 : BitVec 3) (x5 : BitVec 1) (x6 : BitVec 1) (x7 : BitVec 1) (x8 : BitVec 1) (x9 : BitVec 2) (x10 : BitVec 4) :
    fld (x0 ++ x1 ++ x2 ++ x3 ++ x4 ++ x5 ++ x6 ++ x7 ++ x8 ++ x9 ++ x10 : W32) 23 3 = x1 :=
  ((((((((((fld_append_hi _ _ 23 3 (by decide)).trans (fld_append_hi _ _ 19 3 (by decide))).trans (fld_append_hi _ _ 17 3 (by decide))).trans (fld_append_hi _ _ 16 3 (by decide))).trans (fld_append_hi _ _ 15 3 (by decide))).trans (fld_append_hi _ _ 14 3 (by decide))).trans (fld_append_hi _ _ 13 3 (by decide))).trans (fld_append_hi _ _ 10 3 (by decide))).trans (fld_append_hi _ _ 5 3 (by decide))).trans (fld_append_lo _ _ 0 3 (by decide))).trans (fld_all _)
theorem w6_3_5_5_3_1_1_1_1_2_4_at_18_5 (x0 : BitVec 6) (x1 : BitVec 3) (x2 : BitVec 5) (x3 : BitVec 5) (x4 : BitVec 3) (x5 : BitVec 1) (x6 : BitVec 1) (x7 : BitVec 1) (x8 : BitVec 1) (x9 : BitVec 2) (x10 : BitVec 4) :
    fld (x0 ++ x1 ++ x2 ++ x3 ++ x4 ++ x5 ++ x6 ++ x7 ++ x8 ++ x9 ++ x10 : W32) 18 5 = x2 :=
  (((((((((fld_append_hi _ _ 18 5 (by decide)).trans (fld_append_hi _ _ 14 5 (by decide))).trans (fld_append_hi _ _ 12 5 (by decide))).trans (fld_append_hi _ _ 11 5 (by decide))).trans (fld_append_hi _ _ 10 5 (by decide))).trans (fld_append_hi _ _ 9 5 (by decide))).trans (fld_append_hi _ _ 8 5 (by decide))).trans (fld_append_hi _ _ 5 5 (by decide))).trans (fld_append_lo _ _ 0 5 (by decide))).trans (fld_all _)
theorem w6_3_5_5_3_1_1_1_1_2_4_at_13_5 (x0 : BitVec 6) (x1 : BitVec 3) (x2 : BitVec 5) (x3 : BitVec 5) (x4 : BitVec 3) (x5 : BitVec 1) (x6 : BitVec 1) (x7 : BitVec 1) (x8 : BitVec 1) (x9 : BitVec 2) (x10 : BitVec 4) :
    fld (x0 ++ x1 ++ x2 ++ x3 ++ x4 ++ x5 ++ x6 ++ x7 ++ x8 ++ x9 ++ x10 : W32) 13 5 = x3 :=
  ((((((((fld_append_hi _ _ 13 5 (by decide)).trans (fld_append_hi _ _ 9 5 (by decide))).trans (fld_append_hi _ _ 7 5 (by decide))).trans (fld_append_hi _ _ 6 5 (by decide))).trans (fld_append_hi _ _ 5 5 (by decide))).trans (fld_append_hi _ _ 4 5 (by decide))).trans (fld_append_hi _ _ 3 5 (by decide))).trans (fld_append_lo _ _ 0 5 (by decide))).trans (fld_all _)
theorem w6_3_5_5_3_1_1_1_1_2_4_at_10_3 (x0 : BitVec 6) (x1 : BitVec 3) (x2 : BitVec 5) (x3 : BitVec 5) (x4 : BitVec 3) (x5 : BitVec 1) (x6 : BitVec 1) (x7 : BitVec 1) (x8 : BitVec 1) (x9 : BitVec 2) (x10 : BitVec 4) :
    fld (x0 ++ x1 ++ x2 ++ x3 ++ x4 ++ x5 ++ x6 ++ x7 ++ x8 ++ x9 ++ x10 : W32) 10 3 = x4 :=
  (((((((fld_append_hi _ _ 10 3 (by decide)).trans (fld_append_hi _ _ 6 3 (by decide))).trans (fld_append_hi _ _ 4 3 (by decide))).trans (fld_append_hi _ _ 3 3 (by decide))).trans (fld_append_hi _ _ 2 3 (by decide))).trans (fld_append_hi _ _ 1 3 (by decide))).trans (fld_append_lo _ _ 0 3 (by decide))).trans (fld_all _)
theorem w6_3_5_5_3_1_1_1_1_2_4_at_9_1 (x0 : BitVec 6) (x1 : BitVec 3) (x2 : BitVec 5) (x3 : BitVec 5) (x4 : BitVec 3) (x5 : BitVec 1) (x6 : BitVec 1) (x7 : BitVec 1) (x8 : BitVec 1) (x9 : BitVec 2) (x10 : BitVec 4) :
    fld (x0 ++ x1 ++ x2 ++ x3 ++ x4 ++ x5 ++ x6 ++ x7 ++ x8 ++ x9 ++ x10 : W32) 9 1 = x5 :=
  ((((((fld_append_hi _ _ 9 1 (by decide)).trans (fld_append_hi _ _ 5 1 (by decide))).trans (fld_append_hi _ _ 3 1 (by decide))).trans (fld_append_hi _ _ 2 1 (by decide))).trans (fld_append_hi _ _ 1 1 (by decide))).trans (fld_append_lo _ _ 0 1 (by decide))).trans (fld_all _)
theorem w6_3_5_5_3_1_1_1_1_2_4_at_8_1 (x0 : BitVec 6) (x1 : BitVec 3) (x2 : BitVec 5) (x3 : BitVec 5) (x4 : BitVec 3) (x5 : BitVec 1) (x6 : BitVec 1) (x7 : BitVec 1) (x8 : BitVec 1) (x9 : BitVec 2) (x10 : BitVec 4) :
    fld (x0 ++ x1 ++ x2 ++ x3 ++ x4 ++ x5 ++ x6 ++ x7 ++ x8 ++ x9 ++ x10 : W32) 8 1 = x6 :=
  (((((fld_append_hi _ _ 8 1 (by decide)).trans (fld_append_hi _ _ 4 1 (by decide))).trans (fld_append_hi _ _ 2 1 (by decide))).trans (fld_append_hi _ _ 1 1 (by decide))).trans (fld_append_lo _ _ 0 1 (by decide))).trans (fld_all _)
theorem w6_3_5_5_3_1_1_1_1_2_4_at_7_1 (x0 : BitVec 6) (x1 : BitVec 3) (x2 : BitVec 5) (x3 : BitVec 5) (x4 : BitVec 3) (x5 : BitVec 1) (x6 : BitVec 1) (x7 : BitVec 1) (x8 : BitVec 1) (x9 : BitVec 2) (x10 : BitVec 4) :
    fld (x0 ++ x1 ++ x2 ++ x3 ++ x4 ++ x5 ++ x6 ++ x7 ++ x8 ++ x9 ++ x10 : W32) 7 1 = x7 :=
  ((((fld_append_hi _ _ 7 1 (by decide)).trans (fld_append_hi _ _ 3 1 (by decide))).trans (fld_append_hi _ _ 1 1 (by decide))).trans (fld_append_lo _ _ 0 1 (by decide))).trans (fld_all _)
theorem w6_3_5_5_3_1_1_1_1_2_4_at_6_1 (x0 : BitVec 6) (x1 : BitVec 3) (x2 : BitVec 5) (x3 : BitVec 5) (x4 : BitVec 3) (x5 : BitVec 1) (x6 : BitVec 1) (x7 : BitVec 1) (x8 : BitVec 1) (x9 : BitVec 2) (x10 : BitVec 4) :
    fld (x0 ++ x1 ++ x2 ++ x3 ++ x4 ++ x5 ++ x6 ++ x7 ++ x8 ++ x9 ++ x10 : W32) 6 1 = x8 :=
  (((fld_append_hi _ _ 6 1 (by decide)).trans (fld_append_hi _ _ 2 1 (by decide))).trans (fld_append_lo _ _ 0 1 (by decide))).trans (fld_all _)
theorem w6_3_5_5_3_1_1_1_1_2_4_at_4_2 (x0 : BitVec 6) (x1 : BitVec 3) (x2 : BitVec 5) (x3 : BitVec 5) (x4 : BitVec 3) (x5 : BitVec 1) (x6 : BitVec 1) (x7 : BitVec 1) (x8 : BitVec 1) (x9 : BitVec 2) (x10 : BitVec 4) :
    fld (x0 ++ x1 ++ x2 ++ x3 ++ x4 ++ x5 ++ x6 ++ x7 ++ x8 ++ x9 ++ x10 : W32) 4 2 = x9 :=
  ((fld_append_hi _ _ 4 2 (by decide)).trans (fld_append_lo _ _ 0 2 (by decide))).trans (fld_all _)
theorem w6_3_5_5_3_1_1_1_1_2_4_at_0_4 (x0 : BitVec 6) (x1 : BitVec 3) (x2 : BitVec 5) (x3 : BitVec 5) (x4 : BitVec 3) (x5 : BitVec 1) (x6 : BitVec 1) (x7 : BitVec 1) (x8 : BitVec 1) (x9 : BitVec 2) (x10 : BitVec 4) :
    fld (x0 ++ x1 ++ x2 ++ x3 ++ x4 ++ x5 ++ x6 ++ x7 ++ x8 ++ x9 ++ x10 : W32) 0 4 = x10 :=
  (fld_append_lo _ _ 0 4 (by decide)).trans (fld_all _)
theorem w6_3_5_5_3_5_1_4_at_26_6 (x0 : BitVec 6) (x1 : BitVec 3) (x2 : BitVec 5) (x3 : BitVec 5) (x4 : BitVec 3) (x5 : BitVec 5) (x6 : BitVec 1) (x7 : BitVec 4) :
    fld (x0 ++ x1 ++ x2 ++ x3 ++ x4 ++ x5 ++ x6 ++ x7 : W32) 26 6 = x0 :=
  (((((((fld_append_hi _ _ 26 6 (by decide)).trans (fld_append_hi _ _ 22 6 (by decide))).trans (fld_append_hi _ _ 21 6 (by decide))).trans (fld_append_hi _ _ 16 6 (by decide))).trans (fld_append_hi _ _ 13 6 (by decide))).trans (fld_append_hi _ _ 8 6 (by decide))).trans (fld_append_hi _ _ 3 6 (by decide))).trans (fld_all _)
theorem w6_3_5_5_3_5_1_4_at_23_3 (x0 : BitVec 6) (x1 : BitVec 3) (x2 : BitVec 5) (x3 : BitVec 5) (x4 : BitVec 3) (x5 : BitVec 5) (x6 : BitVec 1) (x7 : BitVec 4) :
    fld (x0 ++ x1 ++ x2 ++ x3 ++ x4 ++ x5 ++ x6 ++ x7 : W32) 23 3 = x1 :=
  (((((((fld_append_hi _ _ 23 3 (by decide)).trans (fld_append_hi _ _ 19 3 (by decide))).trans (fld_append_hi _ _ 18 3 (by decide))).trans (fld_append_hi _ _ 13 3 (by decide))).trans (fld_append_hi _ _ 10 3 (by decide))).trans (fld_append_hi _ _ 5 3 (by decide))).trans (fld_append_lo _ _ 0 3 (by decide))).trans (fld_all _)
theorem w6_3_5_5_3_5_1_4_at_18_5 (x0 : BitVec 6) (x1 : BitVec 3) (x2 : BitVec 5) (x3 : BitVec 5) (x4 : BitVec 3) (x5 : BitVec 5) (x6 : BitVec 1) (x7 : BitVec 4) :
    fld (x0 ++ x1 ++ x2 ++ x3 ++ x4 ++ x5 ++ x6 ++ x7 : W32) 18 5 = x2 :=
  ((((((fld_append_hi _ _ 18 5 (by decide)).trans (fld_append_hi _ _ 14 5 (by decide))).trans (fld_append_hi _ _ 13 5 (by decide))).trans (fld_append_hi _ _ 8 5 (by decide))).trans (fld_append_hi _ _ 5 5 (by decide))).trans (fld_append_lo _ _ 0 5 (by decide))).trans (fld_all _)
theorem w6_3_5_5_3_5_1_4_at_13_5 (x0 : BitVec 6) (x1 : BitVec 3) (x2 : BitVec 5) (x3 : BitVec 5) (x4 : BitVec 3) (x5 : BitVec 5) (x6 : BitVec 1) (x7 : BitVec 4) :
    fld (x0 ++ x1 ++ x2 ++ x3 ++ x4 ++ x5 ++ x6 ++ x7 : W32) 13 5 = x3 :=
  (((((fld_append_hi _ _ 13 5 (by decide)).trans (fld_append_hi _ _ 9 5 (by decide))).trans (fld_append_hi _ _ 8 5 (by decide))).trans (fld_append_hi _ _ 3 5 (by decide))).trans (fld_append_lo _ _ 0 5 (by decide))).trans (fld_all _)
theorem w6_3_5_5_3_5_1_4_at_10_3 (x0 : BitVec 6) (x1 : BitVec 3) (x2 : BitVec 5) (x3 : BitVec 5) (x4 : BitVec 3) (x5 : BitVec 5) (x6 : BitVec 1) (x7 : BitVec 4) :
    fld (x0 ++ x1 ++ x2 ++ x3 ++ x4 ++ x5 ++ x6 ++ x7 : W32) 10 3 = x4 :=
  ((((fld_append_hi _ _ 10 3 (by decide)).trans (fld_append_hi _ _ 6 3 (by decide))).trans (fld_append_hi _ _ 5 3 (by decide))).trans (fld_append_lo _ _ 0 3 (by decide))).trans (fld_all _)
theorem w6_3_5_5_3_5_1_4_at_5_5 (x0 : BitVec 6) (x1 : BitVec 3) (x2 : BitVec 5) (x3 : BitVec 5) (x4 : BitVec 3) (x5 : BitVec 5) (x6 : BitVec 1) (x7 : BitVec 4) :
    fld (x0 ++ x1 ++ x2 ++ x3 ++ x4 ++ x5 ++ x6 ++ x7 : W32) 5 5 = x5 :=
  (((fld_append_hi _ _ 5 5 (by decide)).trans (fld_append_hi _ _ 1 5 (by decide))).trans (fld_append_lo _ _ 0 5 (by decide))).trans (fld_all _)
theorem w6_3_5_5_3_5_1_4_at_4_1 (x0 : BitVec 6) (x1 : BitVec 3) (x2 : BitVec 5) (x3 : BitVec 5) (x4 : BitVec 3) (x5 : BitVec 5) (x6 : BitVec 1) (x7 : BitVec 4) :
    fld (x0 ++ x1 ++ x2 ++ x3 ++ x4 ++ x5 ++ x6 ++ x7 : W32) 4 1 = x6 :=
  ((fld_append_hi _ _ 4 1 (by decide)).trans (fld_append_lo _ _ 0 1 (by decide))).trans (fld_all _)
theorem w6_3_5_5_3_5_1_4_at_0_4 (x0 : BitVec 6) (x1 : BitVec 3) (x2 : BitVec 5) (x3 : BitVec 5) (x4 : BitVec 3) (x5 : BitVec 5) (x6 : BitVec 1) (x7 : BitVec 4) :
    fld (x0 ++ x1 ++ x2 ++ x3 ++ x4 ++ x5 ++ x6 ++ x7 : W32) 0 4 = x7 :=
  (fld_append_lo _ _ 0 4 (by decide)).trans (fld_all _)

end Sys2Proof.Laws.Shape
end

