-- ==== Sys2Proof/Laws/PerInstr.lean ====
section
/-! SUPPORT. Per instruction: decoding the word of a well-formed instruction gives the instruction back (R116, R123), one
lemma for each constructor; a row without bits has no word. -/

namespace Sys2Proof.Laws

/-- Decoding the instruction's word gives the instruction, when it is well formed. -/
def RoundTrip.Statement (i : Instr) : Prop := ∀ w, encode i = some w → WellFormed i = true → decode w = some i

set_option Elab.async false
set_option linter.unusedSimpArgs false

namespace RoundTrip

theorem add (st : BitVec 3) (d a b : BitVec 5) : Statement (.add st d a b) := by
  intro w h hw
  simp only [encode, Option.some.injEq] at h
  subst h
  simp [decode, decodeRaw, decodeMajor01, fld_lit, hw,
    Shape.w6_3_5_5_5_8_at_26_6, Shape.w6_3_5_5_5_8_at_23_3, Shape.w6_3_5_5_5_8_at_18_5, Shape.w6_3_5_5_5_8_at_13_5, Shape.w6_3_5_5_5_8_at_8_5, Shape.w6_3_5_5_5_8_at_0_8]
theorem sub (st : BitVec 3) (d a b : BitVec 5) : Statement (.sub st d a b) := by
  intro w h hw
  simp only [encode, Option.some.injEq] at h
  subst h
  simp [decode, decodeRaw, decodeMajor01, fld_lit, hw,
    Shape.w6_3_5_5_5_8_at_26_6, Shape.w6_3_5_5_5_8_at_23_3, Shape.w6_3_5_5_5_8_at_18_5, Shape.w6_3_5_5_5_8_at_13_5, Shape.w6_3_5_5_5_8_at_8_5, Shape.w6_3_5_5_5_8_at_0_8]
theorem and (st : BitVec 3) (d a b : BitVec 5) : Statement (.and st d a b) := by
  intro w h hw
  simp only [encode, Option.some.injEq] at h
  subst h
  simp [decode, decodeRaw, decodeMajor01, fld_lit, hw,
    Shape.w6_3_5_5_5_8_at_26_6, Shape.w6_3_5_5_5_8_at_23_3, Shape.w6_3_5_5_5_8_at_18_5, Shape.w6_3_5_5_5_8_at_13_5, Shape.w6_3_5_5_5_8_at_8_5, Shape.w6_3_5_5_5_8_at_0_8]
theorem or (st : BitVec 3) (d a b : BitVec 5) : Statement (.or st d a b) := by
  intro w h hw
  simp only [encode, Option.some.injEq] at h
  subst h
  simp [decode, decodeRaw, decodeMajor01, fld_lit, hw,
    Shape.w6_3_5_5_5_8_at_26_6, Shape.w6_3_5_5_5_8_at_23_3, Shape.w6_3_5_5_5_8_at_18_5, Shape.w6_3_5_5_5_8_at_13_5, Shape.w6_3_5_5_5_8_at_8_5, Shape.w6_3_5_5_5_8_at_0_8]
theorem xor (st : BitVec 3) (d a b : BitVec 5) : Statement (.xor st d a b) := by
  intro w h hw
  simp only [encode, Option.some.injEq] at h
  subst h
  simp [decode, decodeRaw, decodeMajor01, fld_lit, hw,
    Shape.w6_3_5_5_5_8_at_26_6, Shape.w6_3_5_5_5_8_at_23_3, Shape.w6_3_5_5_5_8_at_18_5, Shape.w6_3_5_5_5_8_at_13_5, Shape.w6_3_5_5_5_8_at_8_5, Shape.w6_3_5_5_5_8_at_0_8]
theorem andn (st : BitVec 3) (d a b : BitVec 5) : Statement (.andn st d a b) := by
  intro w h hw
  simp only [encode, Option.some.injEq] at h
  subst h
  simp [decode, decodeRaw, decodeMajor01, fld_lit, hw,
    Shape.w6_3_5_5_5_8_at_26_6, Shape.w6_3_5_5_5_8_at_23_3, Shape.w6_3_5_5_5_8_at_18_5, Shape.w6_3_5_5_5_8_at_13_5, Shape.w6_3_5_5_5_8_at_8_5, Shape.w6_3_5_5_5_8_at_0_8]
theorem sll (st : BitVec 3) (d a b : BitVec 5) : Statement (.sll st d a b) := by
  intro w h hw
  simp only [encode, Option.some.injEq] at h
  subst h
  simp [decode, decodeRaw, decodeMajor01, fld_lit, hw,
    Shape.w6_3_5_5_5_8_at_26_6, Shape.w6_3_5_5_5_8_at_23_3, Shape.w6_3_5_5_5_8_at_18_5, Shape.w6_3_5_5_5_8_at_13_5, Shape.w6_3_5_5_5_8_at_8_5, Shape.w6_3_5_5_5_8_at_0_8]
theorem srl (st : BitVec 3) (d a b : BitVec 5) : Statement (.srl st d a b) := by
  intro w h hw
  simp only [encode, Option.some.injEq] at h
  subst h
  simp [decode, decodeRaw, decodeMajor01, fld_lit, hw,
    Shape.w6_3_5_5_5_8_at_26_6, Shape.w6_3_5_5_5_8_at_23_3, Shape.w6_3_5_5_5_8_at_18_5, Shape.w6_3_5_5_5_8_at_13_5, Shape.w6_3_5_5_5_8_at_8_5, Shape.w6_3_5_5_5_8_at_0_8]
theorem sra (st : BitVec 3) (d a b : BitVec 5) : Statement (.sra st d a b) := by
  intro w h hw
  simp only [encode, Option.some.injEq] at h
  subst h
  simp [decode, decodeRaw, decodeMajor01, fld_lit, hw,
    Shape.w6_3_5_5_5_8_at_26_6, Shape.w6_3_5_5_5_8_at_23_3, Shape.w6_3_5_5_5_8_at_18_5, Shape.w6_3_5_5_5_8_at_13_5, Shape.w6_3_5_5_5_8_at_8_5, Shape.w6_3_5_5_5_8_at_0_8]
theorem rol (st : BitVec 3) (d a b : BitVec 5) : Statement (.rol st d a b) := by
  intro w h hw
  simp only [encode, Option.some.injEq] at h
  subst h
  simp [decode, decodeRaw, decodeMajor01, fld_lit, hw,
    Shape.w6_3_5_5_5_8_at_26_6, Shape.w6_3_5_5_5_8_at_23_3, Shape.w6_3_5_5_5_8_at_18_5, Shape.w6_3_5_5_5_8_at_13_5, Shape.w6_3_5_5_5_8_at_8_5, Shape.w6_3_5_5_5_8_at_0_8]
theorem min (st : BitVec 3) (d a b : BitVec 5) : Statement (.min st d a b) := by
  intro w h hw
  simp only [encode, Option.some.injEq] at h
  subst h
  simp [decode, decodeRaw, decodeMajor01, fld_lit, hw,
    Shape.w6_3_5_5_5_8_at_26_6, Shape.w6_3_5_5_5_8_at_23_3, Shape.w6_3_5_5_5_8_at_18_5, Shape.w6_3_5_5_5_8_at_13_5, Shape.w6_3_5_5_5_8_at_8_5, Shape.w6_3_5_5_5_8_at_0_8]
theorem max (st : BitVec 3) (d a b : BitVec 5) : Statement (.max st d a b) := by
  intro w h hw
  simp only [encode, Option.some.injEq] at h
  subst h
  simp [decode, decodeRaw, decodeMajor01, fld_lit, hw,
    Shape.w6_3_5_5_5_8_at_26_6, Shape.w6_3_5_5_5_8_at_23_3, Shape.w6_3_5_5_5_8_at_18_5, Shape.w6_3_5_5_5_8_at_13_5, Shape.w6_3_5_5_5_8_at_8_5, Shape.w6_3_5_5_5_8_at_0_8]
theorem minn (st : BitVec 3) (d a b : BitVec 5) : Statement (.minn st d a b) := by
  intro w h hw
  simp only [encode, Option.some.injEq] at h
  subst h
  simp [decode, decodeRaw, decodeMajor01, fld_lit, hw,
    Shape.w6_3_5_5_5_8_at_26_6, Shape.w6_3_5_5_5_8_at_23_3, Shape.w6_3_5_5_5_8_at_18_5, Shape.w6_3_5_5_5_8_at_13_5, Shape.w6_3_5_5_5_8_at_8_5, Shape.w6_3_5_5_5_8_at_0_8]
theorem maxn (st : BitVec 3) (d a b : BitVec 5) : Statement (.maxn st d a b) := by
  intro w h hw
  simp only [encode, Option.some.injEq] at h
  subst h
  simp [decode, decodeRaw, decodeMajor01, fld_lit, hw,
    Shape.w6_3_5_5_5_8_at_26_6, Shape.w6_3_5_5_5_8_at_23_3, Shape.w6_3_5_5_5_8_at_18_5, Shape.w6_3_5_5_5_8_at_13_5, Shape.w6_3_5_5_5_8_at_8_5, Shape.w6_3_5_5_5_8_at_0_8]
theorem slt (st : BitVec 3) (d a b : BitVec 5) : Statement (.slt st d a b) := by
  intro w h hw
  simp only [encode, Option.some.injEq] at h
  subst h
  simp [decode, decodeRaw, decodeMajor01, fld_lit, hw,
    Shape.w6_3_5_5_5_8_at_26_6, Shape.w6_3_5_5_5_8_at_23_3, Shape.w6_3_5_5_5_8_at_18_5, Shape.w6_3_5_5_5_8_at_13_5, Shape.w6_3_5_5_5_8_at_8_5, Shape.w6_3_5_5_5_8_at_0_8]
theorem sltn (st : BitVec 3) (d a b : BitVec 5) : Statement (.sltn st d a b) := by
  intro w h hw
  simp only [encode, Option.some.injEq] at h
  subst h
  simp [decode, decodeRaw, decodeMajor01, fld_lit, hw,
    Shape.w6_3_5_5_5_8_at_26_6, Shape.w6_3_5_5_5_8_at_23_3, Shape.w6_3_5_5_5_8_at_18_5, Shape.w6_3_5_5_5_8_at_13_5, Shape.w6_3_5_5_5_8_at_8_5, Shape.w6_3_5_5_5_8_at_0_8]
theorem seq (st : BitVec 3) (d a b : BitVec 5) : Statement (.seq st d a b) := by
  intro w h hw
  simp only [encode, Option.some.injEq] at h
  subst h
  simp [decode, decodeRaw, decodeMajor01, fld_lit, hw,
    Shape.w6_3_5_5_5_8_at_26_6, Shape.w6_3_5_5_5_8_at_23_3, Shape.w6_3_5_5_5_8_at_18_5, Shape.w6_3_5_5_5_8_at_13_5, Shape.w6_3_5_5_5_8_at_8_5, Shape.w6_3_5_5_5_8_at_0_8]
theorem mul (st : BitVec 3) (d a b : BitVec 5) : Statement (.mul st d a b) := by
  intro w h hw
  simp only [encode, Option.some.injEq] at h
  subst h
  simp [decode, decodeRaw, decodeMajor01, fld_lit, hw,
    Shape.w6_3_5_5_5_8_at_26_6, Shape.w6_3_5_5_5_8_at_23_3, Shape.w6_3_5_5_5_8_at_18_5, Shape.w6_3_5_5_5_8_at_13_5, Shape.w6_3_5_5_5_8_at_8_5, Shape.w6_3_5_5_5_8_at_0_8]
theorem mulh (st : BitVec 3) (d a b : BitVec 5) : Statement (.mulh st d a b) := by
  intro w h hw
  simp only [encode, Option.some.injEq] at h
  subst h
  simp [decode, decodeRaw, decodeMajor01, fld_lit, hw,
    Shape.w6_3_5_5_5_8_at_26_6, Shape.w6_3_5_5_5_8_at_23_3, Shape.w6_3_5_5_5_8_at_18_5, Shape.w6_3_5_5_5_8_at_13_5, Shape.w6_3_5_5_5_8_at_8_5, Shape.w6_3_5_5_5_8_at_0_8]
theorem mulhn (st : BitVec 3) (d a b : BitVec 5) : Statement (.mulhn st d a b) := by
  intro w h hw
  simp only [encode, Option.some.injEq] at h
  subst h
  simp [decode, decodeRaw, decodeMajor01, fld_lit, hw,
    Shape.w6_3_5_5_5_8_at_26_6, Shape.w6_3_5_5_5_8_at_23_3, Shape.w6_3_5_5_5_8_at_18_5, Shape.w6_3_5_5_5_8_at_13_5, Shape.w6_3_5_5_5_8_at_8_5, Shape.w6_3_5_5_5_8_at_0_8]
theorem clz (st : BitVec 3) (d a : BitVec 5) : Statement (.clz st d a) := by
  intro w h hw
  simp only [encode, Option.some.injEq] at h
  subst h
  simp [decode, decodeRaw, decodeMajor01, fld_lit, hw,
    Shape.w6_3_5_5_13_at_26_6, Shape.w6_3_5_5_13_at_23_3, Shape.w6_3_5_5_13_at_18_5, Shape.w6_3_5_5_13_at_13_5, Shape.w6_3_5_5_13_at_8_5, Shape.w6_3_5_5_13_at_0_8]
theorem ctz (st : BitVec 3) (d a : BitVec 5) : Statement (.ctz st d a) := by
  intro w h hw
  simp only [encode, Option.some.injEq] at h
  subst h
  simp [decode, decodeRaw, decodeMajor01, fld_lit, hw,
    Shape.w6_3_5_5_13_at_26_6, Shape.w6_3_5_5_13_at_23_3, Shape.w6_3_5_5_13_at_18_5, Shape.w6_3_5_5_13_at_13_5, Shape.w6_3_5_5_13_at_8_5, Shape.w6_3_5_5_13_at_0_8]
theorem popc (st : BitVec 3) (d a : BitVec 5) : Statement (.popc st d a) := by
  intro w h hw
  simp only [encode, Option.some.injEq] at h
  subst h
  simp [decode, decodeRaw, decodeMajor01, fld_lit, hw,
    Shape.w6_3_5_5_13_at_26_6, Shape.w6_3_5_5_13_at_23_3, Shape.w6_3_5_5_13_at_18_5, Shape.w6_3_5_5_13_at_13_5, Shape.w6_3_5_5_13_at_8_5, Shape.w6_3_5_5_13_at_0_8]
theorem csel (st : BitVec 3) (d a b : BitVec 5) : Statement (.csel st d a b) := by
  intro w h hw
  simp only [encode, Option.some.injEq] at h
  subst h
  simp [decode, decodeRaw, decodeMajor01, fld_lit, hw,
    Shape.w6_3_5_5_5_8_at_26_6, Shape.w6_3_5_5_5_8_at_23_3, Shape.w6_3_5_5_5_8_at_18_5, Shape.w6_3_5_5_5_8_at_13_5, Shape.w6_3_5_5_5_8_at_8_5, Shape.w6_3_5_5_5_8_at_0_8]
theorem addi (st : BitVec 3) (d a : BitVec 5) (i : BitVec 13) : Statement (.addi st d a i) := by
  intro w h hw
  simp only [encode, Option.some.injEq] at h
  subst h
  simp [decode, decodeRaw, decodeMajor02, fld_lit, hw,
    Shape.w6_3_5_5_13_at_26_6, Shape.w6_3_5_5_13_at_23_3, Shape.w6_3_5_5_13_at_18_5, Shape.w6_3_5_5_13_at_13_5, Shape.w6_3_5_5_13_at_0_13]
theorem andi (st : BitVec 3) (d a : BitVec 5) (i : BitVec 13) : Statement (.andi st d a i) := by
  intro w h hw
  simp only [encode, Option.some.injEq] at h
  subst h
  simp [decode, decodeRaw, decodeMajor03, fld_lit, hw,
    Shape.w6_3_5_5_13_at_26_6, Shape.w6_3_5_5_13_at_23_3, Shape.w6_3_5_5_13_at_18_5, Shape.w6_3_5_5_13_at_13_5, Shape.w6_3_5_5_13_at_0_13]
theorem ori (st : BitVec 3) (d a : BitVec 5) (i : BitVec 13) : Statement (.ori st d a i) := by
  intro w h hw
  simp only [encode, Option.some.injEq] at h
  subst h
  simp [decode, decodeRaw, decodeMajor04, fld_lit, hw,
    Shape.w6_3_5_5_13_at_26_6, Shape.w6_3_5_5_13_at_23_3, Shape.w6_3_5_5_13_at_18_5, Shape.w6_3_5_5_13_at_13_5, Shape.w6_3_5_5_13_at_0_13]
theorem xori (st : BitVec 3) (d a : BitVec 5) (i : BitVec 13) : Statement (.xori st d a i) := by
  intro w h hw
  simp only [encode, Option.some.injEq] at h
  subst h
  simp [decode, decodeRaw, decodeMajor05, fld_lit, hw,
    Shape.w6_3_5_5_13_at_26_6, Shape.w6_3_5_5_13_at_23_3, Shape.w6_3_5_5_13_at_18_5, Shape.w6_3_5_5_13_at_13_5, Shape.w6_3_5_5_13_at_0_13]
theorem slli (st : BitVec 3) (d a : BitVec 5) (h : BitVec 6) : Statement (.slli st d a h) := by
  intro w h hw
  simp only [encode, Option.some.injEq] at h
  subst h
  simp [decode, decodeRaw, decodeMajor06, fld_lit, hw,
    Shape.w6_3_5_5_7_6_at_26_6, Shape.w6_3_5_5_7_6_at_23_3, Shape.w6_3_5_5_7_6_at_18_5, Shape.w6_3_5_5_7_6_at_13_5, Shape.w6_3_5_5_7_6_at_6_7, Shape.w6_3_5_5_7_6_at_0_6]
theorem srli (st : BitVec 3) (d a : BitVec 5) (h : BitVec 6) : Statement (.srli st d a h) := by
  intro w h hw
  simp only [encode, Option.some.injEq] at h
  subst h
  simp [decode, decodeRaw, decodeMajor06, fld_lit, hw,
    Shape.w6_3_5_5_7_6_at_26_6, Shape.w6_3_5_5_7_6_at_23_3, Shape.w6_3_5_5_7_6_at_18_5, Shape.w6_3_5_5_7_6_at_13_5, Shape.w6_3_5_5_7_6_at_6_7, Shape.w6_3_5_5_7_6_at_0_6]
theorem srai (st : BitVec 3) (d a : BitVec 5) (h : BitVec 6) : Statement (.srai st d a h) := by
  intro w h hw
  simp only [encode, Option.some.injEq] at h
  subst h
  simp [decode, decodeRaw, decodeMajor06, fld_lit, hw,
    Shape.w6_3_5_5_7_6_at_26_6, Shape.w6_3_5_5_7_6_at_23_3, Shape.w6_3_5_5_7_6_at_18_5, Shape.w6_3_5_5_7_6_at_13_5, Shape.w6_3_5_5_7_6_at_6_7, Shape.w6_3_5_5_7_6_at_0_6]
theorem roli (st : BitVec 3) (d a : BitVec 5) (h : BitVec 6) : Statement (.roli st d a h) := by
  intro w h hw
  simp only [encode, Option.some.injEq] at h
  subst h
  simp [decode, decodeRaw, decodeMajor06, fld_lit, hw,
    Shape.w6_3_5_5_7_6_at_26_6, Shape.w6_3_5_5_7_6_at_23_3, Shape.w6_3_5_5_7_6_at_18_5, Shape.w6_3_5_5_7_6_at_13_5, Shape.w6_3_5_5_7_6_at_6_7, Shape.w6_3_5_5_7_6_at_0_6]
theorem slti (st : BitVec 3) (d a : BitVec 5) (i : BitVec 13) : Statement (.slti st d a i) := by
  intro w h hw
  simp only [encode, Option.some.injEq] at h
  subst h
  simp [decode, decodeRaw, decodeMajor07, fld_lit, hw,
    Shape.w6_3_5_5_13_at_26_6, Shape.w6_3_5_5_13_at_23_3, Shape.w6_3_5_5_13_at_18_5, Shape.w6_3_5_5_13_at_13_5, Shape.w6_3_5_5_13_at_0_13]
theorem sltni (st : BitVec 3) (d a : BitVec 5) (i : BitVec 13) : Statement (.sltni st d a i) := by
  intro w h hw
  simp only [encode, Option.some.injEq] at h
  subst h
  simp [decode, decodeRaw, decodeMajor08, fld_lit, hw,
    Shape.w6_3_5_5_13_at_26_6, Shape.w6_3_5_5_13_at_23_3, Shape.w6_3_5_5_13_at_18_5, Shape.w6_3_5_5_13_at_13_5, Shape.w6_3_5_5_13_at_0_13]
theorem li (st : BitVec 3) (d : BitVec 5) (i : BitVec 18) : Statement (.li st d i) := by
  intro w h hw
  simp only [encode, Option.some.injEq] at h
  subst h
  simp [decode, decodeRaw, decodeMajor09, fld_lit, hw,
    Shape.w6_3_5_18_at_26_6, Shape.w6_3_5_18_at_23_3, Shape.w6_3_5_18_at_18_5, Shape.w6_3_5_18_at_0_18]
theorem lext (st : BitVec 3) (d : BitVec 5) (i : BitVec 18) : Statement (.lext st d i) := by
  intro w h hw
  simp only [encode, Option.some.injEq] at h
  subst h
  simp [decode, decodeRaw, decodeMajor0A, fld_lit, hw,
    Shape.w6_3_5_18_at_26_6, Shape.w6_3_5_18_at_23_3, Shape.w6_3_5_18_at_18_5, Shape.w6_3_5_18_at_0_18]
theorem lea (st : BitVec 3) (d : BitVec 5) (i : BitVec 18) : Statement (.lea st d i) := by
  intro w h hw
  simp only [encode, Option.some.injEq] at h
  subst h
  simp [decode, decodeRaw, decodeMajor0B, fld_lit, hw,
    Shape.w6_3_5_18_at_26_6, Shape.w6_3_5_18_at_23_3, Shape.w6_3_5_18_at_18_5, Shape.w6_3_5_18_at_0_18]
theorem div (st : BitVec 3) (d a b : BitVec 5) : Statement (.div st d a b) := by
  intro w h hw
  simp only [encode, Option.some.injEq] at h
  subst h
  simp [decode, decodeRaw, decodeMajor0C, fld_lit, hw,
    Shape.w6_3_5_5_5_8_at_26_6, Shape.w6_3_5_5_5_8_at_23_3, Shape.w6_3_5_5_5_8_at_18_5, Shape.w6_3_5_5_5_8_at_13_5, Shape.w6_3_5_5_5_8_at_8_5, Shape.w6_3_5_5_5_8_at_0_8]
theorem divn (st : BitVec 3) (d a b : BitVec 5) : Statement (.divn st d a b) := by
  intro w h hw
  simp only [encode, Option.some.injEq] at h
  subst h
  simp [decode, decodeRaw, decodeMajor0C, fld_lit, hw,
    Shape.w6_3_5_5_5_8_at_26_6, Shape.w6_3_5_5_5_8_at_23_3, Shape.w6_3_5_5_5_8_at_18_5, Shape.w6_3_5_5_5_8_at_13_5, Shape.w6_3_5_5_5_8_at_8_5, Shape.w6_3_5_5_5_8_at_0_8]
theorem rem (st : BitVec 3) (d a b : BitVec 5) : Statement (.rem st d a b) := by
  intro w h hw
  simp only [encode, Option.some.injEq] at h
  subst h
  simp [decode, decodeRaw, decodeMajor0C, fld_lit, hw,
    Shape.w6_3_5_5_5_8_at_26_6, Shape.w6_3_5_5_5_8_at_23_3, Shape.w6_3_5_5_5_8_at_18_5, Shape.w6_3_5_5_5_8_at_13_5, Shape.w6_3_5_5_5_8_at_8_5, Shape.w6_3_5_5_5_8_at_0_8]
theorem remn (st : BitVec 3) (d a b : BitVec 5) : Statement (.remn st d a b) := by
  intro w h hw
  simp only [encode, Option.some.injEq] at h
  subst h
  simp [decode, decodeRaw, decodeMajor0C, fld_lit, hw,
    Shape.w6_3_5_5_5_8_at_26_6, Shape.w6_3_5_5_5_8_at_23_3, Shape.w6_3_5_5_5_8_at_18_5, Shape.w6_3_5_5_5_8_at_13_5, Shape.w6_3_5_5_5_8_at_8_5, Shape.w6_3_5_5_5_8_at_0_8]
theorem ld (st : BitVec 3) (d a : BitVec 5) (z : BitVec 3) (o : BitVec 10) : Statement (.ld st d a z o) := by
  intro w h hw
  simp only [encode, Option.some.injEq] at h
  subst h
  simp [decode, decodeRaw, decodeMajor0D, fld_lit, hw,
    Shape.w6_3_5_5_3_10_at_26_6, Shape.w6_3_5_5_3_10_at_23_3, Shape.w6_3_5_5_3_10_at_18_5, Shape.w6_3_5_5_3_10_at_13_5, Shape.w6_3_5_5_3_10_at_10_3, Shape.w6_3_5_5_3_10_at_0_10]
theorem st (st : BitVec 3) (d a : BitVec 5) (z : BitVec 2) (o : BitVec 10) : Statement (.st st d a z o) := by
  intro w h hw
  simp only [encode, Option.some.injEq] at h
  subst h
  simp [decode, decodeRaw, decodeMajor0E, fld_lit, hw,
    Shape.w6_3_5_5_1_2_10_at_26_6, Shape.w6_3_5_5_1_2_10_at_23_3, Shape.w6_3_5_5_1_2_10_at_18_5, Shape.w6_3_5_5_1_2_10_at_13_5, Shape.w6_3_5_5_1_2_10_at_12_1, Shape.w6_3_5_5_1_2_10_at_10_2, Shape.w6_3_5_5_1_2_10_at_0_10]
theorem ldx (st : BitVec 3) (d a b : BitVec 5) (z : BitVec 3) : Statement (.ldx st d a b z) := by
  intro w h hw
  simp only [encode, Option.some.injEq] at h
  subst h
  simp [decode, decodeRaw, decodeMajor0F, fld_lit, hw,
    Shape.w6_3_5_5_5_5_3_at_26_6, Shape.w6_3_5_5_5_5_3_at_23_3, Shape.w6_3_5_5_5_5_3_at_18_5, Shape.w6_3_5_5_5_5_3_at_13_5, Shape.w6_3_5_5_5_5_3_at_8_5, Shape.w6_3_5_5_5_5_3_at_3_5, Shape.w6_3_5_5_5_5_3_at_2_1, Shape.w6_3_5_5_5_5_3_at_0_3, Shape.w6_3_5_5_5_5_3_at_0_2]
theorem stx (st : BitVec 3) (d a b : BitVec 5) (z : BitVec 2) : Statement (.stx st d a b z) := by
  intro w h hw
  simp only [encode, Option.some.injEq] at h
  subst h
  simp [decode, decodeRaw, decodeMajor0F, fld_lit, hw,
    Shape.w6_3_5_5_5_6_2_at_26_6, Shape.w6_3_5_5_5_6_2_at_23_3, Shape.w6_3_5_5_5_6_2_at_18_5, Shape.w6_3_5_5_5_6_2_at_13_5, Shape.w6_3_5_5_5_6_2_at_8_5, Shape.w6_3_5_5_5_6_2_at_3_5, Shape.w6_3_5_5_5_6_2_at_2_1, Shape.w6_3_5_5_5_6_2_at_0_2]
theorem ldacq (st : BitVec 3) (d a : BitVec 5) (c z : BitVec 3) : Statement (.ldacq st d a c z) := by
  intro w h hw
  simp only [encode, Option.some.injEq] at h
  subst h
  simp [decode, decodeRaw, decodeMajor10, fld_lit, hw,
    Shape.w6_3_5_5_7_3_3_at_26_6, Shape.w6_3_5_5_7_3_3_at_23_3, Shape.w6_3_5_5_7_3_3_at_18_5, Shape.w6_3_5_5_7_3_3_at_13_5, Shape.w6_3_5_5_7_3_3_at_6_7, Shape.w6_3_5_5_7_3_3_at_3_3, Shape.w6_3_5_5_7_3_3_at_0_3]
theorem strel (st : BitVec 3) (d a : BitVec 5) (c : BitVec 3) (z : BitVec 2) : Statement (.strel st d a c z) := by
  intro w h hw
  simp only [encode, Option.some.injEq] at h
  subst h
  simp [decode, decodeRaw, decodeMajor11, fld_lit, hw,
    Shape.w6_3_5_5_7_3_1_2_at_26_6, Shape.w6_3_5_5_7_3_1_2_at_23_3, Shape.w6_3_5_5_7_3_1_2_at_18_5, Shape.w6_3_5_5_7_3_1_2_at_13_5, Shape.w6_3_5_5_7_3_1_2_at_6_7, Shape.w6_3_5_5_7_3_1_2_at_3_3, Shape.w6_3_5_5_7_3_1_2_at_2_1, Shape.w6_3_5_5_7_3_1_2_at_0_2]
theorem amoAdd (st : BitVec 3) (d a b : BitVec 5) (z : BitVec 1) (c : BitVec 3) : Statement (.amoAdd st d a b z c) := by
  intro w h hw
  simp only [encode, Option.some.injEq] at h
  subst h
  simp [decode, decodeRaw, decodeMajor12, fld_lit, hw,
    Shape.w6_3_5_5_5_4_1_3_at_26_6, Shape.w6_3_5_5_5_4_1_3_at_23_3, Shape.w6_3_5_5_5_4_1_3_at_18_5, Shape.w6_3_5_5_5_4_1_3_at_13_5, Shape.w6_3_5_5_5_4_1_3_at_8_5, Shape.w6_3_5_5_5_4_1_3_at_4_4, Shape.w6_3_5_5_5_4_1_3_at_3_1, Shape.w6_3_5_5_5_4_1_3_at_0_3]
theorem amoAdds (st : BitVec 3) (d a b : BitVec 5) (z : BitVec 1) (c : BitVec 3) : Statement (.amoAdds st d a b z c) := by
  intro w h hw
  simp only [encode, Option.some.injEq] at h
  subst h
  simp [decode, decodeRaw, decodeMajor12, fld_lit, hw,
    Shape.w6_3_5_5_5_4_1_3_at_26_6, Shape.w6_3_5_5_5_4_1_3_at_23_3, Shape.w6_3_5_5_5_4_1_3_at_18_5, Shape.w6_3_5_5_5_4_1_3_at_13_5, Shape.w6_3_5_5_5_4_1_3_at_8_5, Shape.w6_3_5_5_5_4_1_3_at_4_4, Shape.w6_3_5_5_5_4_1_3_at_3_1, Shape.w6_3_5_5_5_4_1_3_at_0_3]
theorem amoAnd (st : BitVec 3) (d a b : BitVec 5) (z : BitVec 1) (c : BitVec 3) : Statement (.amoAnd st d a b z c) := by
  intro w h hw
  simp only [encode, Option.some.injEq] at h
  subst h
  simp [decode, decodeRaw, decodeMajor12, fld_lit, hw,
    Shape.w6_3_5_5_5_4_1_3_at_26_6, Shape.w6_3_5_5_5_4_1_3_at_23_3, Shape.w6_3_5_5_5_4_1_3_at_18_5, Shape.w6_3_5_5_5_4_1_3_at_13_5, Shape.w6_3_5_5_5_4_1_3_at_8_5, Shape.w6_3_5_5_5_4_1_3_at_4_4, Shape.w6_3_5_5_5_4_1_3_at_3_1, Shape.w6_3_5_5_5_4_1_3_at_0_3]
theorem amoOr (st : BitVec 3) (d a b : BitVec 5) (z : BitVec 1) (c : BitVec 3) : Statement (.amoOr st d a b z c) := by
  intro w h hw
  simp only [encode, Option.some.injEq] at h
  subst h
  simp [decode, decodeRaw, decodeMajor12, fld_lit, hw,
    Shape.w6_3_5_5_5_4_1_3_at_26_6, Shape.w6_3_5_5_5_4_1_3_at_23_3, Shape.w6_3_5_5_5_4_1_3_at_18_5, Shape.w6_3_5_5_5_4_1_3_at_13_5, Shape.w6_3_5_5_5_4_1_3_at_8_5, Shape.w6_3_5_5_5_4_1_3_at_4_4, Shape.w6_3_5_5_5_4_1_3_at_3_1, Shape.w6_3_5_5_5_4_1_3_at_0_3]
theorem amoXor (st : BitVec 3) (d a b : BitVec 5) (z : BitVec 1) (c : BitVec 3) : Statement (.amoXor st d a b z c) := by
  intro w h hw
  simp only [encode, Option.some.injEq] at h
  subst h
  simp [decode, decodeRaw, decodeMajor12, fld_lit, hw,
    Shape.w6_3_5_5_5_4_1_3_at_26_6, Shape.w6_3_5_5_5_4_1_3_at_23_3, Shape.w6_3_5_5_5_4_1_3_at_18_5, Shape.w6_3_5_5_5_4_1_3_at_13_5, Shape.w6_3_5_5_5_4_1_3_at_8_5, Shape.w6_3_5_5_5_4_1_3_at_4_4, Shape.w6_3_5_5_5_4_1_3_at_3_1, Shape.w6_3_5_5_5_4_1_3_at_0_3]
theorem amoMin (st : BitVec 3) (d a b : BitVec 5) (z : BitVec 1) (c : BitVec 3) : Statement (.amoMin st d a b z c) := by
  intro w h hw
  simp only [encode, Option.some.injEq] at h
  subst h
  simp [decode, decodeRaw, decodeMajor12, fld_lit, hw,
    Shape.w6_3_5_5_5_4_1_3_at_26_6, Shape.w6_3_5_5_5_4_1_3_at_23_3, Shape.w6_3_5_5_5_4_1_3_at_18_5, Shape.w6_3_5_5_5_4_1_3_at_13_5, Shape.w6_3_5_5_5_4_1_3_at_8_5, Shape.w6_3_5_5_5_4_1_3_at_4_4, Shape.w6_3_5_5_5_4_1_3_at_3_1, Shape.w6_3_5_5_5_4_1_3_at_0_3]
theorem amoMax (st : BitVec 3) (d a b : BitVec 5) (z : BitVec 1) (c : BitVec 3) : Statement (.amoMax st d a b z c) := by
  intro w h hw
  simp only [encode, Option.some.injEq] at h
  subst h
  simp [decode, decodeRaw, decodeMajor12, fld_lit, hw,
    Shape.w6_3_5_5_5_4_1_3_at_26_6, Shape.w6_3_5_5_5_4_1_3_at_23_3, Shape.w6_3_5_5_5_4_1_3_at_18_5, Shape.w6_3_5_5_5_4_1_3_at_13_5, Shape.w6_3_5_5_5_4_1_3_at_8_5, Shape.w6_3_5_5_5_4_1_3_at_4_4, Shape.w6_3_5_5_5_4_1_3_at_3_1, Shape.w6_3_5_5_5_4_1_3_at_0_3]
theorem amoMinn (st : BitVec 3) (d a b : BitVec 5) (z : BitVec 1) (c : BitVec 3) : Statement (.amoMinn st d a b z c) := by
  intro w h hw
  simp only [encode, Option.some.injEq] at h
  subst h
  simp [decode, decodeRaw, decodeMajor12, fld_lit, hw,
    Shape.w6_3_5_5_5_4_1_3_at_26_6, Shape.w6_3_5_5_5_4_1_3_at_23_3, Shape.w6_3_5_5_5_4_1_3_at_18_5, Shape.w6_3_5_5_5_4_1_3_at_13_5, Shape.w6_3_5_5_5_4_1_3_at_8_5, Shape.w6_3_5_5_5_4_1_3_at_4_4, Shape.w6_3_5_5_5_4_1_3_at_3_1, Shape.w6_3_5_5_5_4_1_3_at_0_3]
theorem amoMaxn (st : BitVec 3) (d a b : BitVec 5) (z : BitVec 1) (c : BitVec 3) : Statement (.amoMaxn st d a b z c) := by
  intro w h hw
  simp only [encode, Option.some.injEq] at h
  subst h
  simp [decode, decodeRaw, decodeMajor12, fld_lit, hw,
    Shape.w6_3_5_5_5_4_1_3_at_26_6, Shape.w6_3_5_5_5_4_1_3_at_23_3, Shape.w6_3_5_5_5_4_1_3_at_18_5, Shape.w6_3_5_5_5_4_1_3_at_13_5, Shape.w6_3_5_5_5_4_1_3_at_8_5, Shape.w6_3_5_5_5_4_1_3_at_4_4, Shape.w6_3_5_5_5_4_1_3_at_3_1, Shape.w6_3_5_5_5_4_1_3_at_0_3]
theorem amoSwap (st : BitVec 3) (d a b : BitVec 5) (z : BitVec 1) (c : BitVec 3) : Statement (.amoSwap st d a b z c) := by
  intro w h hw
  simp only [encode, Option.some.injEq] at h
  subst h
  simp [decode, decodeRaw, decodeMajor12, fld_lit, hw,
    Shape.w6_3_5_5_5_4_1_3_at_26_6, Shape.w6_3_5_5_5_4_1_3_at_23_3, Shape.w6_3_5_5_5_4_1_3_at_18_5, Shape.w6_3_5_5_5_4_1_3_at_13_5, Shape.w6_3_5_5_5_4_1_3_at_8_5, Shape.w6_3_5_5_5_4_1_3_at_4_4, Shape.w6_3_5_5_5_4_1_3_at_3_1, Shape.w6_3_5_5_5_4_1_3_at_0_3]
theorem amoFadd (st : BitVec 3) (d a b : BitVec 5) (z : BitVec 1) (c : BitVec 3) : Statement (.amoFadd st d a b z c) := by
  intro w h hw
  simp only [encode, Option.some.injEq] at h
  subst h
  simp [decode, decodeRaw, decodeMajor12, fld_lit, hw,
    Shape.w6_3_5_5_5_4_1_3_at_26_6, Shape.w6_3_5_5_5_4_1_3_at_23_3, Shape.w6_3_5_5_5_4_1_3_at_18_5, Shape.w6_3_5_5_5_4_1_3_at_13_5, Shape.w6_3_5_5_5_4_1_3_at_8_5, Shape.w6_3_5_5_5_4_1_3_at_4_4, Shape.w6_3_5_5_5_4_1_3_at_3_1, Shape.w6_3_5_5_5_4_1_3_at_0_3]
theorem cas (st : BitVec 3) (d a b : BitVec 5) (z : BitVec 1) (c : BitVec 3) : Statement (.cas st d a b z c) := by
  intro w h hw
  simp only [encode, Option.some.injEq] at h
  subst h
  simp [decode, decodeRaw, decodeMajor13, fld_lit, hw,
    Shape.w6_3_5_5_5_4_1_3_at_26_6, Shape.w6_3_5_5_5_4_1_3_at_23_3, Shape.w6_3_5_5_5_4_1_3_at_18_5, Shape.w6_3_5_5_5_4_1_3_at_13_5, Shape.w6_3_5_5_5_4_1_3_at_8_5, Shape.w6_3_5_5_5_4_1_3_at_4_4, Shape.w6_3_5_5_5_4_1_3_at_3_1, Shape.w6_3_5_5_5_4_1_3_at_0_3]
theorem fenceFull (st c : BitVec 3) : Statement (.fenceFull st c) := by
  intro w h hw
  simp only [encode, Option.some.injEq] at h
  subst h
  simp [decode, decodeRaw, decodeMajor14, fld_lit, hw,
    Shape.w6_3_20_3_at_26_6, Shape.w6_3_20_3_at_23_3, Shape.w6_3_20_3_at_3_20, Shape.w6_3_20_3_at_0_3]
theorem fenceAcq (st c : BitVec 3) : Statement (.fenceAcq st c) := by
  intro w h hw
  simp only [encode, Option.some.injEq] at h
  subst h
  simp [decode, decodeRaw, decodeMajor14, fld_lit, hw,
    Shape.w6_3_20_3_at_26_6, Shape.w6_3_20_3_at_23_3, Shape.w6_3_20_3_at_3_20, Shape.w6_3_20_3_at_0_3]
theorem fenceRel (st c : BitVec 3) : Statement (.fenceRel st c) := by
  intro w h hw
  simp only [encode, Option.some.injEq] at h
  subst h
  simp [decode, decodeRaw, decodeMajor14, fld_lit, hw,
    Shape.w6_3_20_3_at_26_6, Shape.w6_3_20_3_at_23_3, Shape.w6_3_20_3_at_3_20, Shape.w6_3_20_3_at_0_3]
theorem fenceEng (st c : BitVec 3) : Statement (.fenceEng st c) := by
  intro w h hw
  simp only [encode, Option.some.injEq] at h
  subst h
  simp [decode, decodeRaw, decodeMajor14, fld_lit, hw,
    Shape.w6_3_20_3_at_26_6, Shape.w6_3_20_3_at_23_3, Shape.w6_3_20_3_at_3_20, Shape.w6_3_20_3_at_0_3]
theorem br (st : BitVec 3) (i : BitVec 18) : Statement (.br st i) := by
  intro w h hw
  simp only [encode, Option.some.injEq] at h
  subst h
  simp [decode, decodeRaw, decodeMajor15, fld_lit, hw,
    Shape.w6_3_5_18_at_26_6, Shape.w6_3_5_18_at_23_3, Shape.w6_3_5_18_at_18_5, Shape.w6_3_5_18_at_0_18]
theorem call (st : BitVec 3) (i : BitVec 18) : Statement (.call st i) := by
  intro w h hw
  simp only [encode, Option.some.injEq] at h
  subst h
  simp [decode, decodeRaw, decodeMajor15, fld_lit, hw,
    Shape.w6_3_5_18_at_26_6, Shape.w6_3_5_18_at_23_3, Shape.w6_3_5_18_at_18_5, Shape.w6_3_5_18_at_0_18]
theorem jr (st : BitVec 3) (d a : BitVec 5) (i : BitVec 13) : Statement (.jr st d a i) := by
  intro w h hw
  simp only [encode, Option.some.injEq] at h
  subst h
  simp [decode, decodeRaw, decodeMajor16, fld_lit, hw,
    Shape.w6_3_5_5_13_at_26_6, Shape.w6_3_5_5_13_at_23_3, Shape.w6_3_5_5_13_at_18_5, Shape.w6_3_5_5_13_at_13_5, Shape.w6_3_5_5_13_at_0_13]
theorem beq (st : BitVec 3) (a b : BitVec 5) (o : BitVec 13) : Statement (.beq st a b o) := by
  intro w h hw
  simp only [encode, Option.some.injEq] at h
  subst h
  simp [decode, decodeRaw, decodeMajor17, fld_lit, hw,
    Shape.w6_3_5_5_13_at_26_6, Shape.w6_3_5_5_13_at_23_3, Shape.w6_3_5_5_13_at_18_5, Shape.w6_3_5_5_13_at_13_5, Shape.w6_3_5_5_13_at_0_13]
theorem bne (st : BitVec 3) (a b : BitVec 5) (o : BitVec 13) : Statement (.bne st a b o) := by
  intro w h hw
  simp only [encode, Option.some.injEq] at h
  subst h
  simp [decode, decodeRaw, decodeMajor18, fld_lit, hw,
    Shape.w6_3_5_5_13_at_26_6, Shape.w6_3_5_5_13_at_23_3, Shape.w6_3_5_5_13_at_18_5, Shape.w6_3_5_5_13_at_13_5, Shape.w6_3_5_5_13_at_0_13]
theorem blt (st : BitVec 3) (a b : BitVec 5) (o : BitVec 13) : Statement (.blt st a b o) := by
  intro w h hw
  simp only [encode, Option.some.injEq] at h
  subst h
  simp [decode, decodeRaw, decodeMajor19, fld_lit, hw,
    Shape.w6_3_5_5_13_at_26_6, Shape.w6_3_5_5_13_at_23_3, Shape.w6_3_5_5_13_at_18_5, Shape.w6_3_5_5_13_at_13_5, Shape.w6_3_5_5_13_at_0_13]
theorem bge (st : BitVec 3) (a b : BitVec 5) (o : BitVec 13) : Statement (.bge st a b o) := by
  intro w h hw
  simp only [encode, Option.some.injEq] at h
  subst h
  simp [decode, decodeRaw, decodeMajor1A, fld_lit, hw,
    Shape.w6_3_5_5_13_at_26_6, Shape.w6_3_5_5_13_at_23_3, Shape.w6_3_5_5_13_at_18_5, Shape.w6_3_5_5_13_at_13_5, Shape.w6_3_5_5_13_at_0_13]
theorem bltn (st : BitVec 3) (a b : BitVec 5) (o : BitVec 13) : Statement (.bltn st a b o) := by
  intro w h hw
  simp only [encode, Option.some.injEq] at h
  subst h
  simp [decode, decodeRaw, decodeMajor1B, fld_lit, hw,
    Shape.w6_3_5_5_13_at_26_6, Shape.w6_3_5_5_13_at_23_3, Shape.w6_3_5_5_13_at_18_5, Shape.w6_3_5_5_13_at_13_5, Shape.w6_3_5_5_13_at_0_13]
theorem bgen (st : BitVec 3) (a b : BitVec 5) (o : BitVec 13) : Statement (.bgen st a b o) := by
  intro w h hw
  simp only [encode, Option.some.injEq] at h
  subst h
  simp [decode, decodeRaw, decodeMajor1C, fld_lit, hw,
    Shape.w6_3_5_5_13_at_26_6, Shape.w6_3_5_5_13_at_23_3, Shape.w6_3_5_5_13_at_18_5, Shape.w6_3_5_5_13_at_13_5, Shape.w6_3_5_5_13_at_0_13]
theorem loop (st : BitVec 3) (a : BitVec 5) (o : BitVec 13) : Statement (.loop st a o) := by
  intro w h hw
  simp only [encode, Option.some.injEq] at h
  subst h
  simp [decode, decodeRaw, decodeMajor1D, fld_lit, hw,
    Shape.w6_3_5_5_13_at_26_6, Shape.w6_3_5_5_13_at_23_3, Shape.w6_3_5_5_13_at_18_5, Shape.w6_3_5_5_13_at_13_5, Shape.w6_3_5_5_13_at_0_13]
theorem fadd (st : BitVec 3) (d a b : BitVec 5) (p : BitVec 1) : Statement (.fadd st d a b p) := by
  intro w h hw
  simp only [encode, Option.some.injEq] at h
  subst h
  simp [decode, decodeRaw, decodeMajor1E, fld_lit, hw,
    Shape.w6_3_5_5_5_4_1_3_at_26_6, Shape.w6_3_5_5_5_4_1_3_at_23_3, Shape.w6_3_5_5_5_4_1_3_at_18_5, Shape.w6_3_5_5_5_4_1_3_at_13_5, Shape.w6_3_5_5_5_4_1_3_at_8_5, Shape.w6_3_5_5_5_4_1_3_at_4_4, Shape.w6_3_5_5_5_4_1_3_at_3_1, Shape.w6_3_5_5_5_4_1_3_at_2_1, Shape.w6_3_5_5_5_4_1_3_at_0_3, Shape.w6_3_5_5_5_4_1_3_at_0_2]
theorem fsub (st : BitVec 3) (d a b : BitVec 5) (p : BitVec 1) : Statement (.fsub st d a b p) := by
  intro w h hw
  simp only [encode, Option.some.injEq] at h
  subst h
  simp [decode, decodeRaw, decodeMajor1E, fld_lit, hw,
    Shape.w6_3_5_5_5_4_1_3_at_26_6, Shape.w6_3_5_5_5_4_1_3_at_23_3, Shape.w6_3_5_5_5_4_1_3_at_18_5, Shape.w6_3_5_5_5_4_1_3_at_13_5, Shape.w6_3_5_5_5_4_1_3_at_8_5, Shape.w6_3_5_5_5_4_1_3_at_4_4, Shape.w6_3_5_5_5_4_1_3_at_3_1, Shape.w6_3_5_5_5_4_1_3_at_2_1, Shape.w6_3_5_5_5_4_1_3_at_0_3, Shape.w6_3_5_5_5_4_1_3_at_0_2]
theorem fmul (st : BitVec 3) (d a b : BitVec 5) (p : BitVec 1) : Statement (.fmul st d a b p) := by
  intro w h hw
  simp only [encode, Option.some.injEq] at h
  subst h
  simp [decode, decodeRaw, decodeMajor1E, fld_lit, hw,
    Shape.w6_3_5_5_5_4_1_3_at_26_6, Shape.w6_3_5_5_5_4_1_3_at_23_3, Shape.w6_3_5_5_5_4_1_3_at_18_5, Shape.w6_3_5_5_5_4_1_3_at_13_5, Shape.w6_3_5_5_5_4_1_3_at_8_5, Shape.w6_3_5_5_5_4_1_3_at_4_4, Shape.w6_3_5_5_5_4_1_3_at_3_1, Shape.w6_3_5_5_5_4_1_3_at_2_1, Shape.w6_3_5_5_5_4_1_3_at_0_3, Shape.w6_3_5_5_5_4_1_3_at_0_2]
theorem fdiv (st : BitVec 3) (d a b : BitVec 5) (p : BitVec 1) : Statement (.fdiv st d a b p) := by
  intro w h hw
  simp only [encode, Option.some.injEq] at h
  subst h
  simp [decode, decodeRaw, decodeMajor1E, fld_lit, hw,
    Shape.w6_3_5_5_5_4_1_3_at_26_6, Shape.w6_3_5_5_5_4_1_3_at_23_3, Shape.w6_3_5_5_5_4_1_3_at_18_5, Shape.w6_3_5_5_5_4_1_3_at_13_5, Shape.w6_3_5_5_5_4_1_3_at_8_5, Shape.w6_3_5_5_5_4_1_3_at_4_4, Shape.w6_3_5_5_5_4_1_3_at_3_1, Shape.w6_3_5_5_5_4_1_3_at_2_1, Shape.w6_3_5_5_5_4_1_3_at_0_3, Shape.w6_3_5_5_5_4_1_3_at_0_2]
theorem fsqrt (st : BitVec 3) (d a : BitVec 5) (p : BitVec 1) : Statement (.fsqrt st d a p) := by
  intro w h hw
  simp only [encode, Option.some.injEq] at h
  subst h
  simp [decode, decodeRaw, decodeMajor1E, fld_lit, hw,
    Shape.w6_3_5_5_9_1_3_at_26_6, Shape.w6_3_5_5_9_1_3_at_23_3, Shape.w6_3_5_5_9_1_3_at_18_5, Shape.w6_3_5_5_9_1_3_at_13_5, Shape.w6_3_5_5_9_1_3_at_8_5, Shape.w6_3_5_5_9_1_3_at_4_4, Shape.w6_3_5_5_9_1_3_at_3_1, Shape.w6_3_5_5_9_1_3_at_2_1, Shape.w6_3_5_5_9_1_3_at_0_3, Shape.w6_3_5_5_9_1_3_at_0_2]
theorem fmin (st : BitVec 3) (d a b : BitVec 5) (p : BitVec 1) : Statement (.fmin st d a b p) := by
  intro w h hw
  simp only [encode, Option.some.injEq] at h
  subst h
  simp [decode, decodeRaw, decodeMajor1E, fld_lit, hw,
    Shape.w6_3_5_5_5_4_1_3_at_26_6, Shape.w6_3_5_5_5_4_1_3_at_23_3, Shape.w6_3_5_5_5_4_1_3_at_18_5, Shape.w6_3_5_5_5_4_1_3_at_13_5, Shape.w6_3_5_5_5_4_1_3_at_8_5, Shape.w6_3_5_5_5_4_1_3_at_4_4, Shape.w6_3_5_5_5_4_1_3_at_3_1, Shape.w6_3_5_5_5_4_1_3_at_2_1, Shape.w6_3_5_5_5_4_1_3_at_0_3, Shape.w6_3_5_5_5_4_1_3_at_0_2]
theorem fmax (st : BitVec 3) (d a b : BitVec 5) (p : BitVec 1) : Statement (.fmax st d a b p) := by
  intro w h hw
  simp only [encode, Option.some.injEq] at h
  subst h
  simp [decode, decodeRaw, decodeMajor1E, fld_lit, hw,
    Shape.w6_3_5_5_5_4_1_3_at_26_6, Shape.w6_3_5_5_5_4_1_3_at_23_3, Shape.w6_3_5_5_5_4_1_3_at_18_5, Shape.w6_3_5_5_5_4_1_3_at_13_5, Shape.w6_3_5_5_5_4_1_3_at_8_5, Shape.w6_3_5_5_5_4_1_3_at_4_4, Shape.w6_3_5_5_5_4_1_3_at_3_1, Shape.w6_3_5_5_5_4_1_3_at_2_1, Shape.w6_3_5_5_5_4_1_3_at_0_3, Shape.w6_3_5_5_5_4_1_3_at_0_2]
theorem fcmp (st : BitVec 3) (d a b : BitVec 5) (p : BitVec 1) (c : BitVec 2) : Statement (.fcmp st d a b p c) := by
  intro w h hw
  simp only [encode, Option.some.injEq] at h
  subst h
  simp [decode, decodeRaw, decodeMajor1E, fld_lit, hw,
    Shape.w6_3_5_5_5_4_1_1_2_at_26_6, Shape.w6_3_5_5_5_4_1_1_2_at_23_3, Shape.w6_3_5_5_5_4_1_1_2_at_18_5, Shape.w6_3_5_5_5_4_1_1_2_at_13_5, Shape.w6_3_5_5_5_4_1_1_2_at_8_5, Shape.w6_3_5_5_5_4_1_1_2_at_4_4, Shape.w6_3_5_5_5_4_1_1_2_at_3_1, Shape.w6_3_5_5_5_4_1_1_2_at_2_1, Shape.w6_3_5_5_5_4_1_1_2_at_0_2]
theorem fcvt (st : BitVec 3) (d a : BitVec 5) (p : BitVec 1) (k : BitVec 3) : Statement (.fcvt st d a p k) := by
  intro w h hw
  simp only [encode, Option.some.injEq] at h
  subst h
  simp [decode, decodeRaw, decodeMajor1E, fld_lit, hw,
    Shape.w6_3_5_5_9_1_3_at_26_6, Shape.w6_3_5_5_9_1_3_at_23_3, Shape.w6_3_5_5_9_1_3_at_18_5, Shape.w6_3_5_5_9_1_3_at_13_5, Shape.w6_3_5_5_9_1_3_at_8_5, Shape.w6_3_5_5_9_1_3_at_4_4, Shape.w6_3_5_5_9_1_3_at_3_1, Shape.w6_3_5_5_9_1_3_at_2_1, Shape.w6_3_5_5_9_1_3_at_0_3, Shape.w6_3_5_5_9_1_3_at_0_2]
theorem fmv (st : BitVec 3) (d a : BitVec 5) (p : BitVec 1) : Statement (.fmv st d a p) := by
  intro w h hw
  simp only [encode, Option.some.injEq] at h
  subst h
  simp [decode, decodeRaw, decodeMajor1E, fld_lit, hw,
    Shape.w6_3_5_5_9_1_3_at_26_6, Shape.w6_3_5_5_9_1_3_at_23_3, Shape.w6_3_5_5_9_1_3_at_18_5, Shape.w6_3_5_5_9_1_3_at_13_5, Shape.w6_3_5_5_9_1_3_at_8_5, Shape.w6_3_5_5_9_1_3_at_4_4, Shape.w6_3_5_5_9_1_3_at_3_1, Shape.w6_3_5_5_9_1_3_at_2_1, Shape.w6_3_5_5_9_1_3_at_0_3, Shape.w6_3_5_5_9_1_3_at_0_2]
theorem fmvNeg (st : BitVec 3) (d a : BitVec 5) (p : BitVec 1) : Statement (.fmvNeg st d a p) := by
  intro w h hw
  simp only [encode, Option.some.injEq] at h
  subst h
  simp [decode, decodeRaw, decodeMajor1E, fld_lit, hw,
    Shape.w6_3_5_5_9_1_3_at_26_6, Shape.w6_3_5_5_9_1_3_at_23_3, Shape.w6_3_5_5_9_1_3_at_18_5, Shape.w6_3_5_5_9_1_3_at_13_5, Shape.w6_3_5_5_9_1_3_at_8_5, Shape.w6_3_5_5_9_1_3_at_4_4, Shape.w6_3_5_5_9_1_3_at_3_1, Shape.w6_3_5_5_9_1_3_at_2_1, Shape.w6_3_5_5_9_1_3_at_0_3, Shape.w6_3_5_5_9_1_3_at_0_2]
theorem fmvAbs (st : BitVec 3) (d a : BitVec 5) (p : BitVec 1) : Statement (.fmvAbs st d a p) := by
  intro w h hw
  simp only [encode, Option.some.injEq] at h
  subst h
  simp [decode, decodeRaw, decodeMajor1E, fld_lit, hw,
    Shape.w6_3_5_5_9_1_3_at_26_6, Shape.w6_3_5_5_9_1_3_at_23_3, Shape.w6_3_5_5_9_1_3_at_18_5, Shape.w6_3_5_5_9_1_3_at_13_5, Shape.w6_3_5_5_9_1_3_at_8_5, Shape.w6_3_5_5_9_1_3_at_4_4, Shape.w6_3_5_5_9_1_3_at_3_1, Shape.w6_3_5_5_9_1_3_at_2_1, Shape.w6_3_5_5_9_1_3_at_0_3, Shape.w6_3_5_5_9_1_3_at_0_2]
theorem fmvSgn (st : BitVec 3) (d a b : BitVec 5) (p : BitVec 1) : Statement (.fmvSgn st d a b p) := by
  intro w h hw
  simp only [encode, Option.some.injEq] at h
  subst h
  simp [decode, decodeRaw, decodeMajor1E, fld_lit, hw,
    Shape.w6_3_5_5_5_4_1_3_at_26_6, Shape.w6_3_5_5_5_4_1_3_at_23_3, Shape.w6_3_5_5_5_4_1_3_at_18_5, Shape.w6_3_5_5_5_4_1_3_at_13_5, Shape.w6_3_5_5_5_4_1_3_at_8_5, Shape.w6_3_5_5_5_4_1_3_at_4_4, Shape.w6_3_5_5_5_4_1_3_at_3_1, Shape.w6_3_5_5_5_4_1_3_at_2_1, Shape.w6_3_5_5_5_4_1_3_at_0_3, Shape.w6_3_5_5_5_4_1_3_at_0_2]
theorem ffma (st : BitVec 3) (d a b c : BitVec 5) (p : BitVec 1) : Statement (.ffma st d a b c p) := by
  intro w h hw
  simp only [encode, Option.some.injEq] at h
  subst h
  simp [decode, decodeRaw, decodeMajor1F, fld_lit, hw,
    Shape.w6_3_5_5_5_5_1_2_at_26_6, Shape.w6_3_5_5_5_5_1_2_at_23_3, Shape.w6_3_5_5_5_5_1_2_at_18_5, Shape.w6_3_5_5_5_5_1_2_at_13_5, Shape.w6_3_5_5_5_5_1_2_at_8_5, Shape.w6_3_5_5_5_5_1_2_at_3_5, Shape.w6_3_5_5_5_5_1_2_at_2_1, Shape.w6_3_5_5_5_5_1_2_at_0_2]
theorem ffms (st : BitVec 3) (d a b c : BitVec 5) (p : BitVec 1) : Statement (.ffms st d a b c p) := by
  intro w h hw
  simp only [encode, Option.some.injEq] at h
  subst h
  simp [decode, decodeRaw, decodeMajor1F, fld_lit, hw,
    Shape.w6_3_5_5_5_5_1_2_at_26_6, Shape.w6_3_5_5_5_5_1_2_at_23_3, Shape.w6_3_5_5_5_5_1_2_at_18_5, Shape.w6_3_5_5_5_5_1_2_at_13_5, Shape.w6_3_5_5_5_5_1_2_at_8_5, Shape.w6_3_5_5_5_5_1_2_at_3_5, Shape.w6_3_5_5_5_5_1_2_at_2_1, Shape.w6_3_5_5_5_5_1_2_at_0_2]
theorem ffnma (st : BitVec 3) (d a b c : BitVec 5) (p : BitVec 1) : Statement (.ffnma st d a b c p) := by
  intro w h hw
  simp only [encode, Option.some.injEq] at h
  subst h
  simp [decode, decodeRaw, decodeMajor1F, fld_lit, hw,
    Shape.w6_3_5_5_5_5_1_2_at_26_6, Shape.w6_3_5_5_5_5_1_2_at_23_3, Shape.w6_3_5_5_5_5_1_2_at_18_5, Shape.w6_3_5_5_5_5_1_2_at_13_5, Shape.w6_3_5_5_5_5_1_2_at_8_5, Shape.w6_3_5_5_5_5_1_2_at_3_5, Shape.w6_3_5_5_5_5_1_2_at_2_1, Shape.w6_3_5_5_5_5_1_2_at_0_2]
theorem ffnms (st : BitVec 3) (d a b c : BitVec 5) (p : BitVec 1) : Statement (.ffnms st d a b c p) := by
  intro w h hw
  simp only [encode, Option.some.injEq] at h
  subst h
  simp [decode, decodeRaw, decodeMajor1F, fld_lit, hw,
    Shape.w6_3_5_5_5_5_1_2_at_26_6, Shape.w6_3_5_5_5_5_1_2_at_23_3, Shape.w6_3_5_5_5_5_1_2_at_18_5, Shape.w6_3_5_5_5_5_1_2_at_13_5, Shape.w6_3_5_5_5_5_1_2_at_8_5, Shape.w6_3_5_5_5_5_1_2_at_3_5, Shape.w6_3_5_5_5_5_1_2_at_2_1, Shape.w6_3_5_5_5_5_1_2_at_0_2]
theorem csrr (st : BitVec 3) (d : BitVec 5) (e : BitVec 10) : Statement (.csrr st d e) := by
  intro w h hw
  simp only [encode, Option.some.injEq] at h
  subst h
  simp [decode, decodeRaw, decodeMajor20, fld_lit, hw,
    Shape.w6_3_5_8_10_at_26_6, Shape.w6_3_5_8_10_at_23_3, Shape.w6_3_5_8_10_at_18_5, Shape.w6_3_5_8_10_at_13_5, Shape.w6_3_5_8_10_at_10_3, Shape.w6_3_5_8_10_at_0_10]
theorem csrw (st : BitVec 3) (d a : BitVec 5) (e : BitVec 10) : Statement (.csrw st d a e) := by
  intro w h hw
  simp only [encode, Option.some.injEq] at h
  subst h
  simp [decode, decodeRaw, decodeMajor20, fld_lit, hw,
    Shape.w6_3_5_5_3_10_at_26_6, Shape.w6_3_5_5_3_10_at_23_3, Shape.w6_3_5_5_3_10_at_18_5, Shape.w6_3_5_5_3_10_at_13_5, Shape.w6_3_5_5_3_10_at_10_3, Shape.w6_3_5_5_3_10_at_0_10]
theorem csrs (st : BitVec 3) (d a : BitVec 5) (e : BitVec 10) : Statement (.csrs st d a e) := by
  intro w h hw
  simp only [encode, Option.some.injEq] at h
  subst h
  simp [decode, decodeRaw, decodeMajor20, fld_lit, hw,
    Shape.w6_3_5_5_3_10_at_26_6, Shape.w6_3_5_5_3_10_at_23_3, Shape.w6_3_5_5_3_10_at_18_5, Shape.w6_3_5_5_3_10_at_13_5, Shape.w6_3_5_5_3_10_at_10_3, Shape.w6_3_5_5_3_10_at_0_10]
theorem csrc (st : BitVec 3) (d a : BitVec 5) (e : BitVec 10) : Statement (.csrc st d a e) := by
  intro w h hw
  simp only [encode, Option.some.injEq] at h
  subst h
  simp [decode, decodeRaw, decodeMajor20, fld_lit, hw,
    Shape.w6_3_5_5_3_10_at_26_6, Shape.w6_3_5_5_3_10_at_23_3, Shape.w6_3_5_5_3_10_at_18_5, Shape.w6_3_5_5_3_10_at_13_5, Shape.w6_3_5_5_3_10_at_10_3, Shape.w6_3_5_5_3_10_at_0_10]
theorem trap (st : BitVec 3) (a : BitVec 5) (e : BitVec 10) : Statement (.trap st a e) := by
  intro w h hw
  simp only [encode, Option.some.injEq] at h
  subst h
  simp [decode, decodeRaw, decodeMajor21, fld_lit, hw,
    Shape.w6_3_5_5_3_10_at_26_6, Shape.w6_3_5_5_3_10_at_23_3, Shape.w6_3_5_5_3_10_at_18_5, Shape.w6_3_5_5_3_10_at_13_5, Shape.w6_3_5_5_3_10_at_10_3, Shape.w6_3_5_5_3_10_at_3_7, Shape.w6_3_5_5_3_10_at_0_10, Shape.w6_3_5_5_3_10_at_0_3]
theorem eret (st : BitVec 3) : Statement (.eret st) := by
  intro w h hw
  simp only [encode, Option.some.injEq] at h
  subst h
  simp [decode, decodeRaw, decodeMajor21, fld_lit, hw,
    Shape.w6_3_23_at_26_6, Shape.w6_3_23_at_23_3, Shape.w6_3_23_at_18_5, Shape.w6_3_23_at_13_5, Shape.w6_3_23_at_10_3, Shape.w6_3_23_at_3_7, Shape.w6_3_23_at_0_10, Shape.w6_3_23_at_0_3]
theorem wfe (st : BitVec 3) (d a : BitVec 5) : Statement (.wfe st d a) := by
  intro w h hw
  simp only [encode, Option.some.injEq] at h
  subst h
  simp [decode, decodeRaw, decodeMajor21, fld_lit, hw,
    Shape.w6_3_5_5_13_at_26_6, Shape.w6_3_5_5_13_at_23_3, Shape.w6_3_5_5_13_at_18_5, Shape.w6_3_5_5_13_at_13_5, Shape.w6_3_5_5_13_at_10_3, Shape.w6_3_5_5_13_at_3_7, Shape.w6_3_5_5_13_at_0_10, Shape.w6_3_5_5_13_at_0_3]
theorem yield (st : BitVec 3) : Statement (.yield st) := by
  intro w h hw
  simp only [encode, Option.some.injEq] at h
  subst h
  simp [decode, decodeRaw, decodeMajor21, fld_lit, hw,
    Shape.w6_3_23_at_26_6, Shape.w6_3_23_at_23_3, Shape.w6_3_23_at_18_5, Shape.w6_3_23_at_13_5, Shape.w6_3_23_at_10_3, Shape.w6_3_23_at_3_7, Shape.w6_3_23_at_0_10, Shape.w6_3_23_at_0_3]
theorem claim (st : BitVec 3) : Statement (.claim st) := by
  intro w h hw
  simp only [encode, Option.some.injEq] at h
  subst h
  simp [decode, decodeRaw, decodeMajor21, fld_lit, hw,
    Shape.w6_3_23_at_26_6, Shape.w6_3_23_at_23_3, Shape.w6_3_23_at_18_5, Shape.w6_3_23_at_13_5, Shape.w6_3_23_at_10_3, Shape.w6_3_23_at_3_7, Shape.w6_3_23_at_0_10, Shape.w6_3_23_at_0_3]
theorem nop (st : BitVec 3) : Statement (.nop st) := by
  intro w h hw
  simp only [encode, Option.some.injEq] at h
  subst h
  simp [decode, decodeRaw, decodeMajor21, fld_lit, hw,
    Shape.w6_3_23_at_26_6, Shape.w6_3_23_at_23_3, Shape.w6_3_23_at_18_5, Shape.w6_3_23_at_13_5, Shape.w6_3_23_at_10_3, Shape.w6_3_23_at_3_7, Shape.w6_3_23_at_0_10, Shape.w6_3_23_at_0_3]
theorem done (st : BitVec 3) : Statement (.done st) := by
  intro w h hw
  simp only [encode, Option.some.injEq] at h
  subst h
  simp [decode, decodeRaw, decodeMajor21, fld_lit, hw,
    Shape.w6_3_23_at_26_6, Shape.w6_3_23_at_23_3, Shape.w6_3_23_at_18_5, Shape.w6_3_23_at_13_5, Shape.w6_3_23_at_10_3, Shape.w6_3_23_at_3_7, Shape.w6_3_23_at_0_10, Shape.w6_3_23_at_0_3]
theorem doneErr (st : BitVec 3) : Statement (.doneErr st) := by
  intro w h hw
  simp only [encode, Option.some.injEq] at h
  subst h
  simp [decode, decodeRaw, decodeMajor21, fld_lit, hw,
    Shape.w6_3_23_at_26_6, Shape.w6_3_23_at_23_3, Shape.w6_3_23_at_18_5, Shape.w6_3_23_at_13_5, Shape.w6_3_23_at_10_3, Shape.w6_3_23_at_3_7, Shape.w6_3_23_at_0_10, Shape.w6_3_23_at_0_3]
theorem etrig (st c : BitVec 3) : Statement (.etrig st c) := by
  intro w h hw
  simp only [encode, Option.some.injEq] at h
  subst h
  simp [decode, decodeRaw, decodeMajor21, fld_lit, hw,
    Shape.w6_3_20_3_at_26_6, Shape.w6_3_20_3_at_23_3, Shape.w6_3_20_3_at_18_5, Shape.w6_3_20_3_at_13_5, Shape.w6_3_20_3_at_10_3, Shape.w6_3_20_3_at_3_7, Shape.w6_3_20_3_at_0_3]
theorem launch (st : BitVec 3) (a b : BitVec 5) : Statement (.launch st a b) := by
  intro w h hw
  simp only [encode, Option.some.injEq] at h
  subst h
  simp [decode, decodeRaw, decodeMajor22, fld_lit, hw,
    Shape.w6_3_5_5_13_at_26_6, Shape.w6_3_5_5_13_at_23_3, Shape.w6_3_5_5_13_at_18_5, Shape.w6_3_5_5_13_at_13_5, Shape.w6_3_5_5_13_at_10_3, Shape.w6_3_5_5_13_at_0_10]
theorem join (st : BitVec 3) (a b : BitVec 5) : Statement (.join st a b) := by
  intro w h hw
  simp only [encode, Option.some.injEq] at h
  subst h
  simp [decode, decodeRaw, decodeMajor22, fld_lit, hw,
    Shape.w6_3_5_5_13_at_26_6, Shape.w6_3_5_5_13_at_23_3, Shape.w6_3_5_5_13_at_18_5, Shape.w6_3_5_5_13_at_13_5, Shape.w6_3_5_5_13_at_10_3, Shape.w6_3_5_5_13_at_0_10]
theorem leave (st : BitVec 3) (a : BitVec 5) : Statement (.leave st a) := by
  intro w h hw
  simp only [encode, Option.some.injEq] at h
  subst h
  simp [decode, decodeRaw, decodeMajor22, fld_lit, hw,
    Shape.w6_3_5_18_at_26_6, Shape.w6_3_5_18_at_23_3, Shape.w6_3_5_18_at_18_5, Shape.w6_3_5_18_at_13_5, Shape.w6_3_5_18_at_10_3, Shape.w6_3_5_18_at_0_10]
theorem gbar (st : BitVec 3) (a : BitVec 5) (c : BitVec 3) : Statement (.gbar st a c) := by
  intro w h hw
  simp only [encode, Option.some.injEq] at h
  subst h
  simp [decode, decodeRaw, decodeMajor22, fld_lit, hw,
    Shape.w6_3_5_5_3_10_at_26_6, Shape.w6_3_5_5_3_10_at_23_3, Shape.w6_3_5_5_3_10_at_18_5, Shape.w6_3_5_5_3_10_at_13_5, Shape.w6_3_5_5_3_10_at_10_3, Shape.w6_3_5_5_3_10_at_0_10]
theorem setlen (st : BitVec 3) (d a : BitVec 5) (g : BitVec 2) (f : BitVec 4) : Statement (.setlen st d a g f) := by
  intro w h hw
  simp only [encode, Option.some.injEq] at h
  subst h
  simp [decode, decodeRaw, decodeMajor23, fld_lit, hw,
    Shape.w6_3_5_5_7_2_4_at_26_6, Shape.w6_3_5_5_7_2_4_at_23_3, Shape.w6_3_5_5_7_2_4_at_18_5, Shape.w6_3_5_5_7_2_4_at_13_5, Shape.w6_3_5_5_7_2_4_at_6_7, Shape.w6_3_5_5_7_2_4_at_4_2, Shape.w6_3_5_5_7_2_4_at_0_4]
theorem vadd (st : BitVec 3) (d a b : BitVec 5) (k : BitVec 3) : Statement (.vadd st d a b k) := by
  intro w h hw
  simp only [encode, Option.some.injEq] at h
  subst h
  simp [decode, decodeRaw, decodeMajor24, fld_lit, hw,
    Shape.w6_3_5_5_5_3_5_at_26_6, Shape.w6_3_5_5_5_3_5_at_23_3, Shape.w6_3_5_5_5_3_5_at_18_5, Shape.w6_3_5_5_5_3_5_at_13_5, Shape.w6_3_5_5_5_3_5_at_8_5, Shape.w6_3_5_5_5_3_5_at_5_3, Shape.w6_3_5_5_5_3_5_at_0_5]
theorem vsub (st : BitVec 3) (d a b : BitVec 5) (k : BitVec 3) : Statement (.vsub st d a b k) := by
  intro w h hw
  simp only [encode, Option.some.injEq] at h
  subst h
  simp [decode, decodeRaw, decodeMajor24, fld_lit, hw,
    Shape.w6_3_5_5_5_3_5_at_26_6, Shape.w6_3_5_5_5_3_5_at_23_3, Shape.w6_3_5_5_5_3_5_at_18_5, Shape.w6_3_5_5_5_3_5_at_13_5, Shape.w6_3_5_5_5_3_5_at_8_5, Shape.w6_3_5_5_5_3_5_at_5_3, Shape.w6_3_5_5_5_3_5_at_0_5]
theorem vmul (st : BitVec 3) (d a b : BitVec 5) (k : BitVec 3) : Statement (.vmul st d a b k) := by
  intro w h hw
  simp only [encode, Option.some.injEq] at h
  subst h
  simp [decode, decodeRaw, decodeMajor24, fld_lit, hw,
    Shape.w6_3_5_5_5_3_5_at_26_6, Shape.w6_3_5_5_5_3_5_at_23_3, Shape.w6_3_5_5_5_3_5_at_18_5, Shape.w6_3_5_5_5_3_5_at_13_5, Shape.w6_3_5_5_5_3_5_at_8_5, Shape.w6_3_5_5_5_3_5_at_5_3, Shape.w6_3_5_5_5_3_5_at_0_5]
theorem vdiv (st : BitVec 3) (d a b : BitVec 5) (k : BitVec 3) : Statement (.vdiv st d a b k) := by
  intro w h hw
  simp only [encode, Option.some.injEq] at h
  subst h
  simp [decode, decodeRaw, decodeMajor24, fld_lit, hw,
    Shape.w6_3_5_5_5_3_5_at_26_6, Shape.w6_3_5_5_5_3_5_at_23_3, Shape.w6_3_5_5_5_3_5_at_18_5, Shape.w6_3_5_5_5_3_5_at_13_5, Shape.w6_3_5_5_5_3_5_at_8_5, Shape.w6_3_5_5_5_3_5_at_5_3, Shape.w6_3_5_5_5_3_5_at_0_5]
theorem vmin (st : BitVec 3) (d a b : BitVec 5) (k : BitVec 3) : Statement (.vmin st d a b k) := by
  intro w h hw
  simp only [encode, Option.some.injEq] at h
  subst h
  simp [decode, decodeRaw, decodeMajor24, fld_lit, hw,
    Shape.w6_3_5_5_5_3_5_at_26_6, Shape.w6_3_5_5_5_3_5_at_23_3, Shape.w6_3_5_5_5_3_5_at_18_5, Shape.w6_3_5_5_5_3_5_at_13_5, Shape.w6_3_5_5_5_3_5_at_8_5, Shape.w6_3_5_5_5_3_5_at_5_3, Shape.w6_3_5_5_5_3_5_at_0_5]
theorem vmax (st : BitVec 3) (d a b : BitVec 5) (k : BitVec 3) : Statement (.vmax st d a b k) := by
  intro w h hw
  simp only [encode, Option.some.injEq] at h
  subst h
  simp [decode, decodeRaw, decodeMajor24, fld_lit, hw,
    Shape.w6_3_5_5_5_3_5_at_26_6, Shape.w6_3_5_5_5_3_5_at_23_3, Shape.w6_3_5_5_5_3_5_at_18_5, Shape.w6_3_5_5_5_3_5_at_13_5, Shape.w6_3_5_5_5_3_5_at_8_5, Shape.w6_3_5_5_5_3_5_at_5_3, Shape.w6_3_5_5_5_3_5_at_0_5]
theorem vabs (st : BitVec 3) (d a : BitVec 5) (k : BitVec 3) : Statement (.vabs st d a k) := by
  intro w h hw
  simp only [encode, Option.some.injEq] at h
  subst h
  simp [decode, decodeRaw, decodeMajor24, fld_lit, hw,
    Shape.w6_3_5_5_5_3_5_at_26_6, Shape.w6_3_5_5_5_3_5_at_23_3, Shape.w6_3_5_5_5_3_5_at_18_5, Shape.w6_3_5_5_5_3_5_at_13_5, Shape.w6_3_5_5_5_3_5_at_8_5, Shape.w6_3_5_5_5_3_5_at_5_3, Shape.w6_3_5_5_5_3_5_at_0_5]
theorem vneg (st : BitVec 3) (d a : BitVec 5) (k : BitVec 3) : Statement (.vneg st d a k) := by
  intro w h hw
  simp only [encode, Option.some.injEq] at h
  subst h
  simp [decode, decodeRaw, decodeMajor24, fld_lit, hw,
    Shape.w6_3_5_5_5_3_5_at_26_6, Shape.w6_3_5_5_5_3_5_at_23_3, Shape.w6_3_5_5_5_3_5_at_18_5, Shape.w6_3_5_5_5_3_5_at_13_5, Shape.w6_3_5_5_5_3_5_at_8_5, Shape.w6_3_5_5_5_3_5_at_5_3, Shape.w6_3_5_5_5_3_5_at_0_5]
theorem vsqrt (st : BitVec 3) (d a : BitVec 5) (k : BitVec 3) : Statement (.vsqrt st d a k) := by
  intro w h hw
  simp only [encode, Option.some.injEq] at h
  subst h
  simp [decode, decodeRaw, decodeMajor24, fld_lit, hw,
    Shape.w6_3_5_5_5_3_5_at_26_6, Shape.w6_3_5_5_5_3_5_at_23_3, Shape.w6_3_5_5_5_3_5_at_18_5, Shape.w6_3_5_5_5_3_5_at_13_5, Shape.w6_3_5_5_5_3_5_at_8_5, Shape.w6_3_5_5_5_3_5_at_5_3, Shape.w6_3_5_5_5_3_5_at_0_5]
theorem vrsq (st : BitVec 3) (d a : BitVec 5) (k : BitVec 3) : Statement (.vrsq st d a k) := by
  intro w h hw
  simp only [encode, Option.some.injEq] at h
  subst h
  simp [decode, decodeRaw, decodeMajor24, fld_lit, hw,
    Shape.w6_3_5_5_5_3_5_at_26_6, Shape.w6_3_5_5_5_3_5_at_23_3, Shape.w6_3_5_5_5_3_5_at_18_5, Shape.w6_3_5_5_5_3_5_at_13_5, Shape.w6_3_5_5_5_3_5_at_8_5, Shape.w6_3_5_5_5_3_5_at_5_3, Shape.w6_3_5_5_5_3_5_at_0_5]
theorem vrcp (st : BitVec 3) (d a : BitVec 5) (k : BitVec 3) : Statement (.vrcp st d a k) := by
  intro w h hw
  simp only [encode, Option.some.injEq] at h
  subst h
  simp [decode, decodeRaw, decodeMajor24, fld_lit, hw,
    Shape.w6_3_5_5_5_3_5_at_26_6, Shape.w6_3_5_5_5_3_5_at_23_3, Shape.w6_3_5_5_5_3_5_at_18_5, Shape.w6_3_5_5_5_3_5_at_13_5, Shape.w6_3_5_5_5_3_5_at_8_5, Shape.w6_3_5_5_5_3_5_at_5_3, Shape.w6_3_5_5_5_3_5_at_0_5]
theorem vexp2 (st : BitVec 3) (d a : BitVec 5) (k : BitVec 3) : Statement (.vexp2 st d a k) := by
  intro w h hw
  simp only [encode, Option.some.injEq] at h
  subst h
  simp [decode, decodeRaw, decodeMajor24, fld_lit, hw,
    Shape.w6_3_5_5_5_3_5_at_26_6, Shape.w6_3_5_5_5_3_5_at_23_3, Shape.w6_3_5_5_5_3_5_at_18_5, Shape.w6_3_5_5_5_3_5_at_13_5, Shape.w6_3_5_5_5_3_5_at_8_5, Shape.w6_3_5_5_5_3_5_at_5_3, Shape.w6_3_5_5_5_3_5_at_0_5]
theorem vclass (st : BitVec 3) (d a : BitVec 5) (k : BitVec 3) : Statement (.vclass st d a k) := by
  intro w h hw
  simp only [encode, Option.some.injEq] at h
  subst h
  simp [decode, decodeRaw, decodeMajor24, fld_lit, hw,
    Shape.w6_3_5_5_5_3_5_at_26_6, Shape.w6_3_5_5_5_3_5_at_23_3, Shape.w6_3_5_5_5_3_5_at_18_5, Shape.w6_3_5_5_5_3_5_at_13_5, Shape.w6_3_5_5_5_3_5_at_8_5, Shape.w6_3_5_5_5_3_5_at_5_3, Shape.w6_3_5_5_5_3_5_at_0_5]
theorem vfma (st : BitVec 3) (d a b : BitVec 5) (k : BitVec 3) : Statement (.vfma st d a b k) := by
  intro w h hw
  simp only [encode, Option.some.injEq] at h
  subst h
  simp [decode, decodeRaw, decodeMajor25, fld_lit, hw,
    Shape.w6_3_5_5_5_3_5_at_26_6, Shape.w6_3_5_5_5_3_5_at_23_3, Shape.w6_3_5_5_5_3_5_at_18_5, Shape.w6_3_5_5_5_3_5_at_13_5, Shape.w6_3_5_5_5_3_5_at_8_5, Shape.w6_3_5_5_5_3_5_at_5_3, Shape.w6_3_5_5_5_3_5_at_0_5]
theorem vfms (st : BitVec 3) (d a b : BitVec 5) (k : BitVec 3) : Statement (.vfms st d a b k) := by
  intro w h hw
  simp only [encode, Option.some.injEq] at h
  subst h
  simp [decode, decodeRaw, decodeMajor25, fld_lit, hw,
    Shape.w6_3_5_5_5_3_5_at_26_6, Shape.w6_3_5_5_5_3_5_at_23_3, Shape.w6_3_5_5_5_3_5_at_18_5, Shape.w6_3_5_5_5_3_5_at_13_5, Shape.w6_3_5_5_5_3_5_at_8_5, Shape.w6_3_5_5_5_3_5_at_5_3, Shape.w6_3_5_5_5_3_5_at_0_5]
theorem vfnma (st : BitVec 3) (d a b : BitVec 5) (k : BitVec 3) : Statement (.vfnma st d a b k) := by
  intro w h hw
  simp only [encode, Option.some.injEq] at h
  subst h
  simp [decode, decodeRaw, decodeMajor25, fld_lit, hw,
    Shape.w6_3_5_5_5_3_5_at_26_6, Shape.w6_3_5_5_5_3_5_at_23_3, Shape.w6_3_5_5_5_3_5_at_18_5, Shape.w6_3_5_5_5_3_5_at_13_5, Shape.w6_3_5_5_5_3_5_at_8_5, Shape.w6_3_5_5_5_3_5_at_5_3, Shape.w6_3_5_5_5_3_5_at_0_5]
theorem vfnms (st : BitVec 3) (d a b : BitVec 5) (k : BitVec 3) : Statement (.vfnms st d a b k) := by
  intro w h hw
  simp only [encode, Option.some.injEq] at h
  subst h
  simp [decode, decodeRaw, decodeMajor25, fld_lit, hw,
    Shape.w6_3_5_5_5_3_5_at_26_6, Shape.w6_3_5_5_5_3_5_at_23_3, Shape.w6_3_5_5_5_3_5_at_18_5, Shape.w6_3_5_5_5_3_5_at_13_5, Shape.w6_3_5_5_5_3_5_at_8_5, Shape.w6_3_5_5_5_3_5_at_5_3, Shape.w6_3_5_5_5_3_5_at_0_5]
theorem viadd (st : BitVec 3) (d a b : BitVec 5) (k : BitVec 3) : Statement (.viadd st d a b k) := by
  intro w h hw
  simp only [encode, Option.some.injEq] at h
  subst h
  simp [decode, decodeRaw, decodeMajor26, fld_lit, hw,
    Shape.w6_3_5_5_5_3_5_at_26_6, Shape.w6_3_5_5_5_3_5_at_23_3, Shape.w6_3_5_5_5_3_5_at_18_5, Shape.w6_3_5_5_5_3_5_at_13_5, Shape.w6_3_5_5_5_3_5_at_8_5, Shape.w6_3_5_5_5_3_5_at_5_3, Shape.w6_3_5_5_5_3_5_at_0_5]
theorem visub (st : BitVec 3) (d a b : BitVec 5) (k : BitVec 3) : Statement (.visub st d a b k) := by
  intro w h hw
  simp only [encode, Option.some.injEq] at h
  subst h
  simp [decode, decodeRaw, decodeMajor26, fld_lit, hw,
    Shape.w6_3_5_5_5_3_5_at_26_6, Shape.w6_3_5_5_5_3_5_at_23_3, Shape.w6_3_5_5_5_3_5_at_18_5, Shape.w6_3_5_5_5_3_5_at_13_5, Shape.w6_3_5_5_5_3_5_at_8_5, Shape.w6_3_5_5_5_3_5_at_5_3, Shape.w6_3_5_5_5_3_5_at_0_5]
theorem vimul (st : BitVec 3) (d a b : BitVec 5) (k : BitVec 3) : Statement (.vimul st d a b k) := by
  intro w h hw
  simp only [encode, Option.some.injEq] at h
  subst h
  simp [decode, decodeRaw, decodeMajor26, fld_lit, hw,
    Shape.w6_3_5_5_5_3_5_at_26_6, Shape.w6_3_5_5_5_3_5_at_23_3, Shape.w6_3_5_5_5_3_5_at_18_5, Shape.w6_3_5_5_5_3_5_at_13_5, Shape.w6_3_5_5_5_3_5_at_8_5, Shape.w6_3_5_5_5_3_5_at_5_3, Shape.w6_3_5_5_5_3_5_at_0_5]
theorem vimulh (st : BitVec 3) (d a b : BitVec 5) (k : BitVec 3) : Statement (.vimulh st d a b k) := by
  intro w h hw
  simp only [encode, Option.some.injEq] at h
  subst h
  simp [decode, decodeRaw, decodeMajor26, fld_lit, hw,
    Shape.w6_3_5_5_5_3_5_at_26_6, Shape.w6_3_5_5_5_3_5_at_23_3, Shape.w6_3_5_5_5_3_5_at_18_5, Shape.w6_3_5_5_5_3_5_at_13_5, Shape.w6_3_5_5_5_3_5_at_8_5, Shape.w6_3_5_5_5_3_5_at_5_3, Shape.w6_3_5_5_5_3_5_at_0_5]
theorem vand (st : BitVec 3) (d a b : BitVec 5) (k : BitVec 3) : Statement (.vand st d a b k) := by
  intro w h hw
  simp only [encode, Option.some.injEq] at h
  subst h
  simp [decode, decodeRaw, decodeMajor26, fld_lit, hw,
    Shape.w6_3_5_5_5_3_5_at_26_6, Shape.w6_3_5_5_5_3_5_at_23_3, Shape.w6_3_5_5_5_3_5_at_18_5, Shape.w6_3_5_5_5_3_5_at_13_5, Shape.w6_3_5_5_5_3_5_at_8_5, Shape.w6_3_5_5_5_3_5_at_5_3, Shape.w6_3_5_5_5_3_5_at_0_5]
theorem vor (st : BitVec 3) (d a b : BitVec 5) (k : BitVec 3) : Statement (.vor st d a b k) := by
  intro w h hw
  simp only [encode, Option.some.injEq] at h
  subst h
  simp [decode, decodeRaw, decodeMajor26, fld_lit, hw,
    Shape.w6_3_5_5_5_3_5_at_26_6, Shape.w6_3_5_5_5_3_5_at_23_3, Shape.w6_3_5_5_5_3_5_at_18_5, Shape.w6_3_5_5_5_3_5_at_13_5, Shape.w6_3_5_5_5_3_5_at_8_5, Shape.w6_3_5_5_5_3_5_at_5_3, Shape.w6_3_5_5_5_3_5_at_0_5]
theorem vxor (st : BitVec 3) (d a b : BitVec 5) (k : BitVec 3) : Statement (.vxor st d a b k) := by
  intro w h hw
  simp only [encode, Option.some.injEq] at h
  subst h
  simp [decode, decodeRaw, decodeMajor26, fld_lit, hw,
    Shape.w6_3_5_5_5_3_5_at_26_6, Shape.w6_3_5_5_5_3_5_at_23_3, Shape.w6_3_5_5_5_3_5_at_18_5, Shape.w6_3_5_5_5_3_5_at_13_5, Shape.w6_3_5_5_5_3_5_at_8_5, Shape.w6_3_5_5_5_3_5_at_5_3, Shape.w6_3_5_5_5_3_5_at_0_5]
theorem vsll (st : BitVec 3) (d a b : BitVec 5) (k : BitVec 3) : Statement (.vsll st d a b k) := by
  intro w h hw
  simp only [encode, Option.some.injEq] at h
  subst h
  simp [decode, decodeRaw, decodeMajor26, fld_lit, hw,
    Shape.w6_3_5_5_5_3_5_at_26_6, Shape.w6_3_5_5_5_3_5_at_23_3, Shape.w6_3_5_5_5_3_5_at_18_5, Shape.w6_3_5_5_5_3_5_at_13_5, Shape.w6_3_5_5_5_3_5_at_8_5, Shape.w6_3_5_5_5_3_5_at_5_3, Shape.w6_3_5_5_5_3_5_at_0_5]
theorem vsrl (st : BitVec 3) (d a b : BitVec 5) (k : BitVec 3) : Statement (.vsrl st d a b k) := by
  intro w h hw
  simp only [encode, Option.some.injEq] at h
  subst h
  simp [decode, decodeRaw, decodeMajor26, fld_lit, hw,
    Shape.w6_3_5_5_5_3_5_at_26_6, Shape.w6_3_5_5_5_3_5_at_23_3, Shape.w6_3_5_5_5_3_5_at_18_5, Shape.w6_3_5_5_5_3_5_at_13_5, Shape.w6_3_5_5_5_3_5_at_8_5, Shape.w6_3_5_5_5_3_5_at_5_3, Shape.w6_3_5_5_5_3_5_at_0_5]
theorem vsra (st : BitVec 3) (d a b : BitVec 5) (k : BitVec 3) : Statement (.vsra st d a b k) := by
  intro w h hw
  simp only [encode, Option.some.injEq] at h
  subst h
  simp [decode, decodeRaw, decodeMajor26, fld_lit, hw,
    Shape.w6_3_5_5_5_3_5_at_26_6, Shape.w6_3_5_5_5_3_5_at_23_3, Shape.w6_3_5_5_5_3_5_at_18_5, Shape.w6_3_5_5_5_3_5_at_13_5, Shape.w6_3_5_5_5_3_5_at_8_5, Shape.w6_3_5_5_5_3_5_at_5_3, Shape.w6_3_5_5_5_3_5_at_0_5]
theorem vimin (st : BitVec 3) (d a b : BitVec 5) (k : BitVec 3) : Statement (.vimin st d a b k) := by
  intro w h hw
  simp only [encode, Option.some.injEq] at h
  subst h
  simp [decode, decodeRaw, decodeMajor26, fld_lit, hw,
    Shape.w6_3_5_5_5_3_5_at_26_6, Shape.w6_3_5_5_5_3_5_at_23_3, Shape.w6_3_5_5_5_3_5_at_18_5, Shape.w6_3_5_5_5_3_5_at_13_5, Shape.w6_3_5_5_5_3_5_at_8_5, Shape.w6_3_5_5_5_3_5_at_5_3, Shape.w6_3_5_5_5_3_5_at_0_5]
theorem vimax (st : BitVec 3) (d a b : BitVec 5) (k : BitVec 3) : Statement (.vimax st d a b k) := by
  intro w h hw
  simp only [encode, Option.some.injEq] at h
  subst h
  simp [decode, decodeRaw, decodeMajor26, fld_lit, hw,
    Shape.w6_3_5_5_5_3_5_at_26_6, Shape.w6_3_5_5_5_3_5_at_23_3, Shape.w6_3_5_5_5_3_5_at_18_5, Shape.w6_3_5_5_5_3_5_at_13_5, Shape.w6_3_5_5_5_3_5_at_8_5, Shape.w6_3_5_5_5_3_5_at_5_3, Shape.w6_3_5_5_5_3_5_at_0_5]
theorem vminn (st : BitVec 3) (d a b : BitVec 5) (k : BitVec 3) : Statement (.vminn st d a b k) := by
  intro w h hw
  simp only [encode, Option.some.injEq] at h
  subst h
  simp [decode, decodeRaw, decodeMajor26, fld_lit, hw,
    Shape.w6_3_5_5_5_3_5_at_26_6, Shape.w6_3_5_5_5_3_5_at_23_3, Shape.w6_3_5_5_5_3_5_at_18_5, Shape.w6_3_5_5_5_3_5_at_13_5, Shape.w6_3_5_5_5_3_5_at_8_5, Shape.w6_3_5_5_5_3_5_at_5_3, Shape.w6_3_5_5_5_3_5_at_0_5]
theorem vmaxn (st : BitVec 3) (d a b : BitVec 5) (k : BitVec 3) : Statement (.vmaxn st d a b k) := by
  intro w h hw
  simp only [encode, Option.some.injEq] at h
  subst h
  simp [decode, decodeRaw, decodeMajor26, fld_lit, hw,
    Shape.w6_3_5_5_5_3_5_at_26_6, Shape.w6_3_5_5_5_3_5_at_23_3, Shape.w6_3_5_5_5_3_5_at_18_5, Shape.w6_3_5_5_5_3_5_at_13_5, Shape.w6_3_5_5_5_3_5_at_8_5, Shape.w6_3_5_5_5_3_5_at_5_3, Shape.w6_3_5_5_5_3_5_at_0_5]
theorem viadds (st : BitVec 3) (d a b : BitVec 5) (k : BitVec 3) : Statement (.viadds st d a b k) := by
  intro w h hw
  simp only [encode, Option.some.injEq] at h
  subst h
  simp [decode, decodeRaw, decodeMajor26, fld_lit, hw,
    Shape.w6_3_5_5_5_3_5_at_26_6, Shape.w6_3_5_5_5_3_5_at_23_3, Shape.w6_3_5_5_5_3_5_at_18_5, Shape.w6_3_5_5_5_3_5_at_13_5, Shape.w6_3_5_5_5_3_5_at_8_5, Shape.w6_3_5_5_5_3_5_at_5_3, Shape.w6_3_5_5_5_3_5_at_0_5]
theorem visubs (st : BitVec 3) (d a b : BitVec 5) (k : BitVec 3) : Statement (.visubs st d a b k) := by
  intro w h hw
  simp only [encode, Option.some.injEq] at h
  subst h
  simp [decode, decodeRaw, decodeMajor26, fld_lit, hw,
    Shape.w6_3_5_5_5_3_5_at_26_6, Shape.w6_3_5_5_5_3_5_at_23_3, Shape.w6_3_5_5_5_3_5_at_18_5, Shape.w6_3_5_5_5_3_5_at_13_5, Shape.w6_3_5_5_5_3_5_at_8_5, Shape.w6_3_5_5_5_3_5_at_5_3, Shape.w6_3_5_5_5_3_5_at_0_5]
theorem vmadd (st : BitVec 3) (d a b : BitVec 5) (k : BitVec 3) : Statement (.vmadd st d a b k) := by
  intro w h hw
  simp only [encode, Option.some.injEq] at h
  subst h
  simp [decode, decodeRaw, decodeMajor27, fld_lit, hw,
    Shape.w6_3_5_5_5_3_5_at_26_6, Shape.w6_3_5_5_5_3_5_at_23_3, Shape.w6_3_5_5_5_3_5_at_18_5, Shape.w6_3_5_5_5_3_5_at_13_5, Shape.w6_3_5_5_5_3_5_at_8_5, Shape.w6_3_5_5_5_3_5_at_5_3, Shape.w6_3_5_5_5_3_5_at_0_5]
theorem vmsub (st : BitVec 3) (d a b : BitVec 5) (k : BitVec 3) : Statement (.vmsub st d a b k) := by
  intro w h hw
  simp only [encode, Option.some.injEq] at h
  subst h
  simp [decode, decodeRaw, decodeMajor27, fld_lit, hw,
    Shape.w6_3_5_5_5_3_5_at_26_6, Shape.w6_3_5_5_5_3_5_at_23_3, Shape.w6_3_5_5_5_3_5_at_18_5, Shape.w6_3_5_5_5_3_5_at_13_5, Shape.w6_3_5_5_5_3_5_at_8_5, Shape.w6_3_5_5_5_3_5_at_5_3, Shape.w6_3_5_5_5_3_5_at_0_5]
theorem vmmul (st : BitVec 3) (d a b : BitVec 5) (k : BitVec 3) : Statement (.vmmul st d a b k) := by
  intro w h hw
  simp only [encode, Option.some.injEq] at h
  subst h
  simp [decode, decodeRaw, decodeMajor27, fld_lit, hw,
    Shape.w6_3_5_5_5_3_5_at_26_6, Shape.w6_3_5_5_5_3_5_at_23_3, Shape.w6_3_5_5_5_3_5_at_18_5, Shape.w6_3_5_5_5_3_5_at_13_5, Shape.w6_3_5_5_5_3_5_at_8_5, Shape.w6_3_5_5_5_3_5_at_5_3, Shape.w6_3_5_5_5_3_5_at_0_5]
theorem vmred (st : BitVec 3) (d a : BitVec 5) (k : BitVec 3) : Statement (.vmred st d a k) := by
  intro w h hw
  simp only [encode, Option.some.injEq] at h
  subst h
  simp [decode, decodeRaw, decodeMajor27, fld_lit, hw,
    Shape.w6_3_5_5_5_3_5_at_26_6, Shape.w6_3_5_5_5_3_5_at_23_3, Shape.w6_3_5_5_5_3_5_at_18_5, Shape.w6_3_5_5_5_3_5_at_13_5, Shape.w6_3_5_5_5_3_5_at_8_5, Shape.w6_3_5_5_5_3_5_at_5_3, Shape.w6_3_5_5_5_3_5_at_0_5]
theorem vcmp (st d : BitVec 3) (a b : BitVec 5) (k c : BitVec 3) : Statement (.vcmp st d a b k c) := by
  intro w h hw
  simp only [encode, Option.some.injEq] at h
  subst h
  simp [decode, decodeRaw, decodeMajor28, fld_lit, hw,
    Shape.w6_3_2_3_5_5_3_2_3_at_26_6, Shape.w6_3_2_3_5_5_3_2_3_at_23_3, Shape.w6_3_2_3_5_5_3_2_3_at_21_2, Shape.w6_3_2_3_5_5_3_2_3_at_18_3, Shape.w6_3_2_3_5_5_3_2_3_at_13_5, Shape.w6_3_2_3_5_5_3_2_3_at_8_5, Shape.w6_3_2_3_5_5_3_2_3_at_5_3, Shape.w6_3_2_3_5_5_3_2_3_at_3_2, Shape.w6_3_2_3_5_5_3_2_3_at_0_3]
theorem mand (st d a b : BitVec 3) : Statement (.mand st d a b) := by
  intro w h hw
  simp only [encode, Option.some.injEq] at h
  subst h
  simp [decode, decodeRaw, decodeMajor29, fld_lit, hw,
    Shape.w6_3_2_3_2_3_2_3_8_at_26_6, Shape.w6_3_2_3_2_3_2_3_8_at_23_3, Shape.w6_3_2_3_2_3_2_3_8_at_21_2, Shape.w6_3_2_3_2_3_2_3_8_at_18_3, Shape.w6_3_2_3_2_3_2_3_8_at_16_2, Shape.w6_3_2_3_2_3_2_3_8_at_13_3, Shape.w6_3_2_3_2_3_2_3_8_at_11_2, Shape.w6_3_2_3_2_3_2_3_8_at_8_3, Shape.w6_3_2_3_2_3_2_3_8_at_5_3, Shape.w6_3_2_3_2_3_2_3_8_at_0_5]
theorem mor (st d a b : BitVec 3) : Statement (.mor st d a b) := by
  intro w h hw
  simp only [encode, Option.some.injEq] at h
  subst h
  simp [decode, decodeRaw, decodeMajor29, fld_lit, hw,
    Shape.w6_3_2_3_2_3_2_3_8_at_26_6, Shape.w6_3_2_3_2_3_2_3_8_at_23_3, Shape.w6_3_2_3_2_3_2_3_8_at_21_2, Shape.w6_3_2_3_2_3_2_3_8_at_18_3, Shape.w6_3_2_3_2_3_2_3_8_at_16_2, Shape.w6_3_2_3_2_3_2_3_8_at_13_3, Shape.w6_3_2_3_2_3_2_3_8_at_11_2, Shape.w6_3_2_3_2_3_2_3_8_at_8_3, Shape.w6_3_2_3_2_3_2_3_8_at_5_3, Shape.w6_3_2_3_2_3_2_3_8_at_0_5]
theorem mxor (st d a b : BitVec 3) : Statement (.mxor st d a b) := by
  intro w h hw
  simp only [encode, Option.some.injEq] at h
  subst h
  simp [decode, decodeRaw, decodeMajor29, fld_lit, hw,
    Shape.w6_3_2_3_2_3_2_3_8_at_26_6, Shape.w6_3_2_3_2_3_2_3_8_at_23_3, Shape.w6_3_2_3_2_3_2_3_8_at_21_2, Shape.w6_3_2_3_2_3_2_3_8_at_18_3, Shape.w6_3_2_3_2_3_2_3_8_at_16_2, Shape.w6_3_2_3_2_3_2_3_8_at_13_3, Shape.w6_3_2_3_2_3_2_3_8_at_11_2, Shape.w6_3_2_3_2_3_2_3_8_at_8_3, Shape.w6_3_2_3_2_3_2_3_8_at_5_3, Shape.w6_3_2_3_2_3_2_3_8_at_0_5]
theorem mandn (st d a b : BitVec 3) : Statement (.mandn st d a b) := by
  intro w h hw
  simp only [encode, Option.some.injEq] at h
  subst h
  simp [decode, decodeRaw, decodeMajor29, fld_lit, hw,
    Shape.w6_3_2_3_2_3_2_3_8_at_26_6, Shape.w6_3_2_3_2_3_2_3_8_at_23_3, Shape.w6_3_2_3_2_3_2_3_8_at_21_2, Shape.w6_3_2_3_2_3_2_3_8_at_18_3, Shape.w6_3_2_3_2_3_2_3_8_at_16_2, Shape.w6_3_2_3_2_3_2_3_8_at_13_3, Shape.w6_3_2_3_2_3_2_3_8_at_11_2, Shape.w6_3_2_3_2_3_2_3_8_at_8_3, Shape.w6_3_2_3_2_3_2_3_8_at_5_3, Shape.w6_3_2_3_2_3_2_3_8_at_0_5]
theorem mnot (st d a : BitVec 3) : Statement (.mnot st d a) := by
  intro w h hw
  simp only [encode, Option.some.injEq] at h
  subst h
  simp [decode, decodeRaw, decodeMajor29, fld_lit, hw,
    Shape.w6_3_2_3_2_3_13_at_26_6, Shape.w6_3_2_3_2_3_13_at_23_3, Shape.w6_3_2_3_2_3_13_at_21_2, Shape.w6_3_2_3_2_3_13_at_18_3, Shape.w6_3_2_3_2_3_13_at_16_2, Shape.w6_3_2_3_2_3_13_at_13_3, Shape.w6_3_2_3_2_3_13_at_11_2, Shape.w6_3_2_3_2_3_13_at_8_3, Shape.w6_3_2_3_2_3_13_at_5_3, Shape.w6_3_2_3_2_3_13_at_0_5]
theorem mpopc (st : BitVec 3) (d : BitVec 5) (a k : BitVec 3) : Statement (.mpopc st d a k) := by
  intro w h hw
  simp only [encode, Option.some.injEq] at h
  subst h
  simp [decode, decodeRaw, decodeMajor29, fld_lit, hw,
    Shape.w6_3_5_2_3_5_3_5_at_26_6, Shape.w6_3_5_2_3_5_3_5_at_23_3, Shape.w6_3_5_2_3_5_3_5_at_21_2, Shape.w6_3_5_2_3_5_3_5_at_18_5, Shape.w6_3_5_2_3_5_3_5_at_18_3, Shape.w6_3_5_2_3_5_3_5_at_16_2, Shape.w6_3_5_2_3_5_3_5_at_13_3, Shape.w6_3_5_2_3_5_3_5_at_11_2, Shape.w6_3_5_2_3_5_3_5_at_8_3, Shape.w6_3_5_2_3_5_3_5_at_5_3, Shape.w6_3_5_2_3_5_3_5_at_0_5]
theorem mfirst (st : BitVec 3) (d : BitVec 5) (a k : BitVec 3) : Statement (.mfirst st d a k) := by
  intro w h hw
  simp only [encode, Option.some.injEq] at h
  subst h
  simp [decode, decodeRaw, decodeMajor29, fld_lit, hw,
    Shape.w6_3_5_2_3_5_3_5_at_26_6, Shape.w6_3_5_2_3_5_3_5_at_23_3, Shape.w6_3_5_2_3_5_3_5_at_21_2, Shape.w6_3_5_2_3_5_3_5_at_18_5, Shape.w6_3_5_2_3_5_3_5_at_18_3, Shape.w6_3_5_2_3_5_3_5_at_16_2, Shape.w6_3_5_2_3_5_3_5_at_13_3, Shape.w6_3_5_2_3_5_3_5_at_11_2, Shape.w6_3_5_2_3_5_3_5_at_8_3, Shape.w6_3_5_2_3_5_3_5_at_5_3, Shape.w6_3_5_2_3_5_3_5_at_0_5]
theorem mset (st d : BitVec 3) (a : BitVec 5) : Statement (.mset st d a) := by
  intro w h hw
  simp only [encode, Option.some.injEq] at h
  subst h
  simp [decode, decodeRaw, decodeMajor29, fld_lit, hw,
    Shape.w6_3_2_3_5_13_at_26_6, Shape.w6_3_2_3_5_13_at_23_3, Shape.w6_3_2_3_5_13_at_21_2, Shape.w6_3_2_3_5_13_at_18_3, Shape.w6_3_2_3_5_13_at_16_2, Shape.w6_3_2_3_5_13_at_13_5, Shape.w6_3_2_3_5_13_at_13_3, Shape.w6_3_2_3_5_13_at_11_2, Shape.w6_3_2_3_5_13_at_8_3, Shape.w6_3_2_3_5_13_at_5_3, Shape.w6_3_2_3_5_13_at_0_5]
theorem vcvt (st : BitVec 3) (d a : BitVec 5) (k : BitVec 3) (t : BitVec 1) (f : BitVec 4) : Statement (.vcvt st d a k t f) := by
  intro w h hw
  simp only [encode, Option.some.injEq] at h
  subst h
  simp [decode, decodeRaw, decodeMajor2A, fld_lit, hw,
    Shape.w6_3_5_5_5_3_1_4_at_26_6, Shape.w6_3_5_5_5_3_1_4_at_23_3, Shape.w6_3_5_5_5_3_1_4_at_18_5, Shape.w6_3_5_5_5_3_1_4_at_13_5, Shape.w6_3_5_5_5_3_1_4_at_8_5, Shape.w6_3_5_5_5_3_1_4_at_5_3, Shape.w6_3_5_5_5_3_1_4_at_4_1, Shape.w6_3_5_5_5_3_1_4_at_0_4]
theorem vredsum (st : BitVec 3) (d a b : BitVec 5) (k : BitVec 3) : Statement (.vredsum st d a b k) := by
  intro w h hw
  simp only [encode, Option.some.injEq] at h
  subst h
  simp [decode, decodeRaw, decodeMajor2B, fld_lit, hw,
    Shape.w6_3_5_5_5_3_5_at_26_6, Shape.w6_3_5_5_5_3_5_at_23_3, Shape.w6_3_5_5_5_3_5_at_18_5, Shape.w6_3_5_5_5_3_5_at_13_5, Shape.w6_3_5_5_5_3_5_at_8_5, Shape.w6_3_5_5_5_3_5_at_5_3, Shape.w6_3_5_5_5_3_5_at_0_5]
theorem vredsumo (st : BitVec 3) (d a b : BitVec 5) (k : BitVec 3) : Statement (.vredsumo st d a b k) := by
  intro w h hw
  simp only [encode, Option.some.injEq] at h
  subst h
  simp [decode, decodeRaw, decodeMajor2B, fld_lit, hw,
    Shape.w6_3_5_5_5_3_5_at_26_6, Shape.w6_3_5_5_5_3_5_at_23_3, Shape.w6_3_5_5_5_3_5_at_18_5, Shape.w6_3_5_5_5_3_5_at_13_5, Shape.w6_3_5_5_5_3_5_at_8_5, Shape.w6_3_5_5_5_3_5_at_5_3, Shape.w6_3_5_5_5_3_5_at_0_5]
theorem vredmax (st : BitVec 3) (d a b : BitVec 5) (k : BitVec 3) : Statement (.vredmax st d a b k) := by
  intro w h hw
  simp only [encode, Option.some.injEq] at h
  subst h
  simp [decode, decodeRaw, decodeMajor2B, fld_lit, hw,
    Shape.w6_3_5_5_5_3_5_at_26_6, Shape.w6_3_5_5_5_3_5_at_23_3, Shape.w6_3_5_5_5_3_5_at_18_5, Shape.w6_3_5_5_5_3_5_at_13_5, Shape.w6_3_5_5_5_3_5_at_8_5, Shape.w6_3_5_5_5_3_5_at_5_3, Shape.w6_3_5_5_5_3_5_at_0_5]
theorem vredmin (st : BitVec 3) (d a b : BitVec 5) (k : BitVec 3) : Statement (.vredmin st d a b k) := by
  intro w h hw
  simp only [encode, Option.some.injEq] at h
  subst h
  simp [decode, decodeRaw, decodeMajor2B, fld_lit, hw,
    Shape.w6_3_5_5_5_3_5_at_26_6, Shape.w6_3_5_5_5_3_5_at_23_3, Shape.w6_3_5_5_5_3_5_at_18_5, Shape.w6_3_5_5_5_3_5_at_13_5, Shape.w6_3_5_5_5_3_5_at_8_5, Shape.w6_3_5_5_5_3_5_at_5_3, Shape.w6_3_5_5_5_3_5_at_0_5]
theorem vredand (st : BitVec 3) (d a b : BitVec 5) (k : BitVec 3) : Statement (.vredand st d a b k) := by
  intro w h hw
  simp only [encode, Option.some.injEq] at h
  subst h
  simp [decode, decodeRaw, decodeMajor2B, fld_lit, hw,
    Shape.w6_3_5_5_5_3_5_at_26_6, Shape.w6_3_5_5_5_3_5_at_23_3, Shape.w6_3_5_5_5_3_5_at_18_5, Shape.w6_3_5_5_5_3_5_at_13_5, Shape.w6_3_5_5_5_3_5_at_8_5, Shape.w6_3_5_5_5_3_5_at_5_3, Shape.w6_3_5_5_5_3_5_at_0_5]
theorem vredor (st : BitVec 3) (d a b : BitVec 5) (k : BitVec 3) : Statement (.vredor st d a b k) := by
  intro w h hw
  simp only [encode, Option.some.injEq] at h
  subst h
  simp [decode, decodeRaw, decodeMajor2B, fld_lit, hw,
    Shape.w6_3_5_5_5_3_5_at_26_6, Shape.w6_3_5_5_5_3_5_at_23_3, Shape.w6_3_5_5_5_3_5_at_18_5, Shape.w6_3_5_5_5_3_5_at_13_5, Shape.w6_3_5_5_5_3_5_at_8_5, Shape.w6_3_5_5_5_3_5_at_5_3, Shape.w6_3_5_5_5_3_5_at_0_5]
theorem vperm (st : BitVec 3) (d a b : BitVec 5) (k : BitVec 3) : Statement (.vperm st d a b k) := by
  intro w h hw
  simp only [encode, Option.some.injEq] at h
  subst h
  simp [decode, decodeRaw, decodeMajor2C, fld_lit, hw,
    Shape.w6_3_5_5_5_3_5_at_26_6, Shape.w6_3_5_5_5_3_5_at_23_3, Shape.w6_3_5_5_5_3_5_at_18_5, Shape.w6_3_5_5_5_3_5_at_13_5, Shape.w6_3_5_5_5_3_5_at_8_5, Shape.w6_3_5_5_5_3_5_at_5_3, Shape.w6_3_5_5_5_3_5_at_0_5]
theorem vslup (st : BitVec 3) (d a b : BitVec 5) (k : BitVec 3) : Statement (.vslup st d a b k) := by
  intro w h hw
  simp only [encode, Option.some.injEq] at h
  subst h
  simp [decode, decodeRaw, decodeMajor2C, fld_lit, hw,
    Shape.w6_3_5_5_5_3_5_at_26_6, Shape.w6_3_5_5_5_3_5_at_23_3, Shape.w6_3_5_5_5_3_5_at_18_5, Shape.w6_3_5_5_5_3_5_at_13_5, Shape.w6_3_5_5_5_3_5_at_8_5, Shape.w6_3_5_5_5_3_5_at_5_3, Shape.w6_3_5_5_5_3_5_at_0_5]
theorem vsldn (st : BitVec 3) (d a b : BitVec 5) (k : BitVec 3) : Statement (.vsldn st d a b k) := by
  intro w h hw
  simp only [encode, Option.some.injEq] at h
  subst h
  simp [decode, decodeRaw, decodeMajor2C, fld_lit, hw,
    Shape.w6_3_5_5_5_3_5_at_26_6, Shape.w6_3_5_5_5_3_5_at_23_3, Shape.w6_3_5_5_5_3_5_at_18_5, Shape.w6_3_5_5_5_3_5_at_13_5, Shape.w6_3_5_5_5_3_5_at_8_5, Shape.w6_3_5_5_5_3_5_at_5_3, Shape.w6_3_5_5_5_3_5_at_0_5]
theorem vmerge (st : BitVec 3) (d a b : BitVec 5) (k : BitVec 3) : Statement (.vmerge st d a b k) := by
  intro w h hw
  simp only [encode, Option.some.injEq] at h
  subst h
  simp [decode, decodeRaw, decodeMajor2C, fld_lit, hw,
    Shape.w6_3_5_5_5_3_5_at_26_6, Shape.w6_3_5_5_5_3_5_at_23_3, Shape.w6_3_5_5_5_3_5_at_18_5, Shape.w6_3_5_5_5_3_5_at_13_5, Shape.w6_3_5_5_5_3_5_at_8_5, Shape.w6_3_5_5_5_3_5_at_5_3, Shape.w6_3_5_5_5_3_5_at_0_5]
theorem vcompress (st : BitVec 3) (d a : BitVec 5) (k : BitVec 3) : Statement (.vcompress st d a k) := by
  intro w h hw
  simp only [encode, Option.some.injEq] at h
  subst h
  simp [decode, decodeRaw, decodeMajor2C, fld_lit, hw,
    Shape.w6_3_5_5_5_3_5_at_26_6, Shape.w6_3_5_5_5_3_5_at_23_3, Shape.w6_3_5_5_5_3_5_at_18_5, Shape.w6_3_5_5_5_3_5_at_13_5, Shape.w6_3_5_5_5_3_5_at_8_5, Shape.w6_3_5_5_5_3_5_at_5_3, Shape.w6_3_5_5_5_3_5_at_0_5]
theorem vexpand (st : BitVec 3) (d a : BitVec 5) (k : BitVec 3) : Statement (.vexpand st d a k) := by
  intro w h hw
  simp only [encode, Option.some.injEq] at h
  subst h
  simp [decode, decodeRaw, decodeMajor2C, fld_lit, hw,
    Shape.w6_3_5_5_5_3_5_at_26_6, Shape.w6_3_5_5_5_3_5_at_23_3, Shape.w6_3_5_5_5_3_5_at_18_5, Shape.w6_3_5_5_5_3_5_at_13_5, Shape.w6_3_5_5_5_3_5_at_8_5, Shape.w6_3_5_5_5_3_5_at_5_3, Shape.w6_3_5_5_5_3_5_at_0_5]
theorem viota (st : BitVec 3) (d : BitVec 5) (k : BitVec 3) : Statement (.viota st d k) := by
  intro w h hw
  simp only [encode, Option.some.injEq] at h
  subst h
  simp [decode, decodeRaw, decodeMajor2C, fld_lit, hw,
    Shape.w6_3_5_10_3_5_at_26_6, Shape.w6_3_5_10_3_5_at_23_3, Shape.w6_3_5_10_3_5_at_18_5, Shape.w6_3_5_10_3_5_at_13_5, Shape.w6_3_5_10_3_5_at_8_5, Shape.w6_3_5_10_3_5_at_5_3, Shape.w6_3_5_10_3_5_at_0_5]
theorem vbcast (st : BitVec 3) (d a : BitVec 5) (k : BitVec 3) : Statement (.vbcast st d a k) := by
  intro w h hw
  simp only [encode, Option.some.injEq] at h
  subst h
  simp [decode, decodeRaw, decodeMajor2C, fld_lit, hw,
    Shape.w6_3_5_5_5_3_5_at_26_6, Shape.w6_3_5_5_5_3_5_at_23_3, Shape.w6_3_5_5_5_3_5_at_18_5, Shape.w6_3_5_5_5_3_5_at_13_5, Shape.w6_3_5_5_5_3_5_at_8_5, Shape.w6_3_5_5_5_3_5_at_5_3, Shape.w6_3_5_5_5_3_5_at_0_5]
theorem vextract (st : BitVec 3) (d a b : BitVec 5) : Statement (.vextract st d a b) := by
  intro w h hw
  simp only [encode, Option.some.injEq] at h
  subst h
  simp [decode, decodeRaw, decodeMajor2C, fld_lit, hw,
    Shape.w6_3_5_5_5_8_at_26_6, Shape.w6_3_5_5_5_8_at_23_3, Shape.w6_3_5_5_5_8_at_18_5, Shape.w6_3_5_5_5_8_at_13_5, Shape.w6_3_5_5_5_8_at_8_5, Shape.w6_3_5_5_5_8_at_5_3, Shape.w6_3_5_5_5_8_at_0_5]
theorem vxch (st : BitVec 3) (d a : BitVec 5) (k : BitVec 3) : Statement (.vxch st d a k) := by
  intro w h hw
  simp only [encode, Option.some.injEq] at h
  subst h
  simp [decode, decodeRaw, decodeMajor2D, fld_lit, hw,
    Shape.w6_3_5_5_5_3_5_at_26_6, Shape.w6_3_5_5_5_3_5_at_23_3, Shape.w6_3_5_5_5_3_5_at_18_5, Shape.w6_3_5_5_5_3_5_at_13_5, Shape.w6_3_5_5_5_3_5_at_8_5, Shape.w6_3_5_5_5_3_5_at_5_3, Shape.w6_3_5_5_5_3_5_at_0_5]
theorem vxchRot (st : BitVec 3) (d a : BitVec 5) (k : BitVec 3) : Statement (.vxchRot st d a k) := by
  intro w h hw
  simp only [encode, Option.some.injEq] at h
  subst h
  simp [decode, decodeRaw, decodeMajor2D, fld_lit, hw,
    Shape.w6_3_5_5_5_3_5_at_26_6, Shape.w6_3_5_5_5_3_5_at_23_3, Shape.w6_3_5_5_5_3_5_at_18_5, Shape.w6_3_5_5_5_3_5_at_13_5, Shape.w6_3_5_5_5_3_5_at_8_5, Shape.w6_3_5_5_5_3_5_at_5_3, Shape.w6_3_5_5_5_3_5_at_0_5]
theorem vld (st : BitVec 3) (d a : BitVec 5) (k : BitVec 3) : Statement (.vld st d a k) := by
  intro w h hw
  simp only [encode, Option.some.injEq] at h
  subst h
  simp [decode, decodeRaw, decodeMajor2E, fld_lit, hw,
    Shape.w6_3_5_5_5_3_5_at_26_6, Shape.w6_3_5_5_5_3_5_at_23_3, Shape.w6_3_5_5_5_3_5_at_18_5, Shape.w6_3_5_5_5_3_5_at_13_5, Shape.w6_3_5_5_5_3_5_at_8_5, Shape.w6_3_5_5_5_3_5_at_5_3, Shape.w6_3_5_5_5_3_5_at_3_2, Shape.w6_3_5_5_5_3_5_at_2_3, Shape.w6_3_5_5_5_3_5_at_2_1, Shape.w6_3_5_5_5_3_5_at_0_2]
theorem vlds (st : BitVec 3) (d a b : BitVec 5) (k : BitVec 3) : Statement (.vlds st d a b k) := by
  intro w h hw
  simp only [encode, Option.some.injEq] at h
  subst h
  simp [decode, decodeRaw, decodeMajor2E, fld_lit, hw,
    Shape.w6_3_5_5_5_3_5_at_26_6, Shape.w6_3_5_5_5_3_5_at_23_3, Shape.w6_3_5_5_5_3_5_at_18_5, Shape.w6_3_5_5_5_3_5_at_13_5, Shape.w6_3_5_5_5_3_5_at_8_5, Shape.w6_3_5_5_5_3_5_at_5_3, Shape.w6_3_5_5_5_3_5_at_3_2, Shape.w6_3_5_5_5_3_5_at_2_3, Shape.w6_3_5_5_5_3_5_at_2_1, Shape.w6_3_5_5_5_3_5_at_0_2]
theorem vldx (st : BitVec 3) (d a b : BitVec 5) (k : BitVec 3) (x : BitVec 1) : Statement (.vldx st d a b k x) := by
  intro w h hw
  simp only [encode, Option.some.injEq] at h
  subst h
  simp [decode, decodeRaw, decodeMajor2E, fld_lit, hw,
    Shape.w6_3_5_5_5_3_2_1_2_at_26_6, Shape.w6_3_5_5_5_3_2_1_2_at_23_3, Shape.w6_3_5_5_5_3_2_1_2_at_18_5, Shape.w6_3_5_5_5_3_2_1_2_at_13_5, Shape.w6_3_5_5_5_3_2_1_2_at_8_5, Shape.w6_3_5_5_5_3_2_1_2_at_5_3, Shape.w6_3_5_5_5_3_2_1_2_at_3_2, Shape.w6_3_5_5_5_3_2_1_2_at_2_1, Shape.w6_3_5_5_5_3_2_1_2_at_0_2]
theorem vldxa (st : BitVec 3) (d a b : BitVec 5) (k c : BitVec 3) : Statement (.vldxa st d a b k c) := by
  intro w h hw
  simp only [encode, Option.some.injEq] at h
  subst h
  simp [decode, decodeRaw, decodeMajor2E, fld_lit, hw,
    Shape.w6_3_5_5_5_3_3_2_at_26_6, Shape.w6_3_5_5_5_3_3_2_at_23_3, Shape.w6_3_5_5_5_3_3_2_at_18_5, Shape.w6_3_5_5_5_3_3_2_at_13_5, Shape.w6_3_5_5_5_3_3_2_at_8_5, Shape.w6_3_5_5_5_3_3_2_at_5_3, Shape.w6_3_5_5_5_3_3_2_at_3_2, Shape.w6_3_5_5_5_3_3_2_at_2_3, Shape.w6_3_5_5_5_3_3_2_at_2_1, Shape.w6_3_5_5_5_3_3_2_at_0_2]
theorem vst (st : BitVec 3) (d a : BitVec 5) (k : BitVec 3) : Statement (.vst st d a k) := by
  intro w h hw
  simp only [encode, Option.some.injEq] at h
  subst h
  simp [decode, decodeRaw, decodeMajor2F, fld_lit, hw,
    Shape.w6_3_5_5_5_3_5_at_26_6, Shape.w6_3_5_5_5_3_5_at_23_3, Shape.w6_3_5_5_5_3_5_at_18_5, Shape.w6_3_5_5_5_3_5_at_13_5, Shape.w6_3_5_5_5_3_5_at_8_5, Shape.w6_3_5_5_5_3_5_at_5_3, Shape.w6_3_5_5_5_3_5_at_3_2, Shape.w6_3_5_5_5_3_5_at_2_3, Shape.w6_3_5_5_5_3_5_at_2_1, Shape.w6_3_5_5_5_3_5_at_0_2]
theorem vsts (st : BitVec 3) (d a b : BitVec 5) (k : BitVec 3) : Statement (.vsts st d a b k) := by
  intro w h hw
  simp only [encode, Option.some.injEq] at h
  subst h
  simp [decode, decodeRaw, decodeMajor2F, fld_lit, hw,
    Shape.w6_3_5_5_5_3_5_at_26_6, Shape.w6_3_5_5_5_3_5_at_23_3, Shape.w6_3_5_5_5_3_5_at_18_5, Shape.w6_3_5_5_5_3_5_at_13_5, Shape.w6_3_5_5_5_3_5_at_8_5, Shape.w6_3_5_5_5_3_5_at_5_3, Shape.w6_3_5_5_5_3_5_at_3_2, Shape.w6_3_5_5_5_3_5_at_2_3, Shape.w6_3_5_5_5_3_5_at_2_1, Shape.w6_3_5_5_5_3_5_at_0_2]
theorem vstx (st : BitVec 3) (d a b : BitVec 5) (k : BitVec 3) (x : BitVec 1) : Statement (.vstx st d a b k x) := by
  intro w h hw
  simp only [encode, Option.some.injEq] at h
  subst h
  simp [decode, decodeRaw, decodeMajor2F, fld_lit, hw,
    Shape.w6_3_5_5_5_3_2_1_2_at_26_6, Shape.w6_3_5_5_5_3_2_1_2_at_23_3, Shape.w6_3_5_5_5_3_2_1_2_at_18_5, Shape.w6_3_5_5_5_3_2_1_2_at_13_5, Shape.w6_3_5_5_5_3_2_1_2_at_8_5, Shape.w6_3_5_5_5_3_2_1_2_at_5_3, Shape.w6_3_5_5_5_3_2_1_2_at_3_2, Shape.w6_3_5_5_5_3_2_1_2_at_2_1, Shape.w6_3_5_5_5_3_2_1_2_at_0_2]
theorem vstxa (st : BitVec 3) (d a b : BitVec 5) (k c : BitVec 3) : Statement (.vstxa st d a b k c) := by
  intro w h hw
  simp only [encode, Option.some.injEq] at h
  subst h
  simp [decode, decodeRaw, decodeMajor2F, fld_lit, hw,
    Shape.w6_3_5_5_5_3_3_2_at_26_6, Shape.w6_3_5_5_5_3_3_2_at_23_3, Shape.w6_3_5_5_5_3_3_2_at_18_5, Shape.w6_3_5_5_5_3_3_2_at_13_5, Shape.w6_3_5_5_5_3_3_2_at_8_5, Shape.w6_3_5_5_5_3_3_2_at_5_3, Shape.w6_3_5_5_5_3_3_2_at_3_2, Shape.w6_3_5_5_5_3_3_2_at_2_3, Shape.w6_3_5_5_5_3_3_2_at_2_1, Shape.w6_3_5_5_5_3_3_2_at_0_2]
theorem vappend (st : BitVec 3) (v a x : BitVec 5) (k c : BitVec 3) : Statement (.vappend st v a x k c) := by
  intro w h hw
  simp only [encode, Option.some.injEq] at h
  subst h
  simp [decode, decodeRaw, decodeMajor30, fld_lit, hw,
    Shape.w6_3_5_5_5_3_2_3_at_26_6, Shape.w6_3_5_5_5_3_2_3_at_23_3, Shape.w6_3_5_5_5_3_2_3_at_18_5, Shape.w6_3_5_5_5_3_2_3_at_13_5, Shape.w6_3_5_5_5_3_2_3_at_8_5, Shape.w6_3_5_5_5_3_2_3_at_5_3, Shape.w6_3_5_5_5_3_2_3_at_3_2, Shape.w6_3_5_5_5_3_2_3_at_0_3]
theorem vq4dq (st : BitVec 3) (d a b : BitVec 5) (k : BitVec 3) : Statement (.vq4dq st d a b k) := by
  intro w h hw
  simp only [encode, Option.some.injEq] at h
  subst h
  simp [decode, decodeRaw, decodeMajor31, fld_lit, hw,
    Shape.w6_3_5_5_5_3_5_at_26_6, Shape.w6_3_5_5_5_3_5_at_23_3, Shape.w6_3_5_5_5_3_5_at_18_5, Shape.w6_3_5_5_5_3_5_at_13_5, Shape.w6_3_5_5_5_3_5_at_8_5, Shape.w6_3_5_5_5_3_5_at_5_3, Shape.w6_3_5_5_5_3_5_at_0_5]
theorem vq4q (st : BitVec 3) (d a b : BitVec 5) (k : BitVec 3) : Statement (.vq4q st d a b k) := by
  intro w h hw
  simp only [encode, Option.some.injEq] at h
  subst h
  simp [decode, decodeRaw, decodeMajor31, fld_lit, hw,
    Shape.w6_3_5_5_5_3_5_at_26_6, Shape.w6_3_5_5_5_3_5_at_23_3, Shape.w6_3_5_5_5_3_5_at_18_5, Shape.w6_3_5_5_5_3_5_at_13_5, Shape.w6_3_5_5_5_3_5_at_8_5, Shape.w6_3_5_5_5_3_5_at_5_3, Shape.w6_3_5_5_5_3_5_at_0_5]
theorem cfgload (st : BitVec 3) (a b : BitVec 5) : Statement (.cfgload st a b) := by
  intro w h hw
  simp only [encode, Option.some.injEq] at h
  subst h
  simp [decode, decodeRaw, decodeMajor32, fld_lit, hw,
    Shape.w6_3_5_5_13_at_26_6, Shape.w6_3_5_5_13_at_23_3, Shape.w6_3_5_5_13_at_18_5, Shape.w6_3_5_5_13_at_13_5, Shape.w6_3_5_5_13_at_8_5, Shape.w6_3_5_5_13_at_6_2, Shape.w6_3_5_5_13_at_5_1, Shape.w6_3_5_5_13_at_4_2, Shape.w6_3_5_5_13_at_4_1, Shape.w6_3_5_5_13_at_0_4]
theorem cfgsel (st : BitVec 3) (a : BitVec 5) (p : BitVec 2) (e : BitVec 1) : Statement (.cfgsel st a p e) := by
  intro w h hw
  simp only [encode, Option.some.injEq] at h
  subst h
  simp [decode, decodeRaw, decodeMajor32, fld_lit, hw,
    Shape.w6_3_5_10_2_1_5_at_26_6, Shape.w6_3_5_10_2_1_5_at_23_3, Shape.w6_3_5_10_2_1_5_at_18_5, Shape.w6_3_5_10_2_1_5_at_13_5, Shape.w6_3_5_10_2_1_5_at_8_5, Shape.w6_3_5_10_2_1_5_at_6_2, Shape.w6_3_5_10_2_1_5_at_5_1, Shape.w6_3_5_10_2_1_5_at_4_1, Shape.w6_3_5_10_2_1_5_at_0_4]
theorem cfgck (st : BitVec 3) (a b : BitVec 5) : Statement (.cfgck st a b) := by
  intro w h hw
  simp only [encode, Option.some.injEq] at h
  subst h
  simp [decode, decodeRaw, decodeMajor32, fld_lit, hw,
    Shape.w6_3_5_5_13_at_26_6, Shape.w6_3_5_5_13_at_23_3, Shape.w6_3_5_5_13_at_18_5, Shape.w6_3_5_5_13_at_13_5, Shape.w6_3_5_5_13_at_8_5, Shape.w6_3_5_5_13_at_6_2, Shape.w6_3_5_5_13_at_5_1, Shape.w6_3_5_5_13_at_4_2, Shape.w6_3_5_5_13_at_4_1, Shape.w6_3_5_5_13_at_0_4]
theorem gresume (st : BitVec 3) (a : BitVec 5) : Statement (.gresume st a) := by
  intro w h hw
  simp only [encode, Option.some.injEq] at h
  subst h
  simp [decode, decodeRaw, decodeMajor32, fld_lit, hw,
    Shape.w6_3_5_18_at_26_6, Shape.w6_3_5_18_at_23_3, Shape.w6_3_5_18_at_18_5, Shape.w6_3_5_18_at_13_5, Shape.w6_3_5_18_at_8_5, Shape.w6_3_5_18_at_6_2, Shape.w6_3_5_18_at_5_1, Shape.w6_3_5_18_at_4_2, Shape.w6_3_5_18_at_4_1, Shape.w6_3_5_18_at_0_4]
theorem gdrain (st : BitVec 3) (a : BitVec 5) : Statement (.gdrain st a) := by
  intro w h hw
  simp only [encode, Option.some.injEq] at h
  subst h
  simp [decode, decodeRaw, decodeMajor32, fld_lit, hw,
    Shape.w6_3_5_18_at_26_6, Shape.w6_3_5_18_at_23_3, Shape.w6_3_5_18_at_18_5, Shape.w6_3_5_18_at_13_5, Shape.w6_3_5_18_at_8_5, Shape.w6_3_5_18_at_6_2, Shape.w6_3_5_18_at_5_1, Shape.w6_3_5_18_at_4_2, Shape.w6_3_5_18_at_4_1, Shape.w6_3_5_18_at_0_4]
theorem gquery (st : BitVec 3) (a b : BitVec 5) (e : BitVec 2) : Statement (.gquery st a b e) := by
  intro w h hw
  simp only [encode, Option.some.injEq] at h
  subst h
  simp [decode, decodeRaw, decodeMajor32, fld_lit, hw,
    Shape.w6_3_5_5_7_2_4_at_26_6, Shape.w6_3_5_5_7_2_4_at_23_3, Shape.w6_3_5_5_7_2_4_at_18_5, Shape.w6_3_5_5_7_2_4_at_13_5, Shape.w6_3_5_5_7_2_4_at_8_5, Shape.w6_3_5_5_7_2_4_at_6_2, Shape.w6_3_5_5_7_2_4_at_5_1, Shape.w6_3_5_5_7_2_4_at_4_2, Shape.w6_3_5_5_7_2_4_at_4_1, Shape.w6_3_5_5_7_2_4_at_0_4]
theorem strm (st : BitVec 3) (a b : BitVec 5) (c : BitVec 3) (q l : BitVec 1) (p : BitVec 3) : Statement (.strm st a b c q l p) := by
  intro w h hw
  simp only [encode, Option.some.injEq] at h
  subst h
  simp [decode, decodeRaw, decodeMajor33, fld_lit, hw,
    Shape.w6_3_5_5_3_1_1_1_3_4_at_26_6, Shape.w6_3_5_5_3_1_1_1_3_4_at_23_3, Shape.w6_3_5_5_3_1_1_1_3_4_at_18_5, Shape.w6_3_5_5_3_1_1_1_3_4_at_13_5, Shape.w6_3_5_5_3_1_1_1_3_4_at_10_3, Shape.w6_3_5_5_3_1_1_1_3_4_at_9_1, Shape.w6_3_5_5_3_1_1_1_3_4_at_8_1, Shape.w6_3_5_5_3_1_1_1_3_4_at_7_1, Shape.w6_3_5_5_3_1_1_1_3_4_at_4_3, Shape.w6_3_5_5_3_1_1_1_3_4_at_0_4]
theorem start (st : BitVec 3) (a b : BitVec 5) (k : BitVec 3) : Statement (.start st a b k) := by
  intro w h hw
  simp only [encode, Option.some.injEq] at h
  subst h
  simp [decode, decodeRaw, decodeMajor34, fld_lit, hw,
    Shape.w6_3_5_5_6_3_4_at_26_6, Shape.w6_3_5_5_6_3_4_at_23_3, Shape.w6_3_5_5_6_3_4_at_18_5, Shape.w6_3_5_5_6_3_4_at_13_5, Shape.w6_3_5_5_6_3_4_at_10_3, Shape.w6_3_5_5_6_3_4_at_7_3, Shape.w6_3_5_5_6_3_4_at_4_3, Shape.w6_3_5_5_6_3_4_at_0_4]
theorem ctok (st : BitVec 3) (a b : BitVec 5) : Statement (.ctok st a b) := by
  intro w h hw
  simp only [encode, Option.some.injEq] at h
  subst h
  simp [decode, decodeRaw, decodeMajor34, fld_lit, hw,
    Shape.w6_3_5_5_13_at_26_6, Shape.w6_3_5_5_13_at_23_3, Shape.w6_3_5_5_13_at_18_5, Shape.w6_3_5_5_13_at_13_5, Shape.w6_3_5_5_13_at_10_3, Shape.w6_3_5_5_13_at_7_3, Shape.w6_3_5_5_13_at_4_3, Shape.w6_3_5_5_13_at_0_4]
theorem sbarCfg (st : BitVec 3) : Statement (.sbarCfg st) := by
  intro w h hw
  simp only [encode, Option.some.injEq] at h
  subst h
  simp [decode, decodeRaw, decodeMajor34, fld_lit, hw,
    Shape.w6_3_23_at_26_6, Shape.w6_3_23_at_23_3, Shape.w6_3_23_at_18_5, Shape.w6_3_23_at_13_5, Shape.w6_3_23_at_10_3, Shape.w6_3_23_at_7_3, Shape.w6_3_23_at_4_3, Shape.w6_3_23_at_0_4]
theorem sbarStrm (st : BitVec 3) : Statement (.sbarStrm st) := by
  intro w h hw
  simp only [encode, Option.some.injEq] at h
  subst h
  simp [decode, decodeRaw, decodeMajor34, fld_lit, hw,
    Shape.w6_3_23_at_26_6, Shape.w6_3_23_at_23_3, Shape.w6_3_23_at_18_5, Shape.w6_3_23_at_13_5, Shape.w6_3_23_at_10_3, Shape.w6_3_23_at_7_3, Shape.w6_3_23_at_4_3, Shape.w6_3_23_at_0_4]
theorem sbarMem (st c : BitVec 3) : Statement (.sbarMem st c) := by
  intro w h hw
  simp only [encode, Option.some.injEq] at h
  subst h
  simp [decode, decodeRaw, decodeMajor34, fld_lit, hw,
    Shape.w6_3_10_3_10_at_26_6, Shape.w6_3_10_3_10_at_23_3, Shape.w6_3_10_3_10_at_18_5, Shape.w6_3_10_3_10_at_13_5, Shape.w6_3_10_3_10_at_10_3, Shape.w6_3_10_3_10_at_7_3, Shape.w6_3_10_3_10_at_4_3, Shape.w6_3_10_3_10_at_0_4]
theorem sbarCond (st : BitVec 3) (n : BitVec 5) (k : BitVec 3) : Statement (.sbarCond st n k) := by
  intro w h hw
  simp only [encode, Option.some.injEq] at h
  subst h
  simp [decode, decodeRaw, decodeMajor34, fld_lit, hw,
    Shape.w6_3_5_5_3_10_at_26_6, Shape.w6_3_5_5_3_10_at_23_3, Shape.w6_3_5_5_3_10_at_18_5, Shape.w6_3_5_5_3_10_at_13_5, Shape.w6_3_5_5_3_10_at_10_3, Shape.w6_3_5_5_3_10_at_7_3, Shape.w6_3_5_5_3_10_at_4_3, Shape.w6_3_5_5_3_10_at_0_4]
theorem swait (st : BitVec 3) (b : BitVec 5) (c k : BitVec 3) : Statement (.swait st b c k) := by
  intro w h hw
  simp only [encode, Option.some.injEq] at h
  subst h
  simp [decode, decodeRaw, decodeMajor34, fld_lit, hw,
    Shape.w6_3_5_5_3_3_3_4_at_26_6, Shape.w6_3_5_5_3_3_3_4_at_23_3, Shape.w6_3_5_5_3_3_3_4_at_18_5, Shape.w6_3_5_5_3_3_3_4_at_13_5, Shape.w6_3_5_5_3_3_3_4_at_10_3, Shape.w6_3_5_5_3_3_3_4_at_7_3, Shape.w6_3_5_5_3_3_3_4_at_4_3, Shape.w6_3_5_5_3_3_3_4_at_0_4]
theorem tokq (st : BitVec 3) (a b : BitVec 5) (c : BitVec 3) (l : BitVec 1) : Statement (.tokq st a b c l) := by
  intro w h hw
  simp only [encode, Option.some.injEq] at h
  subst h
  simp [decode, decodeRaw, decodeMajor35, fld_lit, hw,
    Shape.w6_3_5_5_3_1_1_8_at_26_6, Shape.w6_3_5_5_3_1_1_8_at_23_3, Shape.w6_3_5_5_3_1_1_8_at_18_5, Shape.w6_3_5_5_3_1_1_8_at_13_5, Shape.w6_3_5_5_3_1_1_8_at_10_3, Shape.w6_3_5_5_3_1_1_8_at_9_1, Shape.w6_3_5_5_3_1_1_8_at_8_1, Shape.w6_3_5_5_3_1_1_8_at_0_8]
theorem qarm (st : BitVec 3) (a b : BitVec 5) : Statement (.qarm st a b) := by
  intro w h hw
  simp only [encode, Option.some.injEq] at h
  subst h
  simp [decode, decodeRaw, decodeMajor35, fld_lit, hw,
    Shape.w6_3_5_5_13_at_26_6, Shape.w6_3_5_5_13_at_23_3, Shape.w6_3_5_5_13_at_18_5, Shape.w6_3_5_5_13_at_13_5, Shape.w6_3_5_5_13_at_10_3, Shape.w6_3_5_5_13_at_9_1, Shape.w6_3_5_5_13_at_8_1, Shape.w6_3_5_5_13_at_0_8]
theorem qdisarm (st : BitVec 3) (a b : BitVec 5) : Statement (.qdisarm st a b) := by
  intro w h hw
  simp only [encode, Option.some.injEq] at h
  subst h
  simp [decode, decodeRaw, decodeMajor35, fld_lit, hw,
    Shape.w6_3_5_5_13_at_26_6, Shape.w6_3_5_5_13_at_23_3, Shape.w6_3_5_5_13_at_18_5, Shape.w6_3_5_5_13_at_13_5, Shape.w6_3_5_5_13_at_10_3, Shape.w6_3_5_5_13_at_9_1, Shape.w6_3_5_5_13_at_8_1, Shape.w6_3_5_5_13_at_0_8]
theorem copy (st : BitVec 3) (a : BitVec 5) (c : BitVec 3) (q l : BitVec 1) (n : BitVec 4) : Statement (.copy st a c q l n) := by
  intro w h hw
  simp only [encode, Option.some.injEq] at h
  subst h
  simp [decode, decodeRaw, decodeMajor36, fld_lit, hw,
    Shape.w6_3_5_5_3_1_1_4_4_at_26_6, Shape.w6_3_5_5_3_1_1_4_4_at_23_3, Shape.w6_3_5_5_3_1_1_4_4_at_18_5, Shape.w6_3_5_5_3_1_1_4_4_at_13_5, Shape.w6_3_5_5_3_1_1_4_4_at_10_3, Shape.w6_3_5_5_3_1_1_4_4_at_9_1, Shape.w6_3_5_5_3_1_1_4_4_at_8_1, Shape.w6_3_5_5_3_1_1_4_4_at_4_4, Shape.w6_3_5_5_3_1_1_4_4_at_0_4]
theorem drain (st : BitVec 3) (b : BitVec 5) (c : BitVec 3) (n : BitVec 4) : Statement (.drain st b c n) := by
  intro w h hw
  simp only [encode, Option.some.injEq] at h
  subst h
  simp [decode, decodeRaw, decodeMajor37, fld_lit, hw,
    Shape.w6_3_5_5_3_2_4_4_at_26_6, Shape.w6_3_5_5_3_2_4_4_at_23_3, Shape.w6_3_5_5_3_2_4_4_at_18_5, Shape.w6_3_5_5_3_2_4_4_at_13_5, Shape.w6_3_5_5_3_2_4_4_at_10_3, Shape.w6_3_5_5_3_2_4_4_at_8_2, Shape.w6_3_5_5_3_2_4_4_at_4_4, Shape.w6_3_5_5_3_2_4_4_at_0_4]
theorem rld (st : BitVec 3) (a b : BitVec 5) (c : BitVec 3) (q : BitVec 1) (z : BitVec 3) : Statement (.rld st a b c q z) := by
  intro w h hw
  simp only [encode, Option.some.injEq] at h
  subst h
  simp [decode, decodeRaw, decodeMajor38, fld_lit, hw,
    Shape.w6_3_5_5_3_1_2_3_4_at_26_6, Shape.w6_3_5_5_3_1_2_3_4_at_23_3, Shape.w6_3_5_5_3_1_2_3_4_at_18_5, Shape.w6_3_5_5_3_1_2_3_4_at_13_5, Shape.w6_3_5_5_3_1_2_3_4_at_10_3, Shape.w6_3_5_5_3_1_2_3_4_at_9_1, Shape.w6_3_5_5_3_1_2_3_4_at_8_1, Shape.w6_3_5_5_3_1_2_3_4_at_7_1, Shape.w6_3_5_5_3_1_2_3_4_at_6_1, Shape.w6_3_5_5_3_1_2_3_4_at_4_3, Shape.w6_3_5_5_3_1_2_3_4_at_4_2, Shape.w6_3_5_5_3_1_2_3_4_at_0_4]
theorem rst (st : BitVec 3) (a b : BitVec 5) (c : BitVec 3) (l e h : BitVec 1) (z : BitVec 2) : Statement (.rst st a b c l e h z) := by
  intro w h hw
  simp only [encode, Option.some.injEq] at h
  subst h
  simp [decode, decodeRaw, decodeMajor38, fld_lit, hw,
    Shape.w6_3_5_5_3_1_1_1_1_2_4_at_26_6, Shape.w6_3_5_5_3_1_1_1_1_2_4_at_23_3, Shape.w6_3_5_5_3_1_1_1_1_2_4_at_18_5, Shape.w6_3_5_5_3_1_1_1_1_2_4_at_13_5, Shape.w6_3_5_5_3_1_1_1_1_2_4_at_10_3, Shape.w6_3_5_5_3_1_1_1_1_2_4_at_9_1, Shape.w6_3_5_5_3_1_1_1_1_2_4_at_8_1, Shape.w6_3_5_5_3_1_1_1_1_2_4_at_7_1, Shape.w6_3_5_5_3_1_1_1_1_2_4_at_6_1, Shape.w6_3_5_5_3_1_1_1_1_2_4_at_4_2, Shape.w6_3_5_5_3_1_1_1_1_2_4_at_0_4]
theorem ramoInv (st : BitVec 3) (a b : BitVec 5) (c : BitVec 3) (q l : BitVec 1) : Statement (.ramoInv st a b c q l) := by
  intro w h hw
  simp only [encode, Option.some.injEq] at h
  subst h
  simp [decode, decodeRaw, decodeMajor38, fld_lit, hw,
    Shape.w6_3_5_5_3_1_1_8_at_26_6, Shape.w6_3_5_5_3_1_1_8_at_23_3, Shape.w6_3_5_5_3_1_1_8_at_18_5, Shape.w6_3_5_5_3_1_1_8_at_13_5, Shape.w6_3_5_5_3_1_1_8_at_10_3, Shape.w6_3_5_5_3_1_1_8_at_9_1, Shape.w6_3_5_5_3_1_1_8_at_8_1, Shape.w6_3_5_5_3_1_1_8_at_7_1, Shape.w6_3_5_5_3_1_1_8_at_6_1, Shape.w6_3_5_5_3_1_1_8_at_4_3, Shape.w6_3_5_5_3_1_1_8_at_4_2, Shape.w6_3_5_5_3_1_1_8_at_0_4]
theorem ramoBegin (st : BitVec 3) (a b : BitVec 5) (c : BitVec 3) (q l : BitVec 1) : Statement (.ramoBegin st a b c q l) := by
  intro w h hw
  simp only [encode, Option.some.injEq] at h
  subst h
  simp [decode, decodeRaw, decodeMajor38, fld_lit, hw,
    Shape.w6_3_5_5_3_1_1_8_at_26_6, Shape.w6_3_5_5_3_1_1_8_at_23_3, Shape.w6_3_5_5_3_1_1_8_at_18_5, Shape.w6_3_5_5_3_1_1_8_at_13_5, Shape.w6_3_5_5_3_1_1_8_at_10_3, Shape.w6_3_5_5_3_1_1_8_at_9_1, Shape.w6_3_5_5_3_1_1_8_at_8_1, Shape.w6_3_5_5_3_1_1_8_at_7_1, Shape.w6_3_5_5_3_1_1_8_at_6_1, Shape.w6_3_5_5_3_1_1_8_at_4_3, Shape.w6_3_5_5_3_1_1_8_at_4_2, Shape.w6_3_5_5_3_1_1_8_at_0_4]
theorem ramoBody (st : BitVec 3) (a b : BitVec 5) (c : BitVec 3) (q l : BitVec 1) : Statement (.ramoBody st a b c q l) := by
  intro w h hw
  simp only [encode, Option.some.injEq] at h
  subst h
  simp [decode, decodeRaw, decodeMajor38, fld_lit, hw,
    Shape.w6_3_5_5_3_1_1_8_at_26_6, Shape.w6_3_5_5_3_1_1_8_at_23_3, Shape.w6_3_5_5_3_1_1_8_at_18_5, Shape.w6_3_5_5_3_1_1_8_at_13_5, Shape.w6_3_5_5_3_1_1_8_at_10_3, Shape.w6_3_5_5_3_1_1_8_at_9_1, Shape.w6_3_5_5_3_1_1_8_at_8_1, Shape.w6_3_5_5_3_1_1_8_at_7_1, Shape.w6_3_5_5_3_1_1_8_at_6_1, Shape.w6_3_5_5_3_1_1_8_at_4_3, Shape.w6_3_5_5_3_1_1_8_at_4_2, Shape.w6_3_5_5_3_1_1_8_at_0_4]
theorem ramoValid (st : BitVec 3) (a b : BitVec 5) (c : BitVec 3) (q l : BitVec 1) : Statement (.ramoValid st a b c q l) := by
  intro w h hw
  simp only [encode, Option.some.injEq] at h
  subst h
  simp [decode, decodeRaw, decodeMajor38, fld_lit, hw,
    Shape.w6_3_5_5_3_1_1_8_at_26_6, Shape.w6_3_5_5_3_1_1_8_at_23_3, Shape.w6_3_5_5_3_1_1_8_at_18_5, Shape.w6_3_5_5_3_1_1_8_at_13_5, Shape.w6_3_5_5_3_1_1_8_at_10_3, Shape.w6_3_5_5_3_1_1_8_at_9_1, Shape.w6_3_5_5_3_1_1_8_at_8_1, Shape.w6_3_5_5_3_1_1_8_at_7_1, Shape.w6_3_5_5_3_1_1_8_at_6_1, Shape.w6_3_5_5_3_1_1_8_at_4_3, Shape.w6_3_5_5_3_1_1_8_at_4_2, Shape.w6_3_5_5_3_1_1_8_at_0_4]
theorem ramoClear (st : BitVec 3) (a b : BitVec 5) (c : BitVec 3) (q l : BitVec 1) : Statement (.ramoClear st a b c q l) := by
  intro w h hw
  simp only [encode, Option.some.injEq] at h
  subst h
  simp [decode, decodeRaw, decodeMajor38, fld_lit, hw,
    Shape.w6_3_5_5_3_1_1_8_at_26_6, Shape.w6_3_5_5_3_1_1_8_at_23_3, Shape.w6_3_5_5_3_1_1_8_at_18_5, Shape.w6_3_5_5_3_1_1_8_at_13_5, Shape.w6_3_5_5_3_1_1_8_at_10_3, Shape.w6_3_5_5_3_1_1_8_at_9_1, Shape.w6_3_5_5_3_1_1_8_at_8_1, Shape.w6_3_5_5_3_1_1_8_at_7_1, Shape.w6_3_5_5_3_1_1_8_at_6_1, Shape.w6_3_5_5_3_1_1_8_at_4_3, Shape.w6_3_5_5_3_1_1_8_at_4_2, Shape.w6_3_5_5_3_1_1_8_at_0_4]
theorem rfadd (st : BitVec 3) (a b : BitVec 5) (c : BitVec 3) (q l : BitVec 1) : Statement (.rfadd st a b c q l) := by
  intro w h hw
  simp only [encode, Option.some.injEq] at h
  subst h
  simp [decode, decodeRaw, decodeMajor38, fld_lit, hw,
    Shape.w6_3_5_5_3_1_1_8_at_26_6, Shape.w6_3_5_5_3_1_1_8_at_23_3, Shape.w6_3_5_5_3_1_1_8_at_18_5, Shape.w6_3_5_5_3_1_1_8_at_13_5, Shape.w6_3_5_5_3_1_1_8_at_10_3, Shape.w6_3_5_5_3_1_1_8_at_9_1, Shape.w6_3_5_5_3_1_1_8_at_8_1, Shape.w6_3_5_5_3_1_1_8_at_7_1, Shape.w6_3_5_5_3_1_1_8_at_6_1, Shape.w6_3_5_5_3_1_1_8_at_4_3, Shape.w6_3_5_5_3_1_1_8_at_4_2, Shape.w6_3_5_5_3_1_1_8_at_0_4]
theorem tokwait (st : BitVec 3) (a b : BitVec 5) : Statement (.tokwait st a b) := by
  intro w h hw
  simp only [encode, Option.some.injEq] at h
  subst h
  simp [decode, decodeRaw, decodeMajor39, fld_lit, hw,
    Shape.w6_3_5_5_13_at_26_6, Shape.w6_3_5_5_13_at_23_3, Shape.w6_3_5_5_13_at_18_5, Shape.w6_3_5_5_13_at_13_5, Shape.w6_3_5_5_13_at_0_13]
theorem tlbinv (st : BitVec 3) (a b : BitVec 5) (c : BitVec 3) (g : BitVec 1) : Statement (.tlbinv st a b c g) := by
  intro w h hw
  simp only [encode, Option.some.injEq] at h
  subst h
  simp [decode, decodeRaw, decodeMajor3A, fld_lit, hw,
    Shape.w6_3_5_5_3_5_1_4_at_26_6, Shape.w6_3_5_5_3_5_1_4_at_23_3, Shape.w6_3_5_5_3_5_1_4_at_18_5, Shape.w6_3_5_5_3_5_1_4_at_13_5, Shape.w6_3_5_5_3_5_1_4_at_10_3, Shape.w6_3_5_5_3_5_1_4_at_5_5, Shape.w6_3_5_5_3_5_1_4_at_4_1, Shape.w6_3_5_5_3_5_1_4_at_0_4]
theorem tlbsync (st : BitVec 3) : Statement (.tlbsync st) := by
  intro w h hw
  simp only [encode, Option.some.injEq] at h
  subst h
  simp [decode, decodeRaw, decodeMajor3A, fld_lit, hw,
    Shape.w6_3_23_at_26_6, Shape.w6_3_23_at_23_3, Shape.w6_3_23_at_18_5, Shape.w6_3_23_at_13_5, Shape.w6_3_23_at_10_3, Shape.w6_3_23_at_5_5, Shape.w6_3_23_at_4_1, Shape.w6_3_23_at_0_4]
theorem tailpWrite (p q : Nat) (v : W64) : Statement (.tailpWrite p q v) := by
  intro w h; simp [encode] at h
theorem qstatWrite (p q : Nat) (v : W64) : Statement (.qstatWrite p q v) := by
  intro w h; simp [encode] at h
theorem pcmkWrite (p k : Nat) (v : W64) : Statement (.pcmkWrite p k v) := by
  intro w h; simp [encode] at h
theorem pasidWrite (p : Nat) (v : W64) : Statement (.pasidWrite p v) := by
  intro w h; simp [encode] at h
theorem registerWrite (pa : Nat) (v : W64) : Statement (.registerWrite pa v) := by
  intro w h; simp [encode] at h
theorem asidRootEntryWrite (asid : Nat) (writer : Option Nat) (v : W64) : Statement (.asidRootEntryWrite asid writer v) := by
  intro w h; simp [encode] at h
theorem imapWrite (g : Nat) (v : W64) : Statement (.imapWrite g v) := by
  intro w h; simp [encode] at h
theorem rchkWrite (v : W64) : Statement (.rchkWrite v) := by
  intro w h; simp [encode] at h
theorem rgoWrite (v : W64) : Statement (.rgoWrite v) := by
  intro w h; simp [encode] at h
theorem vregImageWrite (slot off size : Nat) (v : W64) : Statement (.vregImageWrite slot off size v) := by
  intro w h; simp [encode] at h
theorem lintelHostAccess (wr : Bool) (pa size : Nat) (v : W64) : Statement (.lintelHostAccess wr pa size v) := by
  intro w h; simp [encode] at h
theorem attestationRequest (nonce : BitVec 256) : Statement (.attestationRequest nonce) := by
  intro w h; simp [encode] at h
theorem pcapUpdate (die v : Nat) : Statement (.pcapUpdate die v) := by
  intro w h; simp [encode] at h
theorem append (p q : Nat) : Statement (.append p q) := by
  intro w h; simp [encode] at h
theorem jobActivate (p q : Nat) : Statement (.jobActivate p q) := by
  intro w h; simp [encode] at h
theorem iterationDispatch (die p : Nat) : Statement (.iterationDispatch die p) := by
  intro w h; simp [encode] at h
theorem steal (die job : Nat) : Statement (.steal die job) := by
  intro w h; simp [encode] at h
theorem agingTimerExpiry (p q : Nat) : Statement (.agingTimerExpiry p q) := by
  intro w h; simp [encode] at h
theorem earlyTrigger (job : Nat) : Statement (.earlyTrigger job) := by
  intro w h; simp [encode] at h
theorem jobRetire (job : Nat) : Statement (.jobRetire job) := by
  intro w h; simp [encode] at h
theorem progcAdvance (p q : Nat) : Statement (.progcAdvance p q) := by
  intro w h; simp [encode] at h
theorem partitionSwitchOut (p : Nat) : Statement (.partitionSwitchOut p) := by
  intro w h; simp [encode] at h
theorem partitionSwitchIn (p : Nat) : Statement (.partitionSwitchIn p) := by
  intro w h; simp [encode] at h
theorem templateFire (f : Nat) : Statement (.templateFire f) := by
  intro w h; simp [encode] at h
theorem templateGraphComplete (f : Nat) : Statement (.templateGraphComplete f) := by
  intro w h; simp [encode] at h
theorem tokenArrival (p t : Nat) : Statement (.tokenArrival p t) := by
  intro w h; simp [encode] at h
theorem tokenFiringComplete (f : Nat) : Statement (.tokenFiringComplete f) := by
  intro w h; simp [encode] at h
theorem engineMessageAccept (n e : Nat) : Statement (.engineMessageAccept n e) := by
  intro w h; simp [encode] at h
theorem reply (n : Nat) : Statement (.reply n) := by
  intro w h; simp [encode] at h
theorem copyAccept (e : Nat) : Statement (.copyAccept e) := by
  intro w h; simp [encode] at h
theorem copyPiece (id : Nat) : Statement (.copyPiece id) := by
  intro w h; simp [encode] at h
theorem copyComplete (id : Nat) : Statement (.copyComplete id) := by
  intro w h; simp [encode] at h
theorem streamAccept (c port : Nat) : Statement (.streamAccept c port) := by
  intro w h; simp [encode] at h
theorem streamBeatIn (c port : Nat) : Statement (.streamBeatIn c port) := by
  intro w h; simp [encode] at h
theorem streamTokenOut (c port : Nat) : Statement (.streamTokenOut c port) := by
  intro w h; simp [encode] at h
theorem tokenHop (c pos out : Nat) : Statement (.tokenHop c pos out) := by
  intro w h; simp [encode] at h
theorem brickFiring (c pos : Nat) : Statement (.brickFiring c pos) := by
  intro w h; simp [encode] at h
theorem controlTokenArrival (c pos : Nat) : Statement (.controlTokenArrival c pos) := by
  intro w h; simp [encode] at h
theorem controlTokenDeliver (slot : Nat) : Statement (.controlTokenDeliver slot) := by
  intro w h; simp [encode] at h
theorem nodeEnd (c pos : Nat) : Statement (.nodeEnd c pos) := by
  intro w h; simp [encode] at h
theorem tileAccess (c pos : Nat) : Statement (.tileAccess c pos) := by
  intro w h; simp [encode] at h
theorem tileRmwFiring (c pos : Nat) : Statement (.tileRmwFiring c pos) := by
  intro w h; simp [encode] at h
theorem spillOut (c pos out : Nat) : Statement (.spillOut c pos out) := by
  intro w h; simp [encode] at h
theorem spillReturn (c pos fifo : Nat) : Statement (.spillReturn c pos fifo) := by
  intro w h; simp [encode] at h
theorem positionWake (c pos : Nat) : Statement (.positionWake c pos) := by
  intro w h; simp [encode] at h
theorem backstopStall (run : Nat) : Statement (.backstopStall run) := by
  intro w h; simp [encode] at h
theorem cfgloadComplete (slot n : Nat) : Statement (.cfgloadComplete slot n) := by
  intro w h; simp [encode] at h
theorem cfgselTakeEffect (slot n : Nat) : Statement (.cfgselTakeEffect slot n) := by
  intro w h; simp [encode] at h
theorem runBegin (slot n : Nat) : Statement (.runBegin slot n) := by
  intro w h; simp [encode] at h
theorem barrierComplete (run : Nat) : Statement (.barrierComplete run) := by
  intro w h; simp [encode] at h
theorem powerGrant (n : Nat) : Statement (.powerGrant n) := by
  intro w h; simp [encode] at h
theorem grantOfferLower (n : Nat) : Statement (.grantOfferLower n) := by
  intro w h; simp [encode] at h
theorem engineFrame (c : Nat) : Statement (.engineFrame c) := by
  intro w h; simp [encode] at h
theorem passEnd (c : Nat) : Statement (.passEnd c) := by
  intro w h; simp [encode] at h
theorem weightRowLoad (c buf : Nat) : Statement (.weightRowLoad c buf) := by
  intro w h; simp [encode] at h
theorem weightFault (c : Nat) : Statement (.weightFault c) := by
  intro w h; simp [encode] at h
theorem weightStepSwap (c : Nat) : Statement (.weightStepSwap c) := by
  intro w h; simp [encode] at h
theorem refreshRowGroup (stack rg : Nat) : Statement (.refreshRowGroup stack rg) := by
  intro w h; simp [encode] at h
theorem stackHeartbeat (stack : Nat) : Statement (.stackHeartbeat stack) := by
  intro w h; simp [encode] at h
theorem refreshTakeover (stack : Nat) : Statement (.refreshTakeover stack) := by
  intro w h; simp [encode] at h
theorem cxlEnumeration (port : Nat) (cap : Option Nat) : Statement (.cxlEnumeration port cap) := by
  intro w h; simp [encode] at h
theorem invalidationReceive (inv holder : Nat) : Statement (.invalidationReceive inv holder) := by
  intro w h; simp [encode] at h
theorem parkedAccessResolve (holder asid : Nat) (va : W64) : Statement (.parkedAccessResolve holder asid va) := by
  intro w h; simp [encode] at h
theorem trapEntry (slot : Nat) : Statement (.trapEntry slot) := by
  intro w h; simp [encode] at h
theorem preemptionRequest (slot reason : Nat) : Statement (.preemptionRequest slot reason) := by
  intro w h; simp [encode] at h
theorem forcedSwitchTimeout (slot : Nat) : Statement (.forcedSwitchTimeout slot) := by
  intro w h; simp [encode] at h
theorem scapTimeout (slot : Nat) : Statement (.scapTimeout slot) := by
  intro w h; simp [encode] at h
theorem fullSwitch (slot : Nat) : Statement (.fullSwitch slot) := by
  intro w h; simp [encode] at h
theorem contextRestore (slot : Nat) : Statement (.contextRestore slot) := by
  intro w h; simp [encode] at h
theorem sliceDetach (slot num : Nat) : Statement (.sliceDetach slot num) := by
  intro w h; simp [encode] at h
theorem dieReset (die : Nat) : Statement (.dieReset die) := by
  intro w h; simp [encode] at h
theorem quiesceAck (die peer : Nat) : Statement (.quiesceAck die peer) := by
  intro w h; simp [encode] at h
theorem dieReturn (die : Nat) : Statement (.dieReturn die) := by
  intro w h; simp [encode] at h
theorem courseGate (c : Nat) (dark : Bool) : Statement (.courseGate c dark) := by
  intro w h; simp [encode] at h
theorem packageStandby : Statement (.packageStandby) := by
  intro w h; simp [encode] at h
theorem packageParked : Statement (.packageParked) := by
  intro w h; simp [encode] at h
theorem wake (c : Option Nat) : Statement (.wake c) := by
  intro w h; simp [encode] at h
theorem powerOnBoot : Statement (.powerOnBoot) := by
  intro w h; simp [encode] at h
theorem linkKeyExchange (port : Nat) (peerKey sig : BitVec 512) : Statement (.linkKeyExchange port peerKey sig) := by
  intro w h; simp [encode] at h
theorem rekeyCounterLimit (port : Nat) (dir : Bool) : Statement (.rekeyCounterLimit port dir) := by
  intro w h; simp [encode] at h
theorem flitReceive (port : Nat) (flit : BitVec 1024) : Statement (.flitReceive port flit) := by
  intro w h; simp [encode] at h
theorem flitReplay (port ctr : Nat) : Statement (.flitReplay port ctr) := by
  intro w h; simp [encode] at h
theorem linkRetrain (port : Nat) : Statement (.linkRetrain port) := by
  intro w h; simp [encode] at h
theorem portDown (port : Nat) : Statement (.portDown port) := by
  intro w h; simp [encode] at h
theorem remoteOpAtTarget (n : Nat) : Statement (.remoteOpAtTarget n) := by
  intro w h; simp [encode] at h
theorem translationRequest (n : Nat) : Statement (.translationRequest n) := by
  intro w h; simp [encode] at h
theorem targetInvalidation (inv : Nat) : Statement (.targetInvalidation inv) := by
  intro w h; simp [encode] at h
theorem switchCombine (plane i j : Nat) : Statement (.switchCombine plane i j) := by
  intro w h; simp [encode] at h
theorem combinedReplySplit (plane i : Nat) : Statement (.combinedReplySplit plane i) := by
  intro w h; simp [encode] at h
theorem handlerInvocation (n : Nat) : Statement (.handlerInvocation n) := by
  intro w h; simp [encode] at h
theorem handlerHoldExpiry (n : Nat) : Statement (.handlerHoldExpiry n) := by
  intro w h; simp [encode] at h
theorem dependentStoreArrival (n : Nat) : Statement (.dependentStoreArrival n) := by
  intro w h; simp [encode] at h
theorem landedRecord (n : Nat) : Statement (.landedRecord n) := by
  intro w h; simp [encode] at h
theorem watchArrival (n : Nat) : Statement (.watchArrival n) := by
  intro w h; simp [encode] at h
theorem watchAnswer (n : Nat) : Statement (.watchAnswer n) := by
  intro w h; simp [encode] at h
theorem watchResend (n : Nat) : Statement (.watchResend n) := by
  intro w h; simp [encode] at h
theorem watchEntryDrop (n : Nat) : Statement (.watchEntryDrop n) := by
  intro w h; simp [encode] at h
theorem heldStoreExpiry (n : Nat) : Statement (.heldStoreExpiry n) := by
  intro w h; simp [encode] at h
theorem remoteStoreCompletion (n : Nat) : Statement (.remoteStoreCompletion n) := by
  intro w h; simp [encode] at h
theorem gatewayMeterWindow (pd : Nat) : Statement (.gatewayMeterWindow pd) := by
  intro w h; simp [encode] at h
theorem stackManagerReset (stack : Nat) : Statement (.stackManagerReset stack) := by
  intro w h; simp [encode] at h
theorem managementPortRetrain (port : Nat) : Statement (.managementPortRetrain port) := by
  intro w h; simp [encode] at h
theorem positionClockGate (c pos : Nat) : Statement (.positionClockGate c pos) := by
  intro w h; simp [encode] at h
theorem wfeLimitExpiry (slot : Nat) : Statement (.wfeLimitExpiry slot) := by
  intro w h; simp [encode] at h
theorem tokwaitWatchTimeout (slot : Nat) : Statement (.tokwaitWatchTimeout slot) := by
  intro w h; simp [encode] at h
theorem targetPackageReset (pkg : Nat) : Statement (.targetPackageReset pkg) := by
  intro w h; simp [encode] at h
theorem landedEntryAging (n : Nat) : Statement (.landedEntryAging n) := by
  intro w h; simp [encode] at h

end RoundTrip

end Sys2Proof.Laws
end

