-- ==== Sys2Proof/Safety.lean ====
section
/-! DEFINITION. The terms claims use: when an instruction has its own effect, when a machine state is sound, what a
register will read once its writes have landed, and which states agree outside a thread. -/

namespace Sys2Proof.Machine

/-! ### When an instruction executes -/

/-- No cause takes an instruction's place at the thread's boundary (R399): the thread stands inside an instruction that none
interrupts; or it has lost no slice that its vector instruction would meet (R102), and Hold is 1 or no asynchronous cause is
pending: a pre-emption request waits while IE is 0, inside an atomic block (R112, R153), once its trap was taken, and at `done`. -/
def State.noCause (s : State) (x : Slot) (u : Uses) : Prop :=
  s.inside s.cur = true ∨
    ((u.vec = true → u.setlen = false → x.lostNew = 0 ∨ x.vm.isSome = true) ∧
      (x.hold = true ∨
        (x.async15 = [] ∧ x.faults = [] ∧
          ∀ q, x.preq = some q → x.ie = false ∨ x.shielded = true ∨ q.trapAt.isSome = true ∨ u.ends = true)))

/-- AN INSTRUCTION EXECUTES: the thread does not stand in the vector unit, its block and mode allow the instruction (R112, R124),
its registers are declared (R26), no cause is taken in its place (R102, R399), no staged launch has yet to write a register it
names (R119, R161), the checking scoreboard does not object (R122), and for a vector instruction the unit takes it in this
A-cycle (R137, R170, R400). The thread's due writes have landed (R120). -/
def State.executes (s : State) (i : Instr) : Prop :=
  let t := s.landDue
  let x := t.thr
  let u := usesOf x i
  s.thr.vrun = none
    ∧ (u.noAtom = true → x.atom = false) ∧ (u.priv = true → x.sup = true) ∧ undeclared x u = none
    ∧ t.noCause x u ∧ owes x u = false
    ∧ (u.vec = true → t.vecBusy = false ∧ x.vfrozen = false)
    ∧ (x.schk = true → scoreboard x u t.now = none)

/-! ### What an instruction that executes does -/

/-- The instruction, with the operands `u`, executes with effect `f` on the state whose due writes have landed (R120), and the
thread passes on to the instruction after it, which may issue from its stall count on (R108, R118); `P` is what it needs of that
state. Nothing else changes: the next state is written out. -/
def Does (i : Instr) (u : Uses) (st : BitVec 3) (P : State → Prop) (f : State → State) : Prop :=
  ∀ s : State, s.executes i → P s.landDue → usesOf s.landDue.thr i = u ∧
    exec i s = .next (((f s.landDue).issued u s.landDue.thr.grp).finish st)

/-- It executes with effect `f` and transfers to the block header at `target` (R111, R139). -/
def Jumps (i : Instr) (u : Uses) (st : BitVec 3) (P : State → Prop) (f : State → State) (target : State → W64) : Prop :=
  ∀ s : State, s.executes i → P s.landDue → usesOf s.landDue.thr i = u ∧
    exec i s = .next (((f s.landDue).issued u s.landDue.thr.grp).jumpTo st (target s.landDue))

/-- It takes a trap of its own at its place, its word in INSN, with effect `f` before it and nothing more (R137, R398). -/
def Traps (i : Instr) (u : Uses) (P : State → Prop) (f : State → State) (t : State → Trap) : Prop :=
  ∀ s : State, s.executes i → P s.landDue → usesOf s.landDue.thr i = u ∧
    exec i s = .next (((f s.landDue).issued u s.landDue.thr.grp).trapHere { t s.landDue with insn := wordOf i })

/-- It has issued and waits at its place with effect `f` so far: its next turn goes on with it (R137). -/
def Waits (i : Instr) (u : Uses) (P : State → Prop) (f : State → State) : Prop :=
  ∀ s : State, s.executes i → P s.landDue → usesOf s.landDue.thr i = u ∧
    exec i s = .next ((f s.landDue).underWay u (wordOf i) s.landDue.thr.grp)

/-- It does not issue yet, with effect `f` so far: its next turn tries again (R119, R121). -/
def Stays (i : Instr) (u : Uses) (P : State → Prop) (f : State → State) : Prop :=
  ∀ s : State, s.executes i → P s.landDue → usesOf s.landDue.thr i = u ∧ exec i s = .next (f s.landDue)

/-- Always. -/
def always : State → Prop := fun _ => True

/-- Its only effect is a fixed-latency write: `v`, of the state at issue, lands in s(d) `lat` C-cycles from now (R119, R120). -/
def Lands (i : Instr) (u : Uses) (st : BitVec 3) (lat : Nat) (d : BitVec 5) (v : State → W64) : Prop :=
  Does i u st always fun s => s.later lat d (v s)

/-- Its only effect is an interlocked write: s(d) holds `v`, of the state at issue, before anything reads it (R119). -/
def Returns (i : Instr) (u : Uses) (st : BitVec 3) (d : BitVec 5) (v : State → W64) : Prop :=
  Does i u st always fun s => s.setThr (s.thr.putS d.toNat (v s))

/-! ### Events -/

/-- An event of the machine that is no instruction of a thread: where `P` holds it completes with effect `f`, and nothing else
changes. -/
def Occurs (i : Instr) (P : State → Prop) (f : State → State) : Prop := ∀ s : State, P s → exec i s = .next (f s)

/-! ### Memory an access reaches -/

/-- `n` bytes at a physical address are memory with no uncorrectable error (R302), at a home that answers (R412, R413), and no
gateway drops the issuing thread's access to them (R93). -/
def State.reaches (s : State) (pa n : Nat) : Prop :=
  s.homeDown pa = false ∧ s.windowDrops s.thr.asid pa = false ∧ (∃ loc, s.placeOf pa = .ram loc) ∧ s.goodPhys pa n = true

/-! ### The strip -/

/-- The strip's format is of kind `kd`, supported, with a well-formed modulus where it is m32 (R169). -/
def Slot.stripOf (x : Slot) (kd : Kind) : Prop :=
  kindOf x.fmt = some kd ∧ x.ilf = false ∧ (kd = .mod → x.modOk = true)

/-- Every active element under mask k written with what `f` gives its index, everything else undisturbed, and the flags of these
results ORed into FFLAGS (R167, R58): after a latency, or at once where the instruction is interlocked. -/
def State.mapped (s : State) (lat : Option Nat) (d k : Nat) (f : Nat → Nat × Flags) : State :=
  let x := s.thr
  let rs := (x.active k).map fun e => (e, f e)
  let t := s.putElems lat (widthOf x.fmt) x.grp d (rs.map fun r => (r.1, r.2.1))
  t.setThr (t.thr.raise (flagsOf rs))

/-- Every element of a list written where `f` gives it a value (R180): at once, with no flag. -/
def State.moved (s : State) (d : Nat) (es : List Nat) (f : Nat → Option Nat) : State :=
  let x := s.thr
  s.putElems none (widthOf x.fmt) x.grp d (es.filterMap fun e => (f e).map fun v => (e, v))

/-! ### Registers as they will read -/

/-- What s(n) reads at C-cycle `t`, once the writes due by then have landed (R120). -/
def Slot.sAt (x : Slot) (t n : Nat) : W64 := (x.landBy t).readS n

/-- s(n) at the present. -/
def State.sNow (s : State) (n : Nat) : W64 := s.thr.sAt s.now n

/-! ### Frames -/

/-- Two states agree in everything but thread slots and the issue stages of courses. -/
def State.agreesOutside (s t : State) : Prop := t = { s with slots := t.slots, courses := t.courses }

/-- Two states agree in every thread slot but the issuing one. -/
def State.sameOthers (s t : State) : Prop := ∀ n, n ≠ s.cur → t.slot n = s.slot n

/-- Every byte of memory reads the same, at every physical address. -/
def State.sameMemory (s t : State) : Prop := ∀ pa, t.physByte pa = s.physByte pa

/-! ### Sound states -/

/-- A SOUND STATE between steps: memory in its canonical form (locations strictly rising, no entry that an unlisted byte
already reads as), and no store uncommitted. -/
def State.Inv (s : State) : Prop := Memory.wf s.mem = true ∧ s.stores = []

end Sys2Proof.Machine
end

