-- ==== Sys2Proof/Certificates/Slice0/Obligations.lean ====
section
/-! DEFINITION. The statements for the provers. Each cites the rules of spec/ it states. The forms `Does`, `Jumps`, `Traps`,
`Waits`, `Lands` and `Returns` (Safety.lean) give the WHOLE next state of the machine for every state in which the instruction
executes: they say that it completes, what it writes, and that it leaves everything else as it was. -/

open Sys2Proof Sys2Proof.Machine

/-! ### Scalar instructions (chapter 06) -/

/-- Integer register operations (R140): s(d) receives, at L = 1 or L = 4, the result of the operation on A and B as they
stand at issue, whatever their values. -/
def Obligations.IntegerRegisterOperations : Prop := ∀ (st : BitVec 3) (d a b : BitVec 5),
  let r2 := fun (i : Instr) (f : W64 → W64 → W64) =>
    Lands i (uses3 (some 1) d a b) st 1 d fun s => f (s.rs a) (s.rs b)
  let r1 := fun (i : Instr) (f : W64 → W64) => Lands i (uses2 (some 1) d a) st 1 d fun s => f (s.rs a)
  let rm := fun (i : Instr) (f : W64 → W64 → W64) =>
    Lands i (uses3 (some 4) d a b) st 4 d fun s => f (s.rs a) (s.rs b)
  r2 (.add st d a b) (fun x y => x + y)
    ∧ r2 (.sub st d a b) (fun x y => x - y)
    ∧ r2 (.and st d a b) (fun x y => x &&& y)
    ∧ r2 (.or st d a b) (fun x y => x ||| y)
    ∧ r2 (.xor st d a b) (fun x y => x ^^^ y)
    ∧ r2 (.andn st d a b) (fun x y => x &&& ~~~y)
    ∧ r2 (.sll st d a b) (fun x y => x <<< (y.toNat % 64))
    ∧ r2 (.srl st d a b) (fun x y => x >>> (y.toNat % 64))
    ∧ r2 (.sra st d a b) (fun x y => x.sshiftRight (y.toNat % 64))
    ∧ r2 (.rol st d a b) (fun x y => (x <<< (y.toNat % 64)) ||| (x >>> (64 - y.toNat % 64)))
    ∧ r2 (.min st d a b) (fun x y => if x.toInt ≤ y.toInt then x else y)
    ∧ r2 (.max st d a b) (fun x y => if x.toInt ≤ y.toInt then y else x)
    ∧ r2 (.minn st d a b) (fun x y => if x.toNat ≤ y.toNat then x else y)
    ∧ r2 (.maxn st d a b) (fun x y => if x.toNat ≤ y.toNat then y else x)
    ∧ r2 (.slt st d a b) (fun x y => if x.toInt < y.toInt then 1#64 else 0#64)
    ∧ r2 (.sltn st d a b) (fun x y => if x.toNat < y.toNat then 1#64 else 0#64)
    ∧ r2 (.seq st d a b) (fun x y => if x = y then 1#64 else 0#64)
    ∧ rm (.mul st d a b) (fun x y => BitVec.ofNat 64 (x.toNat * y.toNat))
    ∧ rm (.mulh st d a b) (fun x y => BitVec.ofInt 64 (x.toInt * y.toInt / 2 ^ 64))
    ∧ rm (.mulhn st d a b) (fun x y => BitVec.ofNat 64 (x.toNat * y.toNat / 2 ^ 64))
    ∧ r1 (.clz st d a) clz64
    ∧ r1 (.ctz st d a) ctz64
    ∧ r1 (.popc st d a) popc64
    ∧ Lands (.csel st d a b) { uses3 (some 1) d a b with sr := [d.toNat, a.toNat, b.toNat] } st 1 d
        (fun s => if s.rs a = 0#64 then s.rs d else s.rs b)

/-- What `clz`, `ctz` and `popc` count (R140): the zero bits above the highest set bit, those below the lowest, and the set
bits; 64, 64 and 0 for zero. -/
def Obligations.CountingBits : Prop :=
  (clz64 0#64 = 64#64 ∧ ctz64 0#64 = 64#64 ∧ popc64 0#64 = 0#64)
    ∧ (∀ (x : W64) (n : Nat), n < 64 → x.getLsbD (63 - n) = true → (∀ j, j < n → x.getLsbD (63 - j) = false) →
        clz64 x = BitVec.ofNat 64 n)
    ∧ (∀ (x : W64) (n : Nat), n < 64 → x.getLsbD n = true → (∀ j, j < n → x.getLsbD j = false) →
        ctz64 x = BitVec.ofNat 64 n)
    ∧ (∀ (x : W64) (n : Nat), n < 64 → x.getLsbD n = false → popc64 (x ||| BitVec.twoPow 64 n) = popc64 x + 1#64)

/-- Operations with an immediate (R141), constants (R142) and addresses (R143), at L = 1; the immediates extended as R117
gives. `lea` takes the address of its own word. `nop` (R159) only takes its issue slot. -/
def Obligations.ImmediatesAndConstants : Prop :=
  ∀ (st : BitVec 3) (d a : BitVec 5) (i : BitVec 13) (h : BitVec 6) (w : BitVec 18),
  let u := uses2 (some 1) d a
  let sign := i.signExtend 64
  let zero := i.zeroExtend 64
  Lands (.addi st d a i) u st 1 d (fun s => s.rs a + sign)
    ∧ Lands (.andi st d a i) u st 1 d (fun s => s.rs a &&& zero)
    ∧ Lands (.ori st d a i) u st 1 d (fun s => s.rs a ||| zero)
    ∧ Lands (.xori st d a i) u st 1 d (fun s => s.rs a ^^^ zero)
    ∧ Lands (.slti st d a i) u st 1 d (fun s => if (s.rs a).toInt < i.toInt then 1#64 else 0#64)
    ∧ Lands (.sltni st d a i) u st 1 d (fun s => if (s.rs a).toNat < sign.toNat then 1#64 else 0#64)
    ∧ Lands (.slli st d a h) u st 1 d (fun s => s.rs a <<< h.toNat)
    ∧ Lands (.srli st d a h) u st 1 d (fun s => s.rs a >>> h.toNat)
    ∧ Lands (.srai st d a h) u st 1 d (fun s => (s.rs a).sshiftRight h.toNat)
    ∧ Lands (.roli st d a h) u st 1 d (fun s => (s.rs a <<< h.toNat) ||| (s.rs a >>> (64 - h.toNat)))
    ∧ Lands (.li st d w) (uses1 (some 1) d) st 1 d (fun _ => w.signExtend 64)
    ∧ Lands (.lext st d w) (uses2 (some 1) d d) st 1 d (fun s => (s.rs d <<< 18) ||| w.zeroExtend 64)
    ∧ Lands (.lea st d w) (uses1 (some 1) d) st 1 d (fun s => s.thr.pc + w.signExtend 64)
    ∧ Does (.nop st) {} st always id
    ∧ encode (.li st d w) = some (0b001001#6 ++ st ++ d ++ w)
    ∧ encode (.lext st d w) = some (0b001010#6 ++ st ++ d ++ w)
    ∧ encode (.lea st d w) = some (0b001011#6 ++ st ++ d ++ w)

/-- Division (R144): it never traps and sets no flag; its result is interlocked. The quotient is truncated toward zero, the
remainder has the dividend's sign; a zero divisor gives all ones and the dividend, and −2^63 by −1 gives −2^63 and 0. -/
def Obligations.Division : Prop := ∀ (st : BitVec 3) (d a b : BitVec 5),
  let u := uses3 none d a b
  let r := fun (i : Instr) (f : W64 → W64 → W64) => Returns i u st d fun s => f (s.rs a) (s.rs b)
  r (.div st d a b) (fun x y => if y.toInt = 0 then BitVec.allOnes 64 else BitVec.ofInt 64 (x.toInt.tdiv y.toInt))
    ∧ r (.divn st d a b) (fun x y => if y.toNat = 0 then BitVec.allOnes 64 else BitVec.ofNat 64 (x.toNat / y.toNat))
    ∧ r (.rem st d a b) (fun x y => if y.toInt = 0 then x else BitVec.ofInt 64 (x.toInt.tmod y.toInt))
    ∧ r (.remn st d a b) (fun x y => if y.toNat = 0 then x else BitVec.ofNat 64 (x.toNat % y.toNat))

/-- Branches, calls, jumps and `loop` (R149 to R152): the target is that many words from the instruction; a call or jump leaves
the address of the next word in its link register at L = 1; a branch not taken goes on with the next instruction; a jump to an
address that is no multiple of 4 is trap 0x06. `loop` puts n := s(a) − 1 on its way to s(a) at L = 1, and branches exactly when
n is not zero. -/
def Obligations.ControlTransfers : Prop :=
  ∀ (st : BitVec 3) (d a b : BitVec 5) (i : BitVec 13) (w : BitVec 18),
  let on := fun (s : State) (k : Int) => s.thr.pc + BitVec.ofInt 64 (4 * k)
  let link := fun (d : BitVec 5) (s : State) => s.later 1 d (s.thr.pc + 4#64)
  let dest := fun (s : State) => s.rs a + BitVec.ofInt 64 (4 * i.toInt)
  let branch := fun (x : Instr) (c : W64 → W64 → Prop) =>
    Jumps x (usesR [a, b]) st (fun s => c (s.rs a) (s.rs b)) id (fun s => on s i.toInt)
      ∧ Does x (usesR [a, b]) st (fun s => ¬ c (s.rs a) (s.rs b)) id
  Jumps (.br st w) {} st always id (fun s => on s w.toInt)
    ∧ Jumps (.call st w) (uses1 (some 1) 31#5) st always (link 31#5) (fun s => on s w.toInt)
    ∧ Jumps (.jr st d a i) (uses2 (some 1) d a) st (fun s => (dest s).toNat % 4 = 0) (link d) dest
    ∧ Traps (.jr st d a i) (uses2 (some 1) d a) (fun s => (dest s).toNat % 4 ≠ 0) id
        (fun s => { cause := 0x06, tval := dest s })
    ∧ branch (.beq st a b i) (fun x y => x = y)
    ∧ branch (.bne st a b i) (fun x y => x ≠ y)
    ∧ branch (.blt st a b i) (fun x y => x.toInt < y.toInt)
    ∧ branch (.bge st a b i) (fun x y => y.toInt ≤ x.toInt)
    ∧ branch (.bltn st a b i) (fun x y => x.toNat < y.toNat)
    ∧ branch (.bgen st a b i) (fun x y => y.toNat ≤ x.toNat)
    ∧ Jumps (.loop st a i) (uses2 (some 1) a a) st (fun s => s.rs a ≠ 1#64) (fun s => s.later 1 a (s.rs a - 1#64))
        (fun s => on s i.toInt)
    ∧ Does (.loop st a i) (uses2 (some 1) a a) st (fun s => s.rs a = 1#64) (fun s => s.later 1 a (s.rs a - 1#64))
    ∧ encode (.beq st a b i) = some (0x17#6 ++ st ++ a ++ b ++ i)
    ∧ encode (.bne st a b i) = some (0x18#6 ++ st ++ a ++ b ++ i)
    ∧ encode (.blt st a b i) = some (0x19#6 ++ st ++ a ++ b ++ i)
    ∧ encode (.bge st a b i) = some (0x1A#6 ++ st ++ a ++ b ++ i)
    ∧ encode (.bltn st a b i) = some (0x1B#6 ++ st ++ a ++ b ++ i)
    ∧ encode (.bgen st a b i) = some (0x1C#6 ++ st ++ a ++ b ++ i)

/-- Scalar floating point that rounds (R154, R155, R157): under FRM's mode, each operation's value is on its way at L = 6
(`fdiv` and `fsqrt` interlocked), and its flags are in FFLAGS; a reserved mode is trap 0x04 with FRM in TVAL, and nothing is
written (R54). Under SR the key is SEED and the counter SBASE. -/
def Obligations.FloatingPointRounds : Prop := ∀ (st : BitVec 3) (d a b c : BitVec 5) (p : BitVec 1) (k : BitVec 3),
  let f := if p = 1#1 then Fmt.f64 else Fmt.f32
  let x := fun (r : BitVec 5) (s : State) => (s.rs r).toNat % 2 ^ f.width
  let key := fun (s : State) => srBits (s.thr.csrv csrSEED) (s.thr.csrv csrSBASE)
  let u3 := uses3 (some 6) d a b
  let u4 : Uses := { sr := [a.toNat, b.toNat, c.toNat], sw := [d.toNat], lat := some 6 }
  let reserved := fun (i : Instr) (u : Uses) =>
    Traps i u (fun s => 6 ≤ (s.thr.csrv csrFRM).toNat % 8) id (fun s => { cause := 0x04, tval := s.thr.csrv csrFRM })
  let lands := fun (i : Instr) (u : Uses) (v : Rm → State → Nat × Flags) =>
    (∀ m, Does i u st (fun s => Rm.ofCode ((s.thr.csrv csrFRM).toNat % 8) = some m)
      fun s => (s.raise (v m s).2).later 6 d (BitVec.ofNat 64 (v m s).1)) ∧ reserved i u
  let returns := fun (i : Instr) (u : Uses) (v : Rm → State → Nat × Flags) =>
    (∀ m, Does i u st (fun s => Rm.ofCode ((s.thr.csrv csrFRM).toNat % 8) = some m)
      fun s =>
        let t := s.raise (v m s).2
        t.setThr (t.thr.putS d.toNat (BitVec.ofNat 64 (v m s).1))) ∧ reserved i u
  lands (.fadd st d a b p) u3 (fun m s => fpAdd f m (key s) (x a s) (x b s))
    ∧ lands (.fsub st d a b p) u3 (fun m s => fpSub f m (key s) (x a s) (x b s))
    ∧ lands (.fmul st d a b p) u3 (fun m s => fpMul f m (key s) (x a s) (x b s))
    ∧ returns (.fdiv st d a b p) (uses3 none d a b) (fun m s => fpDiv f m (key s) (x a s) (x b s))
    ∧ returns (.fsqrt st d a p) (uses2 none d a) (fun m s => fpSqrt f m (key s) (x a s))
    ∧ lands (.ffma st d a b c p) u4 (fun m s => fpFma f m (key s) false false false (x a s) (x b s) (x c s))
    ∧ lands (.ffms st d a b c p) u4 (fun m s => fpFma f m (key s) false false true (x a s) (x b s) (x c s))
    ∧ lands (.ffnma st d a b c p) u4 (fun m s => fpFma f m (key s) false true true (x a s) (x b s) (x c s))
    ∧ lands (.ffnms st d a b c p) u4 (fun m s => fpFma f m (key s) false true false (x a s) (x b s) (x c s))
    ∧ lands (.fcvt st d a p k) (uses2 (some 6) d a) (fun m s => fcvtValue p k.toNat (s.rs a) m (key s))

/-- Scalar floating point that does not round (R155): minimum, maximum and comparisons with their flags, and the sign
operations, which set none; whatever FRM holds (log 15). -/
def Obligations.FloatingPointExact : Prop := ∀ (st : BitVec 3) (d a b : BitVec 5) (p : BitVec 1) (c : BitVec 2),
  let f := if p = 1#1 then Fmt.f64 else Fmt.f32
  let x := fun (r : BitVec 5) (s : State) => (s.rs r).toNat % 2 ^ f.width
  let rel : Rel := match c.toNat with | 0 => .eq | 1 => .lt | 2 => .le | _ => .un
  let half := 2 ^ (f.width - 1)
  let flags := fun (i : Instr) (v : State → Nat × Flags) =>
    Does i (uses3 (some 6) d a b) st always fun s => (s.raise (v s).2).later 6 d (BitVec.ofNat 64 (v s).1)
  let quiet := fun (i : Instr) (u : Uses) (v : State → Nat) =>
    Does i u st always fun s => (s.raise flNone).later 6 d (BitVec.ofNat 64 (v s))
  flags (.fmin st d a b p) (fun s => fpMinMax f false (x a s) (x b s))
    ∧ flags (.fmax st d a b p) (fun s => fpMinMax f true (x a s) (x b s))
    ∧ flags (.fcmp st d a b p c) (fun s => ((fpRel f rel (x a s) (x b s)).1.toNat, (fpRel f rel (x a s) (x b s)).2))
    ∧ quiet (.fmv st d a p) (uses2 (some 6) d a) (x a)
    ∧ quiet (.fmvNeg st d a p) (uses2 (some 6) d a) (fun s => (x a s + half) % 2 ^ f.width)
    ∧ quiet (.fmvAbs st d a p) (uses2 (some 6) d a) (fun s => x a s % half)
    ∧ quiet (.fmvSgn st d a b p) (uses3 (some 6) d a b) (fun s => x a s % half + (x b s / half) * half)

/-- Control registers (R126, R158): with no earlier fixed-latency write outstanding, the old value goes to s(d) and the register
takes its new value in its RW fields; `csrs` and `csrc` of s0 only read. Until then the instruction waits (R121). A register
marked R for supervisors is trap 0x04 with the word in TVAL, and nothing is written. The next clauses say which accesses a user
has and which registers a supervisor may not write. A write changes the RW fields of its register, bit by bit as the layouts give
them, keeps every other bit, THS.PRIV among them, and touches no other register; SCAP and QWIN are held in their ranges, and PTBASE is
a view of the address space's root. The last clause is R127 over every scalar instruction that does not access memory (majors 0x01 to
0x0C and 0x15 to 0x20): none changes the privilege of any thread, but by taking a trap. -/
def Obligations.ControlRegisterAccesses : Prop := ∀ (st : BitVec 3) (d a : BitVec 5) (e : BitVec 10),
  let c := e.toNat
  let none' := fun (s : State) => s.thr.pend = []
  let some' := fun (s : State) => s.thr.pend ≠ []
  let old := fun (s : State) => s.csrRead s.thr c
  let put := fun (s : State) (v : W64) => s.setThr (s.thr.putS d.toNat v)
  let u := fun (k : Uses) (writes : Bool) => { k with priv := csrBarred c writes, serial := true }
  let fields : List (Nat × List (Nat × Nat)) :=
    [(0x000, [(23, 23), (21, 16), (4, 1)]), (0x001, [(32, 24), (17, 0)]), (0x002, [(63, 0)]), (0x003, [(63, 0)]),
     (0x004, [(47, 2)]), (0x005, [(31, 0)]), (0x012, [(15, 0)]), (0x020, [(2, 0)]), (0x021, [(6, 0)]), (0x022, [(63, 0)]),
     (0x023, [(63, 0)]), (0x024, [(31, 0)]), (0x025, [(31, 0)]), (0x030, [(31, 0)]), (0x040, [(11, 0)])]
  let registerOnly := fun (i : Instr) =>
    let m := (fld (wordOf i) 26 6).toNat
    (0x01 ≤ m ∧ m ≤ 0x0C) ∨ (0x15 ≤ m ∧ m ≤ 0x20)
  let writes := fun (i : Instr) (w : Bool) (new : State → W64) =>
    Stays i (u (uses2 none d a) w) some' id
      ∧ (csrSupWrites c = true → w = true →
          Does i (u (uses2 none d a) w) st none' fun s => put (s.csrWrite s.cur c (new s)) (old s))
      ∧ (csrSupWrites c = false → w = true →
          Traps i (u (uses2 none d a) w) none' id fun _ => { cause := 0x04, tval := (wordOf i).zeroExtend 64 })
      ∧ (w = false → Does i (u (uses2 none d a) w) st none' fun s => put s (old s))
  Stays (.csrr st d e) (u (uses1 none d) false) some' id
    ∧ Does (.csrr st d e) (u (uses1 none d) false) st none' (fun s => put s (old s))
    ∧ writes (.csrw st d a e) true (fun s => s.rs a)
    ∧ writes (.csrs st d a e) (a != 0#5) (fun s => old s ||| s.rs a)
    ∧ writes (.csrc st d a e) (a != 0#5) (fun s => old s &&& ~~~ s.rs a)
    ∧ (∀ n : Nat, (csrBarred n false = true ↔ n ∈ ([0x001, 0x002, 0x003, 0x004, 0x005, 0x041] : List Nat) ∨ n ∉ csrNumbers)
        ∧ (csrBarred n true = false ↔ n ∈ ([0x020, 0x021, 0x022, 0x023, 0x024, 0x025, 0x030, 0x031] : List Nat))
        ∧ (csrSupWrites n = false ↔ n ∈ ([0x010, 0x011, 0x014, 0x050] : List Nat)))
    ∧ (∀ f ∈ fields, ∀ (s : State) (n b : Nat) (v : W64), b < 64 →
        (((s.csrWrite n f.1 v).slot n).csrv f.1).getLsbD b
          = if ∃ r ∈ f.2, r.2 ≤ b ∧ b ≤ r.1 then v.getLsbD b else ((s.slot n).csrv f.1).getLsbD b)
    ∧ (∀ (s : State) (n r m : Nat) (v : W64), m ≠ r → ((s.csrWrite n r v).slot n).csrv m = (s.slot n).csrv m)
    ∧ (∀ (s : State) (n : Nat) (v : W64), ((s.slot n).csrv 0x031).toNat < 2 ^ 24 →
        ((s.csrWrite n 0x031 v).slot n).csrv 0x031 = BitVec.ofNat 64 (max 64 (v.toNat % 2 ^ 24)))
    ∧ (∀ (s : State) (n : Nat) (v : W64),
        ((s.csrWrite n 0x013 v).slot n).scap = min 32 (max 1 (v.toNat % 2 ^ 6))
          ∧ ((s.csrWrite n 0x013 v).slot n).pcap = (s.slot n).pcap)
    ∧ (∀ (s : State) (n p : Nat) (v : W64), s.partOfAsid (s.slot n).asid = some p →
        inRange (s.part p).pasid (s.slot n).asid = true →
        s.csrWrite n 0x041 v = { s with artb := s.artb.set (s.slot n).asid (v &&& 0xFFFFFFFFFF001#64) })
    ∧ (∀ (i : Instr) (s r : State), registerOnly i → s.executes i → exec i s = .next r →
        ∀ n, (r.slot n).sup = (s.slot n).sup ∨ (n = s.cur ∧ (r.slot n).sup = true ∧ (r.slot n).hold = true))

/-- FRAMES. What a scalar instruction whose result goes to s(d), late (`Lands`) or at once (`Returns`), leaves as it was, in every
state in which it executes: at every time from its issue on every other scalar register, and with d = 0 all of them, s0 reading zero
(R125); every vector and mask register and control register, the scratch, mode and slices of the thread; every other thread;
every byte of memory; and everything outside the thread's slot and its course's issue stage. A store (`st`, `stx`, `strel`) whose
EA goes to memory leaves all of that too, but for the bytes at that address, and every scalar register. -/
def Obligations.RegisterAndStoreFrames : Prop :=
  ∀ (i : Instr) (u : Uses) (st c : BitVec 3) (lat : Nat) (d a b : BitVec 5) (z : BitVec 2) (o : BitVec 10) (v : State → W64)
    (s : State),
  let size := 2 ^ z.toNat
  let l := s.landDue
  let keeps := fun (t : State) =>
    s.sameOthers t
      ∧ (∀ T k n, s.now ≤ T → (t.thr.landBy T).readV k n = (l.thr.landBy T).readV k n)
      ∧ (∀ T n, s.now ≤ T → (t.thr.landBy T).readM n = (l.thr.landBy T).readM n)
      ∧ (∀ n, t.thr.csrv n = s.thr.csrv n)
      ∧ t.thr.hold = s.thr.hold ∧ t.thr.att = s.thr.att ∧ t.thr.ranks = s.thr.ranks
  let stores := fun (x : Instr) (ea : W64) => ∀ pa, s.executes x →
    l.threadTarget l.thr .store ea.toNat size = .ok (.phys pa) → l.homeDown pa = false →
    l.windowDrops l.thr.asid pa = false → (∃ loc, l.placeOf pa = .ram loc) →
    ∃ t, exec x s = .next t ∧ keeps t ∧ t.thr.scratch = s.thr.scratch
      ∧ t = { s with slots := t.slots, courses := t.courses, stores := t.stores, poison := t.poison }
      ∧ (∀ T n, s.now ≤ T → t.thr.sAt T n = l.thr.sAt T n)
      ∧ (∀ qa, (∀ j, j < size → s.placeOf (pa + j) ≠ s.placeOf qa) → t.physByte qa = s.physByte qa)
  (Lands i u st lat d v ∨ Returns i u st d v → s.executes i →
      ∃ t, exec i s = .next t ∧ keeps t ∧ t.thr.scratch = s.thr.scratch ∧ s.agreesOutside t ∧ s.sameMemory t
        ∧ (∀ T n, s.now ≤ T → n ≠ d.toNat → t.thr.sAt T n = l.thr.sAt T n) ∧ (∀ T, t.thr.sAt T 0 = 0#64))
    ∧ stores (.st st d a z o) (l.rs a + BitVec.ofInt 64 (o.toInt * size))
    ∧ stores (.stx st d a b z) (l.rs a + l.rs b * BitVec.ofNat 64 size)
    ∧ stores (.strel st d a c z) (l.rs a)

/-! ### Accesses of a thread (chapters 06, 11, 13) -/

/-- The checks of an access in their order, the first failure deciding, with EA in TVAL (R147); kinds of page fault as R308
gives; scratch is private to the thread (R27). -/
def Obligations.AccessChecksInOrder : Prop := ∀ (s : State) (k : AKind) (ea size : Nat),
  let x := s.thr
  let r := s.threadTarget x k ea size
  let fails := fun (c : Nat) => r = .error { cause := c, tval := BitVec.ofNat 64 ea }
  let scratch := scratchVa ≤ ea ∧ ea ≤ 0x7F0003FFFFFF
  let x' := s.translate (holdCp (courseOf s.cur)) x.asid x.sup k ea
  (2 ^ 48 ≤ ea → fails k.pageFault)
    ∧ (ea < 2 ^ 48 → ea % size ≠ 0 → fails 0x06)
    ∧ (ea < 2 ^ 48 → ea % size = 0 → scratch → x.decl.scratch * 4096 ≤ ea - scratchVa → fails 0x0D)
    ∧ (ea < 2 ^ 48 → ea % size = 0 → scratch → ea - scratchVa < x.decl.scratch * 4096 →
        r = .ok (.scratch (ea - scratchVa)))
    ∧ (∀ c, ea < 2 ^ 48 → ea % size = 0 → ¬ scratch → x' = .fault c → fails c)
    ∧ (∀ pa e, ea < 2 ^ 48 → ea % size = 0 → ¬ scratch → x' = .ok pa e →
        (placeAllows x.sup (s.placeOf pa) = false → fails 0x0C)
          ∧ (placeAllows x.sup (s.placeOf pa) = true → r = .ok (.phys pa)))

/-- What a translation answers (R308): a page fault of the access's kind where no valid leaf is found, 0x0C where the leaf does
not permit the access or user mode meets a supervisor page, 0x0C where its interleave code is not the group's, 0x08 for a
hole, and else the page's address with the offset kept. -/
def Obligations.TranslationOutcomes : Prop :=
  ∀ (s : State) (h asid va lvl : Nat) (sup : Bool) (k : AKind) (e : W64),
  let r := s.translate h asid sup k va
  let permits := match k with
    | .load => e.getLsbD 1
    | .store => e.getLsbD 2
    | .atomic => e.getLsbD 1 && e.getLsbD 2
    | .fetch => e.getLsbD 3
  let pa := leafAddr e.toNat lvl va
  let foreign := pa < 0x8000000000 ∧ e.toNat / 32 % 8 ≠ s.imapIL (pa / 2 ^ 33 % 64)
  (2 ^ 48 ≤ va → r = .fault k.pageFault)
    ∧ (va < 2 ^ 48 → s.leafFor h asid va = none → r = .fault k.pageFault)
    ∧ (va < 2 ^ 48 → s.leafFor h asid va = some (e, lvl) →
        (permits = false ∨ (sup = false ∧ e.getLsbD 4 = false) → r = .fault 0x0C)
          ∧ (permits = true → (sup = true ∨ e.getLsbD 4 = true) →
              (foreign → r = .fault 0x0C)
                ∧ (¬ foreign → s.placeOf pa = .hole → r = .fault 0x08)
                ∧ (¬ foreign → s.placeOf pa ≠ .hole → r = .ok pa e.toNat)))

/-- Loads (R145, R146, R148, R352): EA, the bytes there extended by the size code, into s(d), interlocked; from the thread's
scratch, from memory, or from a device window that answers; a failed check is its trap with nothing written; a home
being reset is trap 0x15 with status 0x08 (R412). An acquire adds nothing in this order of steps (log 6). -/
def Obligations.LoadsReadTheirAddress : Prop :=
  ∀ (st : BitVec 3) (d a b : BitVec 5) (z c : BitVec 3) (o : BitVec 10),
  let size := 2 ^ (z.toNat % 4)
  let ext := fun (v : Nat) => if z.toNat < 4 then (BitVec.ofNat (8 * size) v).signExtend 64 else BitVec.ofNat 64 v
  let put := fun (s : State) (v : W64) => s.setThr (s.thr.putS d.toNat v)
  let load := fun (i : Instr) (u : Uses) (ea : State → W64) =>
    let goes := fun (t : Target) (s : State) => s.threadTarget s.thr .load (ea s).toNat size = .ok t
    (∀ t : Trap, Traps i u (fun s => s.threadTarget s.thr .load (ea s).toNat size = .error t) id (fun _ => t))
      ∧ (∀ off : Nat, Does i u st (goes (.scratch off)) fun s => put s (ext (s.thr.scratchRead off size)))
      ∧ (∀ pa : Nat, Does i u st (fun s => goes (.phys pa) s ∧ s.reaches pa size) fun s => put s (ext (s.readPhys pa size)))
      ∧ (∀ pa : Nat, Traps i u (fun s => goes (.phys pa) s ∧ s.homeDown pa = true) id
          fun s => { cause := 0x15, tval := ea s, rsts := 8 })
      ∧ (∀ pa : Nat, Does i u st
          (fun s => goes (.phys pa) s ∧ s.homeDown pa = false ∧ s.windowDrops s.thr.asid pa = false
            ∧ ∀ loc, s.placeOf pa ≠ .ram loc)
          fun s => put { s with freeCnt := s.freeCnt + 1 } (loadExt z.toNat (s.devRead (s.placeOf pa) size)))
  load (.ld st d a z o) (uses2 none d a) (fun s => s.rs a + BitVec.ofInt 64 (o.toInt * size))
    ∧ load (.ldx st d a b z) (uses3 none d a b) (fun s => s.rs a + s.rs b * BitVec.ofNat 64 size)
    ∧ load (.ldacq st d a c z) (uses2 none d a) (fun s => s.rs a)

/-- Stores (R145, R146, R148, R353): the low bytes of s(d) at EA, in the thread's scratch or in memory; a failed check is its
trap with nothing written; no register changes. A store to a home being reset is lost, and its asynchronous 0x15 waits
(R412). A release adds nothing in this order of steps (log 6). -/
def Obligations.StoresWriteTheirAddress : Prop :=
  ∀ (st c : BitVec 3) (d a b : BitVec 5) (z : BitVec 2) (o : BitVec 10),
  let size := 2 ^ z.toNat
  let store := fun (i : Instr) (u : Uses) (ea : State → W64) =>
    let goes := fun (t : Target) (s : State) => s.threadTarget s.thr .store (ea s).toNat size = .ok t
    (∀ t : Trap, Traps i u (fun s => s.threadTarget s.thr .store (ea s).toNat size = .error t) id (fun _ => t))
      ∧ (∀ off : Nat, Does i u st (goes (.scratch off))
          fun s => s.setThr (s.thr.scratchWrite off (toBytesLE (s.rs d).toNat size)))
      ∧ (∀ pa : Nat, Does i u st
          (fun s => goes (.phys pa) s ∧ s.homeDown pa = false ∧ s.windowDrops s.thr.asid pa = false
            ∧ ∃ loc, s.placeOf pa = .ram loc)
          fun s => s.writePhys pa (s.rs d).toNat size)
      ∧ (∀ pa : Nat, Does i u st (fun s => goes (.phys pa) s ∧ s.homeDown pa = true)
          fun s => s.setThr { s.thr with async15 := s.thr.async15 ++ [(8, ea s)] })
      ∧ (∀ (pa : Nat) (t : State → State), Does i u st
          (fun s => goes (.phys pa) s ∧ s.homeDown pa = false ∧ s.windowDrops s.thr.asid pa = false
            ∧ (∀ loc, s.placeOf pa ≠ .ram loc)
            ∧ s.devWrite (some s.thr.asid) (s.placeOf pa) (s.rs d) size = some (t s)) t)
      ∧ (∀ pa : Nat, Traps i u
          (fun s => goes (.phys pa) s ∧ s.homeDown pa = false ∧ s.windowDrops s.thr.asid pa = false
            ∧ (∀ loc, s.placeOf pa ≠ .ram loc)
            ∧ s.devWrite (some s.thr.asid) (s.placeOf pa) (s.rs d) size = none)
          id fun s => { cause := 0x0C, tval := ea s })
  store (.st st d a z o) (usesR [d, a]) (fun s => s.rs a + BitVec.ofInt 64 (o.toInt * size))
    ∧ store (.stx st d a b z) (usesR [d, a, b]) (fun s => s.rs a + s.rs b * BitVec.ofNat 64 size)
    ∧ store (.strel st d a c z) (usesR [d, a]) (fun s => s.rs a)

/-- Atomics (R355 to R358): at the home, as one event, the old value is read and the operation's result written; the old value
goes to s(d), sign- or zero-extended as the operation says, with its flags in FFLAGS. `cas` writes only where the old value is
the one in s(d). An address whose home takes no atomics is trap 0x0C; a home being reset is trap 0x15 with memory unchanged
(R359). That an atomic on private scratch is performed is the model's choice (log 44): R358's table names no private scratch.
-/
def Obligations.AtomicsAreOneEvent : Prop :=
  ∀ (st c : BitVec 3) (d a b : BitVec 5) (z : BitVec 1),
  let size := if z = 1#1 then 8 else 4
  let n := 8 * size
  let sign := fun (v : Nat) => (BitVec.ofNat n v).signExtend 64
  let zero := fun (v : Nat) => (BitVec.ofNat n v).zeroExtend 64
  let put := fun (s : State) (v : W64) => s.setThr (s.thr.putS d.toNat v)
  let ea := fun (s : State) => (s.rs a).toNat
  let B := fun (s : State) => (s.rs b).toNat % 2 ^ n
  let goes := fun (t : Target) (s : State) => s.threadTarget s.thr .atomic (ea s) size = .ok t
  let scr := fun (s : State) (off v : Nat) => s.setThr (s.thr.scratchWrite off (toBytesLE v size))
  let stops := fun (i : Instr) (u : Uses) =>
    (∀ t : Trap, Traps i u (fun s => s.threadTarget s.thr .atomic (ea s) size = .error t) id (fun _ => t))
      ∧ (∀ pa, Traps i u (fun s => goes (.phys pa) s ∧ s.takesAtomics pa = false) id
          fun s => { cause := 0x0C, tval := s.rs a })
      ∧ (∀ pa, Traps i u (fun s => goes (.phys pa) s ∧ s.takesAtomics pa = true ∧ s.homeDown pa = true) id
          fun s => { cause := 0x15, tval := s.rs a, rsts := 8 })
  let amo := fun (i : Instr) (ext : Nat → W64) (op : Nat → Nat → Nat × Flags) =>
    let u := uses3 none d a b
    stops i u
      ∧ (∀ pa, Does i u st (fun s => goes (.phys pa) s ∧ s.takesAtomics pa = true ∧ s.reaches pa size) fun s =>
          let old := s.readPhys pa size
          put ((s.writePhys pa (op old (B s)).1 size).raise (op old (B s)).2) (ext old))
      ∧ (∀ off, Does i u st (goes (.scratch off)) fun s =>
          let old := s.thr.scratchRead off size
          put ((scr s off (op old (B s)).1).raise (op old (B s)).2) (ext old))
  let u' : Uses := { sr := [d.toNat, a.toNat, b.toNat], sw := [d.toNat] }
  let expd := fun (s : State) => (s.rs d).toNat % 2 ^ n
  amo (.amoAdd st d a b z c) sign (fun x y => ((x + y) % 2 ^ n, flNone))
    ∧ amo (.amoAdds st d a b z c) sign (fun x y => clampInt true n flSAT (sintOf n x + sintOf n y))
    ∧ amo (.amoAnd st d a b z c) sign (fun x y => (x &&& y, flNone))
    ∧ amo (.amoOr st d a b z c) sign (fun x y => (x ||| y, flNone))
    ∧ amo (.amoXor st d a b z c) sign (fun x y => (x ^^^ y, flNone))
    ∧ amo (.amoMin st d a b z c) sign (fun x y => (if sintOf n x ≤ sintOf n y then x else y, flNone))
    ∧ amo (.amoMax st d a b z c) sign (fun x y => (if sintOf n x ≤ sintOf n y then y else x, flNone))
    ∧ amo (.amoMinn st d a b z c) zero (fun x y => (min x y, flNone))
    ∧ amo (.amoMaxn st d a b z c) zero (fun x y => (max x y, flNone))
    ∧ amo (.amoSwap st d a b z c) sign (fun _ y => (y, flNone))
    ∧ amo (.amoFadd st d a b z c) zero (fun x y => fpAdd (if z = 1#1 then .f64 else .f32) .rne 0 x y)
    ∧ (stops (.cas st d a b z c) u'
        ∧ (∀ pa, Does (.cas st d a b z c) u' st
            (fun s => goes (.phys pa) s ∧ s.takesAtomics pa = true ∧ s.reaches pa size ∧ s.readPhys pa size = expd s)
            fun s => put (s.writePhys pa (B s) size) (sign (expd s)))
        ∧ (∀ pa, Does (.cas st d a b z c) u' st
            (fun s => goes (.phys pa) s ∧ s.takesAtomics pa = true ∧ s.reaches pa size ∧ s.readPhys pa size ≠ expd s)
            fun s => put s (sign (s.readPhys pa size)))
        ∧ (∀ off, Does (.cas st d a b z c) u' st (goes (.scratch off)) fun s =>
            let old := s.thr.scratchRead off size
            put (if old = expd s then scr s off (B s) else s) (sign old)))

/-- Fences (R354): in a machine that performs every access at once, in the order of its steps, `fence.full`, `.acq` and `.rel`
have nothing to wait for (log 6); `fence.eng` waits until every copy and every remote operation the thread issued has
completed. -/
def Obligations.Fences : Prop := ∀ st c : BitVec 3,
  let out := fun (s : State) =>
    (∃ e ∈ s.copies, e.2.slot = some s.cur ∧ e.2.orphan = false ∧ e.2.replied = false)
      ∨ (∃ e ∈ s.rops, e.2.slot = some s.cur ∧ e.2.orphan = false ∧ e.2.replied = false)
  Does (.fenceFull st c) {} st always id
    ∧ Does (.fenceAcq st c) {} st always id
    ∧ Does (.fenceRel st c) {} st always id
    ∧ Does (.fenceEng st c) {} st (fun s => ¬ out s) id
    ∧ Waits (.fenceEng st c) {} out id

/-- Groups (R360 to R363): a slot number of 256 or more is trap 0x04 with s(a) in TVAL; `join` adds the thread once and returns
the member count, with trap 0x0D at GROUPS slots held; `leave` removes it with its arrival; `gbar` of a thread that is no
member is trap 0x04, an arrival that completes the episode passes, and else the thread waits until the episode has moved on. -/
def Obligations.GroupsMeet : Prop := ∀ (st c : BitVec 3) (a b : BitVec 5),
  let ju : Uses := { sr := [a.toNat], sw := [b.toNat], noAtom := true }
  let u : Uses := { sr := [a.toNat], noAtom := true }
  let no := fun (s : State) => (s.rs a).toNat
  let grp := fun (s : State) => s.group s.threadPart (no s)
  let isIn := fun (s : State) => s.cur ∈ (grp s).members
  let put := fun (s : State) (v : Nat) => s.setThr (s.thr.putS b.toNat (BitVec.ofNat 64 v))
  let far := fun (i : Instr) (u : Uses) =>
    Traps i u (fun s => 256 ≤ no s) id fun s => { cause := 0x04, tval := s.rs a }
  let arrive := fun (s : State) =>
    s.setGroup s.threadPart (no s) { grp s with arrived := (grp s).arrived.filter (· ≠ s.cur) ++ [s.cur] }
  let all' := fun (s : State) => ∀ n ∈ (grp s).members, n = s.cur ∨ n ∈ (grp s).arrived
  let key := fun (s : State) => s.threadPart * 256 + no s
  let fresh := fun (s : State) => s.thr.gbar.get? (key s) = none
  far (.join st a b) ju ∧ far (.leave st a) u ∧ far (.gbar st a c) u
    ∧ Does (.join st a b) ju st (fun s => no s < 256 ∧ isIn s) (fun s => put s (grp s).members.length)
    ∧ Traps (.join st a b) ju (fun s => no s < 256 ∧ ¬ isIn s ∧ s.thr.decl.groups ≤ (s.groupsOf s.cur).length) id
        (fun s => { cause := 0x0D, tval := s.rs a })
    ∧ Does (.join st a b) ju st (fun s => no s < 256 ∧ ¬ isIn s ∧ (s.groupsOf s.cur).length < s.thr.decl.groups)
        (fun s => put (s.setGroup s.threadPart (no s) { grp s with members := (grp s).members ++ [s.cur] })
          ((grp s).members.length + 1))
    ∧ Does (.leave st a) u st (fun s => no s < 256 ∧ isIn s) (fun s => s.leaveGroup s.cur s.threadPart (no s))
    ∧ Does (.leave st a) u st (fun s => no s < 256 ∧ ¬ isIn s) id
    ∧ Traps (.gbar st a c) u (fun s => no s < 256 ∧ ¬ isIn s) id (fun s => { cause := 0x04, tval := s.rs a })
    ∧ Does (.gbar st a c) u st (fun s => no s < 256 ∧ isIn s ∧ fresh s ∧ all' s)
        (fun s => (arrive s).episode s.threadPart (no s))
    ∧ Waits (.gbar st a c) u (fun s => no s < 256 ∧ isIn s ∧ fresh s ∧ ¬ all' s)
        (fun s => (arrive s).setThr { s.thr with gbar := s.thr.gbar.set (key s) (grp s).episode })
    ∧ (∀ e, Waits (.gbar st a c) u
        (fun s => no s < 256 ∧ isIn s ∧ s.thr.gbar.get? (key s) = some e ∧ (grp s).episode = e) id)
    ∧ (∀ e, Does (.gbar st a c) u st
        (fun s => no s < 256 ∧ isIn s ∧ s.thr.gbar.get? (key s) = some e ∧ (grp s).episode ≠ e)
        (fun s => s.setThr { s.thr with gbar := s.thr.gbar.erase (key s) }))

/-- `launch` (R161): a record address beyond 48 bits is trap 0x09, one not aligned to 128 bytes trap 0x06, an unreadable record
its load's trap. Where the queue's address space is not the thread's, BADREF is set and s(b) is all ones; where the append is
accepted, s(b) is its position; where R69 refuses it or the ring is full for a thread that does not wait, all ones; while the ring
is full the thread waits. With the queue switched out the launch completes, and the position lands in s(b), if that is a register,
when the staged reference is appended (R119). -/
def Obligations.LaunchAppends : Prop := ∀ (st : BitVec 3) (a b : BitVec 5),
  let i := Instr.launch st a b
  let u : Uses := { sr := [a.toNat], sw := [b.toNat], noAtom := true }
  let r := fun (s : State) => (s.rs a).toNat
  let put := fun (s : State) (v : W64) => s.setThr (s.thr.putS b.toNat v)
  let ok := fun (ctl : W64) (t s : State) => r s < 2 ^ 48 ∧ r s % 128 = 0 ∧ s.threadLoad (r s) 8 = .ok (ctl, t)
  let p := fun (t : State) => t.threadPart
  let q := fun (ctl : W64) => ctl.toNat / 2 ^ 24 % 256
  let ours := fun (ctl : W64) (t : State) => (t.part (p t)).qte = true → (t.qctl (p t) (q ctl)).asid = t.thr.asid
  let app := fun (ctl : W64) (t s : State) => t.append (p t) (q ctl) (some t.cur) false (s.rs a)
  let ready := fun (ctl : W64) (t s : State) => ok ctl t s ∧ ours ctl t
  Traps i u (fun s => 2 ^ 48 ≤ r s) id (fun s => { cause := 0x09, tval := s.rs a })
    ∧ Traps i u (fun s => r s < 2 ^ 48 ∧ r s % 128 ≠ 0) id (fun s => { cause := 0x06, tval := s.rs a })
    ∧ (∀ t, Traps i u (fun s => r s < 2 ^ 48 ∧ r s % 128 = 0 ∧ s.threadLoad (r s) 8 = .error t) id (fun _ => t))
    ∧ (∀ ctl (t : State → State), Does i u st (fun s => ok ctl (t s) s ∧ ¬ ours ctl (t s)) fun s =>
        put ((t s).modQueue (p (t s)) (q ctl) fun x => { x with badref := true }) (BitVec.allOnes 64))
    ∧ (∀ ctl pos (t v : State → State), Does i u st
        (fun s => ready ctl (t s) s ∧ app ctl (t s) s = .accepted pos (v s)) fun s => put (v s) (BitVec.ofNat 64 pos))
    ∧ (∀ ctl (t v : State → State), Does i u st
        (fun s => ready ctl (t s) s ∧ (app ctl (t s) s = .refused (v s) ∨ app ctl (t s) s = .full (v s)))
        fun s => put (v s) (BitVec.allOnes 64))
    ∧ (∀ ctl (t : State → State), Stays i u (fun s => ready ctl (t s) s ∧ app ctl (t s) s = .wait) t)
    ∧ (∀ ctl (t v : State → State), Does i u st (fun s => ready ctl (t s) s ∧ app ctl (t s) s = .staged (v s)) fun s =>
        if b = 0#5 then v s
        else (v s).setThr { (v s).thr.putS b.toNat ((v s).rs b) with
          owed := (v s).thr.owed ++ [(b.toNat, p (t s) * 256 + q ctl, none)] })

/-- Where HBM stands (R297): stack, pseudo-channel and offset of a group offset under each scheme of the table; the place of an
address is one-to-one under whatever schemes the map holds, and lies in the group's own 16 MiB of its stack and pseudo-channel,
from g × 2^24 on (a pseudo-channel has 2^30 bytes and a stack 64 of them); under scheme 7 a page of 2 MiB lies in one
pseudo-channel and one of 1 GiB in one stack. -/
def Obligations.InterleaveIsOneToOne : Prop := ∀ s : State,
  let stripe := fun (k o : Nat) => (o / 2 ^ k % 8, o / 2 ^ (k + 3) % 64, o / 2 ^ (k + 9) * 2 ^ k + o % 2 ^ k)
  (∀ pa qa, pa < 0x8000000000 → qa < 0x8000000000 → s.hbmLoc pa = s.hbmLoc qa → pa = qa)
    ∧ (∀ il o, il < 8 → o < 2 ^ 33 →
        (interleave il o).1 < 8 ∧ (interleave il o).2.1 < 64 ∧ (interleave il o).2.2 < 2 ^ 24)
    ∧ (∀ pa, pa < 0x8000000000 →
        let g := pa / 2 ^ 33
        let p := interleave ((s.imap.getD 0#64 g).toNat % 8) (pa % 2 ^ 33)
        s.hbmLoc pa = (p.1 * 64 + p.2.1) * 2 ^ 30 + (g * 2 ^ 24 + p.2.2))
    ∧ (∀ o, o < 2 ^ 33 →
        interleave 0 o = stripe 8 o ∧ interleave 1 o = stripe 10 o ∧ interleave 2 o = stripe 12 o ∧ interleave 3 o = stripe 16 o
          ∧ interleave 4 o = (4 * (o / 2 ^ 32) + o / 2 ^ 8 % 4, o / 2 ^ 10 % 64, o % 2 ^ 32 / 2 ^ 16 * 256 + o % 256)
          ∧ interleave 5 o = (2 * (o / 2 ^ 31) + o / 2 ^ 8 % 2, o / 2 ^ 9 % 64, o % 2 ^ 31 / 2 ^ 15 * 256 + o % 256)
          ∧ interleave 6 o = (o / 2 ^ 30, o / 2 ^ 8 % 64, o % 2 ^ 30 / 2 ^ 14 * 256 + o % 256)
          ∧ interleave 7 o = (o / 2 ^ 30, o / 2 ^ 24 % 64, o % 2 ^ 24))
    ∧ (∀ o q, (o / 2 ^ 21 = q / 2 ^ 21 → (interleave 7 o).1 = (interleave 7 q).1 ∧ (interleave 7 o).2.1 = (interleave 7 q).2.1)
        ∧ (o / 2 ^ 30 = q / 2 ^ 30 → (interleave 7 o).1 = (interleave 7 q).1))

/-- A store's bytes read back (R5, R148): `n` bytes stored where all of them are memory give their value again, little-endian;
every byte at another place reads as before. The end of a step keeps what it stored (log 3): in a sound memory, every byte
reads after the step as it did within it, the memory is canonical again, and no store is left uncommitted. -/
def Obligations.StoresReadBack : Prop := ∀ (s t : State) (pa v n : Nat),
  ((∀ i, i < n → ∃ loc, s.placeOf (pa + i) = .ram loc) → (s.writePhys pa v n).readPhys pa n = v % 256 ^ n)
    ∧ (∀ qa, (∀ i, i < n → s.placeOf (pa + i) ≠ s.placeOf qa) → (s.writePhys pa v n).physByte qa = s.physByte qa)
    ∧ (t.mem = s.mem → Memory.wf s.mem = true →
        (∀ pa, (s.close t).physByte pa = t.physByte pa) ∧ Memory.wf (s.close t).mem = true ∧ (s.close t).stores = [])

/-! ### Vector instructions (chapters 07 and 12) -/

/-- `setlen` (R162, R163, R168): the grant is the least of the request, what the attached slices hold, and what the length cap
allows (R104); STYPE records the request, with ILF 1 and no element where the format is not supported; s(d) receives the grant.
Slices are ranked in ascending order of number. The quarters at or above SCAP lose their contents at a grant (R405); that this
waits for the end of an atomic block, and that a quarter only PCAP gates keeps its contents, is the model's choice (R105, R112;
log 34). It waits while earlier vector work is outstanding. For a thread that has lent no slice. -/
def Obligations.SetlenGrants : Prop := ∀ (st : BitVec 3) (d a : BitVec 5) (g : BitVec 2) (f : BitVec 4) (s : State),
  let i := Instr.setlen st d a g f
  let t := s.landDue
  let x := t.thr
  let fmt := f.toNat
  let bad := 14 ≤ fmt ∨ (fmt = 13 ∧ x.modOk = false)
  let ranks := (List.range 8).filter fun k => x.att.testBit k
  let gmax := 2048 / widthOf fmt * 2 ^ g.toNat * ranks.length
  let lcape := x.cap * (512 / widthOf fmt) * 2 ^ g.toNat
  let grant := if bad then 0 else min (t.rs a).toNat (min gmax lcape)
  let rank := fun (k : Nat) => (ranks.findIdx? (· == k)).getD 0
  s.executes i → x.lent = [] →
    ((∃ p ∈ x.pend, p.vecWork = true) → exec i s = .next t)
      ∧ ((∀ p ∈ x.pend, p.vecWork = false) → ∃ r, exec i s = .next r
          ∧ r.thr.csrv csrGLEN = BitVec.ofNat 64 grant
          ∧ r.thr.csrv csrSTYPE = BitVec.ofNat 64 ((if bad then 256 else 0) + g.toNat * 16 + fmt)
          ∧ r.thr.readS d.toNat = (if d.toNat = 0 then 0#64 else BitVec.ofNat 64 grant)
          ∧ r.thr.ranks = ranks ∧ r.thr.m = x.m
          ∧ (∀ k n, r.thr.readV k n = if bad ∨ x.atom = true then x.readV k n
              else BitVec.ofNat 2048 ((x.readV k n).toNat % 2 ^ (512 * min 4 (x.scap - 4 * rank k))))
          ∧ (∀ n, n ≠ d.toNat → r.thr.readS n = x.readS n)
          ∧ (∀ c, c ≠ csrGLEN → c ≠ csrSTYPE → r.thr.csrv c = x.csrv c)
          ∧ s.agreesOutside r
          ∧ (4 * ranks.length ≤ x.cap → s.sameOthers r))

/-- The checks of every vector instruction's strip, in order (R169): 0x03 for an unsupported strip or an ill-formed modulus pair
with STYPE in TVAL, 0x04 for a format it does not accept, 0x04 for a reserved rounding mode with FRM in TVAL. -/
def Obligations.StripChecksInOrder : Prop := ∀ (x : Slot) (ok : Kind → Nat → Bool) (rounds : Bool),
  let r := stripTrap x ok rounds
  let ty := x.csrv csrSTYPE
  (x.ilf = true → r = some { cause := 0x03, tval := ty })
    ∧ (∀ kd, kindOf x.fmt = some kd → x.ilf = false →
        (kd = .mod → x.modOk = false → r = some { cause := 0x03, tval := ty })
          ∧ (x.stripOf kd →
              (ok kd x.grp = false → r = some { cause := 0x04, tval := ty })
                ∧ (ok kd x.grp = true → rounds = true → x.rm = none → r = some { cause := 0x04, tval := x.csrv csrFRM })
                ∧ (ok kd x.grp = true → (rounds = true → x.rm ≠ none) → r = none)))

/-- Float and fused operations on elements (R172, R173): each active element of vd receives the operation's value under FRM's
mode, with the counter SBASE + x under SR, at L = 8 or L = 10; flags go to FFLAGS; a failed strip check is its trap. That
`vmin`, `vmax`, `vabs`, `vneg` and `vclass` run under a reserved FRM is the model's choice (log 15): R54 raises its trap where
an instruction rounds. -/
def Obligations.VectorFloatingPoint : Prop := ∀ (st : BitVec 3) (d a b : BitVec 5) (k : BitVec 3),
  let X := fun (s : State) (r : BitVec 5) (e : Nat) => s.thr.elem (widthOf s.thr.fmt) s.thr.grp r.toNat e
  let sr := fun (s : State) (e : Nat) => srBits (s.thr.csrv csrSEED) (s.thr.csrv csrSBASE + BitVec.ofNat 64 e)
  let map := fun (i : Instr) (u : Uses) (lat : Nat) (rounds : Bool) (f : Fmt → Rm → State → Nat → Nat × Flags) =>
    (∀ t, Traps i u (fun s => stripTrap s.thr okFloat rounds = some t) id (fun _ => t))
      ∧ ∀ (fm : Fmt) (m : Rm), fm = .f32 ∨ fm = .f16 ∨ fm = .b16 →
          Does i u st (fun s => s.thr.stripOf (.fp fm) ∧ (rounds = true → s.thr.rm = some m))
            fun s => s.mapped (some lat) d.toNat k.toNat (f fm m s)
  let two := fun (i : Instr) (f : Fmt → Rm → Nat → Nat → Nat → Nat × Flags) =>
    map i (usesV3 (some 8) d a b k) 8 true fun fm m s e => f fm m (sr s e) (X s a e) (X s b e)
  let one := fun (i : Instr) (rounds : Bool) (f : Fmt → Rm → Nat → Nat → Nat × Flags) =>
    map i (usesV2 (some 8) d a k) 8 rounds fun fm m s e => f fm m (sr s e) (X s a e)
  let fused := fun (i : Instr) (negP negC : Bool) =>
    map i { usesV3 (some 10) d a b k with vr := [d.toNat, a.toNat, b.toNat] } 10 true
      fun fm m s e => fpFma fm m (sr s e) false negP negC (X s a e) (X s b e) (X s d e)
  let minMax := fun (i : Instr) (mx : Bool) =>
    map i (usesV3 (some 8) d a b k) 8 false fun fm _ s e => fpMinMax fm mx (X s a e) (X s b e)
  two (.vadd st d a b k) fpAdd ∧ two (.vsub st d a b k) fpSub ∧ two (.vmul st d a b k) fpMul
    ∧ two (.vdiv st d a b k) fpDiv
    ∧ minMax (.vmin st d a b k) false ∧ minMax (.vmax st d a b k) true
    ∧ one (.vabs st d a k) false (fun fm _ _ x => (fm.withSign false x, flNone))
    ∧ one (.vneg st d a k) false (fun fm _ _ x => (fm.withSign (!fm.signOf x) x, flNone))
    ∧ one (.vsqrt st d a k) true fpSqrt ∧ one (.vrsq st d a k) true fpRsq ∧ one (.vrcp st d a k) true fpRcp
    ∧ one (.vexp2 st d a k) true fpExp2
    ∧ one (.vclass st d a k) false (fun fm _ _ x => (fpClass fm x, flNone))
    ∧ fused (.vfma st d a b k) false false ∧ fused (.vfms st d a b k) false true
    ∧ fused (.vfnma st d a b k) true true ∧ fused (.vfnms st d a b k) true false

/-- Integer and modular operations on elements (R174, R175), at L = 8: arithmetic modulo 2^W with no flag, the saturating pair
clamped with SAT; residues modulo q, with MR for an operand at or above q, except by `vmred`. -/
def Obligations.VectorIntegersAndResidues : Prop := ∀ (st : BitVec 3) (d a b : BitVec 5) (k : BitVec 3),
  let X := fun (s : State) (r : BitVec 5) (e : Nat) => s.thr.elem (widthOf s.thr.fmt) s.thr.grp r.toNat e
  let int := fun (i : Instr) (f : Bool → Nat → Nat → Nat → Nat × Flags) =>
    let u := usesV3 (some 8) d a b k
    (∀ t, Traps i u (fun s => stripTrap s.thr okInt false = some t) id (fun _ => t))
      ∧ ∀ sg w, Does i u st (fun s => s.thr.stripOf (.int sg w))
          fun s => s.mapped (some 8) d.toNat k.toNat fun e => f sg w (X s a e) (X s b e)
  let plain := fun (i : Instr) (f : Nat → Nat → Nat → Nat) => int i fun _ w x y => (f w x y, flNone)
  let res := fun (i : Instr) (u : Uses) (f : Nat → Nat → Nat → Nat × Flags) =>
    (∀ t, Traps i u (fun s => stripTrap s.thr okMod false = some t) id (fun _ => t))
      ∧ Does i u st (fun s => s.thr.stripOf .mod)
          fun s => s.mapped (some 8) d.toNat k.toNat fun e => f (s.thr.csrv csrMODQ).toNat (X s a e) (X s b e)
  plain (.viadd st d a b k) (fun _ x y => x + y)
    ∧ plain (.visub st d a b k) (fun w x y => x + 2 ^ w - y)
    ∧ plain (.vimul st d a b k) (fun _ x y => x * y)
    ∧ int (.vimulh st d a b k) (fun sg w x y => (natOfInt w (intOf sg w x * intOf sg w y / 2 ^ w), flNone))
    ∧ plain (.vand st d a b k) (fun _ x y => x &&& y)
    ∧ plain (.vor st d a b k) (fun _ x y => x ||| y)
    ∧ plain (.vxor st d a b k) (fun _ x y => x ^^^ y)
    ∧ plain (.vsll st d a b k) (fun w x y => x <<< (y % w))
    ∧ plain (.vsrl st d a b k) (fun w x y => x >>> (y % w))
    ∧ plain (.vsra st d a b k) (fun w x y => natOfInt w (sintOf w x / 2 ^ (y % w)))
    ∧ plain (.vimin st d a b k) (fun w x y => if sintOf w x ≤ sintOf w y then x else y)
    ∧ plain (.vimax st d a b k) (fun w x y => if sintOf w x ≤ sintOf w y then y else x)
    ∧ plain (.vminn st d a b k) (fun _ x y => min x y)
    ∧ plain (.vmaxn st d a b k) (fun _ x y => max x y)
    ∧ int (.viadds st d a b k) (fun sg w x y => clampInt sg w flSAT (intOf sg w x + intOf sg w y))
    ∧ int (.visubs st d a b k) (fun sg w x y => clampInt sg w flSAT (intOf sg w x - intOf sg w y))
    ∧ res (.vmadd st d a b k) (usesV3 (some 8) d a b k) modAdd
    ∧ res (.vmsub st d a b k) (usesV3 (some 8) d a b k) modSub
    ∧ res (.vmmul st d a b k) (usesV3 (some 8) d a b k) modMul
    ∧ Does (.vmred st d a k) (usesV2 (some 8) d a k) st (fun s => s.thr.stripOf .mod)
        (fun s => s.mapped (some 8) d.toNat k.toNat fun e => (X s a e % (s.thr.csrv csrMODQ).toNat, flNone))

/-- Compares and mask logic (R176, R177), at L = 8: `vcmp` writes the bits of its active elements, mask logic those below GLEN of
the ranks the block enables; `mpopc` and `mfirst` count and find set bits; `mset` sets the bits below s(a). -/
def Obligations.ComparesAndMasks : Prop := ∀ (st d3 m n k c : BitVec 3) (d a b : BitVec 5) (kd : Kind),
  let any' := fun (s : State) => s.thr.stripOf kd ∧ kd ≠ .q4
  let bit := fun (s : State) (r : BitVec 3) (e : Nat) => (s.thr.readM r.toNat).toNat.testBit e
  let X := fun (s : State) (r : BitVec 5) (e : Nat) => s.thr.elem (widthOf s.thr.fmt) s.thr.grp r.toNat e
  let cmp := fun (s : State) (e : Nat) => elemRel kd (Rel.ofCode c.toNat) (X s a e) (X s b e)
  let logic := fun (i : Instr) (u : Uses) (f : State → Nat → Bool) =>
    Does i u st any' fun s => s.putMask d3.toNat (s.thr.inStrip.map fun e => (e, f s e))
  let hits := fun (s : State) => (s.thr.active k.toNat).filter (bit s m)
  let cu : Uses := { sw := [d.toNat], mr := [m.toNat, k.toNat], lat := some 8, vec := true }
  Does (.vcmp st d3 a b k c)
      { vr := [a.toNat, b.toNat], mr := [k.toNat], mw := [d3.toNat], lat := some 8, vec := true } st any'
      (fun s =>
        let t := s.putMask d3.toNat ((s.thr.active k.toNat).map fun e => (e, (cmp s e).1))
        t.setThr (t.thr.raise ((s.thr.active k.toNat).foldl (fun f e => f ||| (cmp s e).2) flNone)))
    ∧ logic (.mand st d3 m n) (usesM [m, n] d3) (fun s e => bit s m e && bit s n e)
    ∧ logic (.mor st d3 m n) (usesM [m, n] d3) (fun s e => bit s m e || bit s n e)
    ∧ logic (.mxor st d3 m n) (usesM [m, n] d3) (fun s e => bit s m e != bit s n e)
    ∧ logic (.mandn st d3 m n) (usesM [m, n] d3) (fun s e => bit s m e && !bit s n e)
    ∧ logic (.mnot st d3 m) (usesM [m] d3) (fun s e => !bit s m e)
    ∧ logic (.mset st d3 a) { sr := [a.toNat], mw := [d3.toNat], lat := some 8, vec := true }
        (fun s e => decide (e < (s.rs a).toNat))
    ∧ Does (.mpopc st d m k) cu st any' (fun s => s.later 8 d (BitVec.ofNat 64 (hits s).length) true)
    ∧ Does (.mfirst st d m k) cu st any'
        (fun s => s.later 8 d (match (hits s).head? with | some e => BitVec.ofNat 64 e | none => BitVec.allOnes 64) true)

/-- `vcvt` (R178): each active element converted from the source format, read from a group of grouping gs := max(1, g·Ws / W) at its
rank and lane; trap 0x04 for a reserved source code, a pair of floating point and m32 and gs above 8 (the word in TVAL), trap 0x03
for an m32 source with an ill-formed modulus pair, and, where no side is m32, trap 0x04 for a reserved rounding mode (R41, R54). A
source group that is misnamed, or reaches beyond VREGS, is met with the other registers (its number, or the lowest beyond,
log 26). -/
def Obligations.VectorConversion : Prop := ∀ (st : BitVec 3) (d a : BitVec 5) (k : BitVec 3) (t : BitVec 1) (f : BitVec 4) (u : Uses),
  let i := Instr.vcvt st d a k t f
  let word := (wordOf i).zeroExtend 64
  let ws := widthOf f.toNat
  let gs := fun (x : Slot) => max 1 (x.grp * ws / widthOf x.fmt)
  let fp := fun (kd : Kind) => ∃ fm, kd = .fp fm
  let mixed := fun (x y : Kind) => (fp x ∧ y = .mod) ∨ (x = .mod ∧ fp y)
  let as := fun (P : State → Prop) (s : State) => usesOf s.thr i = u ∧ P s
  (14 ≤ f.toNat → ∀ kd, Traps i u (as fun s => s.thr.stripOf kd ∧ kd ≠ .q4) id fun _ => { cause := 0x04, tval := word })
    ∧ ∀ src dst : Kind, kindOf f.toNat = some src → src ≠ .q4 → dst ≠ .q4 →
      let pair := fun (s : State) => s.thr.stripOf dst ∧ (src = .mod → s.thr.modOk = true)
      let fits := fun (s : State) => pair s ∧ ¬ mixed src dst ∧ gs s.thr ≤ 8
      let bare := src ≠ .mod ∧ dst ≠ .mod
      Traps i u (as fun s => s.thr.stripOf dst ∧ src = .mod ∧ s.thr.modOk = false) id
          (fun s => { cause := 0x03, tval := s.thr.csrv csrSTYPE })
        ∧ Traps i u (as fun s => pair s ∧ (mixed src dst ∨ 8 < gs s.thr)) id (fun _ => { cause := 0x04, tval := word })
        ∧ Traps i u (as fun s => fits s ∧ bare ∧ s.thr.rm = none) id (fun s => { cause := 0x04, tval := s.thr.csrv csrFRM })
        ∧ Does i u st (as fun s => fits s ∧ (bare → s.thr.rm ≠ none))
            (fun s => s.mapped (some 8) d.toNat k.toNat fun e =>
              let l := lanesOf (widthOf s.thr.fmt) s.thr.grp
              convert src dst (s.thr.rm.getD .rne) (s.thr.srAt e) (t = 1#1) (s.thr.csrv csrMODQ).toNat
                (s.thr.lane ws (gs s.thr) a.toNat (e / l) (e % l)))
        ∧ (∀ x : Slot, kindOf x.fmt = some dst → gs x ≤ 8 →
            usesOf x i = { vw := [d.toNat], vs := [(a.toNat, gs x)], mr := [k.toNat], lat := some 8, vec := true }
              ∧ (d.toNat + x.grp ≤ x.decl.vregs → d.toNat % x.grp = 0 →
                  (x.decl.vregs < a.toNat + gs x → undeclared x (usesOf x i) = some (max a.toNat x.decl.vregs))
                    ∧ (a.toNat + gs x ≤ x.decl.vregs → a.toNat % gs x ≠ 0 → undeclared x (usesOf x i) = some a.toNat)))

/-- Reductions (R60 to R62, R179): interlocked, from the low W bits of the seed; the pairwise tree over GMAX leaves, or the
elements in order; extrema and bitwise forms; the result extended by the strip's format, its flags in FFLAGS. The tree over integers
is the sum of the leaves that are present, modulo 2^W, with no flag, whichever way the pairs fall; it is empty exactly where no
leaf is present. -/
def Obligations.VectorReductions : Prop := ∀ (st : BitVec 3) (d a b : BitVec 5) (k : BitVec 3) (kd : Kind),
  let u : Uses := { sr := [b.toNat], sw := [d.toNat], vr := [a.toNat], mr := [k.toNat], vec := true }
  let W := fun (s : State) => widthOf s.thr.fmt
  let X := fun (s : State) (e : Nat) => s.thr.elem (W s) s.thr.grp a.toNat e
  let act := fun (s : State) => s.thr.active k.toNat
  let seed := fun (s : State) => (s.rs b).toNat % 2 ^ W s
  let put := fun (s : State) (r : Nat × Flags) =>
    let t := s.raise r.2
    t.setThr (t.thr.putS d.toNat (extendElem kd r.1))
  let sums := fun (s : State) => s.thr.stripOf kd ∧ okRed kd s.thr.grp = true ∧ ((∃ f, kd = .fp f) → s.thr.rm ≠ none)
  let exts := fun (s : State) => s.thr.stripOf kd ∧ okRed kd s.thr.grp = true
  let any' := fun (s : State) => s.thr.stripOf kd ∧ kd ≠ .q4
  let fold := fun (s : State) (f : Nat → Nat → Nat → Nat × Flags) =>
    (act s).foldl (fun (acc : Nat × Flags) e => ((f e acc.1 (X s e)).1, acc.2 ||| (f e acc.1 (X s e)).2)) (seed s, flNone)
  let top := fun (s : State) => ceilLog2 (lanesOf (W s) s.thr.grp * s.thr.ranks.length)
  let leaf := fun (s : State) (e : Nat) => if e ∈ act s then some (X s e) else none
  let pick := fun (mx : Bool) (x y : Nat) => match kd with
    | .fp f => fpMinMax f mx x y
    | .int sg w => (if (intOf sg w x ≤ intOf sg w y) = (mx = true) then y else x, flNone)
    | _ => (if mx then max x y else min x y, flNone)
  Does (.vredsum st d a b k) u st sums
      (fun s => put s (match redTree kd s.thr (top s) s.thr.glen (leaf s) (top s) 0 with
        | none => (seed s, flNone)
        | some r => ((redAdd kd s.thr 0 (seed s) r.1).1, r.2 ||| (redAdd kd s.thr 0 (seed s) r.1).2)))
    ∧ Does (.vredsumo st d a b k) u st sums (fun s => put s (fold s (redAdd kd s.thr)))
    ∧ Does (.vredmax st d a b k) u st exts (fun s => put s (fold s fun _ => pick true))
    ∧ Does (.vredmin st d a b k) u st exts (fun s => put s (fold s fun _ => pick false))
    ∧ Does (.vredand st d a b k) u st any'
        (fun s => s.setThr (s.thr.putS d.toNat (extendElem kd ((act s).foldl (fun v e => v &&& X s e) (seed s)))))
    ∧ Does (.vredor st d a b k) u st any'
        (fun s => s.setThr (s.thr.putS d.toNat (extendElem kd ((act s).foldl (fun v e => v ||| X s e) (seed s)))))
    ∧ (∀ (sg : Bool) (w : Nat) (x : Slot) (top glen l j : Nat) (leaf : Nat → Option Nat), (∀ e, glen ≤ e → leaf e = none) →
    let present := (List.range (2 ^ l)).filterMap fun n => leaf (j * 2 ^ l + n)
    match redTree (.int sg w) x top glen leaf l j with
    | none => present = []
    | some (v, f) => present ≠ [] ∧ v % 2 ^ w = present.sum % 2 ^ w ∧ f = flNone)

/-- Permutes, exchange and scalar moves (R180 to R186): raw elements, interlocked, no flag. An exchange with a rank that the last
grant did not count (log 47), or whose slice has been lost, leaves its elements as they are. -/
def Obligations.VectorPermutes : Prop := ∀ (st : BitVec 3) (d a b : BitVec 5) (k : BitVec 3) (kd : Kind),
  let any' := fun (s : State) => s.thr.stripOf kd ∧ kd ≠ .q4
  let W := fun (s : State) => widthOf s.thr.fmt
  let L := fun (s : State) => lanesOf (W s) s.thr.grp
  let X := fun (s : State) (r : BitVec 5) (e : Nat) => s.thr.elem (W s) s.thr.grp r.toNat e
  let n := fun (s : State) => (s.rs b).toNat
  let mk := fun (s : State) (e : Nat) => (s.thr.readM k.toNat).getLsbD e
  let move := fun (i : Instr) (u : Uses) (f : State → Nat → Option Nat) =>
    Does i u st any' fun s => s.moved d.toNat (s.thr.active k.toNat) (f s)
  let all' := fun (i : Instr) (u : Uses) (f : State → Nat → Nat) =>
    Does i u st any' fun s => s.moved d.toNat (s.thr.active 0) fun e => some (f s e)
  let packed := fun (i : Instr) (pair : State → Nat × Nat → Nat × Nat) =>
    Does i (usesV2 none d a k) st any' fun s =>
      s.putElems none (W s) s.thr.grp d.toNat
        (((rangeFrom 0 s.thr.ranks.length).map fun r =>
          packFrom (r * L s) ((s.thr.active k.toNat).filter fun e => e / L s == r)).flatten.map (pair s))
  let from' := fun (i : Instr) (p : State → Nat → Nat) =>
    move i (usesV2 none d a k) fun s e =>
      let r := p s (e / L s)
      if r < s.thr.ranks.length ∧ s.thr.att.testBit (s.thr.sliceOf r) = true then
        some (s.thr.lane (W s) s.thr.grp a.toNat r (e % L s))
      else none
  move (.vperm st d a b k) (usesV3 none d a b k) (fun s e =>
      let i := X s b e
      some (if i < L s ∧ e / L s * L s + i < s.thr.glen then X s a (e / L s * L s + i) else 0))
    ∧ move (.vslup st d a b k) { usesV2 none d a k with sr := [b.toNat] }
        (fun s e => if e % L s < n s then none else some (X s a (e - n s)))
    ∧ move (.vsldn st d a b k) { usesV2 none d a k with sr := [b.toNat] }
        (fun s e => some (if e % L s + n s < L s ∧ e + n s < s.thr.glen then X s a (e + n s) else 0))
    ∧ all' (.vmerge st d a b k) (usesV3 none d a b k) (fun s e => if mk s e then X s a e else X s b e)
    ∧ packed (.vcompress st d a k) (fun s p => (p.1, X s a p.2))
    ∧ packed (.vexpand st d a k) (fun s p => (p.2, X s a p.1))
    ∧ all' (.viota st d k) { vw := [d.toNat], mr := [k.toNat], vec := true }
        (fun s e => e / L s * L s + popCount ((s.thr.readM k.toNat).toNat >>> (e / L s * L s)) (e % L s))
    ∧ move (.vbcast st d a k) { sr := [a.toNat], vw := [d.toNat], mr := [k.toNat], vec := true }
        (fun s _ => some (s.rs a).toNat)
    ∧ Does (.vextract st d a b) { sr := [b.toNat], sw := [d.toNat], vr := [a.toNat], vec := true } st any'
        (fun s => s.setThr (s.thr.putS d.toNat (if n s < s.thr.glen then extendElem kd (X s a (n s)) else 0#64)))
    ∧ from' (.vxch st d a k) (fun s r => r ^^^ s.thr.dist)
    ∧ from' (.vxchRot st d a k)
        (fun s r => (((r : Int) - (s.thr.dist : Int)) % (s.thr.ranks.length : Int)).toNat)

/-- Q4N in registers (R187 to R189): `vq4dq` gives each active element the value of its code under its block's scale and the
super scale in s(b), at L = 8; `vq4q` writes the codes and scales of the blocks that have an active element, rank by rank.
Scale bytes of a lane quarter that the thread's grant did not leave it are not kept, which the spec does not settle (log 34).
-/
def Obligations.VectorQ4N : Prop := ∀ (st : BitVec 3) (d a b : BitVec 5) (k : BitVec 3),
  let ok := fun (s : State) => s.thr.stripOf (.fp .f32) ∧ s.thr.grp ≤ 4
  let L := fun (s : State) => lanesOf 32 s.thr.grp
  let super := fun (s : State) => (s.rs b).toNat % 2 ^ 32
  Does (.vq4dq st d a b k)
      { sr := [b.toNat], vw := [d.toNat], v1r := [a.toNat], mr := [k.toNat], lat := some 8, vec := true } st ok
      (fun s => s.mapped (some 8) d.toNat k.toNat fun e =>
        let v := (s.thr.readV (s.thr.sliceOf (e / L s)) a.toNat).toNat
        let j := e % L s
        q4Deq (v / 2 ^ (4 * j) % 2 ^ 4) (v / 2 ^ (1536 + 8 * (j / 64)) % 2 ^ 8) (super s))
    ∧ Does (.vq4q st d a b k)
        { sr := [b.toNat], vr := [a.toNat], v1w := [d.toNat], mr := [k.toNat], vec := true } st ok
        (fun s =>
          let act := s.thr.active k.toNat
          let ranks := (rangeFrom 0 s.thr.ranks.length).filter fun r => anyB (fun e => e / L s == r) act
          let r := ranks.foldl (q4RegRank d.toNat s.thr a.toNat (super s) (L s) act) (s.thr, flNone)
          s.setThr (r.1.raise r.2))

/-- Where elements stand (R165): element x of a group stands in rank x div L at lane x mod L; lane j lies in register o div Q of
the group, at bit W × (q × Q + o mod Q), with q := j div (Q × g) and o := j mod (Q × g); with grouping 1, at bit W × j. The place
is one-to-one, inside the group's registers, aligned to W, and the lanes of the first quarters are those below Q × g × their
number. -/
def Obligations.LanesAreOneToOne : Prop := ∀ w g : Nat, w ∈ [8, 16, 32, 64] → g ∈ [1, 2, 4, 8] →
  (∀ j, j < lanesOf w g → (lanePlace w g j).1 < g ∧ (lanePlace w g j).2 + w ≤ 2048 ∧ (lanePlace w g j).2 % w = 0)
    ∧ (∀ i j, i < lanesOf w g → j < lanesOf w g → lanePlace w g i = lanePlace w g j → i = j)
    ∧ (∀ j, j < lanesOf w 1 → lanePlace w 1 j = (0, w * j))
    ∧ lanesOf w g = 2048 / w * g
    ∧ (∀ j, j < lanesOf w g →
        let Q := 512 / w
        let q := j / (Q * g)
        let o := j % (Q * g)
        lanePlace w g j = (o / Q, w * (q * Q + o % Q)))
    ∧ (∀ (x : Slot) (base e : Nat),
        let l := lanesOf w g
        let at' := lanePlace w g (e % l)
        x.elem w g base e = (x.readV (x.ranks.getD (e / l) 0) (base + at'.1)).toNat / 2 ^ at'.2 % 2 ^ w)
    ∧ (∀ j c, j < lanesOf w g → ((lanePlace w g j).2 / 512 < c ↔ j < c * (512 / w * g)))

/-- Elements are written where they stand and nothing else is (R165, R167): after an interlocked write of a list of elements of one
group, each of them reads its value's low W bits, and every other element of that group, and every register outside the
group, reads as before. -/
def Obligations.ElementsWrittenInPlace : Prop :=
  ∀ (s : State) (w g base : Nat) (es : List (Nat × Nat)),
    w ∈ [8, 16, 32, 64] → g ∈ [1, 2, 4, 8] → base + g ≤ 32 → s.thr.pend = [] → s.thr.ranks.Nodup →
    (es.map (·.1)).Nodup → (∀ e ∈ es, e.1 < lanesOf w g * s.thr.ranks.length) →
    let t := s.putElems none w g base es
    (∀ e ∈ es, t.thr.elem w g base e.1 = e.2 % 2 ^ w)
      ∧ (∀ e, e < lanesOf w g * s.thr.ranks.length → e ∉ es.map (·.1) → t.thr.elem w g base e = s.thr.elem w g base e)
      ∧ (∀ k n, n < 32 → (n < base ∨ base + g ≤ n) → t.thr.readV k n = s.thr.readV k n)

/-- Vector loads and stores of one group (R318 to R324): with at most 16 elements granted and every active one reaching memory,
each active element of vd receives the bytes at its address, or each active element of vs is stored there, in order; the
atScope forms also clear the m7 bit of each, no page being a synchronising one; SSTART ends as 0. -/
def Obligations.VectorMemoryOneGroup : Prop :=
  ∀ (st k c : BitVec 3) (d a b : BitVec 5) (sc : BitVec 1) (kd : Kind) (pa : Nat → Nat) (s : State),
  let t := s.landDue
  let x := t.thr
  let W := widthOf x.fmt
  let E := W / 8
  let act := x.active k.toNat
  let A := (t.rs a).toNat
  let I := x.idx b
  let ok := x.stripOf kd ∧ kd ≠ .q4 ∧ x.vm = none ∧ x.lostNew = 0 ∧ x.sstart = 0 ∧ 0 < x.glen ∧ x.glen ≤ 16
  let there := fun (kind : AKind) (ea : Nat → Nat) => ∀ e ∈ act,
    t.threadTarget x kind (ea e % 2 ^ 64) E = .ok (.phys (pa e)) ∧ t.reaches (pa e) E
  let one := fun (kind : AKind) => ∀ e₁ e₂, act.head? = some e₁ → act.getLast? = some e₂ →
    t.runLeaves x kind none ((A + e₁ * E) % 2 ^ 64) ((e₂ - e₁ + 1) * E) (2 ^ 17) = none
  let idx := idxBad b x = none
  let plainPages := fun (kind : AKind) (ea : Nat → Nat) => ∀ e ∈ act, ∀ p q,
    t.translate (holdCp (courseOf t.cur)) x.asid x.sup kind (ea e % 2 ^ 64) = .ok p q → q.testBit 8 = false
  let begun := t.setSstart 0 false
  let ended := fun (r : State) =>
    let r := r.setSstart 0 false
    r.setThr { r.thr with vm := none, lostNew := 0 }
  let loaded := begun.putElems none W x.grp d.toNat (act.map fun e => (e, t.readPhys (pa e) E))
  let stored := act.foldl (fun (r : State) e => r.writePhys (pa e) (x.el d.toNat e) E) begun
  let clear := fun (r : State) =>
    let y := r.thr.landList (r.thr.pend.filter fun p => p.isM 7)
    let y := { y with pend := r.thr.pend.filter fun p => !p.isM 7 }
    r.setThr (y.land1 (.m 7 (BitVec.ofNat 16384 (bitsOfList act)) 0#16384))
  let does := fun (i : Instr) (u : Uses) (r : State) =>
    s.executes i → usesOf x i = u ∧ exec i s = .next (((ended r).issued u x.grp).finish st)
  let unit := fun e => A + e * E
  let strided := fun e => A + e * (t.rs b).toNat
  let indexed := fun e => A + I e * (if sc = 1#1 then E else 1)
  let atScope := fun e => A + I e * E
  ok →
    (there .load unit → one .load → does (.vld st d a k) (usesVld d [a] [] k) loaded)
      ∧ (there .load strided → does (.vlds st d a b k) (usesVld d [a, b] [] k) loaded)
      ∧ (there .load indexed → idx → does (.vldx st d a b k sc) (usesVld d [a] (idxGroup x b) k) loaded)
      ∧ (there .load atScope → idx → plainPages .load atScope → act ≠ [] →
          does (.vldxa st d a b k c) { usesVld d [a] (idxGroup x b) k with mw := [7] } (clear loaded))
      ∧ (there .store unit → one .store → does (.vst st d a k) (usesVst d [a] [] k) stored)
      ∧ (there .store strided → does (.vsts st d a b k) (usesVst d [a, b] [] k) stored)
      ∧ (there .store indexed → idx → does (.vstx st d a b k sc) (usesVst d [a] (idxGroup x b) k) stored)
      ∧ (there .store atScope → idx → plainPages .store atScope → act ≠ [] →
          does (.vstxa st d a b k c) { usesVst d [a] (idxGroup x b) k with mw := [7] } (clear stored))

/-- The turns of a vector memory instruction under way (R322): a group that fails its check is the trap of its first failing
element, with SSTART at that group and nothing of it performed (a home being reset, 0x15, ends it, R396); a group that passes is
performed, and the instruction goes on with the next one, SSTART at its start; after the last, SSTART is 0, and a slice lost
meanwhile is trap 0x17 (R102). A scoped form writes the group's bits of m7 with it (R324). That a turn performs one group is the
model's choice (log 38). -/
def Obligations.VectorMemoryTurns : Prop := ∀ (m : VMem) (s : State) (e ea v : Nat) (r : List (Nat × Nat × Nat)),
  m.todo = (e, ea, v) :: r →
  let k := e / 16
  let grp := m.todo.takeWhile fun t => t.1 / 16 == k
  let rest := m.todo.drop grp.length
  let cut := s.setSstart (max s.thr.sstart (16 * k)) m.append
  let goOn := fun (t : State) (landed : List Nat) =>
    let t := t.setSstart (16 * (k + 1)) m.append
    t.setThr { t.thr with vm := some { m with todo := rest, landed := landed ++ m.landed } }
  let mark := fun (t : State) (ts : List (Target × Bool)) => if m.scope.isSome then t.putMisses (grp.zip ts) else t
  let finis := fun (t : State) =>
    let t := t.setSstart 0 false
    let r := t.setThr { t.thr with vm := none, lostNew := 0 }
    if t.thr.lostNew = 0 then Exe.done r else .trap r { cause := 0x17, tval := BitVec.ofNat 64 t.thr.lostNew }
  (∀ t, s.groupTargets m grp = .error t →
      exeVmemTurn m s = .trap (if t.cause = 0x15 then s.setSstart 0 false else cut) t)
    ∧ (∀ ts, s.groupTargets m grp = .ok ts → m.load = false → rest ≠ [] →
        exeVmemTurn m s = .turn (goOn (mark (s.groupWrites (m.w / 8) (grp.zip ts)) ts) []))
    ∧ (∀ ts, s.groupTargets m grp = .ok ts → m.load = false → rest = [] →
        exeVmemTurn m s = finis (mark (s.groupWrites (m.w / 8) (grp.zip ts)) ts))
    ∧ (∀ ts vs t, s.groupTargets m grp = .ok ts → m.load = true → rest ≠ [] →
        s.groupReads (m.w / 8) (grp.zip ts) = .ok (vs, t) →
        exeVmemTurn m s = .turn (goOn (mark (t.putElems none m.w m.g m.d vs) ts) (vs.map (·.1))))
    ∧ (∀ ts vs t, s.groupTargets m grp = .ok ts → m.load = true → rest = [] →
        s.groupReads (m.w / 8) (grp.zip ts) = .ok (vs, t) →
        exeVmemTurn m s = finis (mark (t.putElems none m.w m.g m.d vs) ts))

/-- `vappend` (R325, R326): the cursor at s(a) is advanced once by the bytes of the active elements, its old value goes to s(x),
and the active elements are stored there one after another; here with at most 16 of them, all reaching memory. With SSTART.AD set
the cursor stands: s(x) is read, and the elements at or after SSTART are stored from there. -/
def Obligations.VectorAppend : Prop :=
  ∀ (st k c : BitVec 3) (v a x : BitVec 5) (kd : Kind) (cur : Nat) (pa : Nat → Nat),
  let i := Instr.vappend st v a x k c
  let u : Uses := { sr := [a.toNat], named := [a.toNat], sw := [x.toNat], vr := [v.toNat], mr := [k.toNat], vec := true }
  let again : Uses := { sr := [x.toNat], named := [a.toNat], sw := [x.toNat], vr := [v.toNat], mr := [k.toNat], vec := true }
  let E := fun (s : State) => widthOf s.thr.fmt / 8
  let act := fun (s : State) => s.thr.active k.toNat
  let base := fun (s : State) => s.thr.stripOf kd ∧ kd ≠ .q4 ∧ s.thr.vm = none ∧ s.thr.sstartAd = false
  let reserved := fun (s : State) => s.thr.stripOf kd ∧ kd ≠ .q4 ∧ s.thr.vm = none ∧ s.thr.sstartAd = true
  let old := fun (s : State) => s.readPhys cur 8
  let ended := fun (s : State) =>
    let t := s.setSstart 0 false
    t.setThr { t.thr with vm := none, lostNew := 0 }
  let added := fun (s : State) =>
    let t := s.writePhys cur ((old s + (act s).length * E s) % 2 ^ 64) 8
    let t := t.setThr (t.thr.putS x.toNat (BitVec.ofNat 64 (old s)))
    t.setSstart t.thr.sstart true
  let stored := fun (s : State) =>
    ((rangeFrom 0 (act s).length).zip (act s)).foldl
      (fun (r : State) te => r.writePhys (pa te.1) (s.thr.el v.toNat te.2) (E s)) (added s)
  (x = 0#5 → Traps i u base id fun _ => { cause := 0x04, tval := (wordOf i).zeroExtend 64 })
    ∧ (x ≠ 0#5 → Traps i u (fun s => base s ∧ (s.rs a).toNat % 8 ≠ 0) id fun s => { cause := 0x06, tval := s.rs a })
    ∧ (x ≠ 0#5 → Traps i u
        (fun s => base s ∧ (s.rs a).toNat % 8 = 0 ∧ s.threadTarget s.thr .atomic (s.rs a).toNat 8 = .ok (.phys cur)
          ∧ s.takesAtomics cur = true ∧ s.reaches cur 8 ∧ old s % E s ≠ 0)
        (fun s => (added s).setSstart 0 false) fun s => { cause := 0x06, tval := BitVec.ofNat 64 (old s) })
    ∧ (x ≠ 0#5 → Does i u st
        (fun s => base s ∧ (s.rs a).toNat % 8 = 0 ∧ s.threadTarget s.thr .atomic (s.rs a).toNat 8 = .ok (.phys cur)
          ∧ s.takesAtomics cur = true ∧ s.reaches cur 8 ∧ old s % E s = 0 ∧ s.thr.sstart = 0 ∧ s.thr.lostNew = 0
          ∧ (act s).length ≤ 16
          ∧ ∀ n, n < (act s).length →
              (added s).threadTarget (added s).thr .store ((old s + n * E s) % 2 ^ 64) (E s) = .ok (.phys (pa n))
                ∧ (added s).reaches (pa n) (E s))
        fun s => ended (stored s))
    ∧ (x ≠ 0#5 → Traps i again (fun s => reserved s ∧ (s.rs x).toNat % E s ≠ 0) (fun s => s.setSstart 0 false)
        fun s => { cause := 0x06, tval := s.rs x })
    ∧ (x ≠ 0#5 → Does i again st
        (fun s => reserved s ∧ (s.rs x).toNat % E s = 0 ∧ s.thr.lostNew = 0 ∧ (act s).length ≤ 16 ∧ s.thr.sstart < (act s).length
          ∧ ∀ n, s.thr.sstart ≤ n → n < (act s).length →
              s.threadTarget s.thr .store (((s.rs x).toNat + n * E s) % 2 ^ 64) (E s) = .ok (.phys (pa n)) ∧ s.reaches (pa n) (E s))
        fun s => ended ((((rangeFrom 0 (act s).length).zip (act s)).filter fun te => decide (s.thr.sstart ≤ te.1)).foldl
          (fun (r : State) te => r.writePhys (pa te.1) (s.thr.el v.toNat te.2) (E s)) s))

/-! ### System instructions (chapters 15 and 16) -/

/-- `trap`, `claim` and `eret` (R402, R403). `trap` takes trap 0x0E with s(a) in TVAL and sel in CODE, TPC naming the instruction
after it, or the next block header with BPOS 0 and BHDR 1 where it ends its block (R398), and its stall field holds the
handler's first turn back (R118). `claim` writes the save area once and
releases the vector unit; a fault in writing it is trap 0x0A with the address. `eret` restores PRIV and IE, ends Hold,
and resumes at TPC, a claimed vector state reloaded; a switch that waits for it is made there; a save area that cannot be read is
a trap at the eret with the state a mix of old and saved bits that the spec leaves open (log 12). -/
def Obligations.TrapClaimReturn : Prop := ∀ (st : BitVec 3) (a : BitVec 5) (e : BitVec 10),
  let pu : Uses := { priv := true, noAtom := true }
  let faulted := fun (s : State) => if s.thr.claimed = true then s.reloadFault s.cur else none
  let resumes := fun (s : State) (y : Slot) =>
    { returnFromTrap y with earliest := max (s.now + st.toNat + 1) (s.now + 3), issuedAt := some s.now }
  let reloaded := fun (s : State) =>
    if s.thr.claimed = true then { s.reloadVec s.cur (fun _ => 2 ^ 16384 - 1) with claimed := false } else s.thr
  (∀ s : State, s.executes (.trap st a e) →
      let t := s.landDue
      let x := t.thr
      let lastOne := x.hdr.toNat / 2 ^ 20 % 64 ≤ x.bpos
      exec (.trap st a e) s = .next ((t.issued (usesR [a]) x.grp).setThr { takeTrap x
        { cause := 0x0E, tval := t.rs a, code := e.toNat, insn := wordOf (.trap st a e) }
        (x.pc + 4#64) (if lastOne then 0 else x.bpos + 1) (if lastOne then true else x.atHdr)
          with earliest := t.now + st.toNat + 1 }))
    ∧ Does (.claim st) pu st (fun s => s.thr.claimed = true) (fun s => s.setThr { s.thr with vfrozen := false })
    ∧ (∀ t : State → State, Does (.claim st) pu st
        (fun s => s.thr.claimed = false ∧ s.putWords s.cur (saveArea s.cur) s.thr.saveWords = .ok (t s))
        fun s => (t s).setThr { (t s).thr with claimed := true, vfrozen := false })
    ∧ (∀ (c va : Nat) (t : State → State), Traps (.claim st) pu
        (fun s => s.thr.claimed = false ∧ s.putWords s.cur (saveArea s.cur) s.thr.saveWords = .error (c, va, t s)) t
        fun _ => { cause := 0x0A, tval := BitVec.ofNat 64 va })
    ∧ (∀ s : State, s.executes (.eret st) → faulted s.landDue = none →
        let t := s.landDue
        let r := t.setThr (resumes t (reloaded t))
        exec (.eret st) s = .next ((if (resumes t (reloaded t)).switchPending = true then r.fullSwitch t.cur else r).issued pu t.thr.grp))
    ∧ (∀ c va : Nat, Traps (.eret st) pu (fun s => faulted s = some (c, va))
        (fun s => { s with freeCnt := s.freeCnt + 0x11000 }.setThr (s.reloadVec s.cur (freeMask s.freeCnt)))
        fun _ => { cause := c, tval := BitVec.ofNat 64 va })

/-- `wfe` and `yield` (R403). `wfe` begins its wait, watching the 8 bytes at s(a) where s(a) is not zero and passes the checks of a
load; the private scratch, which its own thread alone writes, is not watched (R27). It ends when a reason is present, with the
reasons in s(d), a trap or request that is pending being reason [3]. `yield` records that the thread held back in this C-cycle,
and changes nothing else. -/
def Obligations.WaitAndYield : Prop := ∀ (st : BitVec 3) (d a : BitVec 5),
  let i := Instr.wfe st d a
  let u : Uses := { sr := [a.toNat], sw := [d.toNat], noAtom := true }
  let begins := fun (s : State) (loc : Option Nat) =>
    s.setThr { s.thr with wfe := some { since := s.now, loc := loc, reasons := 0 } }
  let pending := fun (s : State) => s.thr.async15 ≠ [] ∨ s.thr.faults ≠ [] ∨ s.thr.preq ≠ none
  let ends := fun (s : State) (reasons : Nat) =>
    let t := s.setThr { s.thr with wfe := none }
    t.setThr (t.thr.putS d.toNat (BitVec.ofNat 64 reasons))
  let first := fun (s : State) => s.thr.wfe = none ∧ s.rs a ≠ 0#64
  let goes := fun (s : State) (t : Target) => s.threadTarget s.thr .load (s.rs a).toNat 8 = .ok t
  Waits i u (fun s => s.thr.wfe = none ∧ s.rs a = 0#64) (fun s => begins s none)
    ∧ (∀ t, Traps i u (fun s => first s ∧ s.threadTarget s.thr .load (s.rs a).toNat 8 = .error t) id fun _ => t)
    ∧ (∀ pa, Waits i u (fun s => first s ∧ goes s (.phys pa)) fun s => begins s (some (s.placeOf pa).addr))
    ∧ (∀ off, Waits i u (fun s => first s ∧ goes s (.scratch off)) fun s => begins s none)
    ∧ (∀ w, Waits i u (fun s => s.thr.wfe = some w ∧ w.reasons = 0 ∧ ¬ pending s) id)
    ∧ (∀ w, Does i u st (fun s => s.thr.wfe = some w ∧ w.reasons ≠ 0 ∧ ¬ pending s) fun s => ends s w.reasons)
    ∧ (∀ w, Does i u st (fun s => s.thr.wfe = some w ∧ pending s) fun s => ends s (w.reasons ||| 8))
    ∧ Does (.yield st) { noAtom := true } st always (fun s => s.setThr { s.thr with yieldAt := some s.now })

/-- `done`, `done.err` and `etrig` (R414 to R416). `done` ends the iteration, with no cause or, for `done.err`, with TCAUSE's in
supervisor mode where that is not zero, else 0x0E; an operation's error that was not reported is the cause where there is none.
The slot runs no thread after it, being free unless it was lent; the job has one more ended ordinal, triggered with it unless it
was triggered before, its first error kept; every byte of memory reads as before. `etrig` reports the iteration as triggered,
once, and changes nothing else. -/
def Obligations.EndAndTrigger : Prop := ∀ (st c : BitVec 3),
  let du : Uses := { noAtom := true, ends := true }
  let cause := fun (s : State) =>
    let k := (s.thr.csrv csrTCAUSE).toNat % 256
    if s.thr.sup = true ∧ k ≠ 0 then k else 0x0E
  let ends := fun (i : Instr) (s : State) (err : Option Nat) => ∃ r, exec i s = .next r
    ∧ r = (s.landDue.endIteration s.cur err).issued du s.landDue.thr.grp
    ∧ (r.slot s.cur).use ≠ .thread ∧ (s.thr.lentFrom = none → (r.slot s.cur).use = .free) ∧ s.sameMemory r
    ∧ ∀ j, s.jobs.get? s.thr.job = some j → r.jobs.get? s.thr.job = some { j with
        triggered := if s.thr.triggered = true then j.triggered else j.triggered + 1
        ended := j.ended + 1
        err := match j.err, (match err with | some k => some k | none => s.landDue.unreported s.cur) with
          | none, some k => some (s.thr.ordinal, k)
          | e, _ => e }
  (∀ s : State, s.executes (.done st) → ends (.done st) s none)
    ∧ (∀ s : State, s.executes (.doneErr st) → ends (.doneErr st) s (some (cause s.landDue)))
    ∧ Does (.etrig st c) { noAtom := true } st (fun s => s.thr.triggered = true) id
    ∧ Does (.etrig st c) { noAtom := true } st (fun s => s.thr.triggered = false)
        (fun s => (s.setThr { s.thr with triggered := true }).modJob s.thr.job fun j => { j with triggered := j.triggered + 1 })
    ∧ (∀ s : State, s.executes (.etrig st c) → ∃ r, exec (.etrig st c) s = .next r ∧ r.thr.triggered = true
        ∧ ∀ j, s.jobs.get? s.thr.job = some j → r.jobs.get? s.thr.job =
            some { j with triggered := if s.thr.triggered = true then j.triggered else j.triggered + 1 })

/-! ### Grid instructions (chapter 09) -/

/-- Configuration commands (R237, R239, R240): each first reads its region operand and lets the thread's command stream go on.
`cfgsel` is issued with its region and plane where no position's plane is EMPTY, the region is not frozen or is drained, and
the classes its engines ask for are granted, and waits for them and for room in the command stream; `cfgck` returns 0 or the
first check the image fails; `cfgload` waits for its place in the command stream, and, where it names an ACTIVE plane, for a
quiescent region, then writes its planes as LOADING; under an `sbar.cond` that failed it has no effect (R251). An address not
aligned to 64 bytes is trap 0x06, a rejected image trap 0x19 (or 0x0D for a position outside the region), an EMPTY plane or a
frozen region trap 0x19; a trap holds no position (R10). That `cfgload` is accepted when it begins in the command stream, and
holds no position while it waits, is the model's choice (log 19). -/
def Obligations.ConfigurationCommands : Prop :=
  ∀ (st : BitVec 3) (a b : BitVec 5) (p : BitVec 2) (e : BitVec 1) (ms : Masks) (rs : List CfgRec) (id : Nat)
    (r v w : State → State),
  let two := usesGrid [a, b] []
  let one := usesGrid [a] []
  let drain := e == 1#1
  let region := fun (x : BitVec 5) (s : State) => s.region (s.rs x) = .ok (ms, r s)
  let at' := fun (s : State) => (r s).pump (r s).cur
  let aligned := fun (s : State) => (s.rs a).toNat % 64 = 0
  let fate := fun (s : State) (i : Nat) => match ((at' s).thr.cmds.find? (·.id == i)).map (·.kind) with
    | some (.cond rs _) => (at' s).condRes rs
    | _ => some true
  let counted := fun (s : State) => s.modSlot s.cur fun x => { x with cmds := x.cmds.map fun d => match d.kind with
    | .cond rs left => { d with kind := .cond rs (left - 1) }
    | _ => d }
  let inPlace := fun (s : State) =>
    (∀ i ∈ (at' s).thr.covering, fate s i = some true)
      ∧ (at' s).thr.cmdCount < 16 ∧ allBegun (at' s).thr.cmds = true ∧ heldBack (at' s).thr.cmds (.load 0) = false
  let image := fun (s : State) => (at' s).readImage (s.rs a).toNat
  let loads := imageLoads ms rs
  let ready := fun (s : State) =>
    aligned s ∧ region b s ∧ inPlace s ∧ image s = .ok (.ok rs, v s) ∧ (v s).imageBad (at' s).thr.decl.feng ms rs = none
  let written := fun (s : State) => loads.foldl (fun s l => s.writePlane rs l) ((v s).hold ms)
  let asked := fun (s : State) =>
    region a s ∧ (drain = true ∨ (at' s).regionFrozen ms = false) ∧ (at' s).emptyAt ms p.toNat = none
      ∧ (at' s).thr.cmdCount < 16
  let want := fun (s : State) =>
    (at' s).wantAll (at' s).cur false (if (at' s).thr.decl.feng then (regionFes ms).map (·, p.toNat) else [])
  let put := fun (s : State) (x : W64) => s.setThr (s.thr.putS b.toNat x)
  Traps (.cfgload st a b) two (fun s => ¬ aligned s) (fun s => s) (fun s => { cause := 0x06, tval := s.rs a })
    ∧ (∀ t, Traps (.cfgload st a b) two (fun s => aligned s ∧ s.region (s.rs b) = .error t) (fun s => s) fun _ => t)
    ∧ (∀ t, Traps (.cfgload st a b) two (fun s => aligned s ∧ region b s ∧ inPlace s ∧ image s = .error t) at' fun _ => t)
    ∧ (∀ tv, Traps (.cfgload st a b) two (fun s => aligned s ∧ region b s ∧ inPlace s ∧ image s = .ok (.error tv, v s))
        v fun _ => { cause := 0x19, tval := tv })
    ∧ (∀ tv, Traps (.cfgload st a b) two
        (fun s => aligned s ∧ region b s ∧ inPlace s ∧ image s = .ok (.ok rs, v s)
          ∧ (v s).imageBad (at' s).thr.decl.feng ms rs = some tv)
        (fun s => { v s with freeCnt := (v s).freeCnt + 1 })
        fun _ => { cause := if tv = 0#64 then 0x0D else 0x19, tval := tv })
    ∧ Waits (.cfgload st a b) two
        (fun s => aligned s ∧ region b s ∧ (∀ i ∈ (at' s).thr.covering, fate s i = some true)
          ∧ (16 ≤ (at' s).thr.cmdCount ∨ allBegun (at' s).thr.cmds = false ∨ heldBack (at' s).thr.cmds (.load 0) = true)) at'
    ∧ Does (.cfgload st a b) two st
        (fun s => aligned s ∧ region b s ∧ ∃ i ∈ (at' s).thr.covering, fate s i = some false)
        (fun s => (counted (at' s)).pump (at' s).cur)
    ∧ Waits (.cfgload st a b) two
        (fun s => ready s ∧ anyB (v s).planeActive loads = true ∧ (v s).quiescent ms (at' s).thr.decl.feng (v s).nextId = false) v
    ∧ Does (.cfgload st a b) two st
        (fun s => ready s ∧ (anyB (v s).planeActive loads = true →
            (v s).quiescent ms (at' s).thr.decl.feng (v s).nextId = true ∧ ∀ c ∈ (at' s).thr.cmds, c.kind ≠ .sbar 1)
          ∧ (written s).nextId = id)
        (fun s =>
          let t := counted { written s with nextId := id + 1 }
          t.modSlot t.cur fun x =>
            { x with cmds := x.cmds ++ [{ id := id, kind := .load (s.rs a).toNat, masks := ms, feng := x.decl.feng,
                                          begun := true, loads := loads }] })
    ∧ (∀ t, Traps (.cfgsel st a p e) one (fun s => s.region (s.rs a) = .error t) (fun s => s) fun _ => t)
    ∧ (∀ k, Traps (.cfgsel st a p e) one (fun s => region a s ∧ (at' s).emptyAt ms p.toNat = some k)
        at' fun _ => { cause := 0x19, tval := cfgTval 0x0A 0 (k % 32) p.toNat })
    ∧ (drain = false → Traps (.cfgsel st a p e) one
        (fun s => region a s ∧ (at' s).emptyAt ms p.toNat = none ∧ (at' s).regionFrozen ms = true)
        at' fun _ => { cause := 0x19, tval := cfgTval 0x0B 0 0 p.toNat })
    ∧ Waits (.cfgsel st a p e) one
        (fun s => region a s ∧ (drain = true ∨ (at' s).regionFrozen ms = false) ∧ (at' s).emptyAt ms p.toNat = none
          ∧ 16 ≤ (at' s).thr.cmdCount) at'
    ∧ Waits (.cfgsel st a p e) one (fun s => asked s ∧ want s = (false, w s)) w
    ∧ Does (.cfgsel st a p e) one st (fun s => asked s ∧ want s = (true, w s) ∧ ((w s).hold ms).nextId = id)
        (fun s => { (w s).hold ms with nextId := id + 1 }.issueCmd id (.sel p.toNat drain) ms (at' s).thr.decl.feng)
    ∧ Traps (.cfgck st a b) (usesGrid [a] [b]) (fun s => ¬ aligned s) (fun s => s) (fun s => { cause := 0x06, tval := s.rs a })
    ∧ (∀ t, Traps (.cfgck st a b) (usesGrid [a] [b]) (fun s => aligned s ∧ s.readImage (s.rs a).toNat = .error t) (fun s => s)
        fun _ => t)
    ∧ Does (.cfgck st a b) (usesGrid [a] [b]) st (fun s => aligned s ∧ s.readImage (s.rs a).toNat = .ok (.ok rs, v s))
        (fun s => put { v s with freeCnt := (v s).freeCnt + 1 }
          (((v s).imageBad true [(courseOf (v s).cur, imageMask rs)] rs).getD 0#64))
    ∧ (∀ tv, Does (.cfgck st a b) (usesGrid [a] [b]) st
        (fun s => aligned s ∧ s.readImage (s.rs a).toNat = .ok (.error tv, v s)) fun s => put (v s) tv)

/-- Streams, runs and control tokens (R241, R245, R249): `strm` puts the stream its specification describes into its port's
generator, s(b) added to the base, waiting while the generator holds 8 or the command stream 16; `start` makes a run of the
region with its barrier and specification, waiting for a full command stream or the engines' classes; `ctok` sends control
tokens. A specification not aligned to 64 bytes is trap 0x06, a port outside POSMASK trap 0x0D; reserved bits of a barrier
specification, a target of 64 or more, or a count outside 1 to 64 are trap 0x04, a frozen region trap 0x19, an engine target of
a program that declares no engine trap 0x0D. -/
def Obligations.StreamsRunsControl : Prop :=
  ∀ (st c k p : BitVec 3) (a b : BitVec 5) (q l : BitVec 1) (ms : Masks) (ws : List W64) (id : Nat)
    (r v w : State → State),
  let u := usesGrid [a, b] []
  let si := Instr.strm st a b c q l p
  let pos := portPos p.toNat
  let pu := fun (s : State) => (v s).pump (v s).cur
  let key := fun (s : State) => courseOf (pu s).cur * 8 + p.toNat
  let aligned := fun (s : State) => (s.rs a).toNat % 64 = 0
  let fetched := fun (s : State) => aligned s ∧ s.imageFetch (s.rs a).toNat 6 = .ok (ws, v s)
  let ru := fun (s : State) => (r s).pump (r s).cur
  let regionOk := fun (s : State) => s.region (s.rs a) = .ok (ms, r s)
  let spec := fun (s : State) => (s.rs b).toNat
  let specOk := fun (s : State) => spec s / 2 ^ 25 % 128 = 0 ∧ spec s / 2 ^ 12 % 16 = 0
  let starts := fun (s : State) => regionOk s ∧ specOk s ∧ (ru s).regionFrozen ms = false ∧ (ru s).thr.cmdCount < 16
  let want := fun (s : State) => (ru s).wantAll (ru s).cur false (if (ru s).thr.decl.feng then
    (regionFes ms).filterMap fun c => ((ru s).planeComing c).map (c, ·) else [])
  let t := fun (s : State) => (s.rs a).toNat
  let n := fun (s : State) => (s.rs b).toNat
  let cp := fun (s : State) => s.pump s.cur
  let inRange := fun (s : State) => t s < 64 ∧ 1 ≤ n s ∧ n s ≤ 64
  let mine := fun (s : State) => (t s < 32 ∧ s.thr.decl.posmask.testBit (t s) = true) ∨ (32 ≤ t s ∧ s.thr.decl.feng = true)
  Traps si u (fun s => ¬ aligned s) (fun s => s) (fun s => { cause := 0x06, tval := s.rs a })
    ∧ (∀ e, Traps si u (fun s => aligned s ∧ s.imageFetch (s.rs a).toNat 6 = .error e) (fun s => s) fun _ => e)
    ∧ Traps si u (fun s => fetched s ∧ (v s).thr.decl.posmask.testBit pos = false) v
        (fun _ => { cause := 0x0D, tval := BitVec.ofNat 64 (2 ^ pos) })
    ∧ Waits si u (fun s => fetched s ∧ (v s).thr.decl.posmask.testBit pos = true
        ∧ (8 ≤ ((pu s).port (key s)).inbox.length ∨ 16 ≤ (pu s).thr.cmdCount)) pu
    ∧ Does si u st (fun s => fetched s ∧ (v s).thr.decl.posmask.testBit pos = true
          ∧ ((pu s).port (key s)).inbox.length < 8 ∧ (pu s).thr.cmdCount < 16 ∧ (pu s).nextId = id)
        (fun s =>
          let x := (pu s).thr
          let str : Stream :=
            { id := id, slot := (pu s).cur, job := x.job, ord := x.ordinal, asid := x.asid, sup := x.sup,
              words := setNth ws 2 (nth 0#64 ws 2 + s.rs b), spec := (s.rs a).toNat, off := s.rs b, scope := c.toNat,
              acq := q == 1#1, rel := l == 1#1, gates := x.gatesOf (courseOf (pu s).cur) pos,
              needStart := ((pu s).port (key s)).resel }
          let t := { pu s with nextId := id + 1 }
          let t := t.modPort (key s) fun y =>
            { y with
              inbox := y.inbox ++ [str]
              part := y.part || (y.started && str.gates.isEmpty && !str.needStart && x.covering.isEmpty) }
          t.issueCmd id (.strm (key s)) [] false)
    ∧ (∀ e, Traps (.start st a b k) u (fun s => s.region (s.rs a) = .error e) (fun s => s) fun _ => e)
    ∧ Traps (.start st a b k) u (fun s => regionOk s ∧ ¬ specOk s) ru (fun s => { cause := 0x04, tval := s.rs b })
    ∧ Traps (.start st a b k) u (fun s => regionOk s ∧ specOk s ∧ (ru s).regionFrozen ms = true) ru
        (fun _ => { cause := 0x19, tval := cfgTval 0x0C 0 0 0 })
    ∧ Waits (.start st a b k) u
        (fun s => regionOk s ∧ specOk s ∧ (ru s).regionFrozen ms = false ∧ 16 ≤ (ru s).thr.cmdCount) ru
    ∧ Waits (.start st a b k) u (fun s => starts s ∧ want s = (false, w s)) w
    ∧ Does (.start st a b k) u st (fun s => starts s ∧ want s = (true, w s) ∧ ((w s).hold ms).nextId = id)
        (fun s =>
          let t := (w s).hold ms
          let x := t.thr
          let run : Run := { slot := t.cur, masks := ms, bar := k.toNat, spec := s.rs b, feng := (ru s).thr.decl.feng,
                             asid := x.asid, sup := x.sup }
          let t := { t with nextId := id + 2, runs := t.runs.set id run }
          (t.setThr { x with bars := x.bars.set k.toNat (id :: x.bars.getD [] k.toNat) }).issueCmd (id + 1) (.start id) ms
            (ru s).thr.decl.feng)
    ∧ Traps (.ctok st a b) u (fun s => n s < 1 ∨ 64 < n s) (fun s => s) (fun s => { cause := 0x04, tval := s.rs b })
    ∧ Traps (.ctok st a b) u (fun s => 1 ≤ n s ∧ n s ≤ 64 ∧ 64 ≤ t s) (fun s => s) (fun s => { cause := 0x04, tval := s.rs a })
    ∧ Traps (.ctok st a b) u (fun s => inRange s ∧ t s < 32 ∧ s.thr.decl.posmask.testBit (t s) = false) (fun s => s)
        (fun s => { cause := 0x0D, tval := BitVec.ofNat 64 (2 ^ t s) })
    ∧ Traps (.ctok st a b) u (fun s => inRange s ∧ 32 ≤ t s ∧ s.thr.decl.feng = false) (fun s => s)
        (fun _ => { cause := 0x0D, tval := 0#64 })
    ∧ Waits (.ctok st a b) u (fun s => inRange s ∧ mine s ∧ 16 ≤ (cp s).thr.cmdCount) cp
    ∧ Does (.ctok st a b) u st (fun s => inRange s ∧ mine s ∧ (cp s).thr.cmdCount < 16 ∧ (cp s).nextId = id)
        (fun s => { cp s with nextId := id + 1 }.issueCmd id (.ctok (t s) (n s)) [] false)

/-- Frozen regions, queries and barriers (R244, R251 to R254): `gresume` lifts the freeze of every run of the region; `gdrain`
discards its runs and tokens; `gquery` returns the region's status, its flags, a port's stream status or a barrier's
status, a number of 8 or more being trap 0x04; an `sbar` of each kind enters the command stream; `swait` returns 0 where its
barrier has no run, waits while the run is not done, and then returns its status word with its flags in FFLAGS. A region operand
that fails its checks is its trap, and holds nothing. -/
def Obligations.RegionsAndBarriers : Prop :=
  ∀ (st c k : BitVec 3) (a b n : BitVec 5) (e : BitVec 2) (ms : Masks) (r : State → State) (x : Run) (no : Nat),
  let put := fun (s : State) (x : W64) => s.setThr (s.thr.putS b.toNat x)
  let p := fun (s : State) => s.pump s.cur
  let q := Instr.gquery st a b e
  let qu := usesGrid [a] [b]
  let ok := fun (s : State) => s.region (s.rs a) = .ok (ms, r s)
  let okq := fun (s : State) => (p s).region (s.rs a) = .ok (ms, r s)
  let held := fun (s : State) => (r s).hold ms
  let sbar := fun (i : Instr) (kind : State → CmdKind) =>
    Does i (usesGrid [] []) st (fun s => s.nextId = no) fun s =>
      let t := { s with nextId := no + 1 }
      (t.setThr { t.thr with cmds := t.thr.cmds ++ [{ id := no, kind := kind s, begun := true }] }).pump s.cur
  let wu := usesGrid [] [b]
  let wi := Instr.swait st b c k
  let run := fun (s : State) => ((p s).thr.bars.getD [] k.toNat).findSome? fun r => (p s).runs.get? r
  (∀ t, Traps (.gresume st a) (usesGrid [a] []) (fun s => s.region (s.rs a) = .error t) id fun _ => t)
    ∧ Does (.gresume st a) (usesGrid [a] []) st ok
        (fun s => ((r s).runsIn ms).foldl (fun s x => if x.2.frozen then s.resumeRun x.1 x.2 else s) (held s))
    ∧ (∀ t, Traps (.gdrain st a) (usesGrid [a] []) (fun s => s.region (s.rs a) = .error t) id fun _ => t)
    ∧ Does (.gdrain st a) (usesGrid [a] []) st ok
        (fun s => ((held s).drain ms (r s).thr.decl.feng none).pump (r s).cur)
    ∧ (e.toNat < 2 → ∀ t, Traps q qu (fun s => (p s).region (s.rs a) = .error t) p fun _ => t)
    ∧ (e.toNat = 0 → Does q qu st okq fun s => put (held s) ((r s).regionStatus ms))
    ∧ (e.toNat = 1 → Does q qu st okq fun s => put (held s) ((r s).regionFlags ms))
    ∧ (e.toNat = 2 → Does q qu st (fun s => (s.rs a).toNat < 8)
        fun s => put (p s) ((p s).port (courseOf (p s).cur * 8 + (s.rs a).toNat)).status)
    ∧ (e.toNat = 3 → Does q qu st (fun s => (s.rs a).toNat < 8)
        fun s => put (p s) ((((p s).begunRun (p s).cur (s.rs a).toNat).map Run.status).getD 0#64))
    ∧ (2 ≤ e.toNat → Traps q qu (fun s => 8 ≤ (s.rs a).toNat) p fun s => { cause := 0x04, tval := s.rs a })
    ∧ sbar (.sbarCfg st) (fun _ => .sbar 0) ∧ sbar (.sbarStrm st) (fun _ => .sbar 1) ∧ sbar (.sbarMem st c) (fun _ => .sbar 2)
    ∧ sbar (.sbarCond st n k) (fun s => .cond (s.thr.bars.getD [] k.toNat) (n.toNat + 1))
    ∧ Does wi wu st (fun s => run s = none) (fun s => (p s).setThr ((p s).thr.putS b.toNat 0#64))
    ∧ Waits wi wu (fun s => run s = some x ∧ x.done = false) p
    ∧ Does wi wu st (fun s => run s = some x ∧ x.done = true)
        (fun s =>
          let t := (p s).raise x.flags
          t.setThr (t.thr.putS b.toNat
            (BitVec.ofNat 64 (512 + b2n x.drn * 256 + b2n x.res * 128 + x.flags.toNat))))

/-- Token queues (R82, R255 to R257): `tokq` sends the low 32 bits of s(b), from the thread's die, to a queue of its partition
and waits while it holds 64 tokens; an address space that no partition owns has no queue: its token is dropped, counted, and an
asynchronous 0x10, its `qarm` trap 0x0C, and its `qdisarm` answers 0 (the model's choice, log 49). `qarm` arms a queue with a
checked template, a firing not yet issued withdrawn, and its oldest token fires; `qdisarm` disarms it, leaves its tokens
pending, and returns the template it was armed with. A queue number of 4,096 or more is trap 0x04. -/
def Obligations.TokenQueues : Prop :=
  ∀ (st c : BitVec 3) (a b : BitVec 5) (l : BitVec 1) (p nid : Nat) (ctl : W64) (v : State → State),
  let tu := usesGrid [a, b] []
  let no := fun (s : State) => (s.rs a).toNat
  let tq := fun (s : State) => s.tokq p (no s)
  let held := fun (s : State) => (tq s).toks.length + (tq s).held.length
  let part := fun (s : State) => s.partOfAsid s.thr.asid = some p
  let far := fun (i : Instr) (u : Uses) => Traps i u (fun s => 4096 ≤ no s) id fun s => { cause := 0x04, tval := s.rs a }
  let tmpl := fun (s : State) => (s.rs b).toNat
  let named := fun (s : State) => no s < 4096 ∧ tmpl s < 2 ^ 48 ∧ tmpl s % 128 = 0
  let loads := fun (s : State) => named s ∧ s.threadLoad (tmpl s) 8 = .ok (ctl, v s)
  let read := fun (s : State) => loads s ∧ (v s).partOfAsid (v s).thr.asid = some p
  let kind := ctl.toNat % 256
  let q := ctl.toNat / 2 ^ 24 % 256
  let armed := fun (s : State) => ((v s).unfire p (no s)).modTokq p (no s) fun x =>
    { x with tmpl := tmpl s, asid := (v s).thr.asid, armed := true, err := false, rerr := false, epay := 0, erst := 0 }
  far (.tokq st a b c l) tu ∧ far (.qarm st a b) tu ∧ far (.qdisarm st a b) (usesGrid [a] [b])
    ∧ Waits (.tokq st a b c l) tu (fun s => no s < 4096 ∧ part s ∧ 64 ≤ held s) id
    ∧ Does (.tokq st a b c l) tu st (fun s => no s < 4096 ∧ part s ∧ held s < 64)
        (fun s => s.sendToken p (no s) ((s.rs b).truncate 32) (some (dieOf (courseOf s.cur))))
    ∧ Does (.tokq st a b c l) tu st (fun s => no s < 4096 ∧ s.partOfAsid s.thr.asid = none ∧ s.nextId = nid)
        (fun s => { s with nextId := nid + 1 }.countUnowned.faultThread s.cur
          { cause := 0x10, rsts := 0x0B, tval := BitVec.ofNat 64 s.thr.asid, run := nid })
    ∧ Traps (.qarm st a b) tu (fun s => no s < 4096 ∧ 2 ^ 48 ≤ tmpl s) id (fun s => { cause := 0x09, tval := s.rs b })
    ∧ Traps (.qarm st a b) tu (fun s => no s < 4096 ∧ tmpl s < 2 ^ 48 ∧ tmpl s % 128 ≠ 0) id
        (fun s => { cause := 0x06, tval := s.rs b })
    ∧ (∀ t, Traps (.qarm st a b) tu (fun s => named s ∧ s.threadLoad (tmpl s) 8 = .error t) id fun _ => t)
    ∧ Traps (.qarm st a b) tu (fun s => loads s ∧ kind ≠ 2) v (fun s => { cause := 0x04, tval := s.rs b })
    ∧ Traps (.qarm st a b) tu (fun s => loads s ∧ kind = 2 ∧ (v s).partOfAsid (v s).thr.asid = none) v
        (fun s => { cause := 0x0C, tval := s.rs b })
    ∧ Traps (.qarm st a b) tu (fun s => read s ∧ kind = 2 ∧ ((v s).qctl p q).asid ≠ (v s).thr.asid) v
        (fun s => { cause := 0x0C, tval := s.rs b })
    ∧ Does (.qarm st a b) tu st (fun s => read s ∧ kind = 2 ∧ ((v s).qctl p q).asid = (v s).thr.asid)
        (fun s => (armed s).fireTokq p (no s))
    ∧ Does (.qdisarm st a b) (usesGrid [a] [b]) st (fun s => no s < 4096 ∧ part s)
        (fun s =>
          let t := (s.unfire p (no s)).setTokq p (no s)
            (if (tq s).armed = true then { tq s with armed := false, gen := (tq s).gen + 1 } else tq s)
          t.setThr (t.thr.putS b.toNat (if (tq s).armed then BitVec.ofNat 64 (tq s).tmpl else 0#64)))
    ∧ Does (.qdisarm st a b) (usesGrid [a] [b]) st (fun s => no s < 4096 ∧ s.partOfAsid s.thr.asid = none)
        (fun s => s.setThr (s.thr.putS b.toNat 0#64))

/-! ### Copies, remote operations, translations (chapters 11, 12, 14) -/

/-- `copy` and `drain` (R327, R337). `copy` sends one message, with its descriptor's address, channel, scope, acquire and
release, to the copy engines of the thread's port die, or waits while their inboxes are full; one to a port die that is being
reset ends with status 0x08 (R411); an address beyond 48 bits is trap 0x09, one not aligned to 64 bytes trap 0x06. `drain` waits
until every copy of its channel has been replied to; it raises the flags they gathered, and where no error is unreported it
returns 0 and the channel is empty; the first error not reported before is trap 0x10 with the reply's word 0 in s(b). -/
def Obligations.CopiesAndDrains : Prop :=
  ∀ (st c : BitVec 3) (a b : BitVec 5) (q l : BitVec 1) (n : BitVec 4) (nid k : Nat) (x : Copy),
  let i := Instr.copy st a c q l n
  let u := usesGrid [a] []
  let va := fun (s : State) => (s.rs a).toNat
  let pd := fun (s : State) => dieOf (courseOf s.cur)
  let msg := fun (s : State) => ({
    slot := some s.cur, job := s.thr.job, ord := s.thr.ordinal, chan := n.toNat, asid := s.thr.asid, sup := s.thr.sup,
    scope := c.toNat, acq := q == 1#1, rel := l == 1#1, pd := pd s, desc := va s } : Copy)
  let ok := fun (s : State) => va s < 2 ^ 48 ∧ va s % 64 = 0
  let sent := fun (s : State) (m : Copy) => { s with nextId := nid + 1, copies := s.copies.set nid m }
  let di := Instr.drain st b c n
  let du := usesGrid [] [b]
  let cs := fun (s : State) => s.channel s.cur n.toNat
  let all' := fun (s : State) => ∀ k ∈ cs s, k.2.replied = true
  let status := fun (y : Copy) => (y.res.getD (0, 0)).1
  let failed := fun (k : Nat × Copy) => !k.2.reported && status k.2 != 0
  let raised := fun (s : State) =>
    (cs s).foldl (fun s k => s.modCopy k.1 fun x => { x with flags := 0#7 }) (s.raise ((cs s).foldl (fun f k => f ||| k.2.flags) flNone))
  Traps i u (fun s => 2 ^ 48 ≤ va s) id (fun s => { cause := 0x09, tval := s.rs a })
    ∧ Traps i u (fun s => va s < 2 ^ 48 ∧ va s % 64 ≠ 0) id (fun s => { cause := 0x06, tval := s.rs a })
    ∧ Waits i u (fun s => ok s ∧ s.copyRoom (pd s) = false) id
    ∧ Does i u st (fun s => ok s ∧ s.copyRoom (pd s) = true ∧ s.dieDown (8 + pd s) = false ∧ s.nextId = nid) (fun s => sent s (msg s))
    ∧ Does i u st (fun s => ok s ∧ s.copyRoom (pd s) = true ∧ s.dieDown (8 + pd s) = true ∧ s.nextId = nid)
        (fun s => sent s { msg s with accepted := true, res := some (8, 0), completed := true })
    ∧ Waits di du (fun s => ¬ all' s) id
    ∧ Does di du st (fun s => all' s ∧ (cs s).find? failed = none)
        (fun s =>
          let t := raised s
          let t := { t with copies := t.copies.filter fun k => !anyB (fun j : Nat × Copy => j.1 == k.1) (cs s) }
          t.setThr (t.thr.putS b.toNat 0#64))
    ∧ Traps di du (fun s => all' s ∧ (cs s).find? failed = some (k, x))
        (fun s =>
          let t := (raised s).modCopy k fun y => { y with reported := true }
          t.setThr (t.thr.putS b.toNat (BitVec.ofNat 64 (status x % 256 + x.next % 2 ^ 48 * 2 ^ 8))))
        (fun _ => { cause := 0x10, rsts := status x,
                    tval := BitVec.ofNat 64 (if (x.res.getD (0, 0)).2 ≠ 0 then (x.res.getD (0, 0)).2 else x.desc) })

/-- Remote operations that return a value (R375, R378, R379): the first turn checks the address and puts the message, with its
operands, into its inbox (the atomic handlers' for `ramo`, the remote unit's for the others, R84), or waits while that is full;
then the thread waits for the reply; the reply's value lands in s(b), a reply with an error status is trap 0x15 with word 0 of
the reply in s(b). An address beyond 60 bits is trap 0x04, a misaligned one trap 0x06; `ramo` of a register that is no multiple
of 4, or of an entry of 256 or more, is trap 0x04 with a TVAL the spec leaves open, and a management function in user mode trap
0x0C. -/
def Obligations.RemoteOperationsReturn : Prop :=
  ∀ (st c z : BitVec 3) (a b : BitVec 5) (q l : BitVec 1) (id stat : Nat) (m : Rop) (v : W64),
  let ru : Uses := { sr := [a.toNat], sw := [b.toNat], noAtom := true }
  let fu : Uses := { sr := [a.toNat, b.toNat], sw := [b.toNat], noAtom := true }
  let mu := usesRamo a b
  let gone := fun (s : State) => { s with rops := s.rops.erase id }.setThr { s.thr with rop := none }
  let sends := fun (i : Instr) (u : Uses) (size : Nat) (addr : State → W64) (ok : State → Prop) (msg : State → Rop) =>
    let bad := fun (s : State) => s.thr.rop = none ∧ ok s ∧ 2 ^ 60 ≤ (addr s).toNat
    let odd := fun (s : State) => s.thr.rop = none ∧ ok s ∧ (addr s).toNat < 2 ^ 60 ∧ (addr s).toNat % size ≠ 0
    let fine := fun (s : State) => s.thr.rop = none ∧ ok s ∧ (addr s).toNat < 2 ^ 60 ∧ (addr s).toNat % size = 0
    Traps i u bad (fun s => s) (fun s => { cause := 0x04, tval := addr s })
      ∧ Traps i u odd (fun s => s) (fun s => { cause := 0x06, tval := addr s })
      ∧ Waits i u (fun s => fine s ∧ s.ropRoom (msg s) = false) (fun s => s)
      ∧ Waits i u (fun s => fine s ∧ s.ropRoom (msg s) = true ∧ s.nextId = id)
          (fun s => { s with nextId := id + 1, rops := s.rops.set id (msg s) }.setThr { s.thr with rop := some id })
  let ends := fun (i : Instr) (u : Uses) (ext : W64 → W64) =>
    let opened := fun (s : State) => s.thr.rop = some id ∧ s.rops.get? id = some m
    Waits i u (fun s => opened s ∧ m.replied = false) (fun s => s)
      ∧ Does i u st (fun s => opened s ∧ m.replied = true ∧ m.res = some (0, v))
          (fun s => (gone s).setThr ((gone s).thr.putS b.toNat (ext v)))
      ∧ (stat ≠ 0 → Traps i u (fun s => opened s ∧ m.replied = true ∧ m.res = some (stat, v))
          (fun s => (gone s).setThr ((gone s).thr.putS b.toNat (BitVec.ofNat 64 (stat % 256))))
          fun _ => { cause := 0x15, tval := m.addr, rsts := stat })
  let reg := fun (s : State) (k : Nat) => s.thr.readS (a.toNat + k)
  let odd' := fun (s : State) => s.thr.rop = none ∧ (a.toNat % 4 ≠ 0 ∨ a = 0#5 ∨ 256 ≤ (reg s 3).toNat)
  let barred := fun (fn : Nat) (s : State) =>
    s.thr.rop = none ∧ a.toNat % 4 = 0 ∧ a ≠ 0#5 ∧ (reg s 3).toNat < 256 ∧ (reg s 0).toNat < 2 ^ 60 ∧ (reg s 0).toNat % 8 = 0
      ∧ fn ≠ 0 ∧ s.thr.sup = false
  let ramo := fun (i : Instr) (fn : Nat) =>
    Traps i mu odd' (fun s => { s with freeCnt := s.freeCnt + 1 }) (fun s => { cause := 0x04, tval := Config.freeWord s.freeCnt })
      ∧ Traps i mu (barred fn) (fun s => s) (fun s => { cause := 0x0C, tval := reg s 0 }) ∧
    sends i mu 8 (fun s => reg s 0)
        (fun s => a.toNat % 4 = 0 ∧ a ≠ 0#5 ∧ (reg s 3).toNat < 256 ∧ (fn ≠ 0 → s.thr.sup = true))
        (fun s => { s.newRop (.handler fn) (reg s 0) 8 c (q == 1#1) (l == 1#1) with
          x := reg s 1, y := reg s 2, entry := (reg s 3).toNat })
      ∧ ends i mu (fun v => v)
  sends (.rld st a b c q z) ru (2 ^ (z.toNat % 4)) (fun s => s.rs a) (fun _ => True)
      (fun s => { s.newRop .load (s.rs a) (2 ^ (z.toNat % 4)) c (q == 1#1) false with code := z.toNat })
    ∧ ends (.rld st a b c q z) ru (loadExt z.toNat)
    ∧ sends (.rfadd st a b c q l) fu 8 (fun s => s.rs a) (fun _ => True)
        (fun s => { s.newRop .fadd (s.rs a) 8 c (q == 1#1) (l == 1#1) with x := s.rs b })
    ∧ ends (.rfadd st a b c q l) fu (fun v => v)
    ∧ ramo (.ramoInv st a b c q l) 0 ∧ ramo (.ramoBegin st a b c q l) 1 ∧ ramo (.ramoBody st a b c q l) 2
    ∧ ramo (.ramoValid st a b c q l) 3 ∧ ramo (.ramoClear st a b c q l) 4

/-- `rst` (R376, R387): a store without a token is posted; one that allocates a token waits until the remote unit has allocated
it, and then s(a + 1) holds its dependency word, the landing package over the token. A store that has completed by then is gone;
it is never sent twice. A dependency word that breaks its layout is trap 0x04, one of serial 0 names no token, and an s(a + 1)
that the form needs and that does not exist is trap 0x04 with a TVAL the spec leaves open. -/
def Obligations.RemoteStores : Prop :=
  ∀ (st c : BitVec 3) (a b : BitVec 5) (l e h : BitVec 1) (z : BitVec 2) (id tok : Nat) (m : Rop),
  let i := Instr.rst st a b c l e h z
  let two := (e == 1#1 || h == 1#1) && a.toNat != 0 && a.toNat != 31
  let u : Uses :=
    { sr := [a.toNat, b.toNat] ++ (if two && e == 1#1 then [a.toNat + 1] else []),
      sw := if two && h == 1#1 then [a.toNat + 1] else [], noAtom := true }
  let size := 2 ^ z.toNat
  let A := fun (s : State) => s.rs a
  let D := fun (s : State) => s.thr.readS (a.toNat + 1)
  let regsOk := (e = 0#1 ∧ h = 0#1) ∨ (a ≠ 0#5 ∧ a ≠ 31#5)
  let first := fun (s : State) => s.thr.rop = none ∧ regsOk
  let fine := fun (s : State) =>
    first s ∧ (A s).toNat < 2 ^ 60 ∧ (A s).toNat % size = 0 ∧ (e = 1#1 → (D s).toNat < 2 ^ 44)
  let msg := fun (s : State) =>
    { s.newRop .store (A s) size c false (l == 1#1) with
      x := BitVec.ofNat 64 ((s.rs b).toNat % 2 ^ (8 * size))
      dep := if e = 1#1 ∧ (D s).toNat % 2 ^ 20 ≠ 0 then some (D s) else none
      tok := if h = 1#1 then some 0 else none }
  let sent := fun (s : State) => { s with nextId := id + 1, rops := s.rops.set id (msg s) }
  Traps i u (fun s => s.thr.rop = none ∧ 2 ^ 60 ≤ (A s).toNat) (fun s => s) (fun s => { cause := 0x04, tval := A s })
    ∧ Traps i u (fun s => s.thr.rop = none ∧ (A s).toNat < 2 ^ 60 ∧ (A s).toNat % size ≠ 0) (fun s => s)
        (fun s => { cause := 0x06, tval := A s })
    ∧ Traps i u (fun s => first s ∧ (A s).toNat < 2 ^ 60 ∧ (A s).toNat % size = 0 ∧ e = 1#1 ∧ 2 ^ 44 ≤ (D s).toNat) (fun s => s)
        (fun s => { cause := 0x04, tval := D s })
    ∧ Waits i u (fun s => fine s ∧ s.ropRoom (msg s) = false) (fun s => s)
    ∧ (h = 0#1 → Does i u st (fun s => fine s ∧ s.ropRoom (msg s) = true ∧ s.nextId = id) sent)
    ∧ (h = 1#1 → Waits i u (fun s => fine s ∧ s.ropRoom (msg s) = true ∧ s.nextId = id)
        fun s => (sent s).setThr { s.thr with rop := some id })
    ∧ Waits i u (fun s => s.thr.rop = some id ∧ s.rops.get? id = some m ∧ m.tok.getD 0 = 0) (fun s => s)
    ∧ Traps i u (fun s => s.thr.rop = none ∧ (A s).toNat < 2 ^ 60 ∧ (A s).toNat % size = 0 ∧ ¬ regsOk) (fun s => { s with freeCnt := s.freeCnt + 1 })
        (fun s => { cause := 0x04, tval := Config.freeWord s.freeCnt })
    ∧ (tok ≠ 0 → Does i u st (fun s => s.thr.rop = some id ∧ s.rops.get? id = some m ∧ m.tok = some tok) fun s =>
        let gone := m.replied = true ∧ (m.res.getD (0, 0#64)).1 = 0
        { s with rops := if gone then s.rops.erase id else s.rops }.setThr { s.thr.putS (a.toNat + 1)
          (BitVec.ofNat 64 (m.addr.toNat / 2 ^ 48 % 4096 * 2 ^ 32 + tok % 2 ^ 32)) with rop := none })

/-- `tokwait` (R84, R372, R393): of no token, it waits for the thread's remote operations, then returns 0 or traps for the
first error not yet reported; a dependency word that breaks its layout is trap 0x04; one of serial 0 returns 0 (the model's
choice, log 41); a token this package still holds gives its outcome, and waits while it is in flight. For another token its
message goes through the remote unit's inbox, waiting while that is full; a message that is refused is trap 0x15 with its
status (log 37); then the watch's answer is waited for, 0 where the token landed and 0x0A where it failed. -/
def Obligations.TokenWaits : Prop :=
  ∀ (st : BitVec 3) (a b : BitVec 5) (n id outc : Nat) (r : Rop) (w : Watch) (e : TokEnt) (ok : Bool) (v : State → State),
  let i := Instr.tokwait st a b
  let u : Uses := { sr := [a.toNat], sw := [b.toNat], noAtom := true }
  let D := fun (s : State) => (s.rs a).toNat
  let put := fun (s : State) (x : Nat) => s.setThr (s.thr.putS b.toNat (BitVec.ofNat 64 x))
  let named := fun (s : State) => D s ≠ 0 ∧ D s < 2 ^ 44 ∧ D s % 2 ^ 20 ≠ 0
  let mine := fun (s : State) => s.heldTok (D s % 2 ^ 32)
  let far := fun (s : State) => named s ∧ mine s = none
  let msg := fun (s : State) => s.newRop .token (s.rs a) 8 0#3 false false
  Waits i u (fun s => D s = 0 ∧ s.ropsOut s.cur = true) (fun s => s)
    ∧ Does i u st (fun s => D s = 0 ∧ s.ropsOut s.cur = false ∧ s.firstError = none) (fun s => put s 0)
    ∧ Traps i u (fun s => D s = 0 ∧ s.ropsOut s.cur = false ∧ s.firstError = some (n, r))
        (fun s =>
          let t := { s with rops := s.rops.erase n }.freeTok n r
          t.setThr (t.thr.putS b.toNat (replyWord (r.res.getD (0, 0#64)).1 0)))
        (fun _ => { cause := ropCause (r.res.getD (0, 0#64)).1, tval := r.addr, rsts := (r.res.getD (0, 0#64)).1, again := true })
    ∧ Traps i u (fun s => 2 ^ 44 ≤ D s) (fun s => s) (fun s => { cause := 0x04, tval := s.rs a })
    ∧ Does i u st (fun s => D s ≠ 0 ∧ D s < 2 ^ 44 ∧ D s % 2 ^ 20 = 0) (fun s => put s 0)
    ∧ Does i u st (fun s => named s ∧ mine s = some e ∧ s.tokOutcome e = some (outc, v s)) (fun s => put (v s) outc)
    ∧ Waits i u (fun s => named s ∧ mine s = some e ∧ s.tokOutcome e = none) (fun s => s)
    ∧ Waits i u (fun s => far s ∧ s.thr.rop = none ∧ s.thr.watch = none ∧ s.ropRoom (msg s) = false) (fun s => s)
    ∧ Waits i u (fun s => far s ∧ s.thr.rop = none ∧ s.thr.watch = none ∧ s.ropRoom (msg s) = true ∧ s.nextId = id)
        (fun s => { s with nextId := id + 1, rops := s.rops.set id (msg s) }.setThr { s.thr with rop := some id })
    ∧ Waits i u (fun s => far s ∧ s.thr.rop = some n ∧ s.rops.get? n = some r ∧ r.replied = false) (fun s => s)
    ∧ (r.res = some (outc, 0#64) → outc ≠ 0 →
        Traps i u (fun s => far s ∧ s.thr.rop = some n ∧ s.rops.get? n = some r ∧ r.replied = true)
          (fun s =>
            let t := { s with rops := s.rops.erase n }.setThr { s.thr with rop := none }
            t.setThr (t.thr.putS b.toNat (replyWord outc 0)))
          fun _ => { cause := 0x15, tval := r.addr, rsts := outc })
    ∧ (w.st ≠ .answered true → w.st ≠ .answered false →
        Waits i u (fun s => far s ∧ s.thr.rop = none ∧ s.thr.watch = some id ∧ s.watches.get? id = some w) (fun s => s))
    ∧ Does i u st (fun s => far s ∧ s.thr.rop = none ∧ s.thr.watch = some id ∧ s.watches.get? id = some w
          ∧ w.st = .answered ok)
        (fun s => put ({ s with watches := s.watches.erase id }.setThr { s.thr with watch := none }) (if ok then 0 else 0x0A))

/-- Withdrawing translations (R312, R315): `tlbinv` names one address space of the partition's range, or all of them, and a range
of pages, and is outstanding until every holder in its scope has acknowledged; `tlbsync` waits for the thread's invalidations.
An address space outside the partition's range, or a non-zero one with all, is trap 0x04. -/
def Obligations.TranslationInvalidation : Prop :=
  ∀ (st c : BitVec 3) (a b : BitVec 5) (g : BitVec 1) (id : Nat),
  let i := Instr.tlbinv st a b c g
  let u : Uses := { sr := [a.toNat, b.toNat], priv := true, noAtom := true }
  let pg := fun (s : State) => (s.rs a).toNat
  let range := fun (s : State) => (s.part s.threadPart).pasid
  let base := fun (s : State) => (range s).toNat % 2 ^ 12
  let count := fun (s : State) => (range s).toNat / 2 ^ 16 % 2 ^ 13
  let asid := fun (s : State) => pg s % 4096
  let inside := fun (s : State) => base s ≤ asid s ∧ asid s < base s + count s
  let ok := fun (s : State) => pg s < 2 ^ 48 ∧ (g = 1#1 → asid s = 0) ∧ (g = 0#1 → inside s)
  let su : Uses := { priv := true, noAtom := true }
  Traps i u (fun s => ¬ ok s) (fun s => s) (fun s => { cause := 0x04, tval := s.rs a })
    ∧ Does i u st (fun s => ok s ∧ s.nextId = id)
        (fun s =>
          let n := (s.rs b).toNat
          let lo := if n = 0 then 0 else pg s / 4096 * 4096
          let hi := if n = 0 then 2 ^ 48 else min (2 ^ 48) (lo + n * 4096)
          let v : Inval :=
            { slot := s.cur, asidLo := if g = 1#1 then base s else asid s, asidN := if g = 1#1 then count s else 1, lo := lo,
              hi := hi, scope := c.toNat, waiting := holdersIn c.toNat (courseOf s.cur) }
          { s with nextId := id + 1, invals := s.invals.set id v }.setThr
            { s.thr with invs := s.thr.invs ++ [id], invScope := max s.thr.invScope c.toNat })
    ∧ Does (.tlbsync st) su st (fun s => ∀ n ∈ s.thr.invs, s.invals.get? n = none)
        (fun s => s.setThr { s.thr with invs := [], invScope := 0 })
    ∧ Waits (.tlbsync st) su (fun s => ∃ n ∈ s.thr.invs, s.invals.get? n ≠ none) (fun s => s)

/-! ### Events: the host, the queues, the jobs (chapters 02, 03, 04, 05, 16) -/

/-- Accesses of the host and of other agents (R7, R68, R69, R87, R92, R103, R171, R288, R293, R298, R403, R424 to R426): each
first brings the package out of STANDBY or PARKED, and one in a course's window that course; before the package runs none but those of
the recovery mailbox has an effect; a register that is written wakes a `wfe` that watches it (log 37). A TAILP write
appends, is refused, meets a full ring, is staged or held, and while one of the host link is held the link carries nothing more;
PCM3 is the last course-mask register; only a device register's word is stored by REGISTER_WRITE; an address-space root is
written by an agent whose own ASID lies in the partition that holds the entry's, and the host's write of it is ignored; an ASID
past 4,095 or a GiB past 63 names no entry. In recovery RCHK takes the chunks in order, and after RGO 1 the boot ROM verifies the
staged image, stores it and boots from it with every partition disabled, a die that fails to load being a choice the spec leaves
open. A vector register image is written where VOPEN opens the register, after what the thread's instructions still write; in a lane
quarter that the thread has given up the write reaches no register (log 34). PCAP is held in 1 to 32 on every slot of its die. A
host access is naturally aligned and of 1, 2, 4 or 8 bytes (R87; any other does nothing, log 8): memory is read and written, a
device's register answers, and a read of a hole, or of memory with an uncorrectable error, answers a value the spec leaves open
(log 8). -/
def Obligations.HostWritesAndAccess : Prop :=
  ∀ (wr : Bool) (p q k pa asid g slot off size die n : Nat) (v : W64) (t : State → State),
  let i := Instr.lintelHostAccess wr pa size v
  let up := fun (s : State) => { s with freeCnt := s.freeCnt + 2 }.awakeAt pa
  let on := fun (s : State) => s.boot.phase = .running
  let fits := (size = 1 ∨ size = 2 ∨ size = 4 ∨ size = 8) ∧ pa % size = 0
  let goes := fun (s : State) => s.hostHeld = false ∧ fits ∧ s.boot.phase = .running
  let free := fun (s : State) => { up s with hostRead := Config.freeWord s.freeCnt }
  let seen := fun (t : State) (pl : Place) => t.seenWrite pl.addr 8
  let tailp := Place.ctl p (0x10000 + 64 * q)
  let appends := fun (s : State) => s.awake.append p q none true v
  let ours := fun (s : State) => ∃ r, s.partOfAsid asid = some r ∧ inRange (s.part r).pasid n = true
  let root := Place.mgmt (0x10000 + 8 * asid)
  let recovers := fun (s : State) => s.boot.phase = .recovery
  let image := fun (s : State) => s.boot.staged
  let num := fun (s : State) (o n : Nat) => ofBytesLE (((image s).drop o).take n)
  let fails := fun (s : State) => (Config.freeWord s.freeCnt).getLsbD 0
  let booted := fun (s : State) => { s with
    freeCnt := s.freeCnt + 1
    parts := s.parts.map fun a => (a.1, { a.2 with pctl := a.2.pctl &&& ~~~1#64 })
    boot := { s.boot with
      store := some (image s)
      chunks := []
      phase := if fails s = true then .recovery else .running
      why := if fails s = true then 4 else s.boot.why
      meas := Config.sha256 ((image s).take (256 + num s 8 8))
      ver := num s 4 4 } }
  let regAt := (Place.win (slot / 4) (0x300000 + slot % 4 * 0x2000 + off)).addr
  let inside := fun (s : State) => on s ∧ off < 0x2000 ∧ off % 8 + size ≤ 8 ∧ (s.slot slot).back = false
    ∧ (s.slot slot).use = .thread
  let x := fun (s : State) => (s.slot slot).landNow s.now
  let opened := fun (s : State) => inside s ∧ ((s.slot slot).landNow s.now).switched = false
    ∧ ((x s).csrv csrVOPEN).getLsbD (off / 256) = true ∧ ((s.slot slot).landNow s.now).vm = none
  let bits := 8 * (off % 256)
  let mask : BitVec 2048 := BitVec.ofNat 2048 (2 ^ (8 * size) - 1) <<< bits
  let device := fun (s : State) => (∀ loc, (up s).placeOf pa ≠ .ram loc) ∧ (up s).placeOf pa ≠ .hole
  Occurs (.tailpWrite p q v) (fun s => s.hostHeld = true ∨ ¬ on s) (fun s => s)
    ∧ (∀ i ∈ [Instr.qstatWrite p q v, .pcmkWrite p k v, .pasidWrite p v, .registerWrite pa v, .asidRootEntryWrite asid none v,
        .asidRootEntryWrite asid (some n) v, .imapWrite g v, .vregImageWrite slot off size v], Occurs i (fun s => ¬ on s) fun s => s)
    ∧ (∀ n, Occurs (.tailpWrite p q v) (fun s => on s ∧ s.hostHeld = false ∧ appends s = .accepted n (t s)) fun s => seen (t s) tailp)
    ∧ Occurs (.tailpWrite p q v) (fun s => on s ∧ s.hostHeld = false ∧ (appends s = .refused (t s) ∨ appends s = .full (t s)))
        (fun s => seen (t s) tailp)
    ∧ Occurs (.tailpWrite p q v) (fun s => on s ∧ s.hostHeld = false ∧ appends s = .staged (t s))
        (fun s => if (s.queue p q).heldWrites.length < ((t s).queue p q).heldWrites.length then t s else seen (t s) tailp)
    ∧ Occurs (.qstatWrite p q v) on (fun s => seen (s.awake.modQueue p q fun x =>
        { x with badq := x.badq && !v.getLsbD 5, full := x.full && !v.getLsbD 2, badref := x.badref && !v.getLsbD 1 })
        (.ctl p (0x10000 + 64 * q + 16)))
    ∧ Occurs (.pcmkWrite p k v) (fun s => on s ∧ k < 4) (fun s => seen (s.awake.pcmWrite p k v) (.ctl p (8 * k)))
    ∧ Occurs (.pcmkWrite p k v) (fun _ => 4 ≤ k) (fun s => s)
    ∧ Occurs (.pasidWrite p v) (fun s => on s ∧
          (v &&& rangeMask).toNat % 2 ^ 12 + (v &&& rangeMask).toNat / 2 ^ 16 % 2 ^ 13 ≤ 4096
            ∧ ∀ a ∈ s.awake.otherParts p, rangesMeet a.pasid (v &&& rangeMask) = false)
        (fun s => seen (s.awake.modPart p fun a => { a with pasid := v &&& rangeMask }) (.ctl p 0x20))
    ∧ Occurs (.pasidWrite p v) (fun s => on s ∧
          (4096 < (v &&& rangeMask).toNat % 2 ^ 12 + (v &&& rangeMask).toNat / 2 ^ 16 % 2 ^ 13
            ∨ ∃ a ∈ s.awake.otherParts p, rangesMeet a.pasid (v &&& rangeMask) = true))
        (fun s => seen (s.awake.setConf p) (.ctl p 0x20))
    ∧ Occurs (.registerWrite pa v) (fun s => on s ∧ s.placeOf (pa - pa % 8) = .ctl p off ∧ 0x28 ≤ off ∧ off < 0x10000)
        (fun s => seen (s.awake.partWrite p off v (BitVec.allOnes 64)) (.ctl p off))
    ∧ Occurs (.registerWrite pa v)
        (fun s => ∀ r o, s.placeOf (pa - pa % 8) = .ctl r o → o < 0x28 ∨ 0x10000 ≤ o) (fun s => s)
    ∧ Occurs (.asidRootEntryWrite asid (some n) v) (fun s => on s ∧ asid < 4096 ∧ ours s)
        (fun s => seen { s.awake with artb := s.artb.set asid (v &&& csrMask csrPTBASE) } root)
    ∧ Occurs (.asidRootEntryWrite asid (some n) v) (fun s => on s ∧ asid < 4096 ∧ ¬ ours s) (fun s => seen s.awake root)
    ∧ Occurs (.asidRootEntryWrite asid none v) (fun s => on s ∧ asid < 4096) (fun s => seen s.awake root)
    ∧ (∀ who, Occurs (.asidRootEntryWrite asid who v) (fun _ => 4096 ≤ asid) (fun s => s))
    ∧ Occurs (.imapWrite g v) (fun s => on s ∧ g < 64) (fun s => seen { s.awake with imap := s.imap.set g (v &&& 7#64) } (.mgmt (8 * g)))
    ∧ Occurs (.imapWrite g v) (fun _ => 64 ≤ g) (fun s => s)
    ∧ Occurs (.rchkWrite v) (fun s => ¬ recovers s) (fun s => seen s (.mgmt 8))
    ∧ Occurs (.rchkWrite v) (fun s => recovers s ∧ v.toNat = s.boot.chunks.length)
        (fun s => seen { s with boot := { s.boot with rchk := v, chunks := s.boot.chunks ++ [s.boot.buffer] } } (.mgmt 8))
    ∧ Occurs (.rchkWrite v) (fun s => recovers s ∧ v.toNat ≠ s.boot.chunks.length)
        (fun s => seen { s with boot := { s.boot with rchk := v, why := 5 } } (.mgmt 8))
    ∧ Occurs (.rgoWrite v) (fun s => ¬ recovers s) (fun s => seen s (.mgmt 16))
    ∧ Occurs (.rgoWrite v) (fun s => recovers s ∧ v ≠ 1#64) (fun s => seen { s with boot := { s.boot with rgo := v } } (.mgmt 16))
    ∧ Occurs (.rgoWrite 1#64) recovers
        (fun s => seen { s with boot := { s.boot with rgo := 1#64, phase := .verifying } } (.mgmt 16))
    ∧ Occurs .powerOnBoot (fun s => s.boot.phase = .verifying)
        (fun s => match imageWhy (image s) with
          | some why => { s with boot := { s.boot with phase := .recovery, why := why, chunks := [] } }
          | none => booted s)
    ∧ Occurs (.vregImageWrite slot off size v) (fun s => opened s ∧ (x s).holdsQuarter 0 (off % 256) = true)
        (fun s => ((s.awakeAt regAt).setSlot slot
          ((x s).writeOver 0 (off / 256) mask (v.zeroExtend 2048 <<< bits))).seenWrite regAt size)
    ∧ Occurs (.vregImageWrite slot off size v) (fun s => opened s ∧ (x s).holdsQuarter 0 (off % 256) = false)
        (fun s => (s.awakeAt regAt).seenWrite regAt size)
    ∧ Occurs (.vregImageWrite slot off size v)
        (fun s => inside s ∧ ((x s).csrv csrVOPEN).getLsbD (off / 256) = false)
        (fun s => s.awakeAt regAt)
    ∧ Occurs (.vregImageWrite slot off size v) (fun _ => ¬ (off < 0x2000 ∧ off % 8 + size ≤ 8)) (fun s => s)
    ∧ Occurs (.pcapUpdate die n) (fun _ => die < 8) (fun s =>
        (rangeFrom (die * 128) 128).foldl (fun s m => s.modSlot m fun x => { x with pcap := min 32 (max 1 n) }) s)
    ∧ Occurs (.pcapUpdate die n) (fun _ => 8 ≤ die) (fun s => s)
    ∧ Occurs i (fun s => s.hostHeld = true ∨ ¬ fits) up
    ∧ Occurs i (fun s => goes s ∧ (∃ loc, (up s).placeOf pa = .ram loc) ∧ wr = true) (fun s => (up s).writePhys pa v.toNat size)
    ∧ Occurs i (fun s => goes s ∧ (∃ loc, (up s).placeOf pa = .ram loc) ∧ wr = false ∧ (up s).goodPhys pa size = true)
        (fun s => { up s with hostRead := BitVec.ofNat 64 ((up s).readPhys pa size) })
    ∧ Occurs i (fun s => goes s ∧ (∃ loc, (up s).placeOf pa = .ram loc) ∧ wr = false ∧ (up s).goodPhys pa size = false) free
    ∧ Occurs i (fun s => goes s ∧ (up s).placeOf pa = .hole ∧ wr = true) up
    ∧ Occurs i (fun s => goes s ∧ (up s).placeOf pa = .hole ∧ wr = false) free
    ∧ Occurs i (fun s => goes s ∧ device s ∧ (up s).placeOf pa ≠ .spill ∧ wr = true)
        (fun s => ((up s).devWrite none ((up s).placeOf pa) v size).getD (up s))
    ∧ Occurs i (fun s => goes s ∧ device s ∧ (up s).placeOf pa ≠ .spill ∧ wr = false)
        (fun s => { up s with hostRead := (up s).devRead ((up s).placeOf pa) size })
    ∧ Occurs i (fun s => s.hostHeld = false ∧ fits ∧ s.boot.phase ≠ .running ∧ wr = true
          ∧ mgmtBase ≤ pa ∧ pa < mgmtBase + 0x100000)
        (fun s => ((up s).devWrite none (.mgmt (pa - mgmtBase)) v size).getD (up s))
    ∧ Occurs i (fun s => s.hostHeld = false ∧ fits ∧ s.boot.phase ≠ .running ∧ wr = false
          ∧ mgmtBase ≤ pa ∧ pa < mgmtBase + 0x100000)
        (fun s => { up s with hostRead := (up s).devRead (.mgmt (pa - mgmtBase)) size })
    ∧ Occurs i (fun s => s.hostHeld = false ∧ fits ∧ s.boot.phase ≠ .running ∧ wr = true
          ∧ (pa < mgmtBase ∨ mgmtBase + 0x100000 ≤ pa)) up
    ∧ Occurs i (fun s => s.hostHeld = false ∧ fits ∧ s.boot.phase ≠ .running ∧ wr = false
          ∧ (pa < mgmtBase ∨ mgmtBase + 0x100000 ≤ pa)) free
    ∧ Occurs i (fun s => goes s ∧ (up s).placeOf pa = .spill) up

/-- Jobs (R67, R69, R70 to R74, R88, R96 to R98, R417, R419): what moves a queue's jobs on, from their acceptance to their
retirement. What waits at a queue is performed; the job at HEADC becomes active, its record read and checked; a slice
dispatches the lowest ordinal of the job whose turn it is, at the highest effective priority, on the course it picks; a queue
that has had work for 10 ms without a dispatch is lifted; a DRY slice steals; a job that has ended retires, its status written,
its successors counted and its token sent; PROGC passes the retired jobs; a partition's queues are switched out with their
state saved, and in. That an unreadable record retires as malformed at its failing word is the model's choice (log 17), and so
is the reading of a refused graph append's record at its retirement (log 33). -/
def Obligations.JobsMoveOn : Prop :=
  ∀ (p q die job n c lvl : Nat) (j : Job) (ch : Chunk) (ws : List W64),
  let idle := fun (i : Instr) (P : State → Prop) => Occurs i P fun s => s
  let rq := fun (s : State) => s.readQctls p
  let ready := fun (s : State) =>
    ∀ j, s.jobAt p q (countGap (s.qword p q qHEADC) 1) = some j → j.trigDone = true ∧ recOvl ws = true
  let out := fun (k : Nat) => ∃ d, j.chunks.get? k = some d ∧ d.st = .dry
  let course := fun (s : State) (k : Nat) => s.stealsIn j k && (s.pickCourse j k).isSome
  let retired := fun (s : State) =>
    let t := { s with jobs := s.jobs.erase job }.putStatus j.p j.asid j.ref.toNat j.status
    let t := t.modQueue j.p j.q fun x =>
      { x with
        retired := match j.pos with | some n => x.retired ++ [n] | none => x.retired
        st := if x.st = .run && !anyB (fun k => k.p == j.p && k.q == j.q && k.pos.isSome) t.jobs.vals then
            (if t.qword j.p j.q qTAILC = t.qword j.p j.q qHEADC then .off else .held)
          else x.st }
    (t.sendIrq j.p j.q).advanceProgc j.p j.q (t.queue j.p j.q).retired.length
  let ends := fun (s : State) => s.jobs.get? job = some j ∧ s.jobDone job j = true ∧ (s.part j.p).swout = false ∧ j.ref ≠ 0#64
  let after := fun (s : State) (ws : List W64) => (retired s).decSuccessors j.p j.asid ws (j.status.toNat % 256 ≠ 1)
  let token := fun (ws : List W64) (s : State) => s.sendToken j.p (recCtq ws) (BitVec.ofNat 32 (recCtpay ws))
  Occurs (.append p q) always
      (fun s => (s.drainStaged p q).acceptWaiting p q ((s.drainStaged p q).queue p q).waiting.length)
    ∧ idle (.jobActivate p q) (fun s => s.partWorks p = false)
    ∧ Occurs (.jobActivate p q) (fun s => s.partWorks p = true ∧
          ((s.readQctl p q).1.en = false ∨ countGap ((s.readQctl p q).2.qword p q qTAILC) ((s.readQctl p q).2.qword p q qHEADC) = 0))
        (fun s => (s.readQctl p q).2)
    ∧ (∀ (cfg : QCtl) (ref : W64) (a : State → State), Occurs (.jobActivate p q)
        (fun s => s.partWorks p = true ∧ s.readQctl p q = (cfg, a s) ∧ cfg.en = true
          ∧ countGap ((a s).qword p q qTAILC) ((a s).qword p q qHEADC) ≠ 0
          ∧ (a s).readRecord p q cfg ((a s).qword p q qHEADC) = (ref, ws, none) ∧ ready (a s))
        (fun s =>
          let h := (a s).qword p q qHEADC
          let b := (a s).setQword p q qHEADC ((h + 1) % 2 ^ 64)
          let j := b.checkJob { p := p, q := q, pos := some h, ref := ref, asid := cfg.asid, words := ws }
          let t := { b with nextId := b.nextId + 1, jobs := b.jobs.set b.nextId j }
          (t.modQueue p q fun x => { x with st := .run }).codeInvalidate cfg.asid))
    ∧ (∀ (cfg : QCtl) (ref : W64) (a : State → State), Occurs (.jobActivate p q)
        (fun s => s.partWorks p = true ∧ s.readQctl p q = (cfg, a s) ∧ cfg.en = true
          ∧ countGap ((a s).qword p q qTAILC) ((a s).qword p q qHEADC) ≠ 0
          ∧ (a s).readRecord p q cfg ((a s).qword p q qHEADC) = (ref, ws, some n) ∧ ready (a s))
        (fun s =>
          let h := (a s).qword p q qHEADC
          let b := (a s).setQword p q qHEADC ((h + 1) % 2 ^ 64)
          let j : Job := { p := p, q := q, pos := some h, ref := ref, asid := cfg.asid, words := ws,
                           preset := some (statusWord 3 0 ((recMalformed ws).getD n) 0) }
          let t := { b with nextId := b.nextId + 1, jobs := b.jobs.set b.nextId j }
          (t.modQueue p q fun x => { x with st := .run }).codeInvalidate cfg.asid))
    ∧ idle (.iterationDispatch die p) (fun s => s.partWorks p = false ∨ 8 ≤ die ∨ s.dieDown die = true)
    ∧ (8 > die → Occurs (.iterationDispatch die p)
        (fun s => s.partWorks p = true ∧ s.dieDown die = false
          ∧ ((rq s).queuesWithWork die p).foldl (fun m q => max m ((rq s).effPri p q)) 0 = lvl
          ∧ nextTurn (((rq s).part p).turns.get? (die * 16 + lvl))
              (((rq s).queuesWithWork die p).filter fun q => (rq s).effPri p q == lvl) = some q
          ∧ (rq s).jobToRun die p q = some (n, j) ∧ j.chunks.get? die = some ch ∧ (rq s).pickCourse j die = some c)
        (fun s =>
          let t := ((rq s).place n j ch.lo c).modJob n fun j =>
            { j with
              dispatched := j.dispatched + 1
              chunks := j.chunks.set die { ch with lo := ch.lo + 1, st := if ch.lo + 1 < ch.hi then ch.st else .dry } }
          let t := t.modPart p fun a => { a with turns := a.turns.set (die * 16 + lvl) q }
          let t := t.bumpQword p q qITERC
          let t := if (t.queue p q).lifted then t.bumpQword p q qAGEC else t
          t.modQueue p q fun x => { x with lifted := false, aged := 0, ageSince := none }))
    ∧ Occurs (.agingTimerExpiry p q)
        (fun s => s.partWorks p = true ∧ (s.qctl p q).en = true ∧ (s.qctl p q).agen = true ∧ (s.qctl p q).pri < 7
          ∧ (s.queue p q).lifted = false ∧ 12000000 ≤ s.queueAge p q ∧ ∃ d < 8, (s.jobToRun d p q).isSome = true)
        (fun s => s.modQueue p q fun x => { x with lifted := true })
    ∧ idle (.agingTimerExpiry p q) (fun s => s.queueAge p q < 12000000 ∨ (s.qctl p q).agen = false ∨ 7 ≤ (s.qctl p q).pri)
    ∧ Occurs (.steal die job) (fun s => s.jobs.get? job = some j ∧ out die ∧ ∀ k < die, out k → course s k = false)
        (fun s => s.modJob job (·.steal die (course s die) (s.stealsIn j)))
    ∧ idle (.steal die job) (fun s => s.jobs.get? job = some j ∧ (¬ out die ∨ ∃ k < die, out k ∧ course s k = true))
    ∧ idle (.steal die job) (fun s => s.jobs.get? job = none)
    ∧ Occurs (.earlyTrigger job) always (fun s => s.modJob job fun j => if j.trigHolds then { j with trigDone := true } else j)
    ∧ idle (.jobRetire job) (fun s => s.jobs.get? job = some j ∧ (s.jobDone job j = false ∨ (s.part j.p).swout = true))
    ∧ (j.pos = some n → recCte j.words = false → Occurs (.jobRetire job) ends (fun s => after s j.words))
    ∧ (j.pos = some n → recCte j.words = true → Occurs (.jobRetire job) ends
        (fun s => if j.status.toNat % 256 = 1 then token j.words (after s j.words) else after s j.words))
    ∧ (j.pos = none → Occurs (.jobRetire job)
        (fun s => ends s ∧ ({ s with jobs := s.jobs.erase job }.recordWords holdWalker j.asid j.ref.toNat).1 = ws)
        (fun s => if recCte ws = true ∧ j.status.toNat % 256 = 1 then token ws (after s ws) else after s ws))
    ∧ Occurs (.progcAdvance p q) (fun s => (s.part p).swout = false)
        (fun s => ((s.sendIrq p q).advanceProgc p q (s.queue p q).retired.length).sendIrq p q)
    ∧ Occurs (.progcAdvance p q) (fun s => (s.part p).swout = true) (fun s => s.sendIrq p q)
    ∧ Occurs (.partitionSwitchOut p) (fun s => (s.part p).swout = false ∧ (s.part p).qte = true)
        (fun s => (rangeFrom 0 256).foldl (fun s q => s.saveQueue p q) (s.modPart p fun a => { a with swout := true }))
    ∧ Occurs (.partitionSwitchOut p) (fun s => (s.part p).swout = false ∧ (s.part p).qte = false)
        (fun s => s.modPart p fun a => { a with swout := true })
    ∧ idle (.partitionSwitchOut p) (fun s => (s.part p).swout = true)
    ∧ Occurs (.partitionSwitchIn p) (fun s => (s.part p).swout = true)
        (fun s => (s.part p).queues.keys.foldl (fun s q => s.drainStaged p q) (s.modPart p fun a => { a with swout := false }))
    ∧ idle (.partitionSwitchIn p) (fun s => (s.part p).swout = false)

/-- Templates and tokens (R14, R77 to R83): a firing reads its template, all but its USER word, and where it is well formed
sends its copy message, for a token with its payload's multiples added, or waits while the copy engines' inboxes are full; a
malformed or unreadable template sends none, and a tainted graph firing ends without one; a token's firing takes its token from
the queue as it is issued, and the next may fire. A graph firing ends in its STATUS, its successors and its token; a token's
firing in its token, or disarms the queue that is still in the arming that fired it, and else is counted; a token arrives while
its queue has room, and fires an armed one. The model's choices: a token's firing does not look at TAINT (log 30), an
unreadable template is malformed, and a firing's token leaves its queue as it is issued (log 31). -/
def Obligations.TemplatesAndTokens : Prop :=
  ∀ (f p t r n : Nat) (x : Firing) (ws : List W64) (v : BitVec 32) (die : Option Nat) (rest : List (BitVec 32 × Option Nat)),
  let idle := fun (i : Instr) (P : State → Prop) => Occurs i P fun s => s
  let due := fun (s : State) => s.firings.get? f = some x ∧ x.sent = false
  let words := fun (s : State) => s.recordWords holdWalker x.asid x.ref.toNat
  let read := fun (s : State) => words s = (ws, none)
  let pd := recW ws 6 % 8
  let tainted := x.tq = none ∧ recTaint ws = true ∧ recRunerr ws = false
  let fires := fun (s : State) => due s ∧ read s ∧ tmplMalformed ws = none ∧ ¬ tainted
  let issued := fun (s : State) (y : Firing) =>
    let s := { s with firings := s.firings.set f { y with sent := true } }
    match x.tq with
    | some t => (s.modTokq x.p t fun q => { q with toks := q.toks.drop 1 }).fireTokq x.p t
    | none => s
  let msg := fun (s : State) => ({
    slot := none, firing := some f, asid := (s.qctl x.p (recQnum ws)).asid, sup := false, pd := pd, desc := recW ws 2,
    sadj := x.payload * recW ws 3 % 2 ^ 64, dadj := x.payload * recW ws 4 % 2 ^ 64, xadj := x.payload * recW ws 5 % 2 ^ 64 } : Copy)
  let sent := fun (s : State) (c : Copy) =>
    issued { s with nextId := n + 1, copies := s.copies.set n c } { x with words := ws }
  let gone := fun (s : State) => { s with firings := s.firings.erase f }
  let after := fun (s : State) => ((gone s).putStatus x.p x.asid x.ref.toNat x.status).decSuccessors x.p x.asid x.words
    (x.status.toNat % 256 ≠ 1)
  idle (.templateFire f) (fun s => s.firings.get? f = none ∨ (s.firings.get? f = some x ∧ x.sent = true))
    ∧ (∀ e, Occurs (.templateFire f) (fun s => due s ∧ words s = (ws, some e))
        (fun s => issued s { x with words := ws, result := some 1 }))
    ∧ Occurs (.templateFire f) (fun s => due s ∧ read s ∧ (tmplMalformed ws).isSome = true)
        (fun s => issued s { x with words := ws, result := some 1 })
    ∧ Occurs (.templateFire f) (fun s => due s ∧ read s ∧ tmplMalformed ws = none ∧ tainted)
        (fun s => issued s { x with words := ws, result := some 0 })
    ∧ idle (.templateFire f) (fun s => fires s ∧ s.copyRoom pd = false)
    ∧ Occurs (.templateFire f) (fun s => fires s ∧ s.copyRoom pd = true ∧ s.nextId = n ∧ s.dieDown (8 + pd) = false)
        (fun s => sent s (msg s))
    ∧ Occurs (.templateFire f) (fun s => fires s ∧ s.copyRoom pd = true ∧ s.nextId = n ∧ s.dieDown (8 + pd) = true)
        (fun s => sent s { msg s with accepted := true, res := some (8, 0), completed := true })
    ∧ idle (.templateGraphComplete f) (fun s => s.firings.get? f = some x ∧ (x.tq.isSome = true ∨ x.result = none))
    ∧ (x.tq = none → x.result = some r → Occurs (.templateGraphComplete f) (fun s => s.firings.get? f = some x)
        (fun s => if recCte x.words = true ∧ x.status.toNat % 256 ≠ 4 then
            (after s).sendToken x.p (recCtq x.words) (BitVec.ofNat 32 (recCtpay x.words))
          else after s))
    ∧ (x.tq = some t → x.result = some 0 → Occurs (.tokenFiringComplete f) (fun s => s.firings.get? f = some x)
        (fun s => if recCte x.words = true then
            (gone s).sendToken x.p (recCtq x.words) (BitVec.ofNat 32 (recCtpay x.words + x.payload))
          else gone s))
    ∧ (x.tq = some t → x.result = some r → r ≠ 0 → Occurs (.tokenFiringComplete f) (fun s => s.firings.get? f = some x)
        (fun s =>
          let q := s.tokq x.p t
          if q.armed = true ∧ q.gen = x.gen then
            ((gone s).unfire x.p t).setTokq x.p t
              { q with armed := false, gen := q.gen + 1, err := true, epay := x.payload, erst := r }
          else (gone s).bumpPeerr x.p))
    ∧ idle (.tokenFiringComplete f) (fun s => s.firings.get? f = some x ∧ (x.tq = none ∨ x.result = none))
    ∧ idle (.tokenArrival p t) (fun s => (s.tokq p t).held = [] ∨ 64 ≤ (s.tokq p t).toks.length)
    ∧ Occurs (.tokenArrival p t) (fun s => (s.tokq p t).held = (v, die) :: rest ∧ (s.tokq p t).toks.length < 64)
        (fun s =>
          let q := s.tokq p t
          let u := s.setTokq p t { q with held := rest, toks := q.toks ++ [v] }
          (if q.armed then u.awake else u).fireTokq p t)

/-! ### Events: the grid, the engines, the streams (chapters 08 to 10) -/

/-- Positions and engines (R198 to R202, R212, R220 to R223, R228, R245, R267 to R272): a token moves over one route; an idle
position is gated and a waiting one wakes; a brick, a tile or an engine acts only within a live run that is not frozen. For
each event one clause or more gives its own effect on conditions of the state alone: a data token enters the FIFO its output
leads to, or the spill ring behind that FIFO, or returns from the ring; a firing enters an empty pipeline; a mode advances; a
node ends; a tile writes, reads, appends, removes or combines; a control token is delivered; a frame is computed and emitted; a
pass ends; a row of weights is loaded, a needed one that has faulted freezes the region, and the buffers swap. What ROWP holds
between blocks and when a weight fault is taken are the model's choice (log 29). -/
def Obligations.PositionsAndEngines : Prop :=
  ∀ (c pos out fifo slot buf r a k' f o left w code : Nat) (t key val : Tok) (rest : List Tok) (ring : Spill) (cmd : Cmd)
    (rs : List Nat) (ts : List Tok) (x y : Fe) (heads : Map Tok) (back : List (Tok × Option Nat)) (ws : List W64),
  let k := posKey c pos
  let idle := fun (i : Instr) (P : State → Prop) => Occurs i P fun s => s
  -- the head of data output `out`, and the input FIFO it leads to, with its clocks running and no gateway before it
  let leaves := fun (s : State) => out < 4 ∧ swOut (s.pos k).sw out = o ∧ 1 ≤ o ∧ o ≤ 7
    ∧ (s.pos k).headFor o (outConsumer out) = some t ∧ s.runFrozen (s.pos k).run = false ∧ s.posGated k = false
    ∧ s.leadOf c pos out = .fifo k' f ∧ s.gateOn (k / 32) (k' / 32) = false ∧ s.gates.getD [] (k' * 8 + f) = []
    ∧ s.courseTakes (k' / 32) = true ∧ s.runFrozen (s.pos k').run = false ∧ s.posGated k' = false
    ∧ (s.pos k').ingress.getD [] f = []
  let taken := fun (s : State) => (s.modPos k fun x => x.take pos o (outConsumer out)).movedAt k
  let there := fun (s : State) => (s.pos k').fifo.getD [] f
  let returns := fun (s : State) => s.spillKey k fifo = some r ∧ s.spills.getD {} r = ring
    ∧ ((s.pos k).fifo.getD [] fifo).length < 8 ∧ s.runFrozen (s.pos k).run = false ∧ s.posGated k = false
  let returned := fun (s : State) (t : Tok) =>
    ({ s with spills := s.spills.set r { ring with recs := back } }.modPos k fun x =>
      { x with fifo := x.fifo.set fifo ((s.pos k).fifo.getD [] fifo ++ [t]) }).movedAt k
  let far := fun (s : State) (n : Nat) => s.engWords (s.spillCtx k) (spillAddr (s.ringTile r) n) 16
  let settled := fun (s : State) => (s.pos k).emitInit.retire fun t => decide (t ≤ s.now)
  let runs := fun (s : State) => s.runFrozen (s.pos k).run = false ∧ s.posGated k = false
  let tile := fun (s : State) (m : Nat) => isBrick pos = false ∧ s.nodeActs k = true ∧ tiMode (s.pos k).node = m
  let free := fun (s : State) => (s.pos k).outs.getD [] 0 = []
  let writes := fun (s : State) (acc : Bool) =>
    let p := s.tilePut k 0 ((s.pos k).gen.getD 0 0) t acc 16
    ((p.1.modPos k fun y =>
      let y := y.tileTake (k % 32) 0
      { y with gen := y.gen.set 0 ((s.pos k).gen.getD 0 0 + 1), wroteLast := true }).runFlags (s.pos k).run p.2).movedAt k
  let reads := fun (s : State) =>
    let tok := s.tileGet k 1 ((s.pos k).gen.getD 0 1)
    (s.modPos k fun y =>
      { y with outs := y.outs.set 0 [tok], gen := y.gen.set 1 ((s.pos k).gen.getD 0 1 + 1), wroteLast := false }).movedAt k
  let rmw := fun (s : State) => isBrick pos = false ∧ tiMode (s.pos k).node = 4 ∧ s.nodeActs k = true
    ∧ (s.pos k).tileHead 0 = some key ∧ (s.pos k).tileHead 1 = some val ∧ key.eos = false ∧ val.eos = false
  let combined := fun (s : State) (f : List Nat → Pos → Pos) =>
    let p := s.rmwLanes k key val 0 16
    ((p.1.modPos k fun y => f p.2.1 ((y.tileTake pos 0).tileTake pos 1)).runFlags (s.pos k).run p.2.2).movedAt k
  let sends := fun (s : State) => ((s.pump slot).slot slot).switched = false ∧ cmd.kind = .ctok w left
    ∧ ((s.pump slot).slot slot).cmds.find? (fun c => c.begun && (match c.kind with | .ctok _ _ => true | _ => false)) = some cmd
  let sent := fun (s : State) => if left ≤ 1 then (s.dropCmd slot cmd.id).pump slot else s.setCmd slot { cmd with kind := .ctok w (left - 1) }
  let tk := posKey (courseOf slot) (w % 32)
  let works := fun (s : State) => s.feActs c = true ∧ s.fe c = x
  let fw := x.words
  let ps := fePass fw x.pass
  let b := x.bufs.getD {} x.bufNo
  let over' := fun (s : State) (y : Fe) =>
    let fin := y.mayEnd
    let next := y.nextPass (y.pass + 1) 8
    let pn := fePass fw next
    let due := fePcto fw && !y.outC.isEmpty
    let t := (s.setFe c { y with
      pass := if fin then y.pass else next
      rowp := if fin || { y with pass := next }.bufNo = y.bufNo then y.rowp
        else (y.bufs.getD { next := 0 } { y with pass := next }.bufNo).next
      maxa := if !fin && paMr pn = 1 then 0 else y.maxa
      maxb := if !fin && paMr pn = 2 then 0 else y.maxb
      ended := fin
      ctlAfter := if due then y.ctlAfter ++ [y.outC.length] else y.ctlAfter
      outC := if fin && feEmits fw then y.outC ++ [eosTok] else y.outC }).feMoved c
    if fePcto fw && !due then t.feCtlOut c else t
  let clears := fun (s : State) => s.setFe c (if feCtla fw then x else { x with ctlIn := 0 })
  let lb := x.bufs.getD {} buf
  let loads := fun (s : State) => works s ∧ lb.loading = true ∧ lb.fault = none ∧ lb.next < x.rowsDue
  let loaded := fun (s : State) (row : Option (BitVec 4096)) => s.modFe c fun y => { y with
    bufs := y.bufs.set buf { lb with next := lb.next + 1, rows := match row with | some r => lb.rows.set lb.next r | none => lb.rows }
    rowp := if buf = x.bufNo then max y.rowp (lb.next + 1) else y.rowp }
  Occurs (.tokenHop c pos out) (fun s => leaves s ∧ (there s).length < 8 ∧ s.ringEmpty k' f = true)
      (fun s => taken ((s.modPos k' fun x => { x with fifo := x.fifo.set f (there s ++ [t]) }).movedAt k'))
    ∧ Occurs (.tokenHop c pos out) (fun _ => out < 4) (fun s => s.hopOut c pos out false)
    ∧ Occurs (.tokenHop c pos out) (fun _ => 5 ≤ out ∧ out ≤ 8) (fun s => s.hopCtl c pos (out - 5))
    ∧ Occurs (.tokenHop c pos 9) always (fun s => s.hopPortC c)
    ∧ Occurs (.tokenHop c pos 10) always (fun s => s.hopFecin c)
    ∧ (posPort pos = none → idle (.tokenHop c pos 4) always)
    ∧ idle (.tokenHop c pos out) (fun _ => 11 ≤ out)
    ∧ Occurs (.spillOut c pos out)
        (fun s => leaves s ∧ s.spillKey k' f = some r ∧ s.spills.getD {} r = ring ∧ (8 ≤ (there s).length ∨ ring.recs ≠ [])
          ∧ (ring.recs.filter fun e => e.2.isNone).length < spillNear)
        (fun s => taken (State.movedAt { s with spills := s.spills.set r { ring with recs := ring.recs ++ [(t, none)] } } k'))
    ∧ Occurs (.spillOut c pos out) (fun _ => out < 4) (fun s => s.hopOut c pos out true)
    ∧ idle (.spillOut c pos out) (fun _ => 4 ≤ out)
    ∧ Occurs (.spillReturn c pos fifo) (fun s => returns s ∧ ring.recs = (t, none) :: back) (fun s => returned s t)
    ∧ (∀ n, Occurs (.spillReturn c pos fifo) (fun s => returns s ∧ ring.recs = (t, some n) :: back ∧ far s n = .ok ws)
        (fun s => returned s (spillTok ws)))
    ∧ (∀ n e, Occurs (.spillReturn c pos fifo) (fun s => returns s ∧ ring.recs = (t, some n) :: back ∧ far s n = .error e)
        (fun s => s.freezeAt k 3 0x10 e.status (BitVec.ofNat 64 e.addr)))
    ∧ idle (.spillReturn c pos fifo) (fun s => s.spillKey k fifo = none)
    ∧ (∀ s : State, isBrick pos = true → s.nodeActs k = true → runs s → (s.pos k).pipe = [] → (s.pos k).iniDue = 0 →
        (s.pos k).outs.getD [] 0 = [] → (s.pos k).outs.getD [] 1 = [] → brTchk (s.pos k).node = false →
        (s.pos k).portHeads (s.pos k).mode = some heads → heads ≠ [] → (∀ h ∈ heads, h.2.eos = false) →
        ∃ q, exec (.brickFiring c pos) s = .next q ∧ (q.pos k).ordinal = (s.pos k).ordinal + 1
          ∧ (q.pos k).mode = (if brMadv (s.pos k).node then nextMode (s.pos k).node (s.pos k).mode else (s.pos k).mode)
          ∧ (q.pos k).pipe ≠ [] ∧ ∀ e ∈ (q.pos k).pipe, e.ready = s.now + 12)
    ∧ Occurs (.brickFiring c pos) (fun s => isBrick pos = true ∧ runs s ∧ settled s = s.pos k ∧ s.nodeActs k = true)
        (fun s => s.brickEnter k)
    ∧ idle (.brickFiring c pos) (fun s => isBrick pos = true ∧ settled s = s.pos k ∧ s.nodeActs k = false)
    ∧ Occurs (.brickFiring c pos)
        (fun s => isBrick pos = true ∧ runs s ∧ settled s ≠ s.pos k ∧ ((s.setPos k (settled s)).movedAt k).nodeActs k = false)
        (fun s => (s.setPos k (settled s)).movedAt k)
    ∧ idle (.brickFiring c pos) (fun s => isBrick pos = false ∨ s.runFrozen (s.pos k).run = true ∨ s.posGated k = true)
    ∧ Occurs (.controlTokenArrival c pos)
        (fun s => isBrick pos = true ∧ brCin (s.pos k).node ≠ 0 ∧ s.nodeActs k = true
          ∧ (s.pos k).ctlReady (brCin (s.pos k).node - 1) 4 = true)
        (fun s => (s.modPos k fun x =>
          let y := x.ctlTake pos (brCin (s.pos k).node - 1) 4
          if brMadv x.node then y else { y with mode := nextMode x.node x.mode }).movedAt k)
    ∧ idle (.controlTokenArrival c pos) (fun s => isBrick pos = false ∨ brCin (s.pos k).node = 0 ∨ s.nodeActs k = false)
    ∧ (∀ s : State, isBrick pos = true → s.nodeActs k = true → (s.pos k).pipe = [] →
        (s.pos k).outs.getD [] 0 = [] → (s.pos k).outs.getD [] 1 = [] →
        (s.pos k).portHeads (s.pos k).mode = some heads → heads ≠ [] → (∀ h ∈ heads, h.2.eos = true) →
        ∃ q, exec (.nodeEnd c pos) s = .next q ∧ (q.pos k).ended = true ∧ (q.pos k).comp = []
          ∧ (brDrives (s.pos k).node 0 = true → ∃ e ∈ (q.pos k).pipe, e.o0 = some eosTok ∧ e.ready = s.now + 12))
    ∧ Occurs (.nodeEnd c pos) (fun s => tile s 1 ∧ (s.pos k).inEos = true ∧ tiRound (s.pos k).node 1 ≤ (s.pos k).gen.getD 0 1 ∧ free s)
        (fun s => (s.modPos k fun y => { y with outs := y.outs.set 0 [eosTok], ended := true }).movedAt k)
    ∧ Occurs (.nodeEnd c pos) (fun s => s.nodeActs k = true) (fun s => if isBrick pos = true then s.brickEnd k else s.tileEnd k)
    ∧ idle (.nodeEnd c pos) (fun s => s.nodeActs k = false)
    ∧ Occurs (.tileAccess c pos) (fun s => tile s 1 ∧ (s.pos k).tileHead 0 = some t ∧ t.eos = false ∧ (s.pos k).inEos = false
          ∧ ((s.pos k).readDue = false ∨ (s.pos k).wroteLast = false)) (fun s => writes s false)
    ∧ Occurs (.tileAccess c pos) (fun s => tile s 1 ∧ (s.pos k).readDue = true
          ∧ ((s.pos k).tileHead 0 = none ∨ (s.pos k).wroteLast = true)) reads
    ∧ Occurs (.tileAccess c pos) (fun s => tile s 2 ∧ (s.pos k).queue = t :: rest ∧ free s)
        (fun s => (s.modPos k fun y =>
          { y with queue := rest, outs := y.outs.set 0 [t], ended := y.ended || t.eos }).movedAt k)
    ∧ Occurs (.tileAccess c pos) (fun s => tile s 2 ∧ ((s.pos k).queue = [] ∨ ¬ free s) ∧ (s.pos k).inEos = false
          ∧ (s.pos k).tileHead 0 = some t ∧ (s.pos k).queue.length < tiCap (s.pos k).node)
        (fun s => (s.modPos k fun y => { y.tileTake (k % 32) 0 with queue := y.queue ++ [t], inEos := t.eos }).movedAt k)
    ∧ Occurs (.tileAccess c pos) (fun s => tile s 3 ∧ (s.pos k).tileHead 0 = some t ∧ t.eos = false ∧ (s.pos k).inEos = false)
        (fun s => writes s true)
    ∧ Occurs (.tileAccess c pos) (fun s => isBrick pos = false ∧ s.nodeActs k = true) (fun s => s.tileStep k)
    ∧ idle (.tileAccess c pos) (fun s => isBrick pos = true ∨ s.nodeActs k = false)
    ∧ Occurs (.tileRmwFiring c pos) (fun s => rmw s ∧ tiFetch (s.pos k).node = false) (fun s => combined s fun _ y => y)
    ∧ Occurs (.tileRmwFiring c pos) (fun s => rmw s ∧ tiFetch (s.pos k).node = true ∧ free s)
        (fun s => combined s fun old y =>
          { y with outs := y.outs.set 0 [{ lanes := payload old, vm := key.vm &&& val.vm, tag := key.tag }] })
    ∧ idle (.tileRmwFiring c pos) (fun s => isBrick pos = true ∨ tiMode (s.pos k).node ≠ 4 ∨ s.nodeActs k = false)
    ∧ (pos < 32 → Occurs (.positionClockGate c pos) (fun s => (s.course c).power = .active ∧ s.posIdle k = true)
        (fun s => s.modPos k fun x => { x with gated := true }))
    ∧ idle (.positionClockGate c pos) (fun s => 32 ≤ pos ∨ (s.course c).power ≠ .active ∨ s.posIdle k = false)
    ∧ Occurs (.positionWake c pos) (fun s => (s.pos k).ingressWaits = true ∧ (s.course c).power ≠ .gated
          ∧ s.runFrozen (s.pos k).run = false)
        (fun s => ((s.modPos k fun x => { x with gated := false }).setPos k ((s.pos k).admitIngress (s.ringEmpty k))).movedAt k)
    ∧ Occurs (.positionWake c pos) (fun s => (s.pos k).ingressWaits = true)
        (fun s => if (s.course c).power = .gated then s.wakeCourse c else s.wakePos k)
    ∧ idle (.positionWake c pos) (fun s => (s.pos k).ingressWaits = false)
    ∧ Occurs (.controlTokenDeliver slot) (fun s => ((s.pump slot).slot slot).switched = true) (fun s => s.pump slot)
    ∧ Occurs (.controlTokenDeliver slot) (fun s => sends s ∧ w / 32 = 1 ∧ ((s.pump slot).fe (courseOf slot)).ctlIn < ctlCap)
        (fun s => sent ((s.pump slot).modFe (courseOf slot) fun f => { f with ctlIn := f.ctlIn + 1 }))
    ∧ (∀ v : State → State, Occurs (.controlTokenDeliver slot) (fun s => sends s ∧ w / 32 ≠ 1 ∧ isBrick (w % 32) = true
          ∧ brCin ((s.pump slot).pos tk).node = code + 1 ∧ (s.pump slot).enterCtl tk code = some (v s))
        (fun s => sent ((v s).movedAt tk)))
    ∧ Occurs (.engineFrame c) (fun s => works s ∧ x.passOpen = true ∧ feMode fw = 1 ∧ s.nextFrame c x = some (ts, y)
          ∧ x.roomC = true ∧ feRows ≤ b.next)
        (fun s => s.emitFrame c y (s.blockFrame c fw ps x.frames b.rows ts))
    ∧ Occurs (.engineFrame c) (fun s => works s ∧ x.passOpen = true ∧ feMode fw = 3 ∧ s.nextFrame c x = some (ts, y)
          ∧ x.roomC = true ∧ (x.rangeCheck.1 = false ∨ feMrtrap fw = false ∨ x.checked = true ∨ paMr ps ≠ 3))
        (fun s => s.emitFrame c y (s.transformFrame c fw ps x.frames ts))
    ∧ Occurs (.engineFrame c) (fun s => works s ∧ x.passOpen = true ∧ feMode fw = 3 ∧ s.nextFrame c x = some (ts, y)
          ∧ x.roomC = true ∧ x.rangeCheck.1 = true ∧ feMrtrap fw = true ∧ x.checked = false ∧ paMr ps = 3 ∧ x.run = some r)
        (fun s => (s.modFe c fun y => { y with overRange := true }).freeze r 6 0x13 0 x.rangeCheck.2)
    ∧ Occurs (.engineFrame c) (fun s => works s ∧ x.passOpen = true ∧ feMode fw = 2 ∧ x.inA = t :: rest ∧ t.eos = false
          ∧ (x.frameTag = none ∨ x.frameTag = some t.tag) ∧ x.inB = val :: ts ∧ val.eos = false)
        (fun s => (s.setFe c { x with
          inA := rest, inB := ts, gathered := x.gathered ++ pairEntries t val, frameTag := some t.tag,
          rowp := if x.frameTag.isSome then x.rowp else 0
          bufs := x.bufs.set x.bufNo { b with loading := true } }).feMoved c)
    ∧ Occurs (.engineFrame c) (fun s => works s ∧ x.passOpen = true ∧ feMode fw = 2 ∧ x.inA = t :: rest ∧ x.frameTag.isSome = true
          ∧ (t.eos = true ∨ x.frameTag ≠ some t.tag) ∧ x.gathered.length ≤ b.next ∧ x.roomC = true)
        (fun s => s.emitFrame c
          { x with gathered := [], frameTag := none, bufs := x.bufs.set x.bufNo { loading := true, step := b.step } }
          (s.gatherFrame c fw ps x.frames b.rows x.gathered))
    ∧ idle (.engineFrame c) (fun s => s.feActs c = false ∨ (s.fe c).passOpen = false)
    ∧ Occurs (.passEnd c) (fun s => works s ∧ feMode fw ≠ 0 ∧ (feMode fw = 2 → x.eosA = true → x.eosB = true)
          ∧ paFrm ps ≠ 0 ∧ paFrm ps ≤ x.frames ∧ x.outC.length < fePortCap)
        (fun s => over' (clears s)
          { (if feCtla fw then x else { x with ctlIn := 0 }) with passesDone := x.passesDone + 1, frames := 0 })
    ∧ Occurs (.passEnd c) (fun s => works s ∧ feMode fw ≠ 0 ∧ feMode fw ≠ 2 ∧ feCtla fw = true ∧ x.passOver = false)
        (fun s => s.setFe c x)
    ∧ idle (.passEnd c) (fun s => s.feActs c = false ∨ feMode (s.fe c).words = 0)
    ∧ Occurs (.weightRowLoad c buf) (fun s => loads s ∧ feMode fw = 1
          ∧ s.weightRow (s.pipeCtx c x) fw lb.step (lb.next * feRowLen fw) (feRowLen fw) = .ok rs)
        (fun s => loaded s (some (packRow rs)))
    ∧ (∀ e : EngErr, Occurs (.weightRowLoad c buf) (fun s => loads s ∧ feMode fw = 1
          ∧ s.weightRow (s.pipeCtx c x) fw lb.step (lb.next * feRowLen fw) (feRowLen fw) = .error e)
        (fun s => s.modFe c fun y => { y with bufs := y.bufs.set buf { lb with fault := some (e.status, e.addr) } }))
    ∧ Occurs (.weightRowLoad c buf) (fun s => loads s ∧ feMode fw = 2 ∧ buf = x.bufNo
          ∧ feSz fw 1 ≤ (nth (0, 0) x.gathered lb.next).1)
        (fun s => loaded s none)
    ∧ idle (.weightRowLoad c buf) (fun s => s.feActs c = false ∨ feMode (s.fe c).words = 0 ∨ feMode (s.fe c).words = 3
          ∨ ((s.fe c).bufs.getD {} buf).loading = false)
    ∧ (∀ e, Occurs (.weightFault c) (fun s => works s ∧ (feMode fw = 1 ∨ feMode fw = 2) ∧ x.run = some r
          ∧ b.fault = some (e, a) ∧ s.rowNeeded c x = true)
        (fun s => (s.modFe c fun y => { y with rowp := b.next, fva := a % 2 ^ 48 }).freeze r 7 0x14 0 (BitVec.ofNat 64 a)))
    ∧ idle (.weightFault c) (fun s => ((s.fe c).bufs.getD {} (s.fe c).bufNo).fault = none ∨ s.rowNeeded c (s.fe c) = false)
    ∧ Occurs (.weightStepSwap c) (fun s => s.feActs c = true ∧ feWmode (s.fe c).words = 1 ∧ feMode (s.fe c).words ≠ 3
          ∧ feWfr (s.fe c).words ≤ (s.fe c).stepFrames)
        (fun s => s.modFe c fun y =>
          { y with
            wsn := y.wsn + 1
            stepFrames := 0
            rowp := (y.bufs.getD {} ((y.wsn + 1) % 2)).next
            bufs := y.bufs.set (y.wsn % 2) { loading := true, step := y.wsn + 2 } })
    ∧ idle (.weightStepSwap c) (fun s => (s.fe c).stepFrames < feWfr (s.fe c).words)

/-- Streams and runs (R93, R94, R107, R223 to R226, R232, R240 to R242, R247 to R249): a stream is set up, moves its tokens
into the X input of its port's switch, or takes them from the X output through the gateway of its port die, which holds 8, and
ends; a meter's window ends; an image's planes become LOADED, a plane becomes active in a quiescent region, a run begins, and
its barrier completes; a silent region with a starved sink freezes; power grants come in order. That a stream whose iteration
has ended goes on to its end and then ends so is the model's choice (log 27). So are what a beat is and how a meter carries
beats over (log 43), and the place of a request that was offered a lower class (log 20). -/
def Obligations.StreamsAndRuns : Prop :=
  ∀ (c port slot n run pd : Nat) (st : Stream) (us : List Nat) (cmd : Cmd) (r : Run) (g : Grant) (va p : Nat) (dr : Bool)
    (t : Tok) (rest : List Stream) (v : State → State) (y : Stream),
  let k := c * 8 + port
  let pk := portKey k
  let idle := fun (i : Instr) (P : State → Prop) => Occurs i P fun s => s
  let ask := fun (s : State) => ((s.pump slot).slot slot).cmds.find? (·.id == n)
  let here := fun (s : State) => port < 8 ∧ (s.port k).cur = some st
  let next := fun (s : State) => port < 8 ∧ s.runFrozen (s.port k).run = false ∧ (s.port k).cur = none ∧ (s.port k).inbox = st :: rest
    ∧ ((s.pump st.slot).slot st.slot).switched = false
    ∧ (∀ c, ((s.pump st.slot).slot st.slot).cmds.find? (·.id == st.id) = some c → c.begun = true)
    ∧ ((s.pump st.slot).port k).inbox.head? = some st
  let accepted := fun (s : State) => ((s.pump st.slot).modPort k fun p =>
    { p with inbox := rest, cur := some st, out := (wordAt st.words 0).testBit 61 }).dropCmd st.slot st.id
  -- the X input of the port's switch takes a token into its FIFO
  let room := fun (s : State) => s.courseTakes (pk / 32) = true ∧ s.runFrozen (s.pos pk).run = false ∧ s.posGated pk = false
    ∧ (s.pos pk).ingress.getD [] 4 = [] ∧ ((s.pos pk).fifo.getD [] 4).length < 8 ∧ s.ringEmpty pk 4 = true
  let enters := fun (s : State) (t : Tok) =>
    (s.modPos pk fun x => { x with fifo := x.fifo.set 4 ((s.pos pk).fifo.getD [] 4 ++ [t]) }).movedAt pk
  let runs := fun (s : State) => here s ∧ s.streamRuns k st = true
  let offers := fun (s : State) => runs s ∧ st.out = true ∧ s.runFrozen (s.pos pk).run = false ∧ s.posGated pk = false
    ∧ (((s.port k).gate = [] ∧ (s.pos pk).offered 4 = some t) ∨ (s.port k).gate.head? = some t)
    ∧ s.dieAdmits (portDie k) st.asid = true
  let passed := fun (s : State) => if (s.port k).gate = [] then s.hopData c (portPos port) 4 fun s _ => .moved s
    else s.modPort k fun q => { q with gate := q.gate.drop 1 }
  let gates := fun (s : State) => runs s ∧ st.out = true ∧ s.dieAdmits (portDie k) st.asid = true
  let over' := fun (m : Meter) => m.beats.foldl (fun a b => a + b.2) 0 - 1024
  let starts := fun (s : State) => ((s.pump slot).slot slot).switched = false ∧ ask s = some cmd ∧ cmd.begun = true
  let quiet := fun (s : State) => (s.pump slot).quiescent cmd.masks cmd.feng n = true
    ∧ (s.pump slot).lastMoveIn cmd.masks cmd.feng + 16 ≤ (s.pump slot).now
  let selWants := fun (s : State) => (s.pump slot).wantAll slot true (if cmd.feng then (regionFes cmd.masks).map (·, p) else [])
  let runWants := fun (s : State) =>
    (s.pump slot).wantAll slot true (if cmd.feng then (s.pump slot).activePlanes cmd.masks else [])
  let ends := fun (s : State) => s.runs.get? run = some r ∧ r.begun = true ∧ r.done = false ∧ r.frozen = false ∧ s.runEnded run r = true
  let closed := fun (s : State) =>
    let t := s.modRun run fun x => { x with res := barRes x.spec x.flags, done := true }
    (regionPorts r.masks).foldl (fun s k => s.modPort k fun p =>
      if p.run = some run then { p with started := false, part := false } else p) t
  let told := fun (s : State) => ((s.modSlot r.slot (·.woken 2)).releaseGrant r.masks r.slot).pump r.slot
  idle (.streamAccept c port) (fun s => 8 ≤ port ∨ s.runFrozen (s.port k).run = true)
    ∧ idle (.streamAccept c port) (fun s => (s.port k).cur = none ∧ (s.port k).inbox = [])
    ∧ Occurs (.streamAccept c port)
        (fun s => here s ∧ s.runFrozen (s.port k).run = false ∧ st.desc = [] ∧ st.stopped = false ∧ s.streamSetup k st = .ok y)
        (fun s => s.modPort k fun p => { p with cur := some y, out := (wordAt y.words 0).testBit 61 })
    ∧ Occurs (.streamAccept c port)
        (fun s => here s ∧ s.runFrozen (s.port k).run = false ∧ st.desc = [] ∧ st.stopped = false) (fun s => s.setUp k st)
    ∧ Occurs (.streamAccept c port)
        (fun s => here s ∧ s.runFrozen (s.port k).run = false ∧ (st.desc ≠ [] ∨ st.stopped = true) ∧ st.slot = noSlot)
        (fun s => s.streamGone k st false 0 0)
    ∧ Occurs (.streamAccept c port) (fun s => next s ∧ (accepted s).streamSetup k st = .ok y)
        (fun s => (((accepted s).modPort k fun p =>
          { p with cur := some y, out := (wordAt y.words 0).testBit 61 }).movedAt pk).pump st.slot)
    ∧ Occurs (.streamAccept c port) next (fun s => (((accepted s).setUp k st).movedAt pk).pump st.slot)
    ∧ idle (.streamBeatIn c port) (fun s => (s.port k).cur = none)
    ∧ Occurs (.streamBeatIn c port)
        (fun s => runs s ∧ st.out = false ∧ st.full = false ∧ s.dieAdmits (portDie k) st.asid = true
          ∧ s.unitsIn (st.ctx k) st st.idx st.beat = .ok us ∧ room s)
        (fun s => ((enters s (st.token us)).countBeats (portDie k) st.asid 1).modPort k fun p =>
          { p with cur := some { st.move st.beat with toks := st.toks + 1 } })
    ∧ Occurs (.streamBeatIn c port)
        (fun s => runs s ∧ st.out = false ∧ st.full = false ∧ s.dieAdmits (portDie k) st.asid = true
          ∧ s.unitsIn (st.ctx k) st st.idx st.beat = .ok us ∧ s.arrive pk 4 (st.token us) = .blocked) (fun s => s)
    ∧ Occurs (.streamBeatIn c port) (fun s => runs s ∧ st.out = false ∧ st.full = true ∧ st.eosm = 0 ∧ room s)
        (fun s => ((enters s eosTok).streamEnd k st true).pump st.slot)
    ∧ Occurs (.streamBeatIn c port) (fun s => runs s ∧ st.out = false ∧ st.full = true ∧ st.eosm ≠ 0)
        (fun s => (s.streamEnd k st false).pump st.slot)
    ∧ Occurs (.streamBeatIn c port) (fun s => runs s ∧ st.out = false ∧ st.full = false ∧ s.dieAdmits (portDie k) st.asid = false)
        (fun s => (s.countAtDie st.asid).streamFault k 5 0x0B (BitVec.ofNat 64 st.asid))
    ∧ Occurs (.tokenHop c (portPos port) 4) (fun s => gates s ∧ (s.port k).gate.length < 8)
        (fun s => s.hopData c (portPos port) 4 fun s t => .moved (s.modPort k fun q => { q with gate := q.gate ++ [t] }))
    ∧ idle (.tokenHop c (portPos port) 4)
        (fun s => port < 8 ∧ ((s.port k).cur = none ∨ (here s ∧ st.out = false) ∨ 8 ≤ (s.port k).gate.length))
    ∧ idle (.streamTokenOut c port) (fun s => 8 ≤ port ∨ s.runFrozen (s.pos pk).run = true)
    ∧ Occurs (.streamTokenOut c port) (fun s => offers s ∧ t.eos = true ∧ st.cnta = 0)
        (fun s => (((passed s).streamEnd k st true).modPort k fun q => { q with taken := 0 }).pump st.slot)
    ∧ Occurs (.streamTokenOut c port) (fun s => offers s ∧ t.eos = true ∧ s.cntaWrite k st = .ok (v s))
        (fun s => (((passed (v s)).streamEnd k st true).modPort k fun q => { q with taken := 0 }).pump st.slot)
    ∧ Occurs (.streamTokenOut c port) (fun s => offers s ∧ t.eos = false ∧ (st.eosm = 1 → st.full = false)
          ∧ s.putUnits k st (s.port k).taken ((tokUnits st.raw t).drop (s.port k).taken) = .all (v s))
        (fun s => ((passed (v s)).countBeats (portDie k) st.asid 1).modPort k fun q => { q with taken := 0 })
    ∧ Occurs (.gatewayMeterWindow pd) (fun s => pd < 8 ∧ (s.meters.getD {} pd).since + 2048 ≤ s.now)
        (fun s =>
          let m := s.meters.getD {} pd
          let rest : Nat × Nat → Nat × Nat := fun b =>
            (b.1, if bitAt ((s.part b.1).pshare.getD 0#64 pd).toNat 8 then b.2 - s.beatLimit pd b.1
              else min (b.2 - s.beatLimit pd b.1) (over' m))
          { s with meters := s.meters.set pd { since := s.now, beats := (m.beats.map rest).filter fun b => b.2 ≠ 0 } })
    ∧ idle (.gatewayMeterWindow pd) (fun s => 8 ≤ pd ∨ s.now < (s.meters.getD {} pd).since + 2048)
    ∧ Occurs (.cfgloadComplete slot n) (fun s => ask s = some cmd ∧ cmd.kind = .load va)
        (fun s => ((cmd.loads.foldl State.planeLoaded (s.pump slot)).dropCmd slot n).pump slot)
    ∧ Occurs (.cfgloadComplete slot n) (fun s => ask s = none) (fun s => s.pump slot)
    ∧ Occurs (.cfgselTakeEffect slot n)
        (fun s => starts s ∧ cmd.kind = .sel p dr ∧ quiet s ∧ selWants s = (true, v s))
        (fun s => (((v s).selectPlane n cmd.masks cmd.feng p slot).dropCmd slot n).pump slot)
    ∧ Occurs (.cfgselTakeEffect slot n) (fun s => starts s ∧ cmd.kind = .sel p dr ∧ quiet s ∧ selWants s = (false, v s)) v
    ∧ Occurs (.cfgselTakeEffect slot n)
        (fun s => cmd.kind = .sel p dr ∧ ask s = some cmd ∧ (s.pump slot).quiescent cmd.masks cmd.feng n = false)
        (fun s => s.pump slot)
    ∧ Occurs (.runBegin slot n) (fun s => ask s = none ∨ ((s.pump slot).slot slot).switched = true) (fun s => s.pump slot)
    ∧ Occurs (.runBegin slot n)
        (fun s => cmd.kind = .start run ∧ ask s = some cmd
          ∧ (cmd.begun = false ∨ (s.pump slot).regionFree cmd.masks cmd.feng = false)) (fun s => s.pump slot)
    ∧ Occurs (.runBegin slot n)
        (fun s => starts s ∧ cmd.kind = .start run ∧ (s.pump slot).regionFree cmd.masks cmd.feng = true
          ∧ runWants s = (false, v s)) v
    ∧ Occurs (.runBegin slot n)
        (fun s => starts s ∧ cmd.kind = .start run ∧ (s.pump slot).regionFree cmd.masks cmd.feng = true
          ∧ runWants s = (true, v s))
        (fun s =>
          let t := v s
          let now := t.now
          let t := t.modRun run fun x =>
            { x with begun := true, flags := 0#7, done := false, drn := false, res := false, frozen := false, fcause := 0,
                     lastMove := now, waitSince := none, win := ((t.slot slot).csrv csrQWIN).toNat }
          let t := cmd.masks.foldl (fun s m => if (s.course m.1).power = .active then s else s.wakeCourse m.1) t
          let t := (regionKeys cmd.masks).foldl (fun s k => (s.wakePos k).modPos k fun x => x.begin (k % 32) run s.now) t
          let t := if cmd.feng then (regionFes cmd.masks).foldl (fun s f => s.modFe f fun x => x.begin run s.now) t else t
          let t := (regionPorts cmd.masks).foldl (fun s k => s.beginPort run k) t
          (t.dropCmd slot n).pump slot)
    ∧ idle (.barrierComplete run) (fun s => s.runs.get? run = none)
    ∧ idle (.barrierComplete run)
        (fun s => s.runs.get? run = some r ∧ (r.begun = false ∨ r.done = true ∨ r.frozen = true ∨ s.runEnded run r = false))
    ∧ Occurs (.barrierComplete run) (fun s => ends s ∧ r.spec.getLsbD 24 = false) (fun s => told (closed s))
    ∧ Occurs (.barrierComplete run) (fun s => ends s ∧ r.spec.getLsbD 24 = true ∧ (closed s).partOfAsid r.asid = some p)
        (fun s => told ((closed s).sendToken p (bitsAt r.spec.toNat 11 0) (r.spec.extractLsb' 32 32)
          (some (dieOf (r.masks.headD (0, 0)).1))))
    ∧ Occurs (.backstopStall run)
        (fun s => r.begun = true ∧ r.done = false ∧ r.frozen = false ∧ s.runs.get? run = some r ∧ r.lastMove + 2 * r.win ≤ s.now
          ∧ s.sourceShort r = true ∧ s.sinkShort r = true ∧ s.runWaits r = false)
        (fun s => s.freeze run 1 0x11 0
          (BitVec.ofNat 64 (((r.masks.find? fun m => m.1 == courseOf r.slot).map (·.2)).getD 0)))
    ∧ idle (.backstopStall run)
        (fun s => s.runs.get? run = some r ∧ (s.now < r.lastMove + 2 * r.win ∨ s.sinkShort r = false ∨ s.sourceShort r = false))
    ∧ Occurs (.powerGrant n) (fun s => s.grants.get? n = some g ∧ g.granted = false ∧ s.grantBehind n g = false)
        (fun s => { s with grants := s.grants.set n { g with granted := true } })
    ∧ idle (.powerGrant n) (fun s => s.grants.get? n = none)
    ∧ Occurs (.grantOfferLower n)
        (fun s => s.grants.get? n = some g ∧ g.granted = false ∧ g.since + 60000 ≤ s.now ∧ 1 < g.cls)
        (fun s => { s with grants := s.grants.set n { g with cls := g.cls - 1, since := s.now } })
    ∧ idle (.grantOfferLower n) (fun s => s.grants.get? n = some g ∧ (g.granted = true ∨ g.cls ≤ 1))

/-! ### Events: copies, remote operations, memory (chapters 11 to 13) -/

/-- Messages, copies and memory (R84 to R86, R299 to R303, R309, R314, R317, R328 to R336, R377, R386, R388, R451): an engine's
inbox takes a message and the engine reads its descriptor, a copy moves piece by piece and completes with its token, replies come
back, a row group is refreshed or its refresh skipped, a stack's refresh is taken over after two missed heartbeats (in order of
deadline in its first pass, then all banks at once), holders drop withdrawn translations, and the accesses parked on a walk go on
when it ends. What a piece of a copy is, is the model's choice (log 30), as are the moment at which a refresh or a parked access is
served (log 40) and the beats a copy counts (log 43). -/
def Obligations.CopiesRepliesAndStacks : Prop :=
  ∀ (n e id stack rg port inv holder asid st a hi b f p pkg xtag : Nat) (va : W64) (c d : Copy) (r : Rop) (v : Inval) (fl : Flags)
    (es : List CopyElem) (t : State → State) (x : Firing),
  let idle := fun (i : Instr) (P : State → Prop) => Occurs i P fun s => s
  let next := fun (s : State) => s.copies.find? fun k => k.2.eng == some e && !k.2.accepted && !k.2.parked
  let hrs := fun (s : State) => (s.hrsOf stack).toNat
  -- copy `c` is under way, nothing stops its next piece
  let moves := fun (s : State) => s.copies.get? id = some c ∧ c.accepted = true ∧ c.res = none ∧ c.parked = false ∧ c.next < c.total
    ∧ s.parkedCopy id = false ∧ s.beatFits c.pd c.asid = true
  let flows := fun (s : State) => moves s ∧ s.dieDown (8 + c.pd) = false ∧ s.dieAdmits c.pd c.asid = true
  let done' := fun (s : State) => s.copies.get? id = some c ∧ c.accepted = true ∧ c.completed = false ∧ c.parked = false
    ∧ s.parkedCopy id = false ∧ c.res = none ∧ c.total ≤ c.next
  let completes := fun (s : State) => s.modCopy id fun c => { c with res := some (0, 0), completed := true }
  let mine := fun (s : State) => s.copies.filter fun k => k.2.eng == some e
  let group := fun (s : State) (g : Nat) (r : RowGroup) => { s with rowGroups := s.rowGroups.set (rowKey stack g) r }
  let row := fun (s : State) (g : Nat) =>
    ({ since := s.now, bits := 0#16, skipped := s.skips stack && (s.rowGroup stack g).bits == BitVec.allOnes 16 } : RowGroup)
  let mgr := fun (s : State) => s.stackMgrs.getD {} stack
  let own := fun (s : State) => s.rops.get? n = some r ∧ r.own = true ∧ r.replied = false ∧ s.settled r = true
  let holds := fun (s : State) => s.invals.get? inv = some v ∧ v.src = none ∧ v.waiting.contains holder = true
    ∧ holder ≠ holdRemote ∧ holder < 0x10000
  let dropped := fun (s : State) =>
    let keep := fun (l : List TlbEnt) => l.filter fun e => !v.hits e.asid e.va e.size
    { s with tlbs := s.tlbs.modify [] holder keep, ptrs := s.ptrs.modify [] holder keep,
             parked := s.parked.filter fun k => !v.cancels holder k }
  idle (.copyAccept e) (fun s => next s = none)
    ∧ Occurs (.copyAccept e) (fun s => next s = some (id, c) ∧ s.readCopy c = .ok d)
        (fun s => s.modCopy id fun _ => { d with accepted := true })
    ∧ Occurs (.copyAccept e) (fun s => next s = some (id, c) ∧ s.readCopy c = .error (st, a)) (fun s => s.endCopy id st a)
    ∧ idle (.copyPiece id) (fun s => s.copies.get? id = some c ∧ (c.accepted = false ∨ c.res.isSome = true ∨ c.total ≤ c.next))
    ∧ idle (.copyPiece id) (fun s => s.parkedCopy id = true)
    ∧ Occurs (.copyPiece id)
        (fun s => flows s ∧ c.dest.fmt ≠ 14 ∧ s.pieceEnd c (s.pieceKey c c.next) (c.next + 1) 255 = hi
          ∧ s.copyElems c c.next (hi - c.next) = .ok es ∧ s.copyDeliver c es = (t s, fl))
        (fun s => ((t s).modCopy id fun c => { c with next := hi, flags := c.flags ||| fl }).countBeats c.pd c.asid
          (c.beats (hi - c.next)))
    ∧ (∀ k : EngErr, Occurs (.copyPiece id)
        (fun s => flows s ∧ c.dest.fmt ≠ 14 ∧ s.pieceEnd c (s.pieceKey c c.next) (c.next + 1) 255 = hi
          ∧ s.copyElems c c.next (hi - c.next) = .error k)
        (fun s => s.endCopy id k.status k.addr))
    ∧ Occurs (.copyPiece id) (fun s => flows s ∧ c.dest.fmt = 14) (fun s => s.superPiece id c)
    ∧ Occurs (.copyPiece id) (fun s => moves s ∧ s.dieDown (8 + c.pd) = true) (fun s => s.endCopy id 8 0)
    ∧ Occurs (.copyPiece id) (fun s => moves s ∧ s.dieDown (8 + c.pd) = false ∧ s.dieAdmits c.pd c.asid = false)
        (fun s => s.endCopy id 0x0B dieEntrance)
    ∧ Occurs (.copyComplete id) (fun s => done' s ∧ (wordAt c.words 7).testBit 12 = false) completes
    ∧ Occurs (.copyComplete id) (fun s => done' s ∧ (wordAt c.words 7).testBit 12 = true ∧ (completes s).partOfAsid c.asid = some p)
        (fun s => (completes s).sendToken p (wordAt c.words 7 % 2 ^ 12) (BitVec.ofNat 32 (wordAt c.words 7 / 2 ^ 32 % 2 ^ 32))
          (some (8 + c.pd)))
    ∧ idle (.copyComplete id) (fun s => s.copies.get? id = none ∨ s.parkedCopy id = true)
    ∧ Occurs (.engineMessageAccept n e)
        (fun s => s.rops.get? n = none ∧ s.copies.get? n = some c ∧ c.eng = none ∧ c.accepted = false ∧ c.parked = false
          ∧ e / 8 = c.pd ∧ ((mine s).filter fun k => !k.2.accepted).length < engineInbox
          ∧ ∀ k ∈ mine s, n < k.1 → k.2.slot = c.slot → k.2.firing.isSome = c.firing.isSome → False)
        (fun s => s.modCopy n fun c => { c with eng := some e })
    ∧ Occurs (.engineMessageAccept n e) (fun s => s.rops.get? n = none) (fun s => s.copyInbox n e)
    ∧ (r.own = true → r.res = none → r.taken = false → Occurs (.engineMessageAccept n e) (fun s => s.rops.get? n = some r)
        (fun s => s.takeRop n r))
    ∧ (r.own = true → r.res = none → r.taken = true → r.xl = none → Occurs (.engineMessageAccept n e)
        (fun s => s.rops.get? n = some r) (fun s => s.sendRop n r))
    ∧ Occurs (.reply n)
        (fun s => s.copies.get? n = some c ∧ c.completed = true ∧ c.replied = false ∧ c.firing = none ∧ c.slot = some b
          ∧ c.orphan = false)
        (fun s => (s.modCopy n fun c => { c with replied := true }).modSlot b (·.woken 2))
    ∧ Occurs (.reply n)
        (fun s => s.copies.get? n = some c ∧ c.completed = true ∧ c.replied = false ∧ c.firing = some f
          ∧ s.firings.get? f = some x)
        (fun s => { s with
          copies := s.copies.erase n, firings := s.firings.set f { x with result := some (c.res.getD (0, 0)).1 } })
    ∧ Occurs (.reply n) (fun s => s.copies.get? n = some c) (fun s => s.copyReply n c)
    ∧ idle (.reply n) (fun s => s.copies.get? n = none ∧ s.rops.get? n = none)
    ∧ Occurs (.reply n) (fun s => s.copies.get? n = none ∧ own s ∧ r.kind ≠ .store ∧ r.kind ≠ .xlat ∧ r.orphan = false ∧ r.slot = some b)
        (fun s => (s.modRop n fun r => { r with replied := true }).modSlot b (·.woken 2))
    ∧ Occurs (.reply n) (fun s => s.copies.get? n = none ∧ own s ∧ r.kind ≠ .store ∧ r.kind ≠ .xlat) (fun s => s.ropReplied n r)
    ∧ Occurs (.remoteStoreCompletion n)
        (fun s => own s ∧ r.kind = .store ∧ r.taken = true ∧ r.tok = none ∧ r.orphan = false ∧ r.slot = some b
          ∧ (r.res.getD (0, 0#64)).1 = 0 ∧ (s.slot b).rop ≠ some n)
        (fun s => { s with rops := s.rops.erase n }.modSlot b (·.woken 2))
    ∧ Occurs (.remoteStoreCompletion n) (fun s => own s ∧ r.kind = .store ∧ r.taken = true)
        (fun s => (s.settleTok n r ((r.res.getD (0, 0#64)).1 == 0)).ropReplied n r)
    ∧ idle (.remoteStoreCompletion n) (fun s => s.rops.get? n = none)
    ∧ Occurs (.refreshRowGroup stack rg) (fun s => stack < 8 ∧ rg < 2 ^ 22 ∧ (mgr s).tookAt = none)
        (fun s => group s rg (row s rg))
    ∧ Occurs (.refreshRowGroup stack rg)
        (fun s => stack < 8 ∧ rg < 2 ^ 22 ∧ (mgr s).tookAt = some a ∧ s.firstPass stack a = true ∧ s.nextDeadline stack rg = true)
        (fun s => group s rg (row s rg))
    ∧ Occurs (.refreshRowGroup stack rg)
        (fun s => stack < 8 ∧ rg < 2 ^ 22 ∧ (mgr s).tookAt = some a ∧ s.firstPass stack a = false)
        (fun s => ((rangeFrom 0 16).map fun b => rg / 2 ^ 16 * 2 ^ 16 + b * 2 ^ 12 + rg % 2 ^ 12).foldl
          (fun t g => group t g (row s g)) s)
    ∧ idle (.refreshRowGroup stack rg) (fun s => ¬ (stack < 8 ∧ rg < 2 ^ 22) ∨ s.nextDeadline stack rg = false)
    ∧ Occurs (.stackHeartbeat stack) (fun s => stack < 8 ∧ (mgr s).lastBeat + 1200 ≤ s.now)
        (fun s => { s with stackMgrs := s.stackMgrs.set stack { mgr s with
          lastBeat := s.now, missed := 0, carried := (s.rowsOf stack).map fun r => (r, (s.rowGroup stack r).since) } })
    ∧ idle (.stackHeartbeat stack) (fun s => 8 ≤ stack ∨ s.now < (mgr s).lastBeat + 1200)
    ∧ Occurs (.refreshTakeover stack)
        (fun s => stack < 8 ∧ (hrs s).testBit 1 = false ∧ (mgr s).lastBeat + 2400 ≤ s.now)
        (fun s => { s with
          hrs := s.hrs.set stack (BitVec.ofNat 64 ((hrs s / 2 ^ 32 % 2 ^ 32 + 1) % 2 ^ 32 * 2 ^ 32 + 2))
          stackMgrs := s.stackMgrs.modify {} stack fun m => { m with missed := 2, tookAt := some s.now } })
    ∧ idle (.refreshTakeover stack)
        (fun s => 8 ≤ stack ∨ (hrs s).testBit 1 = true ∨ s.now < (mgr s).lastBeat + 2400)
    ∧ Occurs (.stackManagerReset stack) (fun _ => stack < 8)
        (fun s => { s.awake with
          hrs := s.hrs.set stack (BitVec.ofNat 64 (hrs s / 2 ^ 32 % 2 ^ 32 * 2 ^ 32 + 1))
          stackMgrs := s.stackMgrs.set stack { lastBeat := s.now } })
    ∧ idle (.stackManagerReset stack) (fun _ => 8 ≤ stack)
    ∧ Occurs (.cxlEnumeration port (some b)) (fun _ => port < 16)
        (fun s => { s with
          cxlcap := s.cxlcap.set port (BitVec.ofNat 64 (2 ^ 14 + min 8192 (b / 2 ^ 28)))
          dies := s.dies.modify {} (8 + port / 2) fun d => { d with enumerating := d.enumerating.filter (· ≠ port % 2) } })
    ∧ Occurs (.cxlEnumeration port none) (fun _ => port < 16)
        (fun s => { s with
          cxlcap := s.cxlcap.set port 0#64
          dies := s.dies.modify {} (8 + port / 2) fun d => { d with enumerating := d.enumerating.filter (· ≠ port % 2) } })
    ∧ idle (.cxlEnumeration port none) (fun _ => 16 ≤ port)
    ∧ Occurs (.invalidationReceive inv holder) (fun s => holds s ∧ ∃ h ∈ v.waiting, h ≠ holder)
        (fun s =>
          let t := dropped s
          { t with invals := t.invals.set inv { v with waiting := v.waiting.filter (· ≠ holder) } })
    ∧ Occurs (.invalidationReceive inv holder) (fun s => holds s ∧ (∀ h ∈ v.waiting, h = holder) ∧ v.scope ≠ 4)
        (fun s =>
          let t := dropped s
          { t with invals := t.invals.erase inv })
    ∧ Occurs (.invalidationReceive inv holder) holds
        (fun s => { (s.withdraw v holder).acknowledge inv holder with parked := s.parked.filter fun k => !v.cancels holder k })
    ∧ idle (.invalidationReceive inv holder) (fun s => s.invals.get? inv = none)
    ∧ Occurs (.parkedAccessResolve holder asid va) always
        (fun s =>
          let t := s.tlbFill holder asid va.toNat
          { t with parked := t.parked.filter fun k =>
            !(k.holder == holder && k.asid == asid && k.va / 4096 == va.toNat / 4096) })
    ∧ Occurs (.targetInvalidation inv)
        (fun s => s.invals.get? inv = some v ∧ v.src = some (pkg, xtag) ∧ (s.dropRemote pkg v).usesWithdrawn pkg v = false
          ∧ (s.dropRemote pkg v).sendOn v.plane
              { kind := 0x0E, dpkg := pkg, spkg := (s.dropRemote pkg v).pkg, xtag := xtag, asid := v.asidLo, port := 0,
                words := [BitVec.ofNat 64 (v.waiting.headD 0 - remoteHolder 0)] } = some (t s))
        (fun s => { t s with invals := (t s).invals.erase inv })
    ∧ Occurs (.targetInvalidation inv)
        (fun s => s.invals.get? inv = some v ∧ v.src = some (pkg, xtag) ∧ (s.dropRemote pkg v).usesWithdrawn pkg v = true)
        (fun s => s.dropRemote pkg v)
    ∧ (v.src = none → Occurs (.targetInvalidation inv)
        (fun s => s.invals.get? inv = some v ∧ v.waiting.contains holdRemote = true ∧ v.told = true
          ∧ s.usesWithdrawn s.pkg v = false ∧ ∀ h ∈ v.waiting, h < remoteHolder 0)
        (fun s => s.acknowledge inv holdRemote))
    ∧ (v.src = none → idle (.targetInvalidation inv)
        (fun s => s.invals.get? inv = some v ∧ v.waiting.contains holdRemote = true ∧ v.told = true
          ∧ (s.usesWithdrawn s.pkg v = true ∨ ∃ h ∈ v.waiting, remoteHolder 0 ≤ h)))
    ∧ (v.src = none → Occurs (.targetInvalidation inv)
        (fun s => s.invals.get? inv = some v ∧ v.waiting.contains holdRemote = true ∧ v.told = false)
        (fun s => s.tellRemote inv v))
    ∧ idle (.targetInvalidation inv) (fun s => s.invals.get? inv = none)

/-! ### Events: threads, resets, power (chapters 05, 15 to 17) -/

/-- Threads between instructions, resets and power (R102, R105, R396, R399, R403 to R413, R423 to R427): a wait ends by its
limit, pre-emption is asked for, forced and done, a context is restored, a die resets and returns, idle parts sleep and wake,
and the package boots and attests. The model's choices: what a die's reset does is done at its step 1 (log 22), and only
running firmware attests (log 24). -/
def Obligations.ThreadsResetsAndPower : Prop :=
  ∀ (slot num die peer c m : Nat) (w : Wfe) (r : Preq) (nonce : BitVec 256) (u : State → State) (i : Instr) (k : Trap) (y : Slot)
    (p : Job),
  let idle := fun (i : Instr) (P : State → Prop) => Occurs i P fun s => s
  let at' := fun (s : State) => { s with cur := slot }.landDue
  let pending := fun (s : State) => (at' s).thr.hold = false ∧ asyncCause (at' s) (at' s).thr {} 0#32 ≠ none
  let switches := fun (s : State) => (s.slot slot).use = .thread ∧ (s.slot slot).forced = true ∧ s.stoppable slot = true
  let record := fun (s : State) => (s.stopThread slot).writeRecord slot ((s.stopThread slot).recordAreas slot)
  let own := fun (s : State) (m : Nat) => (s.slot m).use = .slice slot num ∨ (s.slot m).use = .resSlice slot num
  let loses := fun (s : State) (m : Nat) => s.modSlot slot fun x => x.loseSlice m
  let guarded := fun (s : State) => (s.slot slot).use = .thread ∧ (s.slot slot).mayShield = true
  let down := fun (s : State) (en : List Nat) =>
    let d : Die := { resetting := true, quiesce := linkedDies die, since := s.now, enumerating := en }
    State.loseTokens { s with dies := s.dies.set die d } die
  Occurs (.wfeLimitExpiry slot) (fun s => (s.slot slot).wfe = some w ∧ w.since + 2400 ≤ s.now) (fun s => s.modSlot slot (·.woken 4))
    ∧ idle (.wfeLimitExpiry slot) (fun s => (s.slot slot).wfe = none ∨ ∃ w, (s.slot slot).wfe = some w ∧ s.now < w.since + 2400)
    ∧ Occurs (.trapEntry slot) (fun s => (at' s).thr.hold = true ∨ asyncCause (at' s) (at' s).thr {} 0#32 = none) at'
    ∧ Occurs (.trapEntry slot) (fun s => pending s ∧ (at' s).fetchIssue = .took (u s)) u
    ∧ Occurs (.trapEntry slot)
        (fun s => pending s ∧ (at' s).fetchIssue = .insn i (u s) ∧ earlyTrap (u s).thr (usesOf (u s).thr i) (wordOf i) = some k)
        (fun s => (u s).trapHere k)
    ∧ Occurs (.trapEntry slot)
        (fun s => pending s ∧ (at' s).fetchIssue = .insn i (u s) ∧ earlyTrap (u s).thr (usesOf (u s).thr i) (wordOf i) = none
          ∧ asyncCause (u s) (u s).thr (usesOf (u s).thr i) (wordOf i) = some (y, k))
        (fun s => ((u s).dropRequests.setThr { y with rop := none }).trapHere k)
    ∧ Occurs (.preemptionRequest slot 1) (fun s => (s.slot slot).use = .thread ∧ s.outranked slot = true)
        (fun s => s.request slot 1)
    ∧ Occurs (.preemptionRequest slot 2)
        (fun s => (s.slot slot).use = .thread ∧ s.jobs.get? (s.slot slot).job = some p ∧ (s.part p.p).swout = true)
        (fun s => s.request slot 2)
    ∧ Occurs (.preemptionRequest slot 3) (fun s => (s.slot slot).use = .thread) (fun s => s.request slot 3)
    ∧ Occurs (.preemptionRequest slot 4) (fun s => (s.slot slot).use = .thread ∧ s.scapLate slot = true)
        (fun s => s.request slot 4)
    ∧ idle (.preemptionRequest slot num) (fun s => (s.slot slot).use ≠ .thread ∨ num = 0 ∨ 5 ≤ num)
    ∧ Occurs (.scapTimeout slot) (fun s => (s.slot slot).use = .thread ∧ s.scapLate slot = true) (fun s => s.request slot 4)
    ∧ idle (.scapTimeout slot) (fun s => (s.slot slot).use ≠ .thread ∨ s.scapLate slot = false)
    ∧ Occurs (.forcedSwitchTimeout slot)
        (fun s => (s.slot slot).preq = some r ∧ ((∃ t, r.trapAt = some t ∧ t + 24000 ≤ s.now)
          ∨ (r.trapAt = none ∧ r.ieSeen = false ∧ r.since + 24000 ≤ s.now)))
        (fun s => s.modSlot slot fun x => { x with forced := true })
    ∧ idle (.forcedSwitchTimeout slot) (fun s => (s.slot slot).preq = none)
    ∧ Occurs (.fullSwitch slot) (fun s => switches s ∧ record s = .ok (u s))
        (fun s => State.reserve { u s with freeCnt := (u s).freeCnt + 0x4000 } slot)
    ∧ Occurs (.fullSwitch slot) (fun s => switches s ∧ record s = .error (c, u s)) (fun s => (u s).endIteration slot (some c))
    ∧ idle (.fullSwitch slot) (fun s => (s.slot slot).forced = false ∨ s.stoppable slot = false)
    ∧ idle (.contextRestore slot) (fun s => s.mayRestore slot = false)
    ∧ Occurs (.contextRestore slot) (fun s => s.mayRestore slot = true ∧ s.recordBroken slot = true)
        (fun s => s.endIteration slot (some 0xF1))
    ∧ Occurs (.contextRestore slot) (fun s => s.mayRestore slot = true ∧ s.recordBroken slot = false)
        (fun s => (((s.putGrid slot).setSlot slot (s.recordSlot slot)).resumeOps slot).takeSlots slot)
    ∧ idle (.sliceDetach slot num) guarded
    ∧ Occurs (.sliceDetach slot num)
        (fun s => ¬ guarded s ∧ (s.sliceSlots slot).find? (fun m => (s.slot m).use = .slice slot num || (s.slot m).use = .resSlice slot num) = some m
          ∧ own s m)
        (fun s => loses (s.modSlot m Slot.fresh) num)
    ∧ Occurs (.sliceDetach slot num)
        (fun s => ¬ guarded s ∧ (∀ m ∈ s.sliceSlots slot, ¬ own s m)
          ∧ s.slots.find? (fun kx => kx.2.back && kx.2.lentFrom == some (slot, num)) = some (m, y)
          ∧ (s.slot m).lentFrom = some (slot, num))
        (fun s => loses (s.modSlot m fun y => { y with lentFrom := none, back := false }) num)
    ∧ idle (.sliceDetach slot num)
        (fun s => (∀ m ∈ s.sliceSlots slot, ¬ own s m)
          ∧ s.slots.find? (fun kx => kx.2.back && kx.2.lentFrom == some (slot, num)) = none)
    ∧ Occurs (.dieReset 16) always (fun s => s.resetPackage)
    ∧ Occurs (.dieReset die) (fun s => die < 8 ∧ s.dieDown die = false)
        (fun s => (((down s []).resetCompute die).restrandAll s).awake)
    ∧ Occurs (.dieReset die) (fun s => 8 ≤ die ∧ die < 16 ∧ s.dieDown die = false)
        (fun s => (((down s [0, 1]).resetPort (die - 8)).restrandAll s).awake)
    ∧ idle (.dieReset die) (fun s => 17 ≤ die ∨ die < 16 ∧ s.dieDown die = true)
    ∧ Occurs (.quiesceAck die peer) (fun s => s.dieDown die = true)
        (fun s => { s with dies := s.dies.modify {} die fun d => { d with quiesce := d.quiesce.filter (· ≠ peer) } })
    ∧ idle (.quiesceAck die peer) (fun s => s.dieDown die = false)
    ∧ Occurs (.dieReturn die) (fun s => s.dieDown die = true ∧ (s.die die).quiesce = [])
        (fun s => { s with dies := s.dies.modify {} die fun d => { d with resetting := false } }.restrandAll s)
    ∧ idle (.dieReturn die) (fun s => s.dieDown die = false ∨ (s.die die).quiesce ≠ [])
    ∧ Occurs (.courseGate c false) (fun s => c < 256 ∧ s.courseIdle c = true ∧ (s.course c).power = .active
          ∧ s.idleFor (s.course c).idleSince 128 = true ∧ s.tolerates 40 = true)
        (fun s => s.modCourse c fun x => { x with power := .gated })
    ∧ Occurs (.courseGate c true) (fun s => c < 256 ∧ s.courseIdle c = true ∧ (s.course c).power ≠ .dark
          ∧ s.idleFor (s.course c).idleSince 2400 = true ∧ s.tolerates 2000 = true)
        (fun s => s.modCourse c fun x => { x with power := .dark })
    ∧ (∀ d, idle (.courseGate c d) (fun s => 256 ≤ c ∨ s.courseIdle c = false))
    ∧ Occurs .packageStandby (fun s => s.power = .active ∧ s.packageIdle = true ∧ s.idleFor s.idleSince 240000 = true
          ∧ s.tolerates 200000 = true)
        (fun s => { s with power := .standby })
    ∧ idle .packageStandby (fun s => s.power ≠ .active ∨ s.packageIdle = false)
    ∧ Occurs .packageParked (fun s => s.power ≠ .parked ∧ s.packageIdle = true ∧ s.idleFor s.idleSince 24000000 = true
          ∧ s.tolerates 20000000 = true)
        (fun s => { s with power := .parked }.loseSram)
    ∧ idle .packageParked (fun s => s.power = .parked ∨ s.packageIdle = false)
    ∧ Occurs (.wake none) always (fun s => s.awake)
    ∧ Occurs (.wake (some c)) (fun s => c < 256 ∧ (s.course c).power ≠ .active) (fun s => (s.wakeCourse c).noteIdle c)
    ∧ idle (.wake (some c)) (fun s => 256 ≤ c ∨ (s.course c).power = .active)
    ∧ idle .powerOnBoot (fun s => s.boot.phase = .recovery ∨ s.boot.phase = .running)
    ∧ Occurs .powerOnBoot (fun s => s.boot.phase = .powerOn)
        (fun s => match imageWhy (s.boot.store.getD Config.factoryImage) with
          | none => s.bootFrom (s.boot.store.getD Config.factoryImage)
          | some why => { s with boot := { s.boot with phase := .recovery, why := why } })
    ∧ idle (.attestationRequest nonce) (fun s => s.boot.phase ≠ .running)
    ∧ Occurs (.attestationRequest nonce) (fun s => s.boot.phase = .running)
        (fun s =>
          let body := s.awake.reportBody nonce
          { s.awake with report := body ++ toBytesLE (Config.identitySign (Config.sha256 body)).toNat 64 })

/-! ### Events: links, remote targets, watches (chapter 14) -/

/-- Links, remote targets and watches (R365 to R370, R374, R380, R384, R385, R389 to R395): keys are exchanged and exchanged
again, a flit is opened under its key and counter and acknowledged, a failing link retrains, a plane that is down is left; a
page is walked for its source, an operation is performed at its home once, requests combine and split, and watches are entered,
answered, sent again and dropped. The model's choices: the layout of payloads, the codes of answers, the counters of 0x20 and
0x21, the flits of a key exchange and what a link does with unacknowledged flits (log 21), the package number at each exchange
(log 41), and which answers of watches count (log 42). -/
def Obligations.LinksTargetsAndWatches : Prop :=
  ∀ (port ctr n i j plane pa st loc pkg x : Nat) (dir ok : Bool) (peerKey sig : BitVec 512) (flit : BitVec 1024) (hd : BitVec 128)
    (pl : BitVec 768) (f : Flit) (ent : ReplayEnt) (r a c : Rop) (w : Watch) (h : Handler) (e : Landed) (d v : W64)
    (t : State → State) (k : AKind) (pte : W64 × Nat),
  let idle := fun (i : Instr) (P : State → Prop) => Occurs i P fun s => s
  let idleLink := fun (s : State) => port < 16 ∧ (s.link port).down = false ∧ s.dieDown (8 + port / 2) = false
    ∧ ((s.link port).up = false ∨ (s.link port).unacked = [])
  let ownKey := fun (s : State) => Config.ephemeralKey port ((s.link port).tries + 1)
  -- the link with this end's signed key on its way
  let ownSig := fun (s : State) => Config.identitySign (Config.sha256 (keyBytes (ownKey s)))
  let clear := fun (s : State) (part : Nat) (v : BitVec 512) =>
    let g := exchangeFlit s.pkg port part v
    BitVec.ofNat 1024 ((g.header false 0).toNat + g.payload.toNat * 2 ^ 128)
  let offered := fun (s : State) => { ((s.link port).sendExchange port (exchangeFlit s.pkg port 0 (ownKey s))).sendExchange port
    (exchangeFlit s.pkg port 1 (ownSig s)) with tries := (s.link port).tries + 1 }
  let given := fun (f : Flit) => BitVec.ofNat 512 (Flit.payload.ofWords (f.words.take 8))
  let passes := Config.ecdsaVerify (Config.peerIdentity port) (Config.sha256 (keyBytes peerKey)) sig = true
  -- the link under its new key, or left down with the failure recorded
  let raised := fun (s : State) => { s.setLink port { offered s with
      up := true, epoch := (offered s).tries, peer := peerKey, rekeying := false, txCtr := 0, rxCtr := 0, failures := 0,
      replay := [] } with
    pkg := Config.packageNumber % 4096 }
  let left := fun (s : State) => { (s.leavePlane port).setLink port { offered s with up := false, rekeying := false, replay := [] } with
    mgmt := { s.mgmt with badSigs := s.mgmt.badSigs + 1 } }
  let live := fun (s : State) => port < 16 ∧ (s.link port).up = true
  let opened := fun (s : State) => s.awake.setLink port { s.link port with rxCtr := (s.link port).rxCtr + 1, failures := 0 }
  let reads := fun (s : State) => live s ∧ (s.link port).unseal port flit = some (hd, pl)
  let acked := fun (s : State) => (opened s).control port 0x20 (s.link port).rxCtr
  -- operation `n` has come to its home, and the gateway it arrived at has let it in
  let comes := fun (s : State) => s.rops.get? n = some r ∧ s.here r = true ∧ r.xl.isSome = true ∧ r.res = none ∧ r.ready = false
    ∧ s.homeWaits n r = false
  let at' := fun (s : State) => comes s ∧ (r.own = true ∨ r.taken = true)
  let memory := fun (s : State) => at' s ∧ s.homeCheck r = .ok pa ∧ s.placeOf pa = .ram loc
  let ended := fun (s : State) (v : W64) => s.modRop n fun r => { r with res := some (0, v) }
  let asks := fun (s : State) => s.rops.get? n = some r ∧ r.kind ≠ .xlat ∧ r.own = true ∧ r.taken = true ∧ r.xl = none ∧ r.res = none
    ∧ s.asksXlat r = true ∧ r.need = some k
  let askWords : List W64 := [r.addr, BitVec.ofNat 64 ((match k with | .load => 0 | .store => 1 | _ => 2) + 4 * b2n r.sup),
    BitVec.ofNat 64 (r.tok.getD 0)]
  let askFor := fun (s : State) =>
    ({ kind := 0x0B, dpkg := r.dpkg, spkg := s.pkg, xtag := n, asid := r.asid, port := port, words := askWords } : Flit)
  let told : List W64 := [BitVec.ofNat 64 w.tok, BitVec.ofNat 64 (if ok = true then 1 else 2)]
  let answer := fun (s : State) =>
    ({ kind := 0x0A, dpkg := pkg, spkg := s.pkg, xtag := x, asid := 0, port := 0, words := told } : Flit)
  let entry := fun (s : State) => s.rops.get? n = some r ∧ s.handler r.entry = h ∧ r.kind = .handler 0 ∧ r.ready = true ∧ r.res = none
  let waits := fun (s : State) => s.rops.get? n = some r ∧ r.dep = some d ∧ r.held = none ∧ s.depWaits r = true
    ∧ (r.own = true ∨ r.taken = true)
  let watch := fun (s : State) => s.watches.get? n = some w
  let arrives := fun (s : State) => watch s ∧ w.landing = s.pkg ∧ w.st = .sent
  Occurs (.linkKeyExchange port peerKey sig) (fun s => idleLink s ∧ (offered s).unacked = [])
      (fun s => if passes then raised s else left s)
    ∧ Occurs (.linkKeyExchange port peerKey sig) idleLink
        (fun s => if passes then (offered s).unacked.foldl (fun s e => (s.sendFlit port e.flit e.dep).getD s) (raised s) else left s)
    ∧ idle (.linkKeyExchange port peerKey sig) (fun s => ¬ idleLink s)
    ∧ (∀ s : State, (s.link port).up = false → (offered s).unacked = (s.link port).unacked
        ∧ (offered s).wire = clear s 1 (ownSig s) :: clear s 0 (ownKey s) :: (s.link port).wire)
    ∧ (∀ s : State, (s.link port).up = true → (s.link port).txCtr + 1 < stopAt → (offered s).txCtr = (s.link port).txCtr + 2
        ∧ (offered s).unacked = (s.link port).unacked)
    ∧ Occurs (.flitReceive port flit) (fun s => reads s ∧ readFlit hd pl = some f ∧ f.kind = 0x22 ∧ f.xtag = 0)
        (fun s => (opened s).modLink port fun l => { l with offered := some (given f) })
    ∧ Occurs (.flitReceive port flit)
        (fun s => reads s ∧ readFlit hd pl = some f ∧ f.kind = 0x22 ∧ f.xtag ≠ 0 ∧ ((opened s).link port).offered = some peerKey)
        (fun s => ((opened s).modLink port fun l => { l with offered := none }).exchangeKeys port peerKey (given f))
    ∧ (∀ s : State, exec (.linkKeyExchange port peerKey sig) s = .next (s.exchangeKeys port peerKey sig))
    ∧ Occurs (.rekeyCounterLimit port dir)
        (fun s => (s.link port).up = true ∧ 2 ^ 39 ≤ (if dir = true then (s.link port).txCtr else (s.link port).rxCtr))
        (fun s => s.setLink port { s.link port with rekeying := true })
    ∧ idle (.rekeyCounterLimit port dir) (fun s => (s.link port).up = false)
    ∧ idle (.flitReceive port flit) (fun s => 16 ≤ port ∨ (s.link port).up = false)
    ∧ Occurs (.flitReceive port flit) (fun s => live s ∧ (s.link port).unseal port flit = none)
        (fun s => (s.awake.setLink port { s.link port with failures := (s.link port).failures + 1 }).control port 0x21
          (s.link port).rxCtr)
    ∧ Occurs (.flitReceive port flit) (fun s => reads s ∧ readFlit hd pl = none) (fun s => (opened s).dropFlit)
    ∧ Occurs (.flitReceive port flit) (fun s => reads s ∧ readFlit hd pl = some f ∧ f.kind = 0x20)
        (fun s => (opened s).modLink port fun l => { l with replay := l.replay.filter fun e => decide (f.w 0 < e.ctr) })
    ∧ Occurs (.flitReceive port flit) (fun s => reads s ∧ readFlit hd pl = some f ∧ 0x20 ≤ f.kind)
        (fun s => (opened s).linkControl port f)
    ∧ Occurs (.flitReceive port flit) (fun s => reads s ∧ readFlit hd pl = some f ∧ f.kind < 0x20 ∧ f.dpkg ≠ (acked s).pkg)
        (fun s => (acked s).dropFlit)
    ∧ Occurs (.flitReceive port flit) (fun s => reads s ∧ readFlit hd pl = some f ∧ f.kind < 0x20 ∧ f.dpkg = (acked s).pkg)
        (fun s => (acked s).takeFlit port f)
    ∧ Occurs (.flitReplay port ctr) (fun s => (s.link port).replay.find? (fun f => f.ctr == ctr) = some ent ∧ (s.link port).up = true)
        (fun s => s.setLink port { s.link port with wire := ent.sent :: (s.link port).wire })
    ∧ idle (.flitReplay port ctr) (fun s => (s.link port).replay.find? (fun f => f.ctr == ctr) = none)
    ∧ Occurs (.linkRetrain port) (fun s => 16 ≤ (s.link port).failures)
        (fun s => s.setLink port { s.link port with up := false, rekeying := true, failures := 0 })
    ∧ idle (.linkRetrain port) (fun s => (s.link port).failures < 16)
    ∧ Occurs (.managementPortRetrain port) (fun s => port < 16 ∧ (s.link port).down = true)
        (fun s => s.awake.modLink port fun l => { l with down := false, failures := 0, replay := [] })
    ∧ idle (.managementPortRetrain port) (fun s => 16 ≤ port ∨ (s.link port).down = false)
    ∧ Occurs (.portDown port) (fun _ => port < 16)
        (fun s => (s.leavePlane port).modLink port fun l => { l with up := false, down := true, rekeying := false })
    ∧ idle (.portDown port) (fun _ => 16 ≤ port)
    ∧ idle (.targetPackageReset n) (fun s => n = s.pkg)
    ∧ Occurs (.targetPackageReset n) (fun s => n ≠ s.pkg)
        (fun s =>
          let lost := fun (r : Rop) =>
            r.own = true ∧ r.dpkg = n ∧ r.taken = true ∧ r.res = none ∧ (r.xl.isSome = true ∨ r.asked = true)
          let gone := fun (w : Watch) => w.landing = n ∧ ∀ ok, w.st ≠ .answered ok
          let acks := s.invals.flatMap fun k =>
            (k.2.waiting.filter fun h => decide (remoteHolder 0 ≤ h) && (h - remoteHolder 0) / 8 == n && k.2.src.isNone).map
              fun h => (k.1, h)
          acks.foldl (fun (s : State) ih => s.acknowledge ih.1 ih.2) { s with
            rops := s.rops.map fun (k : Nat × Rop) =>
              (k.1, if lost k.2 then { k.2 with res := some (8, 0#64), asked := false, inside := false, comb := [] } else k.2)
            watches := s.watches.map fun (k : Nat × Watch) => (k.1, if gone k.2 then { k.2 with st := .dropped } else k.2)
            rtcs := s.rtcs.map fun (k : Nat × List RXlat) => (k.1, k.2.filter fun e => e.pkg ≠ n)
            forwarded := s.forwarded.filter fun k => k.2.dpkg ≠ n })
    ∧ Occurs (.remoteOpAtTarget n) (fun s => memory s ∧ r.kind = .load) (fun s => ended s (BitVec.ofNat 64 (s.readPhys pa r.size)))
    ∧ Occurs (.remoteOpAtTarget n) (fun s => memory s ∧ r.kind = .store ∧ r.tok = none)
        (fun s => ended (s.writePhys pa r.x.toNat r.size) 0#64)
    ∧ Occurs (.remoteOpAtTarget n) (fun s => memory s ∧ r.kind = .fadd)
        (fun s => ended (s.writePhys pa ((s.readPhys pa 8 + r.x.toNat) % 2 ^ 64) 8) (BitVec.ofNat 64 (s.readPhys pa 8)))
    ∧ Occurs (.remoteOpAtTarget n) (fun s => at' s ∧ s.homeCheck r = .ok pa) (fun s => s.performRop n r pa)
    ∧ Occurs (.remoteOpAtTarget n) (fun s => at' s ∧ s.homeCheck r = .error st) (fun s => s.refuseRop n r st)
    ∧ (r.own = false → r.taken = false → Occurs (.remoteOpAtTarget n)
        (fun s => comes s ∧ s.beatFits r.atDie r.asid = true
          ∧ (s.modRop n fun r => { r with taken := true }).countBeats r.atDie r.asid 1 = t s ∧ (t s).homeCheck r = .ok pa)
        (fun s => (t s).performRop n r pa))
    ∧ (r.own = false → r.taken = false → Occurs (.remoteOpAtTarget n)
        (fun s => comes s ∧ s.beatFits r.atDie r.asid = true
          ∧ (s.modRop n fun r => { r with taken := true }).countBeats r.atDie r.asid 1 = t s ∧ (t s).homeCheck r = .error st)
        (fun s => (t s).refuseRop n r st))
    ∧ (r.own = false → r.taken = false → idle (.remoteOpAtTarget n) (fun s => comes s ∧ s.beatFits r.atDie r.asid = false))
    ∧ (r.kind = .handler 1 → idle (.remoteOpAtTarget n)
        (fun s => at' s ∧ s.homeCheck r = .ok pa ∧ s.runningOn r.entry = true))
    ∧ idle (.remoteOpAtTarget n) (fun s => s.rops.get? n = some r ∧ (s.here r = false ∨ r.res.isSome = true ∨ s.homeWaits n r = true))
    ∧ (r.kind = .xlat → Occurs (.translationRequest n) (fun s => s.rops.get? n = some r) (fun s => s.xlatAbroad n r))
    ∧ Occurs (.translationRequest n)
        (fun s => asks s ∧ r.dpkg = s.pkg ∧ s.pageWithdrawn r.asid r.va = false ∧ s.remoteAdmits r.pd r.asid = true
          ∧ s.remoteWalk r.asid r.va r.sup k = .ok pte)
        (fun s =>
          let size := leafSize pte.1.toNat pte.2
          let kept : RXlat := { pkg := s.pkg, asid := r.asid, va := r.va - r.va % size, size := size, pte := pte.1, lvl := pte.2 }
          (s.rtcKeep r.pd kept).recordHolder r.pd r.asid r.va size (s.pkg * 8 + r.pd))
    ∧ Occurs (.translationRequest n) (fun s => asks s ∧ r.dpkg = s.pkg) (fun s => s.xlatHere n r k)
    ∧ Occurs (.translationRequest n) (fun s => asks s ∧ r.dpkg ≠ s.pkg ∧ r.asked = false ∧ s.liveFrom r.homePlane = none)
        (fun s => s.endRop n 0x0C)
    ∧ Occurs (.translationRequest n)
        (fun s => asks s ∧ r.dpkg ≠ s.pkg ∧ r.asked = false ∧ s.liveFrom r.homePlane = some port
          ∧ s.sendFlit port (askFor s) false = some (t s))
        (fun s => (t s).modRop n fun r => { r with asked := true, plane := some port })
    ∧ idle (.translationRequest n) (fun s => s.rops.get? n = none)
    ∧ (a.own = true → c.own = true → a.kind = .fadd → c.kind = .fadd → a.plane = some plane → c.plane = some plane →
        a.xl.isSome = true → c.xl.isSome = true → a.res = none → c.res = none → a.inside = false → c.inside = false → i ≠ j →
        a.addr = c.addr → a.asid = c.asid → a.sentAt ≤ c.sentAt → c.sentAt ≤ a.sentAt + 76 →
        Occurs (.switchCombine plane i j)
          (fun s => s.rops.get? i = some a ∧ s.rops.get? j = some c
            ∧ (s.rops.filter fun k => k.2.inside && k.2.plane == some plane).length < 512)
          (fun s =>
            let one : Flit :=
              { kind := 5, dpkg := a.dpkg, spkg := s.pkg, xtag := i, asid := a.asid, port := plane,
                words := Rop.payload { a with x := s.carried i a + s.carried j c } (a.xl.getD (0, 0)).1 }
            (State.modRop { s with forwarded := (s.forwarded.erase j).set i one } j fun r =>
              { r with inside := true, comb := [] }).modRop i fun r => { r with comb := r.comb ++ j :: c.comb }))
    ∧ idle (.switchCombine plane i j) (fun s => s.rops.get? i = some a ∧ s.rops.get? j = some c ∧ a.addr ≠ c.addr)
    ∧ (a.plane = some plane → a.inside = false → Occurs (.combinedReplySplit plane i)
        (fun s => s.rops.get? i = some a ∧ a.res = some (st, v))
        (fun s => (State.splitReply { s with forwarded := s.forwarded.erase i } st (v + a.x) a.comb).modRop i fun r => { r with comb := [] }))
    ∧ idle (.combinedReplySplit plane i) (fun s => s.rops.get? i = some a ∧ a.res = none)
    ∧ Occurs (.handlerInvocation n) (fun s => entry s ∧ h.st = .empty) (fun s => s.endRop n 6)
    ∧ Occurs (.handlerInvocation n) (fun s => entry s ∧ h.st = .updating)
        (fun s => s.modRop n fun r => { r with ready := false, held := some s.now })
    ∧ Occurs (.handlerInvocation n)
        (fun s => entry s ∧ h.st = .valid ∧ h.lost.contains ((s.homeDie (r.xl.getD (0, 0)).1).getD 16) = false
          ∧ (inRange (s.part h.part).pasid r.asid = true ∨ inRange (s.part h.part).padmit r.asid = true)
          ∧ s.goodPhys (r.xl.getD (0, 0)).1 8 = false)
        (fun s => s.endRop n 5)
    ∧ Occurs (.handlerInvocation n)
        (fun s => entry s ∧ s.goodPhys (r.xl.getD (0, 0)).1 8 = true ∧ h.st = .valid ∧ h.lost.contains ((s.homeDie (r.xl.getD (0, 0)).1).getD 16) = false
          ∧ (inRange (s.part h.part).pasid r.asid = true ∨ inRange (s.part h.part).padmit r.asid = true))
        (fun s =>
          let pa := (r.xl.getD (0, 0)).1
          let ctl := (nth 0#64 h.words 16).toNat
          let old := s.readPhys pa 8
          let fired := fireHandler (h.words.take 16) s.freeCnt old r.x r.y
          let u := { s with freeCnt := s.freeCnt + 96 }
          let u := if ctl.testBit 1 = true then u.writePhys pa fired.1 8 else u
          u.modRop n fun r => { r with res := some (0, BitVec.ofNat 64 (if ctl.testBit 2 = true then fired.2 else old)) })
    ∧ (r.kind = .handler 0 → r.res = none → r.ready = false → r.held = some st → Occurs (.handlerHoldExpiry n)
        (fun s => s.rops.get? n = some r ∧ st + 8192 ≤ s.now ∧ (s.handler r.entry).st = .updating) (fun s => s.endRop n 7))
    ∧ idle (.handlerHoldExpiry n) (fun s => s.rops.get? n = some r ∧ r.held = none)
    ∧ Occurs (.dependentStoreArrival n)
        (fun s => waits s ∧ (if depLanding d = s.pkg then s.landedAs (depTok d) else none) = none ∧ s.holdCount < 8192)
        (fun s => ((s.modRop n fun r => { r with held := some s.now }).sendWatch (depTok d) (depLanding d) (.op n)).2)
    ∧ Occurs (.dependentStoreArrival n) (fun s => waits s ∧ depLanding d = s.pkg ∧ s.landedAs (depTok d) = some true)
        (fun s => s.modRop n fun r => { r with clear := true })
    ∧ Occurs (.dependentStoreArrival n) (fun s => waits s ∧ depLanding d = s.pkg ∧ s.landedAs (depTok d) = some false)
        (fun s => s.endRop n 0x0A)
    ∧ (r.tok.getD 0 ≠ 0 → r.recorded = false → r.res = none → r.ready = true → Occurs (.landedRecord n)
        (fun s => s.rops.get? n = some r ∧ s.here r = true ∧ s.homeCheck r = .ok pa ∧ s.placeOf pa = .ram loc
          ∧ s.land? (r.tok.getD 0) true = some (t s))
        (fun s => ((t s).writePhys pa r.x.toNat r.size).modRop n fun r => { r with res := some (0, 0#64), recorded := true }))
    ∧ (r.tok.getD 0 ≠ 0 → r.recorded = false → r.res = none → r.ready = true → Occurs (.landedRecord n)
        (fun s => s.rops.get? n = some r ∧ s.here r = true ∧ s.homeCheck r = .ok pa) (fun s => s.recordStore n (r.tok.getD 0) r pa))
    ∧ (r.tok.getD 0 ≠ 0 → r.recorded = false → r.res = some (st, v) → st ≠ 0 → Occurs (.landedRecord n)
        (fun s => s.rops.get? n = some r ∧ s.here r = true ∧ s.land? (r.tok.getD 0) false = some (t s))
        (fun s => (t s).modRop n fun r => { r with recorded := true }))
    ∧ Occurs (.watchArrival n) (fun s => arrives s ∧ s.landedAs w.tok = some ok) (fun s => s.setWatch n w (w.fate s.now ok))
    ∧ Occurs (.watchArrival n) (fun s => arrives s ∧ s.landedAs w.tok = none ∧ 16384 ≤ s.watchCount)
        (fun s => s.setWatch n w (.refused s.now))
    ∧ Occurs (.watchArrival n) (fun s => arrives s ∧ s.landedAs w.tok = none ∧ s.watchCount < 16384)
        (fun s => s.setWatch n w (.entered s.now))
    ∧ idle (.watchArrival n) (fun s => s.watches.get? n = some w ∧ (w.landing ≠ s.pkg ∨ w.st ≠ .sent))
    ∧ (∀ m : Nat, w.fate m ok = .answered (match w.by' with
        | .thread _ => ok && decide (m ≤ w.made + 480000)
        | _ => ok))
    ∧ (w.by' = .op i → w.st = .answered ok → Occurs (.watchAnswer n) (fun s => s.watches.get? n = some w)
        (fun s => { s with watches := s.watches.erase n }.answerStore i ok))
    ∧ (w.by' = .thread i → w.st = .answered ok → Occurs (.watchAnswer n) (fun s => s.watches.get? n = some w)
        (fun s => s.modSlot i (·.woken 2)))
    ∧ (w.by' = .pkg i j → w.st = .answered ok → Occurs (.watchAnswer n) (fun s => s.watches.get? n = some w)
        (fun s => s.answerAbroad n w.plane i j w.tok (if ok = true then 1 else 2)))
    ∧ (w.by' = .pkg i j → w.st = .refused st → Occurs (.watchAnswer n) (fun s => s.watches.get? n = some w)
        (fun s => s.answerAbroad n w.plane i j w.tok 3))
    ∧ (w.by' = .pkg pkg x → w.st = .answered ok → Occurs (.watchAnswer n)
        (fun s => watch s ∧ s.sendOn w.plane (answer s) = some (t s))
        (fun s => { t s with watches := (t s).watches.erase n }))
    ∧ (w.by' = .thread i → w.st = .refused st → Occurs (.watchResend n)
        (fun s => watch s ∧ st + 1200 ≤ s.now ∧ w.landing = s.pkg) (fun s => s.setWatch n w .sent))
    ∧ (w.by' = .thread i → w.st = .refused st → Occurs (.watchResend n) (fun s => s.watches.get? n = some w ∧ st + 1200 ≤ s.now)
        (fun s => s.watchAgain n w))
    ∧ (w.by' = .pkg i j → idle (.watchResend n) (fun s => s.watches.get? n = some w))
    ∧ (w.by' = .pkg i j → w.st = .entered st → Occurs (.watchEntryDrop n)
        (fun s => s.watches.get? n = some w ∧ st + 480000 ≤ s.now) (fun s => { s with watches := s.watches.erase n }))
    ∧ (w.by' = .op i → w.st = .entered st → Occurs (.watchEntryDrop n)
        (fun s => s.watches.get? n = some w ∧ st + 480000 ≤ s.now) (fun s => s.setWatch n w .dropped))
    ∧ (w.st = .entered st → idle (.watchEntryDrop n) (fun s => s.watches.get? n = some w ∧ s.now < st + 480000))
    ∧ (r.held = some st → r.dep.isSome = true → Occurs (.heldStoreExpiry n)
        (fun s => s.rops.get? n = some r ∧ s.depWaits r = true ∧ st + 480000 ≤ s.now ∧ s.answerWaits n = false)
        (fun s => s.endRop n 0x0A))
    ∧ (r.held = some st → r.dep.isSome = true → idle (.heldStoreExpiry n)
        (fun s => s.rops.get? n = some r ∧ (s.now < st + 480000 ∨ s.answerWaits n = true ∧ s.now / 2 ≤ r.lastAnswer)))
    ∧ (w.st = .sent → Occurs (.tokwaitWatchTimeout i)
        (fun s => (s.slot i).watch = some n ∧ s.watches.get? n = some w ∧ w.made + 480000 ≤ s.now)
        (fun s => s.setWatch n w (.answered false)))
    ∧ (w.st = .answered ok → idle (.tokwaitWatchTimeout i) (fun s => (s.slot i).watch = some n ∧ s.watches.get? n = some w))
    ∧ Occurs (.landedEntryAging n)
        (fun s => s.landed[n]? = some e ∧ 262144 ≤ s.landed.length ∧ e.since + 240000 < s.now ∧ ∀ f ∈ s.landed, e.since ≤ f.since)
        (fun s => { s with landed := s.landed.eraseIdx n })
    ∧ idle (.landedEntryAging n) (fun s => s.landed.length < 262144)
    ∧ idle (.landedEntryAging n) (fun s => s.landed.length ≤ n)

/-! ### Traps (chapters 05 and 15) -/

/-- Taking a trap and returning from it (R115, R398, R403): earlier fixed-latency writes land; TCAUSE, TVAL, INSN and TPC receive
the cause, the value, the word (0 for an asynchronous cause) and the place, THS.BPOS and BHDR the position; PRIV and IE go to
PPRIV and PIE, PRIV is 1 and IE 0; asynchronous causes are held, the vector unit is frozen, what the thread was inside is given
up, and a header is read at TVEC. No general register and no other control register changes. The return puts PRIV and IE back and
goes to TPC, taken as it stands (log 46); the vector unit is frozen or not as that trap's entry found it (log 12), and after a
synchronous 0x15 the thread goes on past the instruction at TPC (R396), but for a `tokwait` of s(a) = 0, which is executed
again and reports the next error (R393; log 36). -/
def Obligations.TrapEntryAndReturn : Prop :=
  ∀ (x : Slot) (t : Trap) (tpc : W64) (b : Nat) (h : Bool), b < 64 →
    let bit := fun (y : Slot) (i : Nat) => (y.csrv csrTHS).toNat.testBit i
    let pos := fun (y : Slot) => (y.csrv csrTHS).toNat / 2 ^ 16 % 2 ^ 6
    let y := takeTrap x t tpc b h
    let z := returnFromTrap x
    (y.csrv csrTCAUSE = BitVec.ofNat 64
        ((if t.async then 1 else 0) * 2 ^ 32 + t.rsts % 256 * 2 ^ 24 + t.code % 1024 * 2 ^ 8 + t.cause % 256)
      ∧ y.csrv csrTVAL = t.tval ∧ y.csrv csrTPC = tpc
      ∧ y.csrv csrINSN = (if t.async then 0#64 else t.insn.zeroExtend 64)
      ∧ pos y = b ∧ bit y 23 = h ∧ bit y 1 = bit x.landAll 0 ∧ bit y 3 = bit x.landAll 2 ∧ bit y 0 = true ∧ bit y 2 = false
      ∧ bit y 4 = bit x.landAll 4
      ∧ y.hold = true ∧ y.vfrozen = true ∧ y.pc = x.csrv csrTVEC ∧ y.atHdr = true ∧ y.reHdr = false ∧ y.pend = []
      ∧ y.frozenAt = x.vfrozen :: x.frozenAt ∧ y.doing = none ∧ y.vm = none ∧ y.vrun = none ∧ y.wfe = none ∧ y.watch = none
      ∧ y.resumeNext = false ∧ y.after15 = (decide (t.cause = 0x15) && !t.async && !t.again)
      ∧ (∀ n, y.readS n = x.landAll.readS n) ∧ y.v = x.landAll.v ∧ y.m = x.landAll.m ∧ y.claimed = x.claimed
      ∧ ∀ c, c ∉ ([csrTCAUSE, csrTVAL, csrINSN, csrTPC, csrTHS] : List Nat) → y.csrv c = x.csrv c)
    ∧ (bit z 0 = bit x 1 ∧ bit z 2 = bit x 3 ∧ bit z 1 = bit x 1 ∧ bit z 3 = bit x 3 ∧ z.hold = false
      ∧ z.pc = x.csrv csrTPC ∧ z.atHdr = bit x 23 ∧ z.reHdr = !(bit x 23) ∧ z.bpos = pos x
      ∧ z.frozenAt = x.frozenAt.tail ∧ z.vfrozen = x.frozenAt.headD false ∧ z.resumeNext = x.after15 ∧ z.after15 = false
      ∧ (∀ n, z.readS n = x.readS n) ∧ z.v = x.v ∧ z.m = x.m ∧ ∀ c, c ≠ csrTHS → z.csrv c = x.csrv c)
    ∧ (returnFromTrap y).vfrozen = x.vfrozen

/-- The checks of R124 before any instruction's own part, ahead of every other cause (R399), with the word in INSN and nothing
performed: an instruction that an atomic block forbids (R112) is trap 0x01 there, and a supervisor instruction in user mode trap
0x02, both with the word in TVAL; a register beyond the program's declarations, or a vector group at a number that is no multiple
of the grouping, is trap 0x04 with the number. R112's list is majors 0x22 and 0x32 to 0x3A with six more, R124's majors 0x3A and
two more beside the control register accesses (ControlRegisterAccesses). Of several registers TVAL names a scalar one before a vector one, and the lowest of a kind: the model's choice (log 14).
The thread stands at its boundary, and not in the vector unit. -/
def Obligations.ChecksBeforeExecution : Prop := ∀ (i : Instr) (s : State), encode i ≠ none → s.thr.vrun = none →
  let t := s.landDue
  let x := t.thr
  let u := usesOf x i
  let major := (wordOf i).toNat / 2 ^ 26
  let traps := fun (cause : Nat) (v : W64) =>
    exec i s = .next (t.trapHere { cause := cause, tval := v, insn := wordOf i })
  let word := (wordOf i).zeroExtend 64
  let six := ∃ (st c : BitVec 3) (d a : BitVec 5), i = .wfe st d a ∨ i = .yield st ∨ i = .eret st ∨ i = .claim st ∨ i = .done st
    ∨ i = .doneErr st ∨ i = .etrig st c
  let named := u.sr ++ u.sw ++ u.named
  let beyond := (u.vw ++ u.vr).filterMap (x.decl.badV x.grp) ++ (u.v1w ++ u.v1r).filterMap (x.decl.badV 1)
    ++ u.vs.filterMap fun v => x.decl.badV v.2 v.1
  let odd := (u.vw ++ u.vr).filter (fun n => n % x.grp ≠ 0) ++ (u.vs.filter fun v => v.1 % v.2 ≠ 0).map (·.1)
  let allowed := (x.atom = true → u.noAtom = false) ∧ (x.sup = false → u.priv = false)
  (u.noAtom = true ↔ major = 0x22 ∨ (0x32 ≤ major ∧ major ≤ 0x3A) ∨ six)
    ∧ (major ≠ 0x20 → (u.priv = true ↔ major = 0x3A ∨ ∃ st, i = .eret st ∨ i = .claim st))
    ∧ (x.atom = true → u.noAtom = true → traps 0x01 word)
    ∧ ((x.atom = true → u.noAtom = false) → x.sup = false → u.priv = true → traps 0x02 word)
    ∧ (∀ n, allowed → n ∈ named → x.decl.badS n = true → (∀ k ∈ named, x.decl.badS k = true → n ≤ k) →
        traps 0x04 (BitVec.ofNat 64 n))
    ∧ (∀ n, allowed → (∀ k ∈ named, x.decl.badS k = false) → n ∈ beyond → (∀ k ∈ beyond, n ≤ k) →
        traps 0x04 (BitVec.ofNat 64 n))
    ∧ (∀ n, allowed → (∀ k ∈ named, x.decl.badS k = false) → beyond = [] → odd.head? = some n →
        traps 0x04 (BitVec.ofNat 64 n))

/-! ### The step, the encoding, the machine's state -/

/-- A STEP RUNS THE DECODED INSTRUCTION. Where the next move is a thread's turn, the thread may issue, its place is inside a block,
and the address of its pc translates to a place that answers a code word, the step is the execution of the decoded
instruction, and its end; an instruction under way goes on with the word it was fetched with; an event's step is that event's.
At a header, the header's word is read and checked first, and the instruction is the one after it; after a return into its block,
the block's header is read again. A turn that only issues into the vector unit begins the instruction. A thread that is not
ready has no turn. A code word is the one the course's instruction cache holds, and memory's where it holds none or where the page
is a sync page of a wider scope (R310); once an ASID's words are invalidated no cache holds any (R114). -/
def Obligations.StepRunsTheDecodedInstruction : Prop :=
  ∀ (s t : State) (n dt c asid pa e : Nat) (h w : W32) (i : Instr),
  let u := { t with cur := n }
  let x := u.thr
  let reads := fun (x : Slot) (va : W64) (w : W32) => va.toNat < 2 ^ 48 ∧ ∃ pa e,
    u.translate (holdCp (courseOf n)) x.asid x.sup .fetch va.toNat = .ok pa e ∧ pa < windowBase ∧ u.placeOf pa ≠ .spill
      ∧ u.codeUnder (courseOf n) x.asid pa e = some w
  let here := fun (x : Slot) (w : W32) => x.doing = some w ∨ (x.doing = none ∧ reads x x.pc w)
  let turn := s.nextAction = (.issue n dt, t) ∧ u.ready = true ∧ x.reclaimDue = none ∧ x.resumeNext = false
  let begins := s.nextAction = (.begin n dt, t) ∧ u.ready = true ∧ x.reclaimDue = none ∧ x.resumeNext = false
  let past := { x with hdr := h, atHdr := false, bpos := 0, pc := x.pc + 4#64, firstHdr := none }
  let back := { x with hdr := h, reHdr := false }
  (turn → x.atHdr = false → x.reHdr = false → here x w → decode w = some i → step s = s.closeOut (exec i (u.setThr x)))
    ∧ (turn → x.atHdr = true → reads x x.pc h → headerTrap x.decl h = none → here past w → decode w = some i →
        step s = s.closeOut (exec i (u.setThr past)))
    ∧ (turn → x.atHdr = false → x.reHdr = true → reads x (x.pc - BitVec.ofNat 64 (4 * (x.bpos + 1))) h →
        headerTrap x.decl h = none → (x.forced = true → back.shielded = true) → here back w → decode w = some i →
        step s = s.closeOut (exec i (u.setThr back)))
    ∧ (begins → x.atHdr = false → x.reHdr = false → here x w → decode w = some i →
        step s = .next (s.close ((u.setThr x).beginInsn i)))
    ∧ (s.nextAction = (.issue n dt, t) → u.ready = false → step s = .next (s.close u))
    ∧ (s.nextAction = (.event i dt, t) → encode i = none → step s = s.closeOut (exec i t))
    ∧ (∀ r, s.agenda = .issue n dt :: r → s.nextAction = (.issue n dt, { s with agenda := r, now := s.now + dt }))
    ∧ (∀ r, s.agenda = .event i dt :: r → s.nextAction = (.event i dt, { s with agenda := r, now := s.now + dt }))
    ∧ (syncBeyondCourse e = false → codeFind asid pa (s.icaches.getD [] c) = some w → s.codeUnder c asid pa e = some w)
    ∧ ((syncBeyondCourse e = true ∨ codeFind asid pa (s.icaches.getD [] c) = none) → s.goodPhys pa 4 = true →
        s.codeUnder c asid pa e = some (BitVec.ofNat 32 (s.readPhys pa 4)))
    ∧ codeFind asid pa ((s.codeInvalidate asid).icaches.getD [] c) = none

/-- Words written out from the spec's encodings decode to the instructions they stand for: the examples its chapters print; and a
word of an unassigned major decodes to none (R123, R124). -/
def Obligations.SampleWordsDecode : Prop :=
  decode 0x08253FFF#32 = some (.addi 0 9 9 0x1FFF)
    ∧ decode 0x60241FFE#32 = some (.bne 0 9 0 0x1FFE)
    ∧ decode 0x84012005#32 = some (.trap 0 9 5)
    ∧ decode 0x84000400#32 = some (.eret 0)
    ∧ decode 0x84292800#32 = some (.wfe 0 10 9)
    ∧ decode 0x84001000#32 = some (.claim 0)
    ∧ decode 0xC8254000#32 = some (.cfgload 0 9 10)
    ∧ ∀ m : BitVec 6, m ∈ ([0x00#6, 0x3B#6, 0x3C#6, 0x3D#6, 0x3E#6, 0x3F#6] : List (BitVec 6)) → ∀ r : BitVec 26,
        decode (m ++ r) = none

/-- What reset leaves (R103, R298, R301, R307, R425, R451): the package waits for its boot ROM, no link is up, every slot is free
with its caps at 32, every stack's refresh is skipping with no takeover, and the interleave map, the address-space roots and
the CXL capacities are zero; memory lists nothing (log 4 says what an unlisted byte reads as), and the state is sound. -/
def Obligations.ResetState : Prop :=
  let s := State.reset
  s.Inv ∧ s.mem = [] ∧ s.boot.phase = .powerOn ∧ s.now = 0
    ∧ (∀ n, (s.slot n).use = .free ∧ (s.slot n).scap = 32 ∧ (s.slot n).pcap = 32)
    ∧ (∀ k, s.hrsOf k = 1#64) ∧ (∀ g, s.imap.getD 0#64 g = 0#64) ∧ (∀ a, s.artb.getD 0#64 a = 0#64)
    ∧ (∀ p, s.cxlcap.getD 0#64 p = 0#64) ∧ (∀ p, (s.link p).up = false)

/-- DECODE AND ENCODE AGREE (R116, R123): for every well-formed instruction of the table, decoding the word that its encoding gives
answers it again, with every operand at every value. -/
def Obligations.DecodeEncode : Prop := ∀ i : Instr, Laws.RoundTrip.Statement i

/-- EVERY STEP KEEPS THE STATE SOUND: from any state whose memory is in its canonical form and whose stores are committed, a step
that answers a next state answers one of the same kind (logs 3 and 4). -/
def Obligations.StepKeepsInv : Prop := ∀ s t : State, s.Inv → step s = .next t → t.Inv
end

