-- ==== Sys2Proof/Laws/Memory.lean ====
section
/-! SUPPORT. The canonical byte store: reading after a byte is put, and every memory operation keeps the canonical form. -/

namespace Sys2Proof.Machine

/-! ### The canonical form is kept -/

theorem cellsAbove_mono {lo hi : Nat} (h : lo ≤ hi) : ∀ {m : List Host.Cell}, cellsAbove hi m = true → cellsAbove lo m = true
  | [], _ => rfl
  | (_, _) :: _, hm => by
    simp only [cellsAbove, Bool.and_eq_true, decide_eq_true_eq] at hm ⊢
    exact ⟨⟨by omega, hm.1.2⟩, hm.2⟩

theorem memPut_above {lo k : Nat} (b : Byte) (h : lo ≤ k) :
    ∀ {m : List Host.Cell}, cellsAbove lo m = true → cellsAbove lo (memPut m k b) = true
  | [], _ => by
    by_cases hb : b = unlistedByte <;> simp [memPut, cellsAbove, hb, h]
  | (k', b') :: r, hm => by
    simp only [cellsAbove, Bool.and_eq_true, decide_eq_true_eq] at hm
    by_cases he : k = k'
    · subst he
      by_cases hb : b = unlistedByte
      · simp only [memPut, if_pos hb]; exact cellsAbove_mono (by omega) hm.2
      · simp [memPut, cellsAbove, hb, hm.1.1, hm.2]
    · by_cases hl : k < k'
      · by_cases hb : b = unlistedByte
        · simp [memPut, cellsAbove, he, hl, hb, hm.1.1, hm.1.2, hm.2]
        · simp [memPut, cellsAbove, he, hl, hb, hm.1.2, hm.2, h]
      · have hr := memPut_above b (show k' + 1 ≤ k by omega) hm.2
        simp [memPut, cellsAbove, he, hl, hm.1.1, hm.1.2, hr]

/-- Putting a byte keeps the canonical form. -/
theorem memPut_wf {m : List Host.Cell} (k : Nat) (b : Byte) (h : Memory.wf m = true) : Memory.wf (memPut m k b) = true :=
  memPut_above b (Nat.zero_le k) h

/-- Committing a step's stores keeps the canonical form. -/
theorem commitStores_wf {m : List Host.Cell} (h : Memory.wf m = true) :
    ∀ st : List Host.Cell, Memory.wf (commitStores m st) = true
  | [] => h
  | (k, b) :: r => memPut_wf k b (commitStores_wf h r)

/-! ### Reading after a byte is put -/

theorem cellAt_above {lo k : Nat} (h : k < lo) : ∀ {m : List Host.Cell}, cellsAbove lo m = true → cellAt m k = none
  | [], _ => rfl
  | (k', _) :: r, hm => by
    simp only [cellsAbove, Bool.and_eq_true, decide_eq_true_eq] at hm
    have hne : k ≠ k' := by omega
    simp only [cellAt, if_neg hne]
    exact cellAt_above (lo := k' + 1) (by omega) hm.2

theorem cellAt_memPut_same_above {lo k : Nat} (b : Byte) :
    ∀ {m : List Host.Cell}, cellsAbove lo m = true → (cellAt (memPut m k b) k).getD unlistedByte = b
  | [], _ => by
    by_cases hb : b = unlistedByte <;> simp [memPut, cellAt, hb]
  | (k', b') :: r, hm => by
    simp only [cellsAbove, Bool.and_eq_true, decide_eq_true_eq] at hm
    by_cases he : k = k'
    · subst he
      by_cases hb : b = unlistedByte
      · simp [memPut, hb, cellAt_above (Nat.lt_succ_self k) hm.2]
      · simp [memPut, hb, cellAt]
    · by_cases hl : k < k'
      · by_cases hb : b = unlistedByte
        · simp [memPut, he, hl, hb, cellAt, cellAt_above (show k < k' + 1 by omega) hm.2]
        · simp [memPut, he, hl, hb, cellAt]
      · have := cellAt_memPut_same_above b hm.2 (k := k)
        simpa [memPut, he, hl, cellAt] using this

/-- The byte put is the byte read. -/
theorem cellAt_memPut_same {m : List Host.Cell} (k : Nat) (b : Byte) (h : Memory.wf m = true) :
    (cellAt (memPut m k b) k).getD unlistedByte = b := cellAt_memPut_same_above b h

/-- Every other location reads as before. -/
theorem cellAt_memPut_ne {k j : Nat} (b : Byte) (h : j ≠ k) : ∀ m : List Host.Cell, cellAt (memPut m k b) j = cellAt m j
  | [] => by
    by_cases hb : b = unlistedByte <;> simp [memPut, cellAt, hb, h]
  | (k', b') :: r => by
    by_cases he : k = k'
    · subst he
      by_cases hb : b = unlistedByte <;> simp [memPut, hb, cellAt, h]
    · by_cases hl : k < k'
      · by_cases hb : b = unlistedByte <;> simp [memPut, he, hl, hb, cellAt, h]
      · simp [memPut, he, hl, cellAt, cellAt_memPut_ne b h r]

/-! ### The bytes a step stores -/

@[simp] theorem State.byteAt_putByte_same (s : State) (k : Nat) (b : Byte) : (s.putByte k b).byteAt k = b := by
  simp [State.byteAt, State.putByte, cellAt]

theorem State.byteAt_putByte_ne (s : State) {k j : Nat} (b : Byte) (h : j ≠ k) : (s.putByte k b).byteAt j = s.byteAt j := by
  simp [State.byteAt, State.putByte, cellAt, h]

/-- A byte that is no memory is not stored. -/
theorem State.byteAt_writePhysByte_ne (s : State) (pa loc : Nat) (b : Byte) (h : s.placeOf pa ≠ .ram loc) :
    (s.writePhysByte pa b).byteAt loc = s.byteAt loc := by
  simp only [State.writePhysByte]
  split
  · next l hl => exact State.byteAt_putByte_ne s b (fun e => h (by rw [hl, e]))
  · rfl

@[simp] theorem State.writePhysByte_imap (s : State) (pa : Nat) (b : Byte) : (s.writePhysByte pa b).imap = s.imap := by
  simp only [State.writePhysByte]; split <;> rfl
@[simp] theorem State.writePhysByte_cxlcap (s : State) (pa : Nat) (b : Byte) : (s.writePhysByte pa b).cxlcap = s.cxlcap := by
  simp only [State.writePhysByte]; split <;> rfl

/-- Where an address lies depends on the interleave registers and the CXL capabilities alone. -/
theorem State.placeOf_congr {s t : State} (h1 : t.imap = s.imap) (h2 : t.cxlcap = s.cxlcap) (pa : Nat) :
    t.placeOf pa = s.placeOf pa := by
  simp only [State.placeOf, State.hbmLoc, State.imapIL, State.cxlHas, h1, h2]
  rfl

@[simp] theorem State.placeOf_writePhysByte (s : State) (pa : Nat) (b : Byte) (q : Nat) :
    (s.writePhysByte pa b).placeOf q = s.placeOf q := State.placeOf_congr (by simp) (by simp) q

/-- A run of bytes stored leaves every location that holds none of them (R5, R148). -/
theorem State.byteAt_writePhys_ne (loc : Nat) : ∀ (n : Nat) (s : State) (pa v : Nat),
    (∀ i, i < n → s.placeOf (pa + i) ≠ .ram loc) → (s.writePhys pa v n).byteAt loc = s.byteAt loc
  | 0, _, _, _, _ => rfl
  | n + 1, s, pa, v, h => by
    simp only [State.writePhys]
    rw [State.byteAt_writePhys_ne loc n _ _ _ (fun i hi => by
      rw [State.placeOf_writePhysByte]
      have := h (i + 1) (by omega)
      rwa [show pa + 1 + i = pa + (i + 1) by omega])]
    exact State.byteAt_writePhysByte_ne s pa loc _ (by simpa using h 0 (by omega))

/-! ### The end of a step -/

theorem cellAt_commitStores {m : List Host.Cell} (h : Memory.wf m = true) (loc : Nat) :
    ∀ st : List Host.Cell,
      (cellAt (commitStores m st) loc).getD unlistedByte =
        match cellAt st loc with | some b => b | none => (cellAt m loc).getD unlistedByte
  | [] => rfl
  | (k, b) :: r => by
    by_cases he : loc = k
    · subst he
      simp [commitStores, cellAt, cellAt_memPut_same loc b (commitStores_wf h r)]
    · simp only [commitStores, cellAt, if_neg he]
      rw [cellAt_memPut_ne b he]
      exact cellAt_commitStores h loc r

end Sys2Proof.Machine
end

