-- ==== Sys2Proof/Laws/State.lean ====
section
/-! SUPPORT. What each basic update of State leaves and writes: one lemma per field per update, true by rfl, so that no proof
unfolds a record update; and what reading a slot, course, partition or position after such an update gives. -/

namespace Sys2Proof.Machine

/-! ### Maps -/

/-- A key reads what was last set there. -/
@[simp] theorem Map.getD_set_same {α : Type} (d v : α) (k : Nat) : ∀ m : Map α, Map.getD d (Map.set m k v) k = v
  | [] => by simp [Map.set, Map.getD]
  | (k', v') :: r => by
    simp only [Map.set]
    split
    · simp [Map.getD]
    · split
      · simp [Map.getD]
      · next h _ => simp [Map.getD, h, Map.getD_set_same d v k r]

/-- Every other key reads as before. -/
theorem Map.getD_set_ne {α : Type} (d v : α) {k j : Nat} (h : j ≠ k) : ∀ m : Map α, Map.getD d (Map.set m k v) j = Map.getD d m j
  | [] => by simp [Map.set, Map.getD, h]
  | (k', v') :: r => by
    simp only [Map.set]
    split
    · next e => subst e; simp [Map.getD, h]
    · split
      · simp [Map.getD, h]
      · simp [Map.getD, Map.getD_set_ne d v h r]

theorem Map.getD_set {α : Type} (d v : α) (k j : Nat) (m : Map α) :
    Map.getD d (Map.set m k v) j = if j = k then v else Map.getD d m j := by
  split
  · next h => subst h; simp
  · next h => exact Map.getD_set_ne d v h m

/-! ### Updates through a function are updates by value -/

theorem State.modSlot_eq (s : State) (n : Nat) (f : Slot → Slot) : s.modSlot n f = s.setSlot n (f (s.slot n)) := rfl
theorem State.setThr_eq (s : State) (x : Slot) : s.setThr x = s.setSlot s.cur x := rfl
theorem State.modCourse_eq (s : State) (n : Nat) (f : Course → Course) : s.modCourse n f = s.setCourse n (f (s.course n)) := rfl
theorem State.modPart_eq (s : State) (n : Nat) (f : Part → Part) : s.modPart n f = s.setPart n (f (s.part n)) := rfl
theorem State.modPos_eq (s : State) (n : Nat) (f : Pos → Pos) : s.modPos n f = s.setPos n (f (s.pos n)) := rfl
theorem State.modFe_eq (s : State) (n : Nat) (f : Fe → Fe) : s.modFe n f = s.setFe n (f (s.fe n)) := rfl
theorem State.modPort_eq (s : State) (n : Nat) (f : Port → Port) : s.modPort n f = s.setPort n (f (s.port n)) := rfl
theorem State.modLink_eq (s : State) (n : Nat) (f : Link → Link) : s.modLink n f = s.setLink n (f (s.link n)) := rfl

/-! ### Reading what was set -/

@[simp] theorem State.slot_setSlot_same (s : State) (n : Nat) (x : Slot) : (s.setSlot n x).slot n = x := by
  simp [State.slot, State.setSlot]
theorem State.slot_setSlot_ne (s : State) {n m : Nat} (x : Slot) (h : m ≠ n) : (s.setSlot n x).slot m = s.slot m := by
  simp [State.slot, State.setSlot, Map.getD_set_ne _ _ h]
@[simp] theorem State.course_setCourse_same (s : State) (n : Nat) (x : Course) : (s.setCourse n x).course n = x := by
  simp [State.course, State.setCourse]
@[simp] theorem State.part_setPart_same (s : State) (n : Nat) (x : Part) : (s.setPart n x).part n = x := by
  simp [State.part, State.setPart]
@[simp] theorem State.pos_setPos_same (s : State) (n : Nat) (x : Pos) : (s.setPos n x).pos n = x := by
  simp [State.pos, State.setPos]
@[simp] theorem State.fe_setFe_same (s : State) (n : Nat) (x : Fe) : (s.setFe n x).fe n = x := by
  simp [State.fe, State.setFe]
@[simp] theorem State.port_setPort_same (s : State) (n : Nat) (x : Port) : (s.setPort n x).port n = x := by
  simp [State.port, State.setPort]
@[simp] theorem State.thr_setThr (s : State) (x : Slot) : (s.setThr x).thr = x := by
  simp [State.thr, State.setThr, State.slot, State.setSlot]
@[simp] theorem State.setThr_cur (s : State) (x : Slot) : (s.setThr x).cur = s.cur := rfl
@[simp] theorem State.thr_setCourse (s : State) (n : Nat) (x : Course) : (s.setCourse n x).thr = s.thr := rfl
@[simp] theorem State.setThr_setThr (s : State) (x y : Slot) : ((s.setThr x).setThr y).thr = y := by simp

/-! ### setSlot -/

@[simp] theorem State.setSlot_tick (s : State) (n : Nat) (x : Slot) : (s.setSlot n x).tick = s.tick := rfl
@[simp] theorem State.setSlot_freeCnt (s : State) (n : Nat) (x : Slot) : (s.setSlot n x).freeCnt = s.freeCnt := rfl
@[simp] theorem State.setSlot_agenda (s : State) (n : Nat) (x : Slot) : (s.setSlot n x).agenda = s.agenda := rfl
@[simp] theorem State.setSlot_cur (s : State) (n : Nat) (x : Slot) : (s.setSlot n x).cur = s.cur := rfl
@[simp] theorem State.setSlot_now (s : State) (n : Nat) (x : Slot) : (s.setSlot n x).now = s.now := rfl
@[simp] theorem State.setSlot_stores (s : State) (n : Nat) (x : Slot) : (s.setSlot n x).stores = s.stores := rfl
@[simp] theorem State.setSlot_mem (s : State) (n : Nat) (x : Slot) : (s.setSlot n x).mem = s.mem := rfl
@[simp] theorem State.setSlot_poison (s : State) (n : Nat) (x : Slot) : (s.setSlot n x).poison = s.poison := rfl
@[simp] theorem State.setSlot_imap (s : State) (n : Nat) (x : Slot) : (s.setSlot n x).imap = s.imap := rfl
@[simp] theorem State.setSlot_artb (s : State) (n : Nat) (x : Slot) : (s.setSlot n x).artb = s.artb := rfl
@[simp] theorem State.setSlot_hrs (s : State) (n : Nat) (x : Slot) : (s.setSlot n x).hrs = s.hrs := rfl
@[simp] theorem State.setSlot_cxlcap (s : State) (n : Nat) (x : Slot) : (s.setSlot n x).cxlcap = s.cxlcap := rfl
@[simp] theorem State.setSlot_rowGroups (s : State) (n : Nat) (x : Slot) : (s.setSlot n x).rowGroups = s.rowGroups := rfl
@[simp] theorem State.setSlot_stackMgrs (s : State) (n : Nat) (x : Slot) : (s.setSlot n x).stackMgrs = s.stackMgrs := rfl
@[simp] theorem State.setSlot_tlbs (s : State) (n : Nat) (x : Slot) : (s.setSlot n x).tlbs = s.tlbs := rfl
@[simp] theorem State.setSlot_ptrs (s : State) (n : Nat) (x : Slot) : (s.setSlot n x).ptrs = s.ptrs := rfl
@[simp] theorem State.setSlot_icaches (s : State) (n : Nat) (x : Slot) : (s.setSlot n x).icaches = s.icaches := rfl
@[simp] theorem State.setSlot_invals (s : State) (n : Nat) (x : Slot) : (s.setSlot n x).invals = s.invals := rfl
@[simp] theorem State.setSlot_parked (s : State) (n : Nat) (x : Slot) : (s.setSlot n x).parked = s.parked := rfl
@[simp] theorem State.setSlot_nextId (s : State) (n : Nat) (x : Slot) : (s.setSlot n x).nextId = s.nextId := rfl
@[simp] theorem State.setSlot_parts (s : State) (n : Nat) (x : Slot) : (s.setSlot n x).parts = s.parts := rfl
@[simp] theorem State.setSlot_courses (s : State) (n : Nat) (x : Slot) : (s.setSlot n x).courses = s.courses := rfl
@[simp] theorem State.setSlot_jobs (s : State) (n : Nat) (x : Slot) : (s.setSlot n x).jobs = s.jobs := rfl
@[simp] theorem State.setSlot_firings (s : State) (n : Nat) (x : Slot) : (s.setSlot n x).firings = s.firings := rfl
@[simp] theorem State.setSlot_irqs (s : State) (n : Nat) (x : Slot) : (s.setSlot n x).irqs = s.irqs := rfl
@[simp] theorem State.setSlot_poss (s : State) (n : Nat) (x : Slot) : (s.setSlot n x).poss = s.poss := rfl
@[simp] theorem State.setSlot_ports (s : State) (n : Nat) (x : Slot) : (s.setSlot n x).ports = s.ports := rfl
@[simp] theorem State.setSlot_spills (s : State) (n : Nat) (x : Slot) : (s.setSlot n x).spills = s.spills := rfl
@[simp] theorem State.setSlot_fes (s : State) (n : Nat) (x : Slot) : (s.setSlot n x).fes = s.fes := rfl
@[simp] theorem State.setSlot_gates (s : State) (n : Nat) (x : Slot) : (s.setSlot n x).gates = s.gates := rfl
@[simp] theorem State.setSlot_ctlGates (s : State) (n : Nat) (x : Slot) : (s.setSlot n x).ctlGates = s.ctlGates := rfl
@[simp] theorem State.setSlot_runs (s : State) (n : Nat) (x : Slot) : (s.setSlot n x).runs = s.runs := rfl
@[simp] theorem State.setSlot_grants (s : State) (n : Nat) (x : Slot) : (s.setSlot n x).grants = s.grants := rfl
@[simp] theorem State.setSlot_copies (s : State) (n : Nat) (x : Slot) : (s.setSlot n x).copies = s.copies := rfl
@[simp] theorem State.setSlot_rops (s : State) (n : Nat) (x : Slot) : (s.setSlot n x).rops = s.rops := rfl
@[simp] theorem State.setSlot_toks (s : State) (n : Nat) (x : Slot) : (s.setSlot n x).toks = s.toks := rfl
@[simp] theorem State.setSlot_serial (s : State) (n : Nat) (x : Slot) : (s.setSlot n x).serial = s.serial := rfl
@[simp] theorem State.setSlot_landed (s : State) (n : Nat) (x : Slot) : (s.setSlot n x).landed = s.landed := rfl
@[simp] theorem State.setSlot_watches (s : State) (n : Nat) (x : Slot) : (s.setSlot n x).watches = s.watches := rfl
@[simp] theorem State.setSlot_handlers (s : State) (n : Nat) (x : Slot) : (s.setSlot n x).handlers = s.handlers := rfl
@[simp] theorem State.setSlot_rtcs (s : State) (n : Nat) (x : Slot) : (s.setSlot n x).rtcs = s.rtcs := rfl
@[simp] theorem State.setSlot_dirs (s : State) (n : Nat) (x : Slot) : (s.setSlot n x).dirs = s.dirs := rfl
@[simp] theorem State.setSlot_links (s : State) (n : Nat) (x : Slot) : (s.setSlot n x).links = s.links := rfl
@[simp] theorem State.setSlot_forwarded (s : State) (n : Nat) (x : Slot) : (s.setSlot n x).forwarded = s.forwarded := rfl
@[simp] theorem State.setSlot_pkg (s : State) (n : Nat) (x : Slot) : (s.setSlot n x).pkg = s.pkg := rfl
@[simp] theorem State.setSlot_mgmt (s : State) (n : Nat) (x : Slot) : (s.setSlot n x).mgmt = s.mgmt := rfl
@[simp] theorem State.setSlot_meters (s : State) (n : Nat) (x : Slot) : (s.setSlot n x).meters = s.meters := rfl
@[simp] theorem State.setSlot_power (s : State) (n : Nat) (x : Slot) : (s.setSlot n x).power = s.power := rfl
@[simp] theorem State.setSlot_idleSince (s : State) (n : Nat) (x : Slot) : (s.setSlot n x).idleSince = s.idleSince := rfl
@[simp] theorem State.setSlot_report (s : State) (n : Nat) (x : Slot) : (s.setSlot n x).report = s.report := rfl
@[simp] theorem State.setSlot_dies (s : State) (n : Nat) (x : Slot) : (s.setSlot n x).dies = s.dies := rfl
@[simp] theorem State.setSlot_boot (s : State) (n : Nat) (x : Slot) : (s.setSlot n x).boot = s.boot := rfl
@[simp] theorem State.setSlot_hostRead (s : State) (n : Nat) (x : Slot) : (s.setSlot n x).hostRead = s.hostRead := rfl

/-! ### setCourse -/

@[simp] theorem State.setCourse_tick (s : State) (n : Nat) (x : Course) : (s.setCourse n x).tick = s.tick := rfl
@[simp] theorem State.setCourse_freeCnt (s : State) (n : Nat) (x : Course) : (s.setCourse n x).freeCnt = s.freeCnt := rfl
@[simp] theorem State.setCourse_agenda (s : State) (n : Nat) (x : Course) : (s.setCourse n x).agenda = s.agenda := rfl
@[simp] theorem State.setCourse_cur (s : State) (n : Nat) (x : Course) : (s.setCourse n x).cur = s.cur := rfl
@[simp] theorem State.setCourse_now (s : State) (n : Nat) (x : Course) : (s.setCourse n x).now = s.now := rfl
@[simp] theorem State.setCourse_stores (s : State) (n : Nat) (x : Course) : (s.setCourse n x).stores = s.stores := rfl
@[simp] theorem State.setCourse_mem (s : State) (n : Nat) (x : Course) : (s.setCourse n x).mem = s.mem := rfl
@[simp] theorem State.setCourse_poison (s : State) (n : Nat) (x : Course) : (s.setCourse n x).poison = s.poison := rfl
@[simp] theorem State.setCourse_imap (s : State) (n : Nat) (x : Course) : (s.setCourse n x).imap = s.imap := rfl
@[simp] theorem State.setCourse_artb (s : State) (n : Nat) (x : Course) : (s.setCourse n x).artb = s.artb := rfl
@[simp] theorem State.setCourse_hrs (s : State) (n : Nat) (x : Course) : (s.setCourse n x).hrs = s.hrs := rfl
@[simp] theorem State.setCourse_cxlcap (s : State) (n : Nat) (x : Course) : (s.setCourse n x).cxlcap = s.cxlcap := rfl
@[simp] theorem State.setCourse_rowGroups (s : State) (n : Nat) (x : Course) : (s.setCourse n x).rowGroups = s.rowGroups := rfl
@[simp] theorem State.setCourse_stackMgrs (s : State) (n : Nat) (x : Course) : (s.setCourse n x).stackMgrs = s.stackMgrs := rfl
@[simp] theorem State.setCourse_tlbs (s : State) (n : Nat) (x : Course) : (s.setCourse n x).tlbs = s.tlbs := rfl
@[simp] theorem State.setCourse_ptrs (s : State) (n : Nat) (x : Course) : (s.setCourse n x).ptrs = s.ptrs := rfl
@[simp] theorem State.setCourse_icaches (s : State) (n : Nat) (x : Course) : (s.setCourse n x).icaches = s.icaches := rfl
@[simp] theorem State.setCourse_invals (s : State) (n : Nat) (x : Course) : (s.setCourse n x).invals = s.invals := rfl
@[simp] theorem State.setCourse_parked (s : State) (n : Nat) (x : Course) : (s.setCourse n x).parked = s.parked := rfl
@[simp] theorem State.setCourse_nextId (s : State) (n : Nat) (x : Course) : (s.setCourse n x).nextId = s.nextId := rfl
@[simp] theorem State.setCourse_parts (s : State) (n : Nat) (x : Course) : (s.setCourse n x).parts = s.parts := rfl
@[simp] theorem State.setCourse_slots (s : State) (n : Nat) (x : Course) : (s.setCourse n x).slots = s.slots := rfl
@[simp] theorem State.setCourse_jobs (s : State) (n : Nat) (x : Course) : (s.setCourse n x).jobs = s.jobs := rfl
@[simp] theorem State.setCourse_firings (s : State) (n : Nat) (x : Course) : (s.setCourse n x).firings = s.firings := rfl
@[simp] theorem State.setCourse_irqs (s : State) (n : Nat) (x : Course) : (s.setCourse n x).irqs = s.irqs := rfl
@[simp] theorem State.setCourse_poss (s : State) (n : Nat) (x : Course) : (s.setCourse n x).poss = s.poss := rfl
@[simp] theorem State.setCourse_ports (s : State) (n : Nat) (x : Course) : (s.setCourse n x).ports = s.ports := rfl
@[simp] theorem State.setCourse_spills (s : State) (n : Nat) (x : Course) : (s.setCourse n x).spills = s.spills := rfl
@[simp] theorem State.setCourse_fes (s : State) (n : Nat) (x : Course) : (s.setCourse n x).fes = s.fes := rfl
@[simp] theorem State.setCourse_gates (s : State) (n : Nat) (x : Course) : (s.setCourse n x).gates = s.gates := rfl
@[simp] theorem State.setCourse_ctlGates (s : State) (n : Nat) (x : Course) : (s.setCourse n x).ctlGates = s.ctlGates := rfl
@[simp] theorem State.setCourse_runs (s : State) (n : Nat) (x : Course) : (s.setCourse n x).runs = s.runs := rfl
@[simp] theorem State.setCourse_grants (s : State) (n : Nat) (x : Course) : (s.setCourse n x).grants = s.grants := rfl
@[simp] theorem State.setCourse_copies (s : State) (n : Nat) (x : Course) : (s.setCourse n x).copies = s.copies := rfl
@[simp] theorem State.setCourse_rops (s : State) (n : Nat) (x : Course) : (s.setCourse n x).rops = s.rops := rfl
@[simp] theorem State.setCourse_toks (s : State) (n : Nat) (x : Course) : (s.setCourse n x).toks = s.toks := rfl
@[simp] theorem State.setCourse_serial (s : State) (n : Nat) (x : Course) : (s.setCourse n x).serial = s.serial := rfl
@[simp] theorem State.setCourse_landed (s : State) (n : Nat) (x : Course) : (s.setCourse n x).landed = s.landed := rfl
@[simp] theorem State.setCourse_watches (s : State) (n : Nat) (x : Course) : (s.setCourse n x).watches = s.watches := rfl
@[simp] theorem State.setCourse_handlers (s : State) (n : Nat) (x : Course) : (s.setCourse n x).handlers = s.handlers := rfl
@[simp] theorem State.setCourse_rtcs (s : State) (n : Nat) (x : Course) : (s.setCourse n x).rtcs = s.rtcs := rfl
@[simp] theorem State.setCourse_dirs (s : State) (n : Nat) (x : Course) : (s.setCourse n x).dirs = s.dirs := rfl
@[simp] theorem State.setCourse_links (s : State) (n : Nat) (x : Course) : (s.setCourse n x).links = s.links := rfl
@[simp] theorem State.setCourse_forwarded (s : State) (n : Nat) (x : Course) : (s.setCourse n x).forwarded = s.forwarded := rfl
@[simp] theorem State.setCourse_pkg (s : State) (n : Nat) (x : Course) : (s.setCourse n x).pkg = s.pkg := rfl
@[simp] theorem State.setCourse_mgmt (s : State) (n : Nat) (x : Course) : (s.setCourse n x).mgmt = s.mgmt := rfl
@[simp] theorem State.setCourse_meters (s : State) (n : Nat) (x : Course) : (s.setCourse n x).meters = s.meters := rfl
@[simp] theorem State.setCourse_power (s : State) (n : Nat) (x : Course) : (s.setCourse n x).power = s.power := rfl
@[simp] theorem State.setCourse_idleSince (s : State) (n : Nat) (x : Course) : (s.setCourse n x).idleSince = s.idleSince := rfl
@[simp] theorem State.setCourse_report (s : State) (n : Nat) (x : Course) : (s.setCourse n x).report = s.report := rfl
@[simp] theorem State.setCourse_dies (s : State) (n : Nat) (x : Course) : (s.setCourse n x).dies = s.dies := rfl
@[simp] theorem State.setCourse_boot (s : State) (n : Nat) (x : Course) : (s.setCourse n x).boot = s.boot := rfl
@[simp] theorem State.setCourse_hostRead (s : State) (n : Nat) (x : Course) : (s.setCourse n x).hostRead = s.hostRead := rfl

/-! ### setPart -/

@[simp] theorem State.setPart_tick (s : State) (n : Nat) (x : Part) : (s.setPart n x).tick = s.tick := rfl
@[simp] theorem State.setPart_freeCnt (s : State) (n : Nat) (x : Part) : (s.setPart n x).freeCnt = s.freeCnt := rfl
@[simp] theorem State.setPart_agenda (s : State) (n : Nat) (x : Part) : (s.setPart n x).agenda = s.agenda := rfl
@[simp] theorem State.setPart_cur (s : State) (n : Nat) (x : Part) : (s.setPart n x).cur = s.cur := rfl
@[simp] theorem State.setPart_now (s : State) (n : Nat) (x : Part) : (s.setPart n x).now = s.now := rfl
@[simp] theorem State.setPart_stores (s : State) (n : Nat) (x : Part) : (s.setPart n x).stores = s.stores := rfl
@[simp] theorem State.setPart_mem (s : State) (n : Nat) (x : Part) : (s.setPart n x).mem = s.mem := rfl
@[simp] theorem State.setPart_poison (s : State) (n : Nat) (x : Part) : (s.setPart n x).poison = s.poison := rfl
@[simp] theorem State.setPart_imap (s : State) (n : Nat) (x : Part) : (s.setPart n x).imap = s.imap := rfl
@[simp] theorem State.setPart_artb (s : State) (n : Nat) (x : Part) : (s.setPart n x).artb = s.artb := rfl
@[simp] theorem State.setPart_hrs (s : State) (n : Nat) (x : Part) : (s.setPart n x).hrs = s.hrs := rfl
@[simp] theorem State.setPart_cxlcap (s : State) (n : Nat) (x : Part) : (s.setPart n x).cxlcap = s.cxlcap := rfl
@[simp] theorem State.setPart_rowGroups (s : State) (n : Nat) (x : Part) : (s.setPart n x).rowGroups = s.rowGroups := rfl
@[simp] theorem State.setPart_stackMgrs (s : State) (n : Nat) (x : Part) : (s.setPart n x).stackMgrs = s.stackMgrs := rfl
@[simp] theorem State.setPart_tlbs (s : State) (n : Nat) (x : Part) : (s.setPart n x).tlbs = s.tlbs := rfl
@[simp] theorem State.setPart_ptrs (s : State) (n : Nat) (x : Part) : (s.setPart n x).ptrs = s.ptrs := rfl
@[simp] theorem State.setPart_icaches (s : State) (n : Nat) (x : Part) : (s.setPart n x).icaches = s.icaches := rfl
@[simp] theorem State.setPart_invals (s : State) (n : Nat) (x : Part) : (s.setPart n x).invals = s.invals := rfl
@[simp] theorem State.setPart_parked (s : State) (n : Nat) (x : Part) : (s.setPart n x).parked = s.parked := rfl
@[simp] theorem State.setPart_nextId (s : State) (n : Nat) (x : Part) : (s.setPart n x).nextId = s.nextId := rfl
@[simp] theorem State.setPart_slots (s : State) (n : Nat) (x : Part) : (s.setPart n x).slots = s.slots := rfl
@[simp] theorem State.setPart_courses (s : State) (n : Nat) (x : Part) : (s.setPart n x).courses = s.courses := rfl
@[simp] theorem State.setPart_jobs (s : State) (n : Nat) (x : Part) : (s.setPart n x).jobs = s.jobs := rfl
@[simp] theorem State.setPart_firings (s : State) (n : Nat) (x : Part) : (s.setPart n x).firings = s.firings := rfl
@[simp] theorem State.setPart_irqs (s : State) (n : Nat) (x : Part) : (s.setPart n x).irqs = s.irqs := rfl
@[simp] theorem State.setPart_poss (s : State) (n : Nat) (x : Part) : (s.setPart n x).poss = s.poss := rfl
@[simp] theorem State.setPart_ports (s : State) (n : Nat) (x : Part) : (s.setPart n x).ports = s.ports := rfl
@[simp] theorem State.setPart_spills (s : State) (n : Nat) (x : Part) : (s.setPart n x).spills = s.spills := rfl
@[simp] theorem State.setPart_fes (s : State) (n : Nat) (x : Part) : (s.setPart n x).fes = s.fes := rfl
@[simp] theorem State.setPart_gates (s : State) (n : Nat) (x : Part) : (s.setPart n x).gates = s.gates := rfl
@[simp] theorem State.setPart_ctlGates (s : State) (n : Nat) (x : Part) : (s.setPart n x).ctlGates = s.ctlGates := rfl
@[simp] theorem State.setPart_runs (s : State) (n : Nat) (x : Part) : (s.setPart n x).runs = s.runs := rfl
@[simp] theorem State.setPart_grants (s : State) (n : Nat) (x : Part) : (s.setPart n x).grants = s.grants := rfl
@[simp] theorem State.setPart_copies (s : State) (n : Nat) (x : Part) : (s.setPart n x).copies = s.copies := rfl
@[simp] theorem State.setPart_rops (s : State) (n : Nat) (x : Part) : (s.setPart n x).rops = s.rops := rfl
@[simp] theorem State.setPart_toks (s : State) (n : Nat) (x : Part) : (s.setPart n x).toks = s.toks := rfl
@[simp] theorem State.setPart_serial (s : State) (n : Nat) (x : Part) : (s.setPart n x).serial = s.serial := rfl
@[simp] theorem State.setPart_landed (s : State) (n : Nat) (x : Part) : (s.setPart n x).landed = s.landed := rfl
@[simp] theorem State.setPart_watches (s : State) (n : Nat) (x : Part) : (s.setPart n x).watches = s.watches := rfl
@[simp] theorem State.setPart_handlers (s : State) (n : Nat) (x : Part) : (s.setPart n x).handlers = s.handlers := rfl
@[simp] theorem State.setPart_rtcs (s : State) (n : Nat) (x : Part) : (s.setPart n x).rtcs = s.rtcs := rfl
@[simp] theorem State.setPart_dirs (s : State) (n : Nat) (x : Part) : (s.setPart n x).dirs = s.dirs := rfl
@[simp] theorem State.setPart_links (s : State) (n : Nat) (x : Part) : (s.setPart n x).links = s.links := rfl
@[simp] theorem State.setPart_forwarded (s : State) (n : Nat) (x : Part) : (s.setPart n x).forwarded = s.forwarded := rfl
@[simp] theorem State.setPart_pkg (s : State) (n : Nat) (x : Part) : (s.setPart n x).pkg = s.pkg := rfl
@[simp] theorem State.setPart_mgmt (s : State) (n : Nat) (x : Part) : (s.setPart n x).mgmt = s.mgmt := rfl
@[simp] theorem State.setPart_meters (s : State) (n : Nat) (x : Part) : (s.setPart n x).meters = s.meters := rfl
@[simp] theorem State.setPart_power (s : State) (n : Nat) (x : Part) : (s.setPart n x).power = s.power := rfl
@[simp] theorem State.setPart_idleSince (s : State) (n : Nat) (x : Part) : (s.setPart n x).idleSince = s.idleSince := rfl
@[simp] theorem State.setPart_report (s : State) (n : Nat) (x : Part) : (s.setPart n x).report = s.report := rfl
@[simp] theorem State.setPart_dies (s : State) (n : Nat) (x : Part) : (s.setPart n x).dies = s.dies := rfl
@[simp] theorem State.setPart_boot (s : State) (n : Nat) (x : Part) : (s.setPart n x).boot = s.boot := rfl
@[simp] theorem State.setPart_hostRead (s : State) (n : Nat) (x : Part) : (s.setPart n x).hostRead = s.hostRead := rfl

/-! ### setPos -/

@[simp] theorem State.setPos_tick (s : State) (n : Nat) (x : Pos) : (s.setPos n x).tick = s.tick := rfl
@[simp] theorem State.setPos_freeCnt (s : State) (n : Nat) (x : Pos) : (s.setPos n x).freeCnt = s.freeCnt := rfl
@[simp] theorem State.setPos_agenda (s : State) (n : Nat) (x : Pos) : (s.setPos n x).agenda = s.agenda := rfl
@[simp] theorem State.setPos_cur (s : State) (n : Nat) (x : Pos) : (s.setPos n x).cur = s.cur := rfl
@[simp] theorem State.setPos_now (s : State) (n : Nat) (x : Pos) : (s.setPos n x).now = s.now := rfl
@[simp] theorem State.setPos_stores (s : State) (n : Nat) (x : Pos) : (s.setPos n x).stores = s.stores := rfl
@[simp] theorem State.setPos_mem (s : State) (n : Nat) (x : Pos) : (s.setPos n x).mem = s.mem := rfl
@[simp] theorem State.setPos_poison (s : State) (n : Nat) (x : Pos) : (s.setPos n x).poison = s.poison := rfl
@[simp] theorem State.setPos_imap (s : State) (n : Nat) (x : Pos) : (s.setPos n x).imap = s.imap := rfl
@[simp] theorem State.setPos_artb (s : State) (n : Nat) (x : Pos) : (s.setPos n x).artb = s.artb := rfl
@[simp] theorem State.setPos_hrs (s : State) (n : Nat) (x : Pos) : (s.setPos n x).hrs = s.hrs := rfl
@[simp] theorem State.setPos_cxlcap (s : State) (n : Nat) (x : Pos) : (s.setPos n x).cxlcap = s.cxlcap := rfl
@[simp] theorem State.setPos_rowGroups (s : State) (n : Nat) (x : Pos) : (s.setPos n x).rowGroups = s.rowGroups := rfl
@[simp] theorem State.setPos_stackMgrs (s : State) (n : Nat) (x : Pos) : (s.setPos n x).stackMgrs = s.stackMgrs := rfl
@[simp] theorem State.setPos_tlbs (s : State) (n : Nat) (x : Pos) : (s.setPos n x).tlbs = s.tlbs := rfl
@[simp] theorem State.setPos_ptrs (s : State) (n : Nat) (x : Pos) : (s.setPos n x).ptrs = s.ptrs := rfl
@[simp] theorem State.setPos_icaches (s : State) (n : Nat) (x : Pos) : (s.setPos n x).icaches = s.icaches := rfl
@[simp] theorem State.setPos_invals (s : State) (n : Nat) (x : Pos) : (s.setPos n x).invals = s.invals := rfl
@[simp] theorem State.setPos_parked (s : State) (n : Nat) (x : Pos) : (s.setPos n x).parked = s.parked := rfl
@[simp] theorem State.setPos_nextId (s : State) (n : Nat) (x : Pos) : (s.setPos n x).nextId = s.nextId := rfl
@[simp] theorem State.setPos_parts (s : State) (n : Nat) (x : Pos) : (s.setPos n x).parts = s.parts := rfl
@[simp] theorem State.setPos_slots (s : State) (n : Nat) (x : Pos) : (s.setPos n x).slots = s.slots := rfl
@[simp] theorem State.setPos_courses (s : State) (n : Nat) (x : Pos) : (s.setPos n x).courses = s.courses := rfl
@[simp] theorem State.setPos_jobs (s : State) (n : Nat) (x : Pos) : (s.setPos n x).jobs = s.jobs := rfl
@[simp] theorem State.setPos_firings (s : State) (n : Nat) (x : Pos) : (s.setPos n x).firings = s.firings := rfl
@[simp] theorem State.setPos_irqs (s : State) (n : Nat) (x : Pos) : (s.setPos n x).irqs = s.irqs := rfl
@[simp] theorem State.setPos_ports (s : State) (n : Nat) (x : Pos) : (s.setPos n x).ports = s.ports := rfl
@[simp] theorem State.setPos_spills (s : State) (n : Nat) (x : Pos) : (s.setPos n x).spills = s.spills := rfl
@[simp] theorem State.setPos_fes (s : State) (n : Nat) (x : Pos) : (s.setPos n x).fes = s.fes := rfl
@[simp] theorem State.setPos_gates (s : State) (n : Nat) (x : Pos) : (s.setPos n x).gates = s.gates := rfl
@[simp] theorem State.setPos_ctlGates (s : State) (n : Nat) (x : Pos) : (s.setPos n x).ctlGates = s.ctlGates := rfl
@[simp] theorem State.setPos_runs (s : State) (n : Nat) (x : Pos) : (s.setPos n x).runs = s.runs := rfl
@[simp] theorem State.setPos_grants (s : State) (n : Nat) (x : Pos) : (s.setPos n x).grants = s.grants := rfl
@[simp] theorem State.setPos_copies (s : State) (n : Nat) (x : Pos) : (s.setPos n x).copies = s.copies := rfl
@[simp] theorem State.setPos_rops (s : State) (n : Nat) (x : Pos) : (s.setPos n x).rops = s.rops := rfl
@[simp] theorem State.setPos_toks (s : State) (n : Nat) (x : Pos) : (s.setPos n x).toks = s.toks := rfl
@[simp] theorem State.setPos_serial (s : State) (n : Nat) (x : Pos) : (s.setPos n x).serial = s.serial := rfl
@[simp] theorem State.setPos_landed (s : State) (n : Nat) (x : Pos) : (s.setPos n x).landed = s.landed := rfl
@[simp] theorem State.setPos_watches (s : State) (n : Nat) (x : Pos) : (s.setPos n x).watches = s.watches := rfl
@[simp] theorem State.setPos_handlers (s : State) (n : Nat) (x : Pos) : (s.setPos n x).handlers = s.handlers := rfl
@[simp] theorem State.setPos_rtcs (s : State) (n : Nat) (x : Pos) : (s.setPos n x).rtcs = s.rtcs := rfl
@[simp] theorem State.setPos_dirs (s : State) (n : Nat) (x : Pos) : (s.setPos n x).dirs = s.dirs := rfl
@[simp] theorem State.setPos_links (s : State) (n : Nat) (x : Pos) : (s.setPos n x).links = s.links := rfl
@[simp] theorem State.setPos_forwarded (s : State) (n : Nat) (x : Pos) : (s.setPos n x).forwarded = s.forwarded := rfl
@[simp] theorem State.setPos_pkg (s : State) (n : Nat) (x : Pos) : (s.setPos n x).pkg = s.pkg := rfl
@[simp] theorem State.setPos_mgmt (s : State) (n : Nat) (x : Pos) : (s.setPos n x).mgmt = s.mgmt := rfl
@[simp] theorem State.setPos_meters (s : State) (n : Nat) (x : Pos) : (s.setPos n x).meters = s.meters := rfl
@[simp] theorem State.setPos_power (s : State) (n : Nat) (x : Pos) : (s.setPos n x).power = s.power := rfl
@[simp] theorem State.setPos_idleSince (s : State) (n : Nat) (x : Pos) : (s.setPos n x).idleSince = s.idleSince := rfl
@[simp] theorem State.setPos_report (s : State) (n : Nat) (x : Pos) : (s.setPos n x).report = s.report := rfl
@[simp] theorem State.setPos_dies (s : State) (n : Nat) (x : Pos) : (s.setPos n x).dies = s.dies := rfl
@[simp] theorem State.setPos_boot (s : State) (n : Nat) (x : Pos) : (s.setPos n x).boot = s.boot := rfl
@[simp] theorem State.setPos_hostRead (s : State) (n : Nat) (x : Pos) : (s.setPos n x).hostRead = s.hostRead := rfl

/-! ### setFe -/

@[simp] theorem State.setFe_tick (s : State) (n : Nat) (x : Fe) : (s.setFe n x).tick = s.tick := rfl
@[simp] theorem State.setFe_freeCnt (s : State) (n : Nat) (x : Fe) : (s.setFe n x).freeCnt = s.freeCnt := rfl
@[simp] theorem State.setFe_agenda (s : State) (n : Nat) (x : Fe) : (s.setFe n x).agenda = s.agenda := rfl
@[simp] theorem State.setFe_cur (s : State) (n : Nat) (x : Fe) : (s.setFe n x).cur = s.cur := rfl
@[simp] theorem State.setFe_now (s : State) (n : Nat) (x : Fe) : (s.setFe n x).now = s.now := rfl
@[simp] theorem State.setFe_stores (s : State) (n : Nat) (x : Fe) : (s.setFe n x).stores = s.stores := rfl
@[simp] theorem State.setFe_mem (s : State) (n : Nat) (x : Fe) : (s.setFe n x).mem = s.mem := rfl
@[simp] theorem State.setFe_poison (s : State) (n : Nat) (x : Fe) : (s.setFe n x).poison = s.poison := rfl
@[simp] theorem State.setFe_imap (s : State) (n : Nat) (x : Fe) : (s.setFe n x).imap = s.imap := rfl
@[simp] theorem State.setFe_artb (s : State) (n : Nat) (x : Fe) : (s.setFe n x).artb = s.artb := rfl
@[simp] theorem State.setFe_hrs (s : State) (n : Nat) (x : Fe) : (s.setFe n x).hrs = s.hrs := rfl
@[simp] theorem State.setFe_cxlcap (s : State) (n : Nat) (x : Fe) : (s.setFe n x).cxlcap = s.cxlcap := rfl
@[simp] theorem State.setFe_rowGroups (s : State) (n : Nat) (x : Fe) : (s.setFe n x).rowGroups = s.rowGroups := rfl
@[simp] theorem State.setFe_stackMgrs (s : State) (n : Nat) (x : Fe) : (s.setFe n x).stackMgrs = s.stackMgrs := rfl
@[simp] theorem State.setFe_tlbs (s : State) (n : Nat) (x : Fe) : (s.setFe n x).tlbs = s.tlbs := rfl
@[simp] theorem State.setFe_ptrs (s : State) (n : Nat) (x : Fe) : (s.setFe n x).ptrs = s.ptrs := rfl
@[simp] theorem State.setFe_icaches (s : State) (n : Nat) (x : Fe) : (s.setFe n x).icaches = s.icaches := rfl
@[simp] theorem State.setFe_invals (s : State) (n : Nat) (x : Fe) : (s.setFe n x).invals = s.invals := rfl
@[simp] theorem State.setFe_parked (s : State) (n : Nat) (x : Fe) : (s.setFe n x).parked = s.parked := rfl
@[simp] theorem State.setFe_nextId (s : State) (n : Nat) (x : Fe) : (s.setFe n x).nextId = s.nextId := rfl
@[simp] theorem State.setFe_parts (s : State) (n : Nat) (x : Fe) : (s.setFe n x).parts = s.parts := rfl
@[simp] theorem State.setFe_slots (s : State) (n : Nat) (x : Fe) : (s.setFe n x).slots = s.slots := rfl
@[simp] theorem State.setFe_courses (s : State) (n : Nat) (x : Fe) : (s.setFe n x).courses = s.courses := rfl
@[simp] theorem State.setFe_jobs (s : State) (n : Nat) (x : Fe) : (s.setFe n x).jobs = s.jobs := rfl
@[simp] theorem State.setFe_firings (s : State) (n : Nat) (x : Fe) : (s.setFe n x).firings = s.firings := rfl
@[simp] theorem State.setFe_irqs (s : State) (n : Nat) (x : Fe) : (s.setFe n x).irqs = s.irqs := rfl
@[simp] theorem State.setFe_poss (s : State) (n : Nat) (x : Fe) : (s.setFe n x).poss = s.poss := rfl
@[simp] theorem State.setFe_ports (s : State) (n : Nat) (x : Fe) : (s.setFe n x).ports = s.ports := rfl
@[simp] theorem State.setFe_spills (s : State) (n : Nat) (x : Fe) : (s.setFe n x).spills = s.spills := rfl
@[simp] theorem State.setFe_gates (s : State) (n : Nat) (x : Fe) : (s.setFe n x).gates = s.gates := rfl
@[simp] theorem State.setFe_ctlGates (s : State) (n : Nat) (x : Fe) : (s.setFe n x).ctlGates = s.ctlGates := rfl
@[simp] theorem State.setFe_runs (s : State) (n : Nat) (x : Fe) : (s.setFe n x).runs = s.runs := rfl
@[simp] theorem State.setFe_grants (s : State) (n : Nat) (x : Fe) : (s.setFe n x).grants = s.grants := rfl
@[simp] theorem State.setFe_copies (s : State) (n : Nat) (x : Fe) : (s.setFe n x).copies = s.copies := rfl
@[simp] theorem State.setFe_rops (s : State) (n : Nat) (x : Fe) : (s.setFe n x).rops = s.rops := rfl
@[simp] theorem State.setFe_toks (s : State) (n : Nat) (x : Fe) : (s.setFe n x).toks = s.toks := rfl
@[simp] theorem State.setFe_serial (s : State) (n : Nat) (x : Fe) : (s.setFe n x).serial = s.serial := rfl
@[simp] theorem State.setFe_landed (s : State) (n : Nat) (x : Fe) : (s.setFe n x).landed = s.landed := rfl
@[simp] theorem State.setFe_watches (s : State) (n : Nat) (x : Fe) : (s.setFe n x).watches = s.watches := rfl
@[simp] theorem State.setFe_handlers (s : State) (n : Nat) (x : Fe) : (s.setFe n x).handlers = s.handlers := rfl
@[simp] theorem State.setFe_rtcs (s : State) (n : Nat) (x : Fe) : (s.setFe n x).rtcs = s.rtcs := rfl
@[simp] theorem State.setFe_dirs (s : State) (n : Nat) (x : Fe) : (s.setFe n x).dirs = s.dirs := rfl
@[simp] theorem State.setFe_links (s : State) (n : Nat) (x : Fe) : (s.setFe n x).links = s.links := rfl
@[simp] theorem State.setFe_forwarded (s : State) (n : Nat) (x : Fe) : (s.setFe n x).forwarded = s.forwarded := rfl
@[simp] theorem State.setFe_pkg (s : State) (n : Nat) (x : Fe) : (s.setFe n x).pkg = s.pkg := rfl
@[simp] theorem State.setFe_mgmt (s : State) (n : Nat) (x : Fe) : (s.setFe n x).mgmt = s.mgmt := rfl
@[simp] theorem State.setFe_meters (s : State) (n : Nat) (x : Fe) : (s.setFe n x).meters = s.meters := rfl
@[simp] theorem State.setFe_power (s : State) (n : Nat) (x : Fe) : (s.setFe n x).power = s.power := rfl
@[simp] theorem State.setFe_idleSince (s : State) (n : Nat) (x : Fe) : (s.setFe n x).idleSince = s.idleSince := rfl
@[simp] theorem State.setFe_report (s : State) (n : Nat) (x : Fe) : (s.setFe n x).report = s.report := rfl
@[simp] theorem State.setFe_dies (s : State) (n : Nat) (x : Fe) : (s.setFe n x).dies = s.dies := rfl
@[simp] theorem State.setFe_boot (s : State) (n : Nat) (x : Fe) : (s.setFe n x).boot = s.boot := rfl
@[simp] theorem State.setFe_hostRead (s : State) (n : Nat) (x : Fe) : (s.setFe n x).hostRead = s.hostRead := rfl

/-! ### setPort -/

@[simp] theorem State.setPort_tick (s : State) (n : Nat) (x : Port) : (s.setPort n x).tick = s.tick := rfl
@[simp] theorem State.setPort_freeCnt (s : State) (n : Nat) (x : Port) : (s.setPort n x).freeCnt = s.freeCnt := rfl
@[simp] theorem State.setPort_agenda (s : State) (n : Nat) (x : Port) : (s.setPort n x).agenda = s.agenda := rfl
@[simp] theorem State.setPort_cur (s : State) (n : Nat) (x : Port) : (s.setPort n x).cur = s.cur := rfl
@[simp] theorem State.setPort_now (s : State) (n : Nat) (x : Port) : (s.setPort n x).now = s.now := rfl
@[simp] theorem State.setPort_stores (s : State) (n : Nat) (x : Port) : (s.setPort n x).stores = s.stores := rfl
@[simp] theorem State.setPort_mem (s : State) (n : Nat) (x : Port) : (s.setPort n x).mem = s.mem := rfl
@[simp] theorem State.setPort_poison (s : State) (n : Nat) (x : Port) : (s.setPort n x).poison = s.poison := rfl
@[simp] theorem State.setPort_imap (s : State) (n : Nat) (x : Port) : (s.setPort n x).imap = s.imap := rfl
@[simp] theorem State.setPort_artb (s : State) (n : Nat) (x : Port) : (s.setPort n x).artb = s.artb := rfl
@[simp] theorem State.setPort_hrs (s : State) (n : Nat) (x : Port) : (s.setPort n x).hrs = s.hrs := rfl
@[simp] theorem State.setPort_cxlcap (s : State) (n : Nat) (x : Port) : (s.setPort n x).cxlcap = s.cxlcap := rfl
@[simp] theorem State.setPort_rowGroups (s : State) (n : Nat) (x : Port) : (s.setPort n x).rowGroups = s.rowGroups := rfl
@[simp] theorem State.setPort_stackMgrs (s : State) (n : Nat) (x : Port) : (s.setPort n x).stackMgrs = s.stackMgrs := rfl
@[simp] theorem State.setPort_tlbs (s : State) (n : Nat) (x : Port) : (s.setPort n x).tlbs = s.tlbs := rfl
@[simp] theorem State.setPort_ptrs (s : State) (n : Nat) (x : Port) : (s.setPort n x).ptrs = s.ptrs := rfl
@[simp] theorem State.setPort_icaches (s : State) (n : Nat) (x : Port) : (s.setPort n x).icaches = s.icaches := rfl
@[simp] theorem State.setPort_invals (s : State) (n : Nat) (x : Port) : (s.setPort n x).invals = s.invals := rfl
@[simp] theorem State.setPort_parked (s : State) (n : Nat) (x : Port) : (s.setPort n x).parked = s.parked := rfl
@[simp] theorem State.setPort_nextId (s : State) (n : Nat) (x : Port) : (s.setPort n x).nextId = s.nextId := rfl
@[simp] theorem State.setPort_parts (s : State) (n : Nat) (x : Port) : (s.setPort n x).parts = s.parts := rfl
@[simp] theorem State.setPort_slots (s : State) (n : Nat) (x : Port) : (s.setPort n x).slots = s.slots := rfl
@[simp] theorem State.setPort_courses (s : State) (n : Nat) (x : Port) : (s.setPort n x).courses = s.courses := rfl
@[simp] theorem State.setPort_jobs (s : State) (n : Nat) (x : Port) : (s.setPort n x).jobs = s.jobs := rfl
@[simp] theorem State.setPort_firings (s : State) (n : Nat) (x : Port) : (s.setPort n x).firings = s.firings := rfl
@[simp] theorem State.setPort_irqs (s : State) (n : Nat) (x : Port) : (s.setPort n x).irqs = s.irqs := rfl
@[simp] theorem State.setPort_poss (s : State) (n : Nat) (x : Port) : (s.setPort n x).poss = s.poss := rfl
@[simp] theorem State.setPort_spills (s : State) (n : Nat) (x : Port) : (s.setPort n x).spills = s.spills := rfl
@[simp] theorem State.setPort_fes (s : State) (n : Nat) (x : Port) : (s.setPort n x).fes = s.fes := rfl
@[simp] theorem State.setPort_gates (s : State) (n : Nat) (x : Port) : (s.setPort n x).gates = s.gates := rfl
@[simp] theorem State.setPort_ctlGates (s : State) (n : Nat) (x : Port) : (s.setPort n x).ctlGates = s.ctlGates := rfl
@[simp] theorem State.setPort_runs (s : State) (n : Nat) (x : Port) : (s.setPort n x).runs = s.runs := rfl
@[simp] theorem State.setPort_grants (s : State) (n : Nat) (x : Port) : (s.setPort n x).grants = s.grants := rfl
@[simp] theorem State.setPort_copies (s : State) (n : Nat) (x : Port) : (s.setPort n x).copies = s.copies := rfl
@[simp] theorem State.setPort_rops (s : State) (n : Nat) (x : Port) : (s.setPort n x).rops = s.rops := rfl
@[simp] theorem State.setPort_toks (s : State) (n : Nat) (x : Port) : (s.setPort n x).toks = s.toks := rfl
@[simp] theorem State.setPort_serial (s : State) (n : Nat) (x : Port) : (s.setPort n x).serial = s.serial := rfl
@[simp] theorem State.setPort_landed (s : State) (n : Nat) (x : Port) : (s.setPort n x).landed = s.landed := rfl
@[simp] theorem State.setPort_watches (s : State) (n : Nat) (x : Port) : (s.setPort n x).watches = s.watches := rfl
@[simp] theorem State.setPort_handlers (s : State) (n : Nat) (x : Port) : (s.setPort n x).handlers = s.handlers := rfl
@[simp] theorem State.setPort_rtcs (s : State) (n : Nat) (x : Port) : (s.setPort n x).rtcs = s.rtcs := rfl
@[simp] theorem State.setPort_dirs (s : State) (n : Nat) (x : Port) : (s.setPort n x).dirs = s.dirs := rfl
@[simp] theorem State.setPort_links (s : State) (n : Nat) (x : Port) : (s.setPort n x).links = s.links := rfl
@[simp] theorem State.setPort_forwarded (s : State) (n : Nat) (x : Port) : (s.setPort n x).forwarded = s.forwarded := rfl
@[simp] theorem State.setPort_pkg (s : State) (n : Nat) (x : Port) : (s.setPort n x).pkg = s.pkg := rfl
@[simp] theorem State.setPort_mgmt (s : State) (n : Nat) (x : Port) : (s.setPort n x).mgmt = s.mgmt := rfl
@[simp] theorem State.setPort_meters (s : State) (n : Nat) (x : Port) : (s.setPort n x).meters = s.meters := rfl
@[simp] theorem State.setPort_power (s : State) (n : Nat) (x : Port) : (s.setPort n x).power = s.power := rfl
@[simp] theorem State.setPort_idleSince (s : State) (n : Nat) (x : Port) : (s.setPort n x).idleSince = s.idleSince := rfl
@[simp] theorem State.setPort_report (s : State) (n : Nat) (x : Port) : (s.setPort n x).report = s.report := rfl
@[simp] theorem State.setPort_dies (s : State) (n : Nat) (x : Port) : (s.setPort n x).dies = s.dies := rfl
@[simp] theorem State.setPort_boot (s : State) (n : Nat) (x : Port) : (s.setPort n x).boot = s.boot := rfl
@[simp] theorem State.setPort_hostRead (s : State) (n : Nat) (x : Port) : (s.setPort n x).hostRead = s.hostRead := rfl

/-! ### setLink -/

@[simp] theorem State.setLink_tick (s : State) (n : Nat) (x : Link) : (s.setLink n x).tick = s.tick := rfl
@[simp] theorem State.setLink_freeCnt (s : State) (n : Nat) (x : Link) : (s.setLink n x).freeCnt = s.freeCnt := rfl
@[simp] theorem State.setLink_agenda (s : State) (n : Nat) (x : Link) : (s.setLink n x).agenda = s.agenda := rfl
@[simp] theorem State.setLink_cur (s : State) (n : Nat) (x : Link) : (s.setLink n x).cur = s.cur := rfl
@[simp] theorem State.setLink_now (s : State) (n : Nat) (x : Link) : (s.setLink n x).now = s.now := rfl
@[simp] theorem State.setLink_stores (s : State) (n : Nat) (x : Link) : (s.setLink n x).stores = s.stores := rfl
@[simp] theorem State.setLink_mem (s : State) (n : Nat) (x : Link) : (s.setLink n x).mem = s.mem := rfl
@[simp] theorem State.setLink_poison (s : State) (n : Nat) (x : Link) : (s.setLink n x).poison = s.poison := rfl
@[simp] theorem State.setLink_imap (s : State) (n : Nat) (x : Link) : (s.setLink n x).imap = s.imap := rfl
@[simp] theorem State.setLink_artb (s : State) (n : Nat) (x : Link) : (s.setLink n x).artb = s.artb := rfl
@[simp] theorem State.setLink_hrs (s : State) (n : Nat) (x : Link) : (s.setLink n x).hrs = s.hrs := rfl
@[simp] theorem State.setLink_cxlcap (s : State) (n : Nat) (x : Link) : (s.setLink n x).cxlcap = s.cxlcap := rfl
@[simp] theorem State.setLink_rowGroups (s : State) (n : Nat) (x : Link) : (s.setLink n x).rowGroups = s.rowGroups := rfl
@[simp] theorem State.setLink_stackMgrs (s : State) (n : Nat) (x : Link) : (s.setLink n x).stackMgrs = s.stackMgrs := rfl
@[simp] theorem State.setLink_tlbs (s : State) (n : Nat) (x : Link) : (s.setLink n x).tlbs = s.tlbs := rfl
@[simp] theorem State.setLink_ptrs (s : State) (n : Nat) (x : Link) : (s.setLink n x).ptrs = s.ptrs := rfl
@[simp] theorem State.setLink_icaches (s : State) (n : Nat) (x : Link) : (s.setLink n x).icaches = s.icaches := rfl
@[simp] theorem State.setLink_invals (s : State) (n : Nat) (x : Link) : (s.setLink n x).invals = s.invals := rfl
@[simp] theorem State.setLink_parked (s : State) (n : Nat) (x : Link) : (s.setLink n x).parked = s.parked := rfl
@[simp] theorem State.setLink_nextId (s : State) (n : Nat) (x : Link) : (s.setLink n x).nextId = s.nextId := rfl
@[simp] theorem State.setLink_parts (s : State) (n : Nat) (x : Link) : (s.setLink n x).parts = s.parts := rfl
@[simp] theorem State.setLink_slots (s : State) (n : Nat) (x : Link) : (s.setLink n x).slots = s.slots := rfl
@[simp] theorem State.setLink_courses (s : State) (n : Nat) (x : Link) : (s.setLink n x).courses = s.courses := rfl
@[simp] theorem State.setLink_jobs (s : State) (n : Nat) (x : Link) : (s.setLink n x).jobs = s.jobs := rfl
@[simp] theorem State.setLink_firings (s : State) (n : Nat) (x : Link) : (s.setLink n x).firings = s.firings := rfl
@[simp] theorem State.setLink_irqs (s : State) (n : Nat) (x : Link) : (s.setLink n x).irqs = s.irqs := rfl
@[simp] theorem State.setLink_poss (s : State) (n : Nat) (x : Link) : (s.setLink n x).poss = s.poss := rfl
@[simp] theorem State.setLink_ports (s : State) (n : Nat) (x : Link) : (s.setLink n x).ports = s.ports := rfl
@[simp] theorem State.setLink_spills (s : State) (n : Nat) (x : Link) : (s.setLink n x).spills = s.spills := rfl
@[simp] theorem State.setLink_fes (s : State) (n : Nat) (x : Link) : (s.setLink n x).fes = s.fes := rfl
@[simp] theorem State.setLink_gates (s : State) (n : Nat) (x : Link) : (s.setLink n x).gates = s.gates := rfl
@[simp] theorem State.setLink_ctlGates (s : State) (n : Nat) (x : Link) : (s.setLink n x).ctlGates = s.ctlGates := rfl
@[simp] theorem State.setLink_runs (s : State) (n : Nat) (x : Link) : (s.setLink n x).runs = s.runs := rfl
@[simp] theorem State.setLink_grants (s : State) (n : Nat) (x : Link) : (s.setLink n x).grants = s.grants := rfl
@[simp] theorem State.setLink_copies (s : State) (n : Nat) (x : Link) : (s.setLink n x).copies = s.copies := rfl
@[simp] theorem State.setLink_rops (s : State) (n : Nat) (x : Link) : (s.setLink n x).rops = s.rops := rfl
@[simp] theorem State.setLink_toks (s : State) (n : Nat) (x : Link) : (s.setLink n x).toks = s.toks := rfl
@[simp] theorem State.setLink_serial (s : State) (n : Nat) (x : Link) : (s.setLink n x).serial = s.serial := rfl
@[simp] theorem State.setLink_landed (s : State) (n : Nat) (x : Link) : (s.setLink n x).landed = s.landed := rfl
@[simp] theorem State.setLink_watches (s : State) (n : Nat) (x : Link) : (s.setLink n x).watches = s.watches := rfl
@[simp] theorem State.setLink_handlers (s : State) (n : Nat) (x : Link) : (s.setLink n x).handlers = s.handlers := rfl
@[simp] theorem State.setLink_rtcs (s : State) (n : Nat) (x : Link) : (s.setLink n x).rtcs = s.rtcs := rfl
@[simp] theorem State.setLink_dirs (s : State) (n : Nat) (x : Link) : (s.setLink n x).dirs = s.dirs := rfl
@[simp] theorem State.setLink_forwarded (s : State) (n : Nat) (x : Link) : (s.setLink n x).forwarded = s.forwarded := rfl
@[simp] theorem State.setLink_pkg (s : State) (n : Nat) (x : Link) : (s.setLink n x).pkg = s.pkg := rfl
@[simp] theorem State.setLink_mgmt (s : State) (n : Nat) (x : Link) : (s.setLink n x).mgmt = s.mgmt := rfl
@[simp] theorem State.setLink_meters (s : State) (n : Nat) (x : Link) : (s.setLink n x).meters = s.meters := rfl
@[simp] theorem State.setLink_power (s : State) (n : Nat) (x : Link) : (s.setLink n x).power = s.power := rfl
@[simp] theorem State.setLink_idleSince (s : State) (n : Nat) (x : Link) : (s.setLink n x).idleSince = s.idleSince := rfl
@[simp] theorem State.setLink_report (s : State) (n : Nat) (x : Link) : (s.setLink n x).report = s.report := rfl
@[simp] theorem State.setLink_dies (s : State) (n : Nat) (x : Link) : (s.setLink n x).dies = s.dies := rfl
@[simp] theorem State.setLink_boot (s : State) (n : Nat) (x : Link) : (s.setLink n x).boot = s.boot := rfl
@[simp] theorem State.setLink_hostRead (s : State) (n : Nat) (x : Link) : (s.setLink n x).hostRead = s.hostRead := rfl

/-! ### putByte -/

@[simp] theorem State.putByte_tick (s : State) (n : Nat) (x : Byte) : (s.putByte n x).tick = s.tick := rfl
@[simp] theorem State.putByte_freeCnt (s : State) (n : Nat) (x : Byte) : (s.putByte n x).freeCnt = s.freeCnt := rfl
@[simp] theorem State.putByte_agenda (s : State) (n : Nat) (x : Byte) : (s.putByte n x).agenda = s.agenda := rfl
@[simp] theorem State.putByte_cur (s : State) (n : Nat) (x : Byte) : (s.putByte n x).cur = s.cur := rfl
@[simp] theorem State.putByte_now (s : State) (n : Nat) (x : Byte) : (s.putByte n x).now = s.now := rfl
@[simp] theorem State.putByte_mem (s : State) (n : Nat) (x : Byte) : (s.putByte n x).mem = s.mem := rfl
@[simp] theorem State.putByte_imap (s : State) (n : Nat) (x : Byte) : (s.putByte n x).imap = s.imap := rfl
@[simp] theorem State.putByte_artb (s : State) (n : Nat) (x : Byte) : (s.putByte n x).artb = s.artb := rfl
@[simp] theorem State.putByte_hrs (s : State) (n : Nat) (x : Byte) : (s.putByte n x).hrs = s.hrs := rfl
@[simp] theorem State.putByte_cxlcap (s : State) (n : Nat) (x : Byte) : (s.putByte n x).cxlcap = s.cxlcap := rfl
@[simp] theorem State.putByte_rowGroups (s : State) (n : Nat) (x : Byte) : (s.putByte n x).rowGroups = s.rowGroups := rfl
@[simp] theorem State.putByte_stackMgrs (s : State) (n : Nat) (x : Byte) : (s.putByte n x).stackMgrs = s.stackMgrs := rfl
@[simp] theorem State.putByte_tlbs (s : State) (n : Nat) (x : Byte) : (s.putByte n x).tlbs = s.tlbs := rfl
@[simp] theorem State.putByte_ptrs (s : State) (n : Nat) (x : Byte) : (s.putByte n x).ptrs = s.ptrs := rfl
@[simp] theorem State.putByte_icaches (s : State) (n : Nat) (x : Byte) : (s.putByte n x).icaches = s.icaches := rfl
@[simp] theorem State.putByte_invals (s : State) (n : Nat) (x : Byte) : (s.putByte n x).invals = s.invals := rfl
@[simp] theorem State.putByte_parked (s : State) (n : Nat) (x : Byte) : (s.putByte n x).parked = s.parked := rfl
@[simp] theorem State.putByte_nextId (s : State) (n : Nat) (x : Byte) : (s.putByte n x).nextId = s.nextId := rfl
@[simp] theorem State.putByte_parts (s : State) (n : Nat) (x : Byte) : (s.putByte n x).parts = s.parts := rfl
@[simp] theorem State.putByte_slots (s : State) (n : Nat) (x : Byte) : (s.putByte n x).slots = s.slots := rfl
@[simp] theorem State.putByte_courses (s : State) (n : Nat) (x : Byte) : (s.putByte n x).courses = s.courses := rfl
@[simp] theorem State.putByte_jobs (s : State) (n : Nat) (x : Byte) : (s.putByte n x).jobs = s.jobs := rfl
@[simp] theorem State.putByte_firings (s : State) (n : Nat) (x : Byte) : (s.putByte n x).firings = s.firings := rfl
@[simp] theorem State.putByte_irqs (s : State) (n : Nat) (x : Byte) : (s.putByte n x).irqs = s.irqs := rfl
@[simp] theorem State.putByte_poss (s : State) (n : Nat) (x : Byte) : (s.putByte n x).poss = s.poss := rfl
@[simp] theorem State.putByte_ports (s : State) (n : Nat) (x : Byte) : (s.putByte n x).ports = s.ports := rfl
@[simp] theorem State.putByte_spills (s : State) (n : Nat) (x : Byte) : (s.putByte n x).spills = s.spills := rfl
@[simp] theorem State.putByte_fes (s : State) (n : Nat) (x : Byte) : (s.putByte n x).fes = s.fes := rfl
@[simp] theorem State.putByte_gates (s : State) (n : Nat) (x : Byte) : (s.putByte n x).gates = s.gates := rfl
@[simp] theorem State.putByte_ctlGates (s : State) (n : Nat) (x : Byte) : (s.putByte n x).ctlGates = s.ctlGates := rfl
@[simp] theorem State.putByte_runs (s : State) (n : Nat) (x : Byte) : (s.putByte n x).runs = s.runs := rfl
@[simp] theorem State.putByte_grants (s : State) (n : Nat) (x : Byte) : (s.putByte n x).grants = s.grants := rfl
@[simp] theorem State.putByte_copies (s : State) (n : Nat) (x : Byte) : (s.putByte n x).copies = s.copies := rfl
@[simp] theorem State.putByte_rops (s : State) (n : Nat) (x : Byte) : (s.putByte n x).rops = s.rops := rfl
@[simp] theorem State.putByte_toks (s : State) (n : Nat) (x : Byte) : (s.putByte n x).toks = s.toks := rfl
@[simp] theorem State.putByte_serial (s : State) (n : Nat) (x : Byte) : (s.putByte n x).serial = s.serial := rfl
@[simp] theorem State.putByte_landed (s : State) (n : Nat) (x : Byte) : (s.putByte n x).landed = s.landed := rfl
@[simp] theorem State.putByte_watches (s : State) (n : Nat) (x : Byte) : (s.putByte n x).watches = s.watches := rfl
@[simp] theorem State.putByte_handlers (s : State) (n : Nat) (x : Byte) : (s.putByte n x).handlers = s.handlers := rfl
@[simp] theorem State.putByte_rtcs (s : State) (n : Nat) (x : Byte) : (s.putByte n x).rtcs = s.rtcs := rfl
@[simp] theorem State.putByte_dirs (s : State) (n : Nat) (x : Byte) : (s.putByte n x).dirs = s.dirs := rfl
@[simp] theorem State.putByte_links (s : State) (n : Nat) (x : Byte) : (s.putByte n x).links = s.links := rfl
@[simp] theorem State.putByte_forwarded (s : State) (n : Nat) (x : Byte) : (s.putByte n x).forwarded = s.forwarded := rfl
@[simp] theorem State.putByte_pkg (s : State) (n : Nat) (x : Byte) : (s.putByte n x).pkg = s.pkg := rfl
@[simp] theorem State.putByte_mgmt (s : State) (n : Nat) (x : Byte) : (s.putByte n x).mgmt = s.mgmt := rfl
@[simp] theorem State.putByte_meters (s : State) (n : Nat) (x : Byte) : (s.putByte n x).meters = s.meters := rfl
@[simp] theorem State.putByte_power (s : State) (n : Nat) (x : Byte) : (s.putByte n x).power = s.power := rfl
@[simp] theorem State.putByte_idleSince (s : State) (n : Nat) (x : Byte) : (s.putByte n x).idleSince = s.idleSince := rfl
@[simp] theorem State.putByte_report (s : State) (n : Nat) (x : Byte) : (s.putByte n x).report = s.report := rfl
@[simp] theorem State.putByte_dies (s : State) (n : Nat) (x : Byte) : (s.putByte n x).dies = s.dies := rfl
@[simp] theorem State.putByte_boot (s : State) (n : Nat) (x : Byte) : (s.putByte n x).boot = s.boot := rfl
@[simp] theorem State.putByte_hostRead (s : State) (n : Nat) (x : Byte) : (s.putByte n x).hostRead = s.hostRead := rfl

/-! ### setThr -/

@[simp] theorem State.setThr_tick (s : State) (x : Slot) : (s.setThr x).tick = s.tick := rfl
@[simp] theorem State.setThr_freeCnt (s : State) (x : Slot) : (s.setThr x).freeCnt = s.freeCnt := rfl
@[simp] theorem State.setThr_agenda (s : State) (x : Slot) : (s.setThr x).agenda = s.agenda := rfl
@[simp] theorem State.setThr_now (s : State) (x : Slot) : (s.setThr x).now = s.now := rfl
@[simp] theorem State.setThr_stores (s : State) (x : Slot) : (s.setThr x).stores = s.stores := rfl
@[simp] theorem State.setThr_mem (s : State) (x : Slot) : (s.setThr x).mem = s.mem := rfl
@[simp] theorem State.setThr_poison (s : State) (x : Slot) : (s.setThr x).poison = s.poison := rfl
@[simp] theorem State.setThr_imap (s : State) (x : Slot) : (s.setThr x).imap = s.imap := rfl
@[simp] theorem State.setThr_artb (s : State) (x : Slot) : (s.setThr x).artb = s.artb := rfl
@[simp] theorem State.setThr_hrs (s : State) (x : Slot) : (s.setThr x).hrs = s.hrs := rfl
@[simp] theorem State.setThr_cxlcap (s : State) (x : Slot) : (s.setThr x).cxlcap = s.cxlcap := rfl
@[simp] theorem State.setThr_rowGroups (s : State) (x : Slot) : (s.setThr x).rowGroups = s.rowGroups := rfl
@[simp] theorem State.setThr_stackMgrs (s : State) (x : Slot) : (s.setThr x).stackMgrs = s.stackMgrs := rfl
@[simp] theorem State.setThr_tlbs (s : State) (x : Slot) : (s.setThr x).tlbs = s.tlbs := rfl
@[simp] theorem State.setThr_ptrs (s : State) (x : Slot) : (s.setThr x).ptrs = s.ptrs := rfl
@[simp] theorem State.setThr_icaches (s : State) (x : Slot) : (s.setThr x).icaches = s.icaches := rfl
@[simp] theorem State.setThr_invals (s : State) (x : Slot) : (s.setThr x).invals = s.invals := rfl
@[simp] theorem State.setThr_parked (s : State) (x : Slot) : (s.setThr x).parked = s.parked := rfl
@[simp] theorem State.setThr_nextId (s : State) (x : Slot) : (s.setThr x).nextId = s.nextId := rfl
@[simp] theorem State.setThr_parts (s : State) (x : Slot) : (s.setThr x).parts = s.parts := rfl
@[simp] theorem State.setThr_courses (s : State) (x : Slot) : (s.setThr x).courses = s.courses := rfl
@[simp] theorem State.setThr_jobs (s : State) (x : Slot) : (s.setThr x).jobs = s.jobs := rfl
@[simp] theorem State.setThr_firings (s : State) (x : Slot) : (s.setThr x).firings = s.firings := rfl
@[simp] theorem State.setThr_irqs (s : State) (x : Slot) : (s.setThr x).irqs = s.irqs := rfl
@[simp] theorem State.setThr_poss (s : State) (x : Slot) : (s.setThr x).poss = s.poss := rfl
@[simp] theorem State.setThr_ports (s : State) (x : Slot) : (s.setThr x).ports = s.ports := rfl
@[simp] theorem State.setThr_spills (s : State) (x : Slot) : (s.setThr x).spills = s.spills := rfl
@[simp] theorem State.setThr_fes (s : State) (x : Slot) : (s.setThr x).fes = s.fes := rfl
@[simp] theorem State.setThr_gates (s : State) (x : Slot) : (s.setThr x).gates = s.gates := rfl
@[simp] theorem State.setThr_ctlGates (s : State) (x : Slot) : (s.setThr x).ctlGates = s.ctlGates := rfl
@[simp] theorem State.setThr_runs (s : State) (x : Slot) : (s.setThr x).runs = s.runs := rfl
@[simp] theorem State.setThr_grants (s : State) (x : Slot) : (s.setThr x).grants = s.grants := rfl
@[simp] theorem State.setThr_copies (s : State) (x : Slot) : (s.setThr x).copies = s.copies := rfl
@[simp] theorem State.setThr_rops (s : State) (x : Slot) : (s.setThr x).rops = s.rops := rfl
@[simp] theorem State.setThr_toks (s : State) (x : Slot) : (s.setThr x).toks = s.toks := rfl
@[simp] theorem State.setThr_serial (s : State) (x : Slot) : (s.setThr x).serial = s.serial := rfl
@[simp] theorem State.setThr_landed (s : State) (x : Slot) : (s.setThr x).landed = s.landed := rfl
@[simp] theorem State.setThr_watches (s : State) (x : Slot) : (s.setThr x).watches = s.watches := rfl
@[simp] theorem State.setThr_handlers (s : State) (x : Slot) : (s.setThr x).handlers = s.handlers := rfl
@[simp] theorem State.setThr_rtcs (s : State) (x : Slot) : (s.setThr x).rtcs = s.rtcs := rfl
@[simp] theorem State.setThr_dirs (s : State) (x : Slot) : (s.setThr x).dirs = s.dirs := rfl
@[simp] theorem State.setThr_links (s : State) (x : Slot) : (s.setThr x).links = s.links := rfl
@[simp] theorem State.setThr_forwarded (s : State) (x : Slot) : (s.setThr x).forwarded = s.forwarded := rfl
@[simp] theorem State.setThr_pkg (s : State) (x : Slot) : (s.setThr x).pkg = s.pkg := rfl
@[simp] theorem State.setThr_mgmt (s : State) (x : Slot) : (s.setThr x).mgmt = s.mgmt := rfl
@[simp] theorem State.setThr_meters (s : State) (x : Slot) : (s.setThr x).meters = s.meters := rfl
@[simp] theorem State.setThr_power (s : State) (x : Slot) : (s.setThr x).power = s.power := rfl
@[simp] theorem State.setThr_idleSince (s : State) (x : Slot) : (s.setThr x).idleSince = s.idleSince := rfl
@[simp] theorem State.setThr_report (s : State) (x : Slot) : (s.setThr x).report = s.report := rfl
@[simp] theorem State.setThr_dies (s : State) (x : Slot) : (s.setThr x).dies = s.dies := rfl
@[simp] theorem State.setThr_boot (s : State) (x : Slot) : (s.setThr x).boot = s.boot := rfl
@[simp] theorem State.setThr_hostRead (s : State) (x : Slot) : (s.setThr x).hostRead = s.hostRead := rfl

end Sys2Proof.Machine
end

