-- ==== Sys2Proof/Laws/Ops.lean ====
section
/-! SUPPORT. What the shared operations around an instruction can do: every meaning through `runInsn` ends in a next state,
and has its own effect exactly where `executes` holds; what completing, jumping and trapping write. -/

namespace Sys2Proof.Machine

/-! ### The boundary -/

theorem earlyTrap_none {x : Slot} {u : Uses} {w : W32} (h1 : u.noAtom = true → x.atom = false)
    (h2 : u.priv = true → x.sup = true) (h3 : undeclared x u = none) : earlyTrap x u w = none := by
  have a : ¬(u.noAtom = true ∧ x.atom = true) := fun ⟨p, q⟩ => by simp [h1 p] at q
  have b : ¬(u.priv = true ∧ x.sup = false) := fun ⟨p, q⟩ => by simp [h2 p] at q
  simp [earlyTrap, a, b, h3]

theorem asyncCause_none {s : State} {x : Slot} {u : Uses} {w : W32} (h : s.noCause x u) : asyncCause s x u w = none := by
  rcases h with h | ⟨h1, h2⟩
  · simp [asyncCause, h]
  cases hi : s.inside s.cur
  · have a : (u.vec && !u.setlen && x.lostNew != 0 && x.vm.isNone) = false := by
      cases hv : u.vec <;> cases hs : u.setlen <;> simp
      intro hl
      rcases h1 hv hs with h | h
      · exact absurd h hl
      · simpa [Option.isSome_iff_ne_none] using h
    simp only [asyncCause, a, hi]
    rcases h2 with h | ⟨ha, hf, hq⟩
    · simp [h]
    · simp only [ha, hf]
      cases hp : x.preq with
      | none => simp
      | some q =>
        rcases hq q hp with h | h | h | h <;> simp_all [Option.isSome_iff_ne_none]
  · simp [asyncCause, hi]

/-- Where an instruction executes, nothing stands in its place. -/
theorem boundary_of_executes {s : State} {i : Instr} (w : W32) (h : s.executes i) :
    s.landDue.boundary (usesOf s.landDue.thr i) w = none := by
  obtain ⟨_, h1, h2, h3, h4, h5, h6, h7⟩ := h
  generalize usesOf s.landDue.thr i = u at *
  have hs : (if s.landDue.thr.schk then scoreboard s.landDue.thr u s.landDue.now else none) = none := by
    cases hk : s.landDue.thr.schk
    · rfl
    · simpa using h7 hk
  have hv : (u.vec && s.landDue.vecBusy) = false := by
    cases hk : u.vec
    · rfl
    · simp [(h6 hk).1]
  have hf : (u.vec && s.landDue.thr.vfrozen) = false := by
    cases hk : u.vec
    · rfl
    · simp [(h6 hk).2]
  simp only [State.boundary, earlyTrap_none h1 h2 h3, asyncCause_none h4, h5, hv, hs, hf]
  rfl

/-- AN INSTRUCTION THAT EXECUTES ends as its own part says. -/
theorem runInsn_executes {s : State} {i : Instr} {st : BitVec 3} {body : State → Exe} (h : s.executes i) :
    runInsn i st body s =
      .next (State.settle (usesOf s.landDue.thr i) st (wordOf i) s.landDue.thr.grp (body s.landDue)) := by
  have hv : s.thr.vrun = none := h.1
  simp only [runInsn, hv, boundary_of_executes _ h]

/-- It never stops the machine. -/
theorem runInsn_next (i : Instr) (st : BitVec 3) (body : State → Exe) (s : State) : ∃ t, runInsn i st body s = .next t := by
  simp only [runInsn]
  split
  · exact ⟨_, rfl⟩
  · split <;> exact ⟨_, rfl⟩

/-! ### Completing, jumping -/

@[simp] theorem State.landDue_cur (s : State) : s.landDue.cur = s.cur := rfl
@[simp] theorem State.landDue_now (s : State) : s.landDue.now = s.now := rfl
@[simp] theorem State.landDue_thr (s : State) : s.landDue.thr = s.thr.landNow s.now := by simp [State.landDue]
@[simp] theorem State.issued_thr (s : State) (u : Uses) (g : Nat) : (s.issued u g).thr = s.thr := by
  simp only [State.issued]; split <;> rfl
@[simp] theorem State.issued_now (s : State) (u : Uses) (g : Nat) : (s.issued u g).now = s.now := by
  simp only [State.issued]; split <;> rfl
@[simp] theorem State.underWay_thr (s : State) (u : Uses) (w : W32) (g : Nat) :
    (s.underWay u w g).thr = { s.thr with doing := some w } := by simp [State.underWay]
@[simp] theorem State.finish_thr (s : State) (st : BitVec 3) :
    (s.finish st).thr = { s.thr.advance with earliest := s.now + st.toNat + 1, issuedAt := some s.now, doing := none } := by
  simp [State.finish]
@[simp] theorem State.jumpTo_thr (s : State) (st : BitVec 3) (t : W64) :
    (s.jumpTo st t).thr =
      { s.thr with
        pc := t, atHdr := true, reHdr := false, bpos := 0
        earliest := max (s.now + st.toNat + 1) (s.now + 3), issuedAt := some s.now, doing := none } := by
  simp [State.jumpTo]
@[simp] theorem State.later_thr (s : State) (lat : Nat) (d : BitVec 5) (v : W64) :
    (s.later lat d v).thr = s.thr.addPend (s.now + lat) (.s d.toNat v) := by simp [State.later]

/-! ### Every instruction passes its boundary -/

/-- EVERY INSTRUCTION IS EXECUTED AT ITS BOUNDARY: the meaning of each one with an encoding is `runInsn` of it. -/
theorem exec_runInsn (i : Instr) (s : State) (h : encode i ≠ none) : ∃ st body, exec i s = runInsn i st body s := by
  cases i <;> first | exact absurd rfl h | (simp only [exec]; exact ⟨_, _, rfl⟩)

/-- The least of a list. -/
theorem minOf_eq {l : List Nat} {n : Nat} (h : n ∈ l) (hm : ∀ k ∈ l, n ≤ k) : minOf l = some n := by
  have mem : ∀ (r : List Nat) (y : Nat), minOf r = some y → y ∈ r := by
    intro r
    induction r with
    | nil => simp [minOf]
    | cons b q ih =>
      intro y hr
      cases hq : minOf q with
      | none => simp_all [minOf]
      | some z =>
        have hz := ih z hq
        simp only [minOf, hq, Option.some.injEq] at hr
        rcases Nat.le_total b z with h | h
        · simp_all
        · rw [Nat.min_eq_right h] at hr; simp [← hr, hz]
  induction l with
  | nil => simp at h
  | cons a r ih =>
    simp only [minOf]
    rcases List.mem_cons.1 h with rfl | h
    · cases hr : minOf r with
      | none => rfl
      | some y =>
        have := hm y (by simp [mem r y hr])
        simp; omega
    · rw [ih h (fun k hk => hm k (by simp [hk]))]
      have := hm a (by simp)
      simp; omega

/-! ### Registers -/

@[simp] theorem Slot.readS_zero (x : Slot) : x.readS 0 = 0#64 := rfl
@[simp] theorem Slot.readS_writeS_same (x : Slot) {n : Nat} (v : W64) (h : n ≠ 0) : (x.writeS n v).readS n = v := by
  simp [Slot.readS, Slot.writeS, h]
theorem Slot.readS_writeS_ne (x : Slot) {n m : Nat} (v : W64) (h : m ≠ n) : (x.writeS n v).readS m = x.readS m := by
  by_cases h0 : n = 0
  · simp [Slot.writeS, h0]
  · simp [Slot.readS, Slot.writeS, h0, Map.getD_set_ne _ _ h]
@[simp] theorem Slot.csrv_setCsr_same (x : Slot) (c : Nat) (v : W64) : (x.setCsr c v).csrv c = v := by
  simp [Slot.csrv, Slot.setCsr]
theorem Slot.csrv_setCsr_ne (x : Slot) {c e : Nat} (v : W64) (h : e ≠ c) : (x.setCsr c v).csrv e = x.csrv e := by
  simp [Slot.csrv, Slot.setCsr, Map.getD_set_ne _ _ h]

/-! ### Fetching -/

/-- A WORD IS FETCHED where its address is below 2^48 and translates to a place, no device window nor spill area, that answers a code word. -/
theorem State.fetchWord_ok {s : State} {x : Slot} {va pa e : Nat} {w : W32} (hv : va < 2 ^ 48)
    (ht : s.translate (holdCp (courseOf s.cur)) x.asid x.sup .fetch va = .ok pa e) (hp : pa < windowBase) (hs : s.placeOf pa ≠ .spill)
    (hc : s.codeUnder (courseOf s.cur) x.asid pa e = some w) : s.fetchWord x va = .ok w := by
  simp only [State.fetchWord, if_neg (Nat.not_le.2 hv), ht, if_neg (Nat.not_le.2 hp), if_neg hs, hc]

/-- The instruction at a place whose word decodes, no resumption pending. -/
theorem State.fetchInsn_ok {s : State} {x : Slot} {w : W32} {i : Instr} (hr : x.resumeNext = false)
    (hw : s.wordHere x = .ok w) (hd : decode w = some i) : s.fetchInsn x = .insn i (s.setThr x) := by
  simp [State.fetchInsn, hr, hw, hd]

end Sys2Proof.Machine
end

