-- ==== Sys2Proof/Laws/Wake.lean ====
section
/-! SUPPORT. What waking a position, a course or the package changes (R228, R422, R424). -/

namespace Sys2Proof.Machine

theorem State.movedAt_eq (s : State) (k : Nat) : ∃ ps rs, s.movedAt k = { s with poss := ps, runs := rs } := by
  unfold State.movedAt State.runMoved
  split
  · unfold State.modRun
    split
    · exact ⟨_, _, rfl⟩
    · exact ⟨_, s.runs, rfl⟩
  · exact ⟨_, s.runs, rfl⟩

theorem State.wakePos_eq (s : State) (k : Nat) : ∃ ps rs, s.wakePos k = { s with poss := ps, runs := rs } := by
  unfold State.wakePos
  generalize hx : s.pos k = x
  dsimp only
  split
  · exact ⟨_, s.runs, rfl⟩
  · generalize Pos.admitIngress x _ = y
    obtain ⟨ps, rs, h⟩ := ((s.modPos k fun x => { x with gated := false }).setPos k y).movedAt_eq k
    exact ⟨ps, rs, h⟩

theorem State.wakePoss_eq (ks : List Nat) (s : State) : ∃ ps rs, ks.foldl State.wakePos s = { s with poss := ps, runs := rs } := by
  induction ks generalizing s with
  | nil => exact ⟨s.poss, s.runs, rfl⟩
  | cons k ks ih =>
    obtain ⟨ps, rs, h⟩ := s.wakePos_eq k
    obtain ⟨ps', rs', h'⟩ := ih (s.wakePos k)
    exact ⟨ps', rs', by rw [List.foldl_cons, h', h]⟩

/-- A course that wakes changes itself, its positions and their runs alone. -/
theorem State.wakeCourse_eq (s : State) (c : Nat) :
    ∃ cs ps rs, s.wakeCourse c = { s with courses := cs, poss := ps, runs := rs } := by
  obtain ⟨ps, rs, h⟩ := State.wakePoss_eq (coursePoss c) (s.modCourse c fun x => { x with power := .active, idleSince := none })
  exact ⟨_, ps, rs, h⟩

/-- An access that wakes the package, and a course with it, changes nothing else. -/
theorem State.awakeAt_eq (s : State) (pa : Nat) :
    ∃ cs ps rs, s.awakeAt pa = { s with power := .active, idleSince := none, courses := cs, poss := ps, runs := rs } := by
  unfold State.awakeAt
  dsimp only
  split
  · rename_i c _
    split
    · exact ⟨s.courses, s.poss, s.runs, rfl⟩
    · obtain ⟨cs, ps, rs, h⟩ := s.awake.wakeCourse_eq c
      unfold State.noteIdle
      split
      · rw [h]; exact ⟨_, ps, rs, rfl⟩
      · rw [h]; exact ⟨cs, ps, rs, rfl⟩
  · exact ⟨s.courses, s.poss, s.runs, rfl⟩

@[simp] theorem State.awakeAt_freeCnt (s : State) (pa : Nat) : (s.awakeAt pa).freeCnt = s.freeCnt := by
  obtain ⟨_, _, _, h⟩ := s.awakeAt_eq pa; rw [h]
@[simp] theorem State.awakeAt_boot (s : State) (pa : Nat) : (s.awakeAt pa).boot = s.boot := by
  obtain ⟨_, _, _, h⟩ := s.awakeAt_eq pa; rw [h]
@[simp] theorem State.awakeAt_parts (s : State) (pa : Nat) : (s.awakeAt pa).parts = s.parts := by
  obtain ⟨_, _, _, h⟩ := s.awakeAt_eq pa; rw [h]
@[simp] theorem State.awakeAt_slots (s : State) (pa : Nat) : (s.awakeAt pa).slots = s.slots := by
  obtain ⟨_, _, _, h⟩ := s.awakeAt_eq pa; rw [h]
@[simp] theorem State.awakeAt_slot (s : State) (pa n : Nat) : (s.awakeAt pa).slot n = s.slot n := by
  simp [State.slot]
@[simp] theorem State.awakeAt_now (s : State) (pa : Nat) : (s.awakeAt pa).now = s.now := by
  obtain ⟨_, _, _, h⟩ := s.awakeAt_eq pa; rw [h]
@[simp] theorem State.awakeAt_hostHeld (s : State) (pa : Nat) : (s.awakeAt pa).hostHeld = s.hostHeld := by
  simp [State.hostHeld]

end Sys2Proof.Machine
end

