-- ==== Sys2Proof/Tests/Slice0.lean ====
section
/-! SUPPORT. Tests of the model's own: words written out from the encodings of spec/, ill-formed terms that the checks refuse, one
step of small programs, and a witness for the hypotheses of each statement. -/

set_option Elab.async false

open Sys2Proof Sys2Proof.Machine

/-! ### Decoding: words written out from the encodings and the examples of spec/ -/

/-- R117 example: addi s9, s9, -1. -/
theorem test_decode_addi : decode (0x08253FFF#32) = some (.addi 0 9 9 0x1FFF) := by decide

/-- R117 example: back two words. -/
theorem test_decode_bne : decode (0x60241FFE#32) = some (.bne 0 9 0 0x1FFE) := by decide

/-- the program after R161: ld.d s9, 0(s8). -/
theorem test_decode_ld : decode (0x34250C00#32) = some (.ld 0 9 8 3 0) := by decide

/-- the program after R161: st.d s11, 16(s8). -/
theorem test_decode_st : decode (0x382D0C02#32) = some (.st 0 11 8 3 2) := by decide

/-- the program after R161: loop s9, next. -/
theorem test_decode_loop : decode (0x74241FFC#32) = some (.loop 0 9 0x1FFC) := by decide

/-- R142 example: li s9, 0x2fd. -/
theorem test_decode_li : decode (0x242402FD#32) = some (.li 0 9 0x2FD) := by decide

/-- R142 example: lext s9, 0x18476. -/
theorem test_decode_lext : decode (0x28258476#32) = some (.lext 0 9 0x18476) := by decide

/-- R155: operation 0, P = 1. -/
theorem test_decode_fadd : decode ((0b011110#6 ++ 0#3 ++ 5#5 ++ 6#5 ++ 7#5 ++ 0b00001000#8)) = some (.fadd 0 5 6 7 1) := by decide

/-- R155: operation 8, P = 0, kind 3. -/
theorem test_decode_fcvt : decode ((0b011110#6 ++ 2#3 ++ 5#5 ++ 6#5 ++ 0#5 ++ 0b10000011#8)) = some (.fcvt 2 5 6 0 3) := by decide

/-- R158: fn 2, FFLAGS. -/
theorem test_decode_csrs : decode ((0b100000#6 ++ 0#3 ++ 10#5 ++ 9#5 ++ 2#3 ++ 0x021#10)) = some (.csrs 0 10 9 0x021) := by decide

/-- chapter 07, the strip-mined program: setlen s12, s9, i32. -/
theorem test_decode_setlen : decode (0x8C312007#32) = some (.setlen 0 12 9 0 7) := by decide

/-- R173: fn 0. -/
theorem test_decode_vfma : decode ((0b100101#6 ++ 0#3 ++ 4#5 ++ 8#5 ++ 12#5 ++ 1#3 ++ 0#5)) = some (.vfma 0 4 8 12 1) := by decide

/-- R174: fn 0x0F. -/
theorem test_decode_visubs : decode ((0b100110#6 ++ 0#3 ++ 4#5 ++ 8#5 ++ 12#5 ++ 3#3 ++ 0x0F#5)) = some (.visubs 0 4 8 12 3) := by decide

/-- chapter 07, the strip-mined program: viota v0, m0. -/
theorem test_decode_viota : decode (0xB0000006#32) = some (.viota 0 0 0) := by decide

/-- chapter 07, the strip-mined program: vredsum s11, v2, s11. -/
theorem test_decode_vredsum : decode (0xAC2C4B00#32) = some (.vredsum 0 11 2 11 0) := by decide

/-- R324 example: vldx.sc v6, (s10), v2, m1. -/
theorem test_decode_vldx : decode (0xB8194226#32) = some (.vldx 0 6 10 2 1 1) := by decide

/-- R327: copy.c2.rel.pkg s9. -/
theorem test_decode_copy : decode (0xD8240D20#32) = some (.copy 0 9 3 0 1 2) := by decide

/-- R337: drain.c2.pkg s11. -/
theorem test_decode_drain : decode (0xDC016C20#32) = some (.drain 0 11 3 2) := by decide

/-- R352: ldacq.w.pkg s9, (s10). -/
theorem test_decode_ldacq : decode (0x4025401A#32) = some (.ldacq 0 9 10 3 2) := by decide

/-- R353: strel.w.pkg s11, (s10). -/
theorem test_decode_strel : decode (0x442D401A#32) = some (.strel 0 11 10 3 2) := by decide

/-- R357: amo.adds.w.die s12, (s13), s14. -/
theorem test_decode_amoAdds : decode (0x4831AE12#32) = some (.amoAdds 0 12 13 14 0 2) := by decide

/-- R358: cas.d.pkg s9, (s10), s11. -/
theorem test_decode_cas : decode (0x4C254B0B#32) = some (.cas 0 9 10 11 1 3) := by decide

/-- R354: fence.full.pkg. -/
theorem test_decode_fence : decode (0x50000003#32) = some (.fenceFull 0 3) := by decide

/-- R361: join s11, s9. -/
theorem test_decode_join : decode (0x88256001#32) = some (.join 0 9 11) := by decide

/-- R363: gbar s9. -/
theorem test_decode_gbar : decode (0x88240803#32) = some (.gbar 0 9 2) := by decide

/-- chapter 09, the program after R257: cfgsel.p0 s10. -/
theorem test_decode_cfgsel : decode (0xC8280001#32) = some (.cfgsel 0 10 0 0) := by decide

/-- chapter 09, the program after R257: strm.p0.acq.pkg s11, s0. -/
theorem test_decode_strm : decode (0xCC2C0E00#32) = some (.strm 0 11 0 3 1 0 0) := by decide

/-- chapter 09, the program after R257: start.b0 s10, s0. -/
theorem test_decode_start : decode (0xD0280000#32) = some (.start 0 10 0 0) := by decide

/-- chapter 09, the program after R257: swait.b0.pkg s13. -/
theorem test_decode_swait : decode (0xD001AC03#32) = some (.swait 0 13 3 0) := by decide

/-- R395 example: rst.d.dep s11, s12. -/
theorem test_decode_rst : decode (0xE03160B1#32) = some (.rst 0 12 11 0 0 1 0 3) := by decide

/-- R395 example: rld.w s10, s9. -/
theorem test_decode_rld : decode (0xE0254020#32) = some (.rld 0 9 10 0 0 2) := by decide

/-- R315: tlbinv.pkg s9, s10. -/
theorem test_decode_tlbinv : decode (0xE8254C00#32) = some (.tlbinv 0 9 10 3 0) := by decide

/-- R402: trap s9, 5. -/
theorem test_decode_trap : decode (0x84012005#32) = some (.trap 0 9 5) := by decide

/-- R402. -/
theorem test_decode_eret : decode (0x84000400#32) = some (.eret 0) := by decide

/-- R414. -/
theorem test_decode_doneErr : decode (0x84001801#32) = some (.doneErr 0) := by decide

/-- R416: etrig.die. -/
theorem test_decode_etrig : decode (0x84001C02#32) = some (.etrig 0 2) := by decide

/-! Words that a rule reserves decode to none. -/

/-- R152: loop of s0. -/
theorem test_refused_loopOfZero : decode (0x74001FFC#32) = none := by decide

/-- R145: size code 7. -/
theorem test_refused_sizeSeven : decode ((0x34250C00#32 ||| 0x00001C00#32)) = none := by decide

/-- R126: register 0x006 is unassigned. -/
theorem test_refused_csrUnassigned : decode ((0b100000#6 ++ 0#3 ++ 10#5 ++ 0#5 ++ 0#3 ++ 0x006#10)) = none := by decide

/-- R144: fn 4. -/
theorem test_refused_divFnFour : decode ((0b001100#6 ++ 0#3 ++ 1#5 ++ 2#5 ++ 3#5 ++ 4#8)) = none := by decide

/-- R172: fn 0x0D. -/
theorem test_refused_vfSpare : decode ((0b100100#6 ++ 0#3 ++ 1#5 ++ 2#5 ++ 3#5 ++ 0#3 ++ 0x0D#5)) = none := by decide

/-! ### Well-formedness: an ill-formed term for each check -/

/-- Each of these breaks one rule of its fields. -/
theorem test_illFormed_0 : ∀ i ∈ ([.ld 0 9 8 7 0,
      .ldx 0 9 8 7 7,
      .ldacq 0 9 8 5 2,
      .ldacq 0 9 8 3 7,
      .strel 0 9 8 5 2,
      .amoAdd 0 9 8 7 0 5,
      .amoAdds 0 9 8 7 0 5,
      .amoAnd 0 9 8 7 0 5,
      .amoOr 0 9 8 7 0 5] : List Instr),
    WellFormed i = false := by decide

/-- Each of these breaks one rule of its fields. -/
theorem test_illFormed_1 : ∀ i ∈ ([.amoXor 0 9 8 7 0 5,
      .amoMin 0 9 8 7 0 5,
      .amoMax 0 9 8 7 0 5,
      .amoMinn 0 9 8 7 0 5,
      .amoMaxn 0 9 8 7 0 5,
      .amoSwap 0 9 8 7 0 5,
      .amoFadd 0 9 8 7 0 5,
      .cas 0 9 8 7 0 5,
      .fenceFull 0 5] : List Instr),
    WellFormed i = false := by decide

/-- Each of these breaks one rule of its fields. -/
theorem test_illFormed_2 : ∀ i ∈ ([.fenceAcq 0 6,
      .fenceRel 0 7,
      .fenceEng 0 5,
      .loop 0 0 1,
      .fcvt 0 9 8 0 7,
      .csrr 0 9 6,
      .csrw 0 9 8 0x26,
      .csrs 0 9 8 0x51,
      .csrc 0 9 8 0x15] : List Instr),
    WellFormed i = false := by decide

/-- Each of these breaks one rule of its fields. -/
theorem test_illFormed_3 : ∀ i ∈ ([.etrig 0 0,
      .etrig 0 5,
      .gbar 0 9 1,
      .gbar 0 9 4,
      .vcmp 0 1 2 3 0 7,
      .vldxa 0 1 2 3 0 5,
      .vstxa 0 1 2 3 0 5,
      .vappend 0 1 2 3 0 5,
      .strm 0 9 8 5 0 0 0] : List Instr),
    WellFormed i = false := by decide

/-- Each of these breaks one rule of its fields. -/
theorem test_illFormed_4 : ∀ i ∈ ([.sbarMem 0 5,
      .swait 0 9 5 0,
      .tokq 0 9 8 5 0,
      .copy 0 9 5 0 0 0,
      .copy 0 9 1 0 0 2,
      .copy 0 9 4 0 0 0,
      .drain 0 9 5 0,
      .rld 0 9 8 0 0 7,
      .rld 0 9 8 1 0 2,
      .rld 0 9 8 0 1 2,
      .rst 0 9 8 5 1 0 0 3] : List Instr),
    WellFormed i = false := by decide

/-- Each of these breaks one rule of its fields. -/
theorem test_illFormed_5 : ∀ i ∈ ([.ramoInv 0 9 8 1 0 0,
      .ramoBegin 0 9 8 0 1 0,
      .ramoBody 0 9 8 5 0 1,
      .ramoValid 0 9 8 7 1 1,
      .ramoClear 0 9 8 2 0 0,
      .rfadd 0 9 8 0 0 1,
      .tlbinv 0 9 8 0 0,
      .tlbinv 0 9 8 5 0] : List Instr),
    WellFormed i = false := by decide

theorem test_wellFormed : ∀ i ∈ ([.ld 0 9 8 6 0, .ldacq 0 9 8 4 6, .cas 0 9 8 7 0 4, .loop 0 1 0, .fcvt 0 9 8 1 6, .csrr 0 9 0x050,
      .etrig 0 4, .gbar 0 9 3, .vcmp 0 1 2 3 0 6, .rld 0 9 8 4 1 6, .rst 0 9 8 0 0 1 1 3, .tlbinv 0 9 8 4 1] : List Instr),
    WellFormed i = true := by decide

/-! ### A thread to test with: slot 0 of course 0, a supervisor inside a block of four, in partition 0 -/

def tThread : Slot :=
  { use := .thread, pc := 0x1004#64, atHdr := false, hdr := 0xFC300000#32, att := 1, csr := [(0x000, 5#64)]
    decl := { groups := 2, scratch := 1, posmask := 0xFFFFFFFF, feng := true } }

/-- The thread with some of its scalar registers. -/
def tRegs (rs : List (Nat × W64)) : Slot := { tThread with s := rs }

/-- The machine around it: the queue manager and the walker translate the first GiB to itself, and its course that to each of the control pages, course 0's
memory and its registers. -/
def tState (x : Slot) : State :=
  { now := 100, nextId := 7, slots := [(0, x)], boot := { phase := .running }
    parts := [(0, { pasid := 0x100000#64, pcm := [(0, 1#64)], pqtb := 0x20001#64, pctl := 1#64 })]
    tlbs := [(0, [⟨0, 0, 2 ^ 30, 0x1F#64, 2⟩, ⟨0, 0x40000000, 2 ^ 21, 0x400000000001F#64, 1⟩,
      ⟨0, 0x40200000, 2 ^ 21, 0x300000000001F#64, 1⟩, ⟨0, 0x40400000, 2 ^ 21, 0x300000020001F#64, 1⟩]),
      (0x300, [⟨0, 0, 2 ^ 30, 0x1F#64, 2⟩]), (0x301, [⟨0, 0, 2 ^ 30, 0x1F#64, 2⟩])] }

/-- The thread with scalar registers, a format in STYPE and a number of elements in GLEN. -/
def tStrip (stype glen : W64) (rs : List (Nat × W64)) : Slot :=
  { tRegs rs with csr := [(0x000, 5#64), (0x010, glen), (0x011, stype)] }

/-- What `executes` asks, as a test. -/
def tRuns (s : State) (i : Instr) : Bool :=
  let t := s.landDue
  let x := t.thr
  let u := usesOf x i
  s.thr.vrun.isNone && (!u.noAtom || !x.atom) && (!u.priv || x.sup) && (undeclared x u).isNone
    && (!u.vec || u.setlen || x.lostNew == 0) && (x.async15.isEmpty && x.faults.isEmpty && x.preq.isNone) && !owes x u
    && (!u.vec || (!t.vecBusy && !x.vfrozen)) && (!x.schk || (scoreboard x u t.now).isNone)

theorem runs {s : State} {i : Instr} (h : tRuns s i = true) : s.executes i := by
  simp only [tRuns, Bool.and_eq_true, Bool.or_eq_true, Bool.not_eq_true', Option.isNone_iff_eq_none, List.isEmpty_iff,
    beq_iff_eq] at h
  obtain ⟨⟨⟨⟨⟨⟨⟨⟨h0, h1⟩, h2⟩, h3⟩, h4⟩, ⟨h5, h6⟩, h7⟩, ho⟩, h8⟩, h9⟩ := h
  unfold State.executes
  dsimp only
  generalize usesOf s.landDue.thr i = u at *
  refine ⟨h0, fun h => ?_, fun h => ?_, h3, .inr ⟨fun hv hs => ?_, .inr ⟨h5, h6, fun q hq => ?_⟩⟩, ho, fun hv => ?_, fun hs => ?_⟩
  · exact h1.resolve_left (by simp [h])
  · exact h2.resolve_left (by simp [h])
  · exact .inl (h4.resolve_left (by simp [hv, hs]))
  · rw [h7] at hq; cases hq
  · exact h8.resolve_left (by simp [hv])
  · exact h9.resolve_left (by rw [hs]; simp)

/-- The hypotheses of a statement met together: the instruction executes, and what it needs of the state holds. -/
def Meets (s : State) (i : Instr) (P : State → Prop) : Prop := s.executes i ∧ P s.landDue

/-! ### Witnesses: scalar instructions -/

theorem witness_IntegerRegisterOperations : Meets (tState (tRegs [(9, 5#64)])) (.add 0 31 9 9) always :=
  ⟨runs (by decide), trivial⟩
theorem witness_IntegerRegisterOperations_mul : Meets (tState (tRegs [(9, 5#64)])) (.mul 0 0 9 31) always :=
  ⟨runs (by decide), trivial⟩
theorem witness_CountingBits : (∀ n, n < 64 → (0x8000000000000000#64).getLsbD (63 - 0) = true)
    ∧ (1#64).getLsbD (63 - 63) = true ∧ (∀ j, j < 63 → (1#64).getLsbD (63 - j) = false)
    ∧ (0x8000000000000000#64).getLsbD 63 = true ∧ (∀ j, j < 63 → (0x8000000000000000#64).getLsbD j = false) := by decide
theorem witness_ImmediatesAndConstants : Meets (tState (tRegs [(9, 5#64)])) (.addi 0 9 9 5) always :=
  ⟨runs (by decide), trivial⟩
theorem witness_Division : Meets (tState (tRegs [(9, 0x8000000000000000#64), (10, 0xFFFFFFFFFFFFFFFF#64)])) (.div 0 9 9 10)
    fun s => (s.rs 9).toInt = -2 ^ 63 ∧ (s.rs 10).toInt = -1 := ⟨runs (by decide), by decide⟩
theorem witness_Division_zero : Meets (tState (tRegs [(9, 7#64)])) (.div 0 9 9 0) fun s => (s.rs 0).toInt = 0 :=
  ⟨runs (by decide), by decide⟩
theorem witness_ControlTransfers_taken : Meets (tState (tRegs [(9, 5#64)])) (.beq 0 9 9 5) fun s => s.rs 9 = s.rs 9 :=
  ⟨runs (by decide), by decide⟩
theorem witness_ControlTransfers_not_taken : Meets (tState (tRegs [(9, 5#64)])) (.beq 0 9 0 5) fun s => ¬ s.rs 9 = s.rs 0 :=
  ⟨runs (by decide), by decide⟩
theorem witness_ControlTransfers_jr : Meets (tState (tRegs [(9, 0xFFFC#64)])) (.jr 0 31 9 1)
    fun s => (s.rs 9 + BitVec.ofInt 64 (4 * (1#13).toInt)).toNat % 4 = 0 := ⟨runs (by decide), by decide⟩
theorem witness_ControlTransfers_jr_odd : Meets (tState (tRegs [(9, 0xFFFF#64)])) (.jr 0 31 9 1)
    fun s => (s.rs 9 + BitVec.ofInt 64 (4 * (1#13).toInt)).toNat % 4 ≠ 0 := ⟨runs (by decide), by decide⟩
theorem witness_ControlTransfers_loop_last : Meets (tState (tRegs [(9, 1#64)])) (.loop 0 9 5) fun s => s.rs 9 = 1#64 :=
  ⟨runs (by decide), by decide⟩
theorem witness_ControlTransfers_loop_zero : Meets (tState (tRegs [])) (.loop 0 9 5) fun s => s.rs 9 ≠ 1#64 :=
  ⟨runs (by decide), by decide⟩
theorem witness_FloatingPointRounds : Meets (tState { tRegs [] with csr := [(0, 5#64), (0x20, 5#64)] }) (.fadd 0 9 10 11 0)
    fun s => Rm.ofCode ((s.thr.csrv csrFRM).toNat % 8) = some .sr := ⟨runs (by decide), by decide⟩
theorem witness_FloatingPointRounds_reserved : Meets (tState { tRegs [] with csr := [(0, 5#64), (0x20, 6#64)] })
    (.fadd 0 9 10 11 0) fun s => 6 ≤ (s.thr.csrv csrFRM).toNat % 8 := ⟨runs (by decide), by decide⟩
theorem witness_FloatingPointExact : Meets (tState (tRegs [])) (.fmin 0 9 10 11 0) always := ⟨runs (by decide), trivial⟩
theorem witness_ControlRegisterAccesses : Meets (tState (tRegs [(9, 3#64)])) (.csrw 0 10 9 0x041)
    fun s => s.thr.pend = [] ∧ csrSupWrites 0x041 = true := ⟨runs (by decide), by decide⟩
theorem witness_ControlRegisterAccesses_readOnly : Meets (tState (tRegs [])) (.csrw 0 10 9 0x050)
    fun s => s.thr.pend = [] ∧ csrSupWrites 0x050 = false := ⟨runs (by decide), by decide⟩
theorem witness_ControlRegisterAccesses_waits :
    Meets (tState { tRegs [] with pend := [{ land := 101, w := .s 5 1#64 }] }) (.csrr 0 10 0x020)
      fun s => s.thr.pend ≠ [] := ⟨runs (by decide), by decide⟩
theorem witness_RegisterAndStoreFrames : Lands (.li 0 9 5) (uses1 (some 1) 9) 0 1 9 (fun _ => (5#18).signExtend 64)
    ∧ (tState (tRegs [])).executes (.li 0 9 5) := by
  refine ⟨fun s h _ => ⟨rfl, ?_⟩, runs (by decide)⟩
  simp only [exec, execLi, runInsn_executes h]; rfl
theorem witness_RegisterAndStoreFrames_store : Meets (tState (tRegs [(9, 0x2008#64), (10, 7#64)])) (.st 0 10 9 3 0)
    fun s => s.threadTarget s.thr .store 0x2008 8 = .ok (.phys 0x2008) ∧ s.homeDown 0x2008 = false
      ∧ s.windowDrops s.thr.asid 0x2008 = false ∧ s.placeOf 0x2008 = .ram (s.hbmLoc 0x2008) := ⟨runs (by decide), by decide⟩

/-! ### Witnesses: accesses -/

theorem witness_AccessChecksInOrder_range : (2 : Nat) ^ 48 ≤ 2 ^ 48 := by decide
theorem witness_AccessChecksInOrder_align : (2 : Nat) ^ 48 - 4 < 2 ^ 48 ∧ (2 ^ 48 - 4) % 8 ≠ 0 := by decide
theorem witness_AccessChecksInOrder_scratch : let s := tState tThread
    scratchVa ≤ scratchVa + 4088 ∧ scratchVa + 4088 ≤ 0x7F0003FFFFFF ∧ (scratchVa + 4088) % 8 = 0
      ∧ 4088 < s.thr.decl.scratch * 4096 := by decide
theorem witness_AccessChecksInOrder_scratch_end : let s := tState tThread
    scratchVa ≤ scratchVa + 4096 ∧ (scratchVa + 4096) % 8 = 0 ∧ s.thr.decl.scratch * 4096 ≤ scratchVa + 4096 - scratchVa := by decide
theorem witness_AccessChecksInOrder_fault : let s := tState tThread
    s.translate (holdCp (courseOf s.cur)) s.thr.asid s.thr.sup .load (scratchVa - 8) = .fault 9 := by decide
theorem witness_AccessChecksInOrder_allowed : let s := tState tThread
    s.translate (holdCp (courseOf s.cur)) s.thr.asid s.thr.sup .load 0x40000000 = .ok controlBase 0x400000000001F
      ∧ placeAllows s.thr.sup (s.placeOf controlBase) = true := by decide
theorem witness_AccessChecksInOrder_barred : let s := tState { tThread with csr := [(0, 4#64)] }
    s.translate (holdCp (courseOf s.cur)) s.thr.asid s.thr.sup .load 0x40000000 = .ok controlBase 0x400000000001F
      ∧ placeAllows s.thr.sup (s.placeOf controlBase) = false := by decide
theorem witness_TranslationOutcomes_none : (tState tThread).leafFor 0 0 0x7F0000000000 = none := by decide
theorem witness_TranslationOutcomes_leaf : (tState tThread).leafFor 0 0 0x3FFFFFFF = some (0x1F#64, 2) := by decide
theorem witness_TranslationOutcomes_foreign : let s := { tState tThread with imap := [(0, 1#64)] }
    s.leafFor 0 0 0x1000 = some (0x1F#64, 2) ∧ (0x1F#64).toNat / 32 % 8 ≠ s.imapIL (leafAddr 0x1F 2 0x1000 / 2 ^ 33 % 64) := by decide
theorem witness_TranslationOutcomes_hole : let s := tState tThread
    s.leafFor 0 0 0x40014000 = some (0x400000000001F#64, 1)
      ∧ s.placeOf (leafAddr 0x400000000001F 1 0x40014000) = .hole := by decide
theorem witness_LoadsReadTheirAddress : Meets (tState (tRegs [(9, 0x3FFFFFF8#64)])) (.ld 0 10 9 3 0)
    fun s => s.threadTarget s.thr .load (s.rs 9).toNat 8 = .ok (.phys 0x3FFFFFF8) ∧ s.homeDown 0x3FFFFFF8 = false
      ∧ s.windowDrops s.thr.asid 0x3FFFFFF8 = false ∧ s.placeOf 0x3FFFFFF8 = .ram (s.hbmLoc 0x3FFFFFF8)
      ∧ s.goodPhys 0x3FFFFFF8 8 = true := ⟨runs (by decide), by decide⟩
theorem witness_LoadsReadTheirAddress_scratch : Meets (tState (tRegs [(9, 0x7F0000000FF8#64)])) (.ld 0 10 9 3 0)
    fun s => s.threadTarget s.thr .load (s.rs 9).toNat 8 = .ok (.scratch 0xFF8) := ⟨runs (by decide), by decide⟩
theorem witness_LoadsReadTheirAddress_trap : Meets (tState (tRegs [(9, 0x1001#64)])) (.ld 0 10 9 3 0)
    fun s => s.threadTarget s.thr .load (s.rs 9).toNat 8 = .error { cause := 6, tval := 0x1001#64 } := ⟨runs (by decide), by decide⟩
theorem witness_LoadsReadTheirAddress_device : Meets (tState (tRegs [(9, 0x40000000#64)])) (.ld 0 10 9 3 0)
    fun s => s.threadTarget s.thr .load (s.rs 9).toNat 8 = .ok (.phys controlBase) ∧ s.homeDown controlBase = false
      ∧ s.windowDrops s.thr.asid controlBase = false ∧ s.placeOf controlBase = .ctl 0 0 := ⟨runs (by decide), by decide⟩
theorem witness_LoadsReadTheirAddress_reset :
    Meets { tState (tRegs [(9, 0x40200000#64)]) with dies := [(0, { resetting := true })] } (.ld 0 10 9 3 0)
      fun s => s.threadTarget s.thr .load (s.rs 9).toNat 8 = .ok (.phys windowBase) ∧ s.homeDown windowBase = true :=
  ⟨runs (by decide), by decide⟩
theorem witness_StoresWriteTheirAddress_device : Meets (tState (tRegs [(9, 0x40000028#64), (10, 5#64)])) (.st 0 10 9 3 0)
    fun s => s.threadTarget s.thr .store (s.rs 9).toNat 8 = .ok (.phys (controlBase + 0x28))
      ∧ (s.devWrite (some s.thr.asid) (s.placeOf (controlBase + 0x28)) (s.rs 10) 8).isSome = true := ⟨runs (by decide), by decide⟩
theorem witness_StoresWriteTheirAddress_refused :
    Meets (tState (tRegs [(9, 0x40500000#64), (10, 5#64)])) (.st 0 10 9 3 0)
      fun s => s.threadTarget s.thr .store (s.rs 9).toNat 8 = .ok (.phys (windowBase + 0x300000))
        ∧ s.devWrite (some s.thr.asid) (s.placeOf (windowBase + 0x300000)) (s.rs 10) 8 = none := ⟨runs (by decide), by decide⟩
theorem witness_AtomicsAreOneEvent : Meets (tState (tRegs [(9, 0x2000#64), (10, 5#64)])) (.amoAdd 0 11 9 10 0 3)
    fun s => s.threadTarget s.thr .atomic (s.rs 9).toNat 8 = .ok (.phys 0x2000) ∧ s.takesAtomics 0x2000 = true
      ∧ s.homeDown 0x2000 = false ∧ s.windowDrops s.thr.asid 0x2000 = false ∧ s.placeOf 0x2000 = .ram (s.hbmLoc 0x2000)
      ∧ s.goodPhys 0x2000 8 = true ∧ s.readPhys 0x2000 8 = 0 := ⟨runs (by decide), by decide⟩
theorem witness_AtomicsAreOneEvent_noAtomics : Meets (tState (tRegs [(9, 0x40400000#64)])) (.amoAdd 0 11 9 10 0 3)
    fun s => s.threadTarget s.thr .atomic (s.rs 9).toNat 8 = .ok (.phys (windowBase + 0x200000))
      ∧ s.takesAtomics (windowBase + 0x200000) = false := ⟨runs (by decide), by decide⟩
theorem witness_Fences : Meets (tState tThread) (.fenceFull 0 3) fun s =>
    ¬ ((∃ e ∈ s.copies, e.2.slot = some s.cur ∧ e.2.orphan = false ∧ e.2.replied = false)
      ∨ (∃ e ∈ s.rops, e.2.slot = some s.cur ∧ e.2.orphan = false ∧ e.2.replied = false)) := ⟨runs (by decide), by decide⟩
theorem witness_Fences_waits :
    Meets { tState tThread with copies := [(1, { slot := some 0, asid := 0, sup := true, pd := 0, desc := 0 })] } (.fenceFull 0 3) fun s =>
      ∃ e ∈ s.copies, e.2.slot = some s.cur ∧ e.2.orphan = false ∧ e.2.replied = false := ⟨runs (by decide), by decide⟩

/-- A state in which the thread and slot 1 are members of group 3, and slot 1 has arrived or not. -/
def tGroup (x : Slot) (arrived : List Nat) : State :=
  (tState x).setGroup 0 3 { members := [0, 1], arrived := arrived, episode := 5 }

theorem witness_GroupsMeet_far : Meets (tState (tRegs [(9, 256#64)])) (.join 0 9 10)
    fun s => 256 ≤ (s.rs 9).toNat := ⟨runs (by decide), by decide⟩
theorem witness_GroupsMeet_join : Meets (tState (tRegs [(9, 255#64)])) (.join 0 9 10)
    fun s => (s.rs 9).toNat < 256 ∧ s.cur ∉ (s.group s.threadPart 255).members ∧ (s.groupsOf s.cur).length < s.thr.decl.groups :=
  ⟨runs (by decide), by decide⟩
theorem witness_GroupsMeet_member : Meets (tGroup (tRegs [(9, 3#64)]) []) (.join 0 9 10)
    fun s => (s.rs 9).toNat < 256 ∧ s.cur ∈ (s.group s.threadPart 3).members := ⟨runs (by decide), by decide⟩
theorem witness_GroupsMeet_full :
    Meets (tGroup { tRegs [(9, 2#64)] with decl := { groups := 1 } } []) (.join 0 9 10)
      fun s => s.cur ∉ (s.group s.threadPart 2).members ∧ s.thr.decl.groups ≤ (s.groupsOf s.cur).length :=
  ⟨runs (by decide), by decide⟩
theorem witness_GroupsMeet_passes : Meets (tGroup (tRegs [(9, 3#64)]) [1]) (.gbar 0 9 2)
    fun s => s.thr.gbar.get? (s.threadPart * 256 + 3) = none
      ∧ ∀ n ∈ (s.group s.threadPart 3).members, n = s.cur ∨ n ∈ (s.group s.threadPart 3).arrived := ⟨runs (by decide), by decide⟩
theorem witness_GroupsMeet_waits : Meets (tGroup (tRegs [(9, 3#64)]) []) (.gbar 0 9 2)
    fun s => s.thr.gbar.get? (s.threadPart * 256 + 3) = none
      ∧ ¬ ∀ n ∈ (s.group s.threadPart 3).members, n = s.cur ∨ n ∈ (s.group s.threadPart 3).arrived := ⟨runs (by decide), by decide⟩
theorem witness_GroupsMeet_moved : Meets (tGroup { tRegs [(9, 3#64)] with gbar := [(3, 4)] } []) (.gbar 0 9 2)
    fun s => s.thr.gbar.get? (s.threadPart * 256 + 3) = some 4 ∧ (s.group s.threadPart 3).episode ≠ 4 := ⟨runs (by decide), by decide⟩
theorem witness_GroupsMeet_stays : Meets (tGroup { tRegs [(9, 3#64)] with gbar := [(3, 5)] } []) (.gbar 0 9 2)
    fun s => s.thr.gbar.get? (s.threadPart * 256 + 3) = some 5 ∧ (s.group s.threadPart 3).episode = 5 := ⟨runs (by decide), by decide⟩
theorem witness_GroupsMeet_stranger : Meets (tState (tRegs [(9, 3#64)])) (.leave 0 9)
    fun s => (s.rs 9).toNat < 256 ∧ s.cur ∉ (s.group s.threadPart 3).members := ⟨runs (by decide), by decide⟩
theorem witness_LaunchAppends_range : Meets (tState (tRegs [(9, 0x1000000000000#64)])) (.launch 0 9 10)
    fun s => 2 ^ 48 ≤ (s.rs 9).toNat := ⟨runs (by decide), by decide⟩
theorem witness_LaunchAppends_align : Meets (tState (tRegs [(9, 0xFFFFFFFFFFC0#64)])) (.launch 0 9 10)
    fun s => (s.rs 9).toNat < 2 ^ 48 ∧ (s.rs 9).toNat % 128 ≠ 0 := ⟨runs (by decide), by decide⟩
theorem witness_LaunchAppends_unreadable : Meets (tState (tRegs [(9, 0xFFFFFFFFFF80#64)])) (.launch 0 9 10)
    fun s => (match s.threadLoad (s.rs 9).toNat 8 with | .error t => t.cause == 9 | .ok _ => false) = true := ⟨runs (by decide), by decide⟩

/-- A queue 0 of the thread's address space, enabled, with a ring of 64 references. -/
def tQueue (x : Slot) : State :=
  let s := tState x
  let t := (s.writePhys 0x20000 0x80 8).writePhys 0x20008 0x30000 8
  { t with mem := commitStores s.mem t.stores, stores := [] }

/-- How an append of the thread's comes out. -/
def tAppends (s : State) (f : AppRes → Bool) : Bool :=
  match s.threadLoad (s.rs 9).toNat 8 with
  | .ok (ctl, t) => ctl == 0#64 && f (t.append t.threadPart 0 (some t.cur) false (s.rs 9))
  | .error _ => false

theorem witness_LaunchAppends_accepted : Meets (tQueue (tRegs [(9, 0x2000#64)])) (.launch 0 9 10)
    fun s => (s.qctl s.threadPart 0).asid = s.thr.asid
      ∧ tAppends s (fun | .accepted pos _ => pos == 0 | _ => false) = true := ⟨runs (by decide), by decide⟩
theorem witness_LaunchAppends_refused :
    Meets { tState (tRegs [(9, 0x2000#64)]) with parts := [(0, { pasid := 0x100000#64 })] } (.launch 0 9 10)
      fun s => (s.part s.threadPart).qte = false ∧ tAppends s (fun | .refused _ => true | _ => false) = true :=
  ⟨runs (by decide), by decide⟩
theorem witness_LaunchAppends_staged :
    let s := tQueue (tRegs [(9, 0x2000#64)])
    Meets (s.modPart 0 fun a => { a with swout := true }) (.launch 0 9 10)
      fun s => (s.qctl s.threadPart 0).asid = s.thr.asid ∧ tAppends s (fun | .staged _ => true | _ => false) = true :=
  ⟨runs (by decide), by decide⟩
theorem witness_LaunchAppends_waits :
    let s := tQueue (tRegs [(9, 0x2000#64)])
    Meets (s.modPart 0 fun a => { a with swout := true, queues := [(0, { staged := some (5#64, none) })] }) (.launch 0 9 10)
      fun s => tAppends s (fun | .wait => true | _ => false) = true := ⟨runs (by decide), by decide⟩
theorem witness_LaunchAppends_foreign :
    let s := tQueue (tRegs [(9, 0x2000#64)])
    Meets { s with mem := commitStores s.mem (s.writePhys 0x20000 0x1000000080 8).stores } (.launch 0 9 10)
      fun s => (s.part s.threadPart).qte = true ∧ (s.qctl s.threadPart 0).asid = 1 ∧ s.thr.asid = 0 := ⟨runs (by decide), by decide⟩
theorem witness_LaunchAppends_full :
    let s := tQueue (tRegs [(9, 0x2000#64)])
    Meets { s with mem := commitStores s.mem (s.writePhys 0x20010 64 8).stores } (.launch 0 9 10)
      fun s => tAppends s (fun | .wait => true | _ => false) = true := ⟨runs (by decide), by decide⟩
theorem witness_InterleaveIsOneToOne : (0x7FFFFFFFFF : Nat) < 0x8000000000 ∧ (2 ^ 33 - 1 : Nat) < 2 ^ 33 := by decide
theorem witness_StoresReadBack : let s := tState tThread
    (∀ i, i < 8 → s.placeOf (0x7FFFFFFFF8 + i) = .ram (s.hbmLoc (0x7FFFFFFFF8 + i))) ∧ Memory.wf s.mem = true
      ∧ (∀ i, i < 8 → s.placeOf (0x2000 + i) ≠ s.placeOf 0x2008) := by decide
/-! ### Witnesses: vector instructions -/

theorem witness_SetlenGrants : let s := tState (tRegs [(9, 100#64)])
    s.executes (.setlen 0 10 9 0 7) ∧ s.landDue.thr.lent = [] ∧ ∀ p ∈ s.landDue.thr.pend, p.vecWork = false :=
  ⟨runs (by decide), by decide, fun _ h => by cases h⟩
theorem witness_SetlenGrants_waits : let s := tState { tRegs [] with pend := [{ land := 105, w := .m 1 0#16384 0#16384, vec := true }] }
    s.executes (.setlen 0 10 9 0 7) ∧ ∃ p ∈ s.landDue.thr.pend, p.vecWork = true :=
  ⟨runs (by decide), _, .head _, by decide⟩
theorem witness_SetlenGrants_atomic : let s := tState { tRegs [(9, 100#64)] with hdr := 0xFC300100#32, scap := 2 }
    s.executes (.setlen 0 10 9 0 7) ∧ s.landDue.thr.atom = true ∧ s.landDue.thr.cap = 2 := ⟨runs (by decide), by decide, by decide⟩
theorem witness_SetlenGrants_bad : (14 : Nat) ≤ (15#4).toNat ∧ (tStrip 0x100#64 0#64 []).modOk = false := by decide
theorem witness_StripChecksInOrder_ilf : (tStrip 0x107#64 0#64 []).ilf = true := by decide
theorem witness_StripChecksInOrder_modulus : let x := tStrip 0x0D#64 0#64 []
    kindOf x.fmt = some .mod ∧ x.ilf = false ∧ x.modOk = false := by decide
theorem witness_StripChecksInOrder_format : (tStrip 0x07#64 4#64 []).stripOf (.int true 32) ∧ okFloat (.int true 32) 1 = false := by
  unfold Slot.stripOf; decide
theorem witness_StripChecksInOrder_mode : let x := { tStrip 0#64 4#64 [] with csr := [(0x11, 0#64), (0x20, 7#64)] }
    x.stripOf (.fp .f32) ∧ okFloat (.fp .f32) x.grp = true ∧ x.rm = none := by unfold Slot.stripOf; decide
theorem witness_VectorFloatingPoint : Meets (tState (tStrip 0x20#64 200#64 [])) (.vadd 0 4 8 12 1)
    fun s => s.thr.stripOf (.fp .f32) ∧ s.thr.rm = some .rne := ⟨runs (by decide), by unfold Slot.stripOf; decide⟩
theorem witness_VectorFloatingPoint_trap : Meets (tState (tStrip 0x07#64 4#64 [])) (.vadd 0 4 8 12 1)
    fun s => stripTrap s.thr okFloat true = some { cause := 4, tval := 7#64 } := ⟨runs (by decide), by decide⟩
theorem witness_VectorIntegersAndResidues : Meets (tState (tStrip 0x05#64 256#64 [])) (.viadd 0 4 8 12 0)
    fun s => s.thr.stripOf (.int true 8) := ⟨runs (by decide), by unfold Slot.stripOf; decide⟩
theorem witness_VectorIntegersAndResidues_modulus :
    Meets (tState { tThread with csr := [(0, 5#64), (0x10, 8#64), (0x11, 13#64), (0x24, 3#64), (0x25, 0x55555555#64)] })
      (.vmadd 0 4 8 12 0) fun s => s.thr.stripOf .mod := ⟨runs (by decide), by unfold Slot.stripOf; decide⟩
theorem witness_ComparesAndMasks : Meets (tState (tStrip 0x0C#64 32#64 []))
    (.mpopc 0 9 1 2) fun s => s.thr.stripOf (.int false 64) ∧ Kind.int false 64 ≠ .q4 :=
  ⟨runs (by decide), by unfold Slot.stripOf; decide⟩
theorem witness_VectorConversion : Meets (tState (tStrip 0x01#64 128#64 []))
    (.vcvt 0 4 6 0 0 0) fun s => s.thr.stripOf (.fp .f16)
      ∧ max 1 (s.thr.grp * widthOf 0 / widthOf s.thr.fmt) = 2 ∧ 6 % 2 = 0 ∧ ¬ s.thr.decl.vregs < 2 + 6 ∧ s.thr.rm ≠ none :=
  ⟨runs (by decide), by unfold Slot.stripOf; decide⟩
theorem witness_VectorConversion_wide : Meets (tState (tStrip 0x20#64 128#64 []))
    (.vcvt 0 4 8 0 0 8) fun s => s.thr.stripOf (.fp .f32)
      ∧ max 1 (s.thr.grp * widthOf 8 / widthOf s.thr.fmt) = 8 := ⟨runs (by decide), by unfold Slot.stripOf; decide⟩
theorem witness_VectorConversion_tooWide : Meets (tState (tStrip 0x30#64 128#64 []))
    (.vcvt 0 8 8 0 0 8) fun s => s.thr.stripOf (.fp .f32)
      ∧ 8 < max 1 (s.thr.grp * widthOf 8 / widthOf s.thr.fmt) := ⟨runs (by decide), by unfold Slot.stripOf; decide⟩
theorem witness_VectorConversion_modulus : Meets (tState (tStrip 0x07#64 32#64 [])) (.vcvt 0 4 6 0 0 13)
    fun s => s.thr.stripOf (.int true 32) ∧ kindOf 13 = some .mod ∧ s.thr.modOk = false :=
  ⟨runs (by decide), by unfold Slot.stripOf; decide⟩
theorem witness_VectorConversion_mode : Meets (tState { tStrip 0x05#64 32#64 [] with csr := [(0, 5#64), (0x11, 5#64), (0x20, 6#64)] })
    (.vcvt 0 4 6 0 0 5) fun s => s.thr.stripOf (.int true 8) ∧ s.thr.rm = none := ⟨runs (by decide), by unfold Slot.stripOf; decide⟩
theorem witness_VectorConversion_mixed : Meets
    (tState { tThread with csr := [(0, 5#64), (0x10, 8#64), (0x11, 13#64), (0x24, 3#64), (0x25, 0x55555555#64)] }) (.vcvt 0 4 6 0 0 0)
    fun s => s.thr.stripOf .mod ∧ kindOf 0 = some (.fp .f32) := ⟨runs (by decide), by unfold Slot.stripOf; decide⟩
theorem witness_VectorConversion_beyond : let x := { tStrip 0x01#64 128#64 [] with decl := { vregs := 7 } }
    kindOf x.fmt = some (.fp .f16) ∧ max 1 (x.grp * widthOf 0 / widthOf x.fmt) = 2 ∧ 4 + x.grp ≤ x.decl.vregs ∧ 4 % x.grp = 0
      ∧ x.decl.vregs < 6 + 2 := by decide
theorem witness_VectorConversion_misnamed : let x := tStrip 0x01#64 128#64 []
    4 + x.grp ≤ x.decl.vregs ∧ 5 + 2 ≤ x.decl.vregs ∧ 5 % 2 ≠ 0 := by decide
theorem witness_VectorReductions : Meets (tState (tStrip 0#64 64#64 [(10, 0x3F800000#64)]))
    (.vredsum 0 11 2 10 0) fun s => s.thr.stripOf (.fp .f32)
      ∧ okRed (.fp .f32) s.thr.grp = true ∧ s.thr.rm ≠ none := ⟨runs (by decide), by unfold Slot.stripOf; decide⟩
theorem witness_VectorReductions_tree : ∀ e, 3 ≤ e → (fun n => if n < 3 then some (n + 1) else none) e = none := by
  intro e h; simp; omega
theorem witness_VectorPermutes : Meets (tState (tStrip 0x06#64 128#64 [(9, 3#64)])) (.vperm 0 4 8 12 1)
    fun s => s.thr.stripOf (.int true 16) ∧ Kind.int true 16 ≠ .q4 := ⟨runs (by decide), by unfold Slot.stripOf; decide⟩
theorem witness_VectorQ4N : Meets (tState (tStrip 0x20#64 256#64 []))
    (.vq4dq 0 4 7 9 0) fun s => s.thr.stripOf (.fp .f32) ∧ s.thr.grp ≤ 4 :=
  ⟨runs (by decide), by unfold Slot.stripOf; decide⟩
theorem witness_LanesAreOneToOne : (8 : Nat) ∈ [8, 16, 32, 64] ∧ (8 : Nat) ∈ [1, 2, 4, 8] ∧ 2047 < lanesOf 8 8 := by decide
theorem witness_ElementsWrittenInPlace : let s := tState tThread
    let es : List (Nat × Nat) := [(0, 7), (255, 300)]
    30 + 2 ≤ 32 ∧ s.thr.pend = [] ∧ s.thr.ranks.Nodup ∧ (es.map (·.1)).Nodup ∧ ∀ e ∈ es, e.1 < lanesOf 16 2 * s.thr.ranks.length := by
  decide

/-- The thread with 16 elements of 4 bytes from address 0x2000 on, indices 0, 1, … in v8. -/
def tGather : Slot :=
  { tStrip 0x07#64 16#64 [(9, 0x2000#64), (10, 4#64)] with
    v := [(8, BitVec.ofNat 2048 ((List.range 16).foldl (fun n k => n + k * 2 ^ (32 * k)) 0))] }

theorem witness_VectorMemoryOneGroup : let s := tState tGather
    let t := s.landDue
    let x := t.thr
    s.executes (.vld 0 4 9 0) ∧ x.stripOf (.int true 32) ∧ x.vm = none ∧ x.lostNew = 0 ∧ x.sstart = 0 ∧ 0 < x.glen
      ∧ x.glen ≤ 16
      ∧ (∀ e ∈ x.active 0, t.threadTarget x .load ((t.rs 9).toNat + e * 4) 4 = .ok (.phys (0x2000 + e * 4))
          ∧ t.homeDown (0x2000 + e * 4) = false ∧ t.windowDrops x.asid (0x2000 + e * 4) = false
          ∧ t.placeOf (0x2000 + e * 4) = .ram (t.hbmLoc (0x2000 + e * 4)) ∧ t.goodPhys (0x2000 + e * 4) 4 = true)
      ∧ t.runLeaves x .load none 0x2000 (16 * 4) (2 ^ 17) = none := by
  refine ⟨runs (by decide +kernel), by unfold Slot.stripOf; decide +kernel, by decide +kernel, by decide +kernel, by decide +kernel, by decide +kernel, by decide +kernel, by decide +kernel, by decide +kernel⟩
theorem witness_VectorMemoryOneGroup_index : let s := tState tGather
    let t := s.landDue
    let x := t.thr
    s.executes (.vstx 0 4 9 8 0 1) ∧ idxBad 8 x = none ∧ x.active 0 ≠ []
      ∧ (∀ e ∈ x.active 0, t.threadTarget x .store ((t.rs 9).toNat + x.idx 8 e * 4) 4 = .ok (.phys (0x2000 + e * 4))
          ∧ (match t.translate 0 0 true .store (0x2000 + x.idx 8 e * 4) with | .ok _ q => q.testBit 8 | _ => true) = false) := by
  refine ⟨runs (by decide +kernel), by decide +kernel, by decide +kernel, by decide +kernel⟩

/-- A vector load under way: 17 elements, the last of them in a second group. -/
def tVmem (load : Bool) (ea : Nat) : VMem :=
  { load := load, w := 32, g := 1, d := 4, todo := (List.range 17).map fun e => (e, ea + e * 4, e) }

theorem witness_VectorMemoryTurns : let s := tState tGather
    let m := tVmem true 0x2000
    m.todo = (0, 0x2000, 0) :: m.todo.drop 1 ∧ m.scope = none ∧ m.todo.drop (m.todo.takeWhile fun t => t.1 / 16 == 0 / 16).length ≠ []
      ∧ (match s.groupTargets m (m.todo.takeWhile fun t => t.1 / 16 == 0) with
          | .ok ts => (s.groupReads 4 ((m.todo.takeWhile fun t => t.1 / 16 == 0).zip ts)).toBool
          | .error _ => false) = true := by decide +kernel
theorem witness_VectorMemoryTurns_last : let s := tState tGather
    let m := { tVmem true 0x2000 with todo := [(16, 0x2040, 0)] }
    m.todo.drop (m.todo.takeWhile fun t => t.1 / 16 == 16 / 16).length = []
      ∧ (match s.groupTargets m m.todo with
          | .ok ts => (match s.groupReads 4 (m.todo.zip ts) with | .ok (_, t) => t.thr.lostNew == 0 | .error _ => false)
          | .error _ => false) = true := by decide +kernel
theorem witness_VectorMemoryTurns_trap : let s := tState tGather
    let m := tVmem true 0x2001
    (s.groupTargets m (m.todo.takeWhile fun t => t.1 / 16 == 0)).toBool = false := by decide +kernel
theorem witness_VectorAppend : Meets (tState (tStrip 0x07#64 4#64 [(9, 0x2000#64)]))
    (.vappend 0 8 9 11 0 0) fun s => s.thr.stripOf (.int true 32) ∧ s.thr.vm = none
      ∧ s.thr.sstartAd = false ∧ (s.rs 9).toNat % 8 = 0 ∧ s.threadTarget s.thr .atomic (s.rs 9).toNat 8 = .ok (.phys 0x2000)
      ∧ s.takesAtomics 0x2000 = true ∧ s.homeDown 0x2000 = false ∧ s.windowDrops s.thr.asid 0x2000 = false
      ∧ s.placeOf 0x2000 = .ram (s.hbmLoc 0x2000) ∧ s.goodPhys 0x2000 8 = true ∧ s.readPhys 0x2000 8 % 4 = 0 ∧ s.thr.sstart = 0
      ∧ s.thr.lostNew = 0 ∧ (s.thr.active 0).length ≤ 16 :=
  ⟨runs (by decide +kernel), by unfold Slot.stripOf; decide +kernel⟩
theorem witness_VectorAppend_align : Meets (tState (tStrip 0x07#64 4#64 [(9, 0x2004#64)]))
    (.vappend 0 8 9 11 0 0) fun s => s.thr.stripOf (.int true 32) ∧ (s.rs 9).toNat % 8 ≠ 0 :=
  ⟨runs (by decide +kernel), by unfold Slot.stripOf; decide +kernel⟩
/-! ### Witnesses: system instructions -/

theorem witness_TrapClaimReturn : (tState (tRegs [(9, 5#64)])).executes (.trap 0 9 5) := runs (by decide)
theorem witness_TrapClaimReturn_claimed : Meets (tState { tThread with claimed := true }) (.claim 0)
    fun s => s.thr.claimed = true := ⟨runs (by decide), by decide⟩

/-- A thread that holds no slice, whose save area stands in memory. -/
def tClaim : State := { tState { tThread with att := 0 } with tlbs := [(0, [⟨0, 0x7F1000000000, 2 ^ 30, 0x1F#64, 2⟩])] }

theorem writePhys_keeps : ∀ (n : Nat) (s : State) (pa v : Nat), (s.writePhys pa v n).tlbs = s.tlbs
    ∧ (s.writePhys pa v n).slots = s.slots ∧ (s.writePhys pa v n).imap = s.imap
  | 0, _, _, _ => ⟨rfl, rfl, rfl⟩
  | n + 1, s, pa, v => by
    have h : (s.writePhysByte pa (BitVec.ofNat 8 v)).tlbs = s.tlbs ∧ (s.writePhysByte pa (BitVec.ofNat 8 v)).slots = s.slots
        ∧ (s.writePhysByte pa (BitVec.ofNat 8 v)).imap = s.imap := by
      simp only [State.writePhysByte]; split <;> simp [State.putByte]
    obtain ⟨h1, h2, h3⟩ := writePhys_keeps n (s.writePhysByte pa (BitVec.ofNat 8 v)) (pa + 1) (v / 256)
    exact ⟨h1.trans h.1, h2.trans h.2.1, h3.trans h.2.2⟩

theorem tClaim_putWords : ∀ (ws : List W64) (s : State) (va : Nat), s.tlbs = tClaim.tlbs → s.slots = tClaim.slots → s.imap = [] →
    0x7F1000000000 ≤ va → va + 8 * ws.length ≤ 0x7F1000000000 + 2 ^ 30 → ∃ t, s.putWords 0 va ws = .ok t
  | [], s, _, _, _, _, _, _ => ⟨s, rfl⟩
  | w :: r, s, va, h1, h2, h3, lo, hi => by
    have hl : va + 8 * r.length + 8 ≤ 0x7F1000000000 + 2 ^ 30 := by simp only [List.length_cons] at hi; omega
    have hs : (s.slot 0).asid = 0 := by simp only [State.slot, h2]; decide
    have hleaf : s.leafFor 0 0 va = some (0x1F#64, 2) := by
      have : s.tlbs.getD [] 0 = [⟨0, 0x7F1000000000, 2 ^ 30, 0x1F#64, 2⟩] := by rw [h1]; decide
      simp only [State.leafFor, this, tlbFind]
      have hv : va < 0x7F1000000000 + 2 ^ 30 := by omega
      rw [if_pos ⟨trivial, lo, hv⟩]
    obtain ⟨p, hp⟩ : ∃ p, va % 2 ^ 30 = p := ⟨_, rfl⟩
    have hpa : leafAddr (0x1F#64).toNat 2 va = p := by simp [leafAddr, leafSize, bitsAt, ← hp]
    have hlt : p < 0x8000000000 := by omega
    have hplace : s.placeOf p = .ram (s.hbmLoc p) := by unfold State.placeOf; rw [if_pos hlt]
    have hil : s.imapIL (bitsAt p 38 33) = 0 := by simp only [State.imapIL, h3]; rfl
    have ht : s.translate 0 0 true .store va = .ok p 0x1F := by
      have h48 : ¬ va ≥ 2 ^ 48 := by omega
      unfold State.translate
      rw [if_neg h48, hleaf]
      dsimp only
      rw [if_neg (by decide), hpa, if_neg (fun h => h.2 (by rw [hil]; decide)), if_neg (by rw [hplace]; simp)]; rfl
    have hv : s.vwrite (holdCp (courseOf 0)) (s.slot 0).asid true va w.toNat 8 = .ok (s.writePhys p w.toNat 8) := by
      unfold State.vwrite
      rw [hs, show holdCp (courseOf 0) = 0 from rfl, ht]
      dsimp only
      rw [hplace]
    obtain ⟨k1, k2, k3⟩ := writePhys_keeps 8 s p w.toNat
    simp only [State.putWords, hv]
    exact tClaim_putWords r _ (va + 8) (k1.trans h1) (k2.trans h2) (k3.trans h3) (by omega) (by omega)

theorem witness_TrapClaimReturn_claim : Meets tClaim (.claim 0) fun s => s.thr.claimed = false
    ∧ ∃ t, s.putWords s.cur (saveArea s.cur) s.thr.saveWords = .ok t := by
  refine ⟨runs (by decide), by decide, tClaim_putWords _ _ _ (by rfl) (by decide) (by decide) (by decide) ?_⟩
  decide +kernel
theorem witness_TrapClaimReturn_fault : Meets (tState tThread) (.claim 0) fun s => s.thr.claimed = false
    ∧ (match s.putWords s.cur (saveArea s.cur) s.thr.saveWords with | .error (_, va, _) => va == saveArea 0 | .ok _ => false) = true :=
  ⟨runs (by decide), by decide +kernel⟩
theorem witness_TrapClaimReturn_eret : (tState tThread).executes (.eret 0)
    ∧ (tState tThread).landDue.thr.claimed = false ∧ (tState tThread).landDue.thr.switchPending = false :=
  ⟨runs (by decide), by decide, by decide⟩
theorem witness_TrapClaimReturn_reload : let s := tClaim.setThr { tClaim.thr with claimed := true }
    s.executes (.eret 0) ∧ s.landDue.thr.claimed = true ∧ s.landDue.reloadFault 0 = none :=
  ⟨runs (by decide), by decide, by decide +kernel⟩
theorem witness_WaitAndYield : Meets (tState (tRegs [])) (.wfe 0 9 0)
    fun s => s.thr.wfe = none ∧ s.rs 0 = 0#64 := ⟨runs (by decide), by decide⟩
theorem witness_WaitAndYield_location : Meets (tState (tRegs [(9, 0x2000#64)])) (.wfe 0 9 9)
    fun s => s.thr.wfe = none ∧ s.rs 9 ≠ 0#64 ∧ s.threadTarget s.thr .load (s.rs 9).toNat 8 = .ok (.phys 0x2000)
      ∧ s.placeOf 0x2000 = .ram (s.hbmLoc 0x2000) := ⟨runs (by decide), by decide⟩
theorem witness_WaitAndYield_woken :
    Meets (tState { tThread with wfe := some { since := 9, loc := none, reasons := 4 } }) (.wfe 0 9 0)
      fun s => ∃ w, s.thr.wfe = some w ∧ w.reasons ≠ 0 ∧ ¬ (s.thr.async15 ≠ [] ∨ s.thr.faults ≠ [] ∨ s.thr.preq ≠ none) :=
  ⟨runs (by decide), _, rfl, by decide⟩
theorem witness_WaitAndYield_waits :
    Meets (tState { tThread with wfe := some { since := 9, loc := none, reasons := 0 } }) (.wfe 0 9 0)
      fun s => ∃ w, s.thr.wfe = some w ∧ w.reasons = 0 ∧ ¬ (s.thr.async15 ≠ [] ∨ s.thr.faults ≠ [] ∨ s.thr.preq ≠ none) :=
  ⟨runs (by decide), _, rfl, by decide⟩
theorem witness_WaitAndYield_scratch : Meets (tState (tRegs [(9, 0x7F0000000FF8#64)])) (.wfe 0 9 9)
    fun s => s.thr.wfe = none ∧ s.rs 9 ≠ 0#64 ∧ s.threadTarget s.thr .load (s.rs 9).toNat 8 = .ok (.scratch 0xFF8) :=
  ⟨runs (by decide), by decide⟩
theorem witness_WaitAndYield_trap : Meets (tState (tRegs [(9, 4#64)])) (.wfe 0 9 9)
    fun s => s.thr.wfe = none ∧ s.rs 9 ≠ 0#64
      ∧ s.threadTarget s.thr .load (s.rs 9).toNat 8 = .error { cause := 6, tval := 4#64 } := ⟨runs (by decide), by decide⟩
theorem witness_WaitAndYield_pending :
    let s := tState { tThread with wfe := some { since := 9, loc := none, reasons := 0 }, preq := some ⟨3, 50, false, none⟩,
                                   csr := [(0, 1#64)] }
    s.executes (.wfe 0 9 0) ∧ s.landDue.thr.preq ≠ none ∧ s.landDue.thr.wfe.isSome = true := by
  refine ⟨⟨by decide, by decide, by decide, by decide, .inr ⟨by decide, .inr ⟨by decide, by decide, fun q h => .inl (by decide)⟩⟩,
    by decide, by decide, by decide⟩, by decide, by decide⟩
/-- A job of four ordinals, all handed out and dispatched. -/
def tRunningJob : Job := { p := 0, q := 0, pos := some 0, ref := 0x2000#64, asid := 0, words := [], total := 4, dispatched := 4 }
def tEnding (x : Slot) : State := { tState x with jobs := [(0, tRunningJob)] }

theorem witness_EndAndTrigger : (tEnding tThread).executes (.done 0) ∧ (tEnding tThread).thr.lentFrom = none
    ∧ (tEnding tThread).jobs.get? (tEnding tThread).thr.job = some tRunningJob := ⟨runs (by decide), by decide, by decide⟩
theorem witness_EndAndTrigger_err : (tEnding tThread).executes (.doneErr 0) := runs (by decide)
theorem witness_EndAndTrigger_early : Meets (tEnding tThread) (.etrig 0 2) fun s => s.thr.triggered = false :=
  ⟨runs (by decide), by decide⟩
theorem witness_EndAndTrigger_once : Meets (tState { tThread with triggered := true }) (.etrig 0 2)
    fun s => s.thr.triggered = true := ⟨runs (by decide), by decide⟩

/-! ### Witnesses: grid instructions -/

theorem witness_ConfigurationCommands_align : Meets (tState (tRegs [(9, 0x2020#64)])) (.cfgload 0 9 10)
    fun s => (s.rs 9).toNat % 64 ≠ 0 := ⟨runs (by decide), by decide⟩
theorem witness_ConfigurationCommands_region : Meets (tState (tRegs [(9, 0x2000#64)])) (.cfgload 0 9 10)
    fun s => (s.rs 9).toNat % 64 = 0 ∧ (match s.region (s.rs 10) with | .error t => t.cause == 4 | .ok _ => false) = true :=
  ⟨runs (by decide), by decide⟩
theorem witness_ConfigurationCommands_rejected : Meets (tState (tRegs [(9, 0x2000#64), (10, 1#64)])) (.cfgload 0 9 10)
    fun s => (match s.region (s.rs 10) with
      | .ok (ms, r) => ms == [(0, 1)] && (match (r.pump r.cur).readImage (s.rs 9).toNat with
          | .ok (.error tv, _) => tv == cfgTval 1 0 0 0
          | _ => false) && decide ((r.pump r.cur).thr.cmdCount < 16)
      | .error _ => false) = true := ⟨runs (by decide), by decide⟩

/-- An image at 0x2000 of one record: the switch of position 0 in plane 0, all zero. -/
def tImage (x : Slot) : State :=
  let s := tState x
  let t := (s.writePhys 0x2000 0x1C9 8).writePhys 0x2040 3 8
  { s with mem := commitStores s.mem t.stores }

theorem witness_ConfigurationCommands_load : Meets (tImage (tRegs [(9, 0x2000#64), (10, 1#64)])) (.cfgload 0 9 10)
    fun s => (match s.region (s.rs 10) with
      | .ok (ms, r) => (match (r.pump r.cur).readImage (s.rs 9).toNat with
          | .ok (.ok rs, v) => v.imageBad true ms rs == none && !anyB v.planeActive (imageLoads ms rs) && imageLoads ms rs == [(0, 0)]
          | _ => false) && allBegun (r.pump r.cur).thr.cmds && !heldBack (r.pump r.cur).thr.cmds (.load 0)
      | .error _ => false) = true := ⟨runs (by decide), by decide⟩
theorem witness_ConfigurationCommands_empty : Meets (tState (tRegs [(9, 1#64)])) (.cfgsel 0 9 0 0)
    fun s => (match s.region (s.rs 9) with
      | .ok (ms, r) => !(r.pump r.cur).regionFrozen ms && (r.pump r.cur).emptyAt ms 0 == some 0
      | .error _ => false) = true := ⟨runs (by decide), by decide⟩

/-- Position 0 with plane 0 loaded. -/
def tLoaded (x : Slot) : State := { tState x with poss := [(0, { planes := [(0, { st := .loaded })] })] }

theorem witness_ConfigurationCommands_sel : Meets (tLoaded (tRegs [(9, 1#64)])) (.cfgsel 0 9 0 0)
    fun s => (match s.region (s.rs 9) with
      | .ok (ms, r) => !(r.pump r.cur).regionFrozen ms && (r.pump r.cur).emptyAt ms 0 == none
          && decide ((r.pump r.cur).thr.cmdCount < 16) && ((r.pump r.cur).wantAll (r.pump r.cur).cur false (if (r.pump r.cur).thr.decl.feng then (regionFes ms).map (·, 0) else [])).1
      | .error _ => false) = true := ⟨runs (by decide), by decide⟩
theorem witness_StreamsRunsControl_strm : Meets (tState (tRegs [(9, 0x2000#64)])) (.strm 0 9 10 0 0 0 0)
    fun s => (s.rs 9).toNat % 64 = 0 ∧ (match s.imageFetch (s.rs 9).toNat 6 with
      | .ok (ws, v) => ws.length == 6 && v.thr.decl.posmask.testBit (portPos 0) && decide (((v.pump v.cur).port 0).inbox.length < 8)
      | .error _ => false) = true := ⟨runs (by decide), by decide⟩
theorem witness_StreamsRunsControl_start : Meets (tState (tRegs [(9, 0xFFFFFFFF#64), (10, 0x1000000#64)])) (.start 0 9 10 3)
    fun s => (s.rs 10).toNat / 2 ^ 25 % 128 = 0 ∧ (s.rs 10).toNat / 2 ^ 12 % 16 = 0 ∧ (match s.region (s.rs 9) with
      | .ok (ms, r) => !(r.pump r.cur).regionFrozen ms && decide ((r.pump r.cur).thr.cmdCount < 16)
      | .error _ => false) = true := ⟨runs (by decide), by decide⟩
theorem witness_StreamsRunsControl_spec : Meets (tState (tRegs [(9, 1#64), (10, 0x2000000#64)])) (.start 0 9 10 3)
    fun s => ¬ ((s.rs 10).toNat / 2 ^ 25 % 128 = 0 ∧ (s.rs 10).toNat / 2 ^ 12 % 16 = 0) := ⟨runs (by decide), by decide⟩
theorem witness_StreamsRunsControl_ctok : Meets (tState (tRegs [(9, 63#64), (10, 64#64)])) (.ctok 0 9 10)
    fun s => (s.rs 9).toNat < 64 ∧ 1 ≤ (s.rs 10).toNat ∧ (s.rs 10).toNat ≤ 64 ∧ 32 ≤ (s.rs 9).toNat ∧ s.thr.decl.feng = true :=
  ⟨runs (by decide), by decide⟩
theorem witness_StreamsRunsControl_target : Meets (tState (tRegs [(9, 64#64)])) (.ctok 0 9 10)
    fun s => 64 ≤ (s.rs 9).toNat := ⟨runs (by decide), by decide⟩
theorem witness_StreamsRunsControl_count : Meets (tState (tRegs [(9, 3#64), (10, 65#64)])) (.ctok 0 9 10)
    fun s => (s.rs 9).toNat < 64 ∧ 64 < (s.rs 10).toNat := ⟨runs (by decide), by decide⟩
theorem witness_StreamsRunsControl_mask :
    Meets (tState { tRegs [(9, 31#64), (10, 1#64)] with decl := { posmask := 0x7FFFFFFF } }) (.ctok 0 9 10)
      fun s => (s.rs 9).toNat < 32 ∧ 1 ≤ (s.rs 10).toNat ∧ s.thr.decl.posmask.testBit (s.rs 9).toNat = false :=
  ⟨runs (by decide), by decide⟩
theorem witness_RegionsAndBarriers : Meets (tState (tRegs [(9, 0x80000000#64)])) (.gquery 0 9 10 0)
    fun s => (s.region (s.rs 9)).toBool = true := ⟨runs (by decide), by decide⟩
theorem witness_StreamsRunsControl_outside :
    Meets (tState { tRegs [(9, 0x2000#64)] with decl := { posmask := 0 } }) (.strm 0 9 10 0 0 0 7)
      fun s => (match s.imageFetch (s.rs 9).toNat 6 with
        | .ok (_, v) => !v.thr.decl.posmask.testBit (portPos 7)
        | .error _ => false) = true := ⟨runs (by decide), by decide⟩

/-- A stream of the thread. -/
def tStream : Stream := { id := 1, slot := 0, asid := 0, sup := true, words := List.replicate 6 0#64, spec := 0x2000, job := 0, scope := 0, acq := false, rel := false }

theorem witness_StreamsRunsControl_full :
    Meets { tState (tRegs [(9, 0x2000#64)]) with ports := [(0, { inbox := List.replicate 8 tStream })] } (.strm 0 9 10 0 0 0 0)
      fun s => (match s.imageFetch (s.rs 9).toNat 6 with
        | .ok (_, v) => decide (8 ≤ ((v.pump v.cur).port 0).inbox.length)
        | .error _ => false) = true := ⟨runs (by decide), by decide⟩
theorem witness_StreamsRunsControl_noEngine :
    Meets (tState { tRegs [(9, 32#64), (10, 1#64)] with decl := { posmask := 1 } }) (.ctok 0 9 10)
      fun s => 32 ≤ (s.rs 9).toNat ∧ (s.rs 9).toNat < 64 ∧ s.thr.decl.feng = false := ⟨runs (by decide), by decide⟩
theorem witness_RegionsAndBarriers_port : Meets (tState (tRegs [(9, 7#64)])) (.gquery 0 9 10 2) fun s => (s.rs 9).toNat < 8 :=
  ⟨runs (by decide), by decide⟩
theorem witness_RegionsAndBarriers_far : Meets (tState (tRegs [(9, 8#64)])) (.gquery 0 9 10 3) fun s => 8 ≤ (s.rs 9).toNat :=
  ⟨runs (by decide), by decide⟩
theorem witness_RegionsAndBarriers_sbar : Meets (tState tThread) (.sbarCfg 0) fun s => s.nextId = 7 :=
  ⟨runs (by decide), by decide⟩
theorem witness_RegionsAndBarriers_noRun : Meets (tState tThread) (.swait 0 10 3 3)
    fun s => (((s.pump s.cur).thr.bars.getD [] 3).findSome? fun r => (s.pump s.cur).runs.get? r) = none := ⟨runs (by decide), by decide⟩

/-- A run of position 0 under barrier 3. -/
def tRun (done' : Bool) : Run := { slot := 0, masks := [(0, 1)], bar := 3, spec := 0#64, feng := false, begun := true, done := done' }
def tRunning (done' : Bool) : State := { tState { tThread with bars := [(3, [5])] } with runs := [(5, tRun done')] }

theorem witness_RegionsAndBarriers_runs : Meets (tRunning false) (.swait 0 10 3 3)
    fun s => (((s.pump s.cur).thr.bars.getD [] 3).findSome? fun r => (s.pump s.cur).runs.get? r) = some (tRun false)
      ∧ (tRun false).done = false := ⟨runs (by decide), by decide⟩
theorem witness_RegionsAndBarriers_done : Meets (tRunning true) (.swait 0 10 3 3)
    fun s => (((s.pump s.cur).thr.bars.getD [] 3).findSome? fun r => (s.pump s.cur).runs.get? r) = some (tRun true)
      ∧ (tRun true).done = true := ⟨runs (by decide), by decide⟩
theorem witness_TokenQueues : Meets (tState (tRegs [(9, 4095#64), (10, 5#64)])) (.tokq 0 9 10 0 0)
    fun s => (s.rs 9).toNat < 4096 ∧ s.partOfAsid s.thr.asid = some 0
      ∧ (s.tokq 0 4095).toks.length + (s.tokq 0 4095).held.length < 64 := ⟨runs (by decide), by decide⟩
theorem witness_TokenQueues_unowned : Meets { tState (tRegs [(9, 4095#64)]) with parts := [] } (.tokq 0 9 10 0 0)
    fun s => (s.rs 9).toNat < 4096 ∧ s.partOfAsid s.thr.asid = none ∧ s.nextId = 7 := ⟨runs (by decide), by decide⟩
theorem witness_TokenQueues_disarm : Meets ((tState (tRegs [(9, 1#64)])).setTokq 0 1 { tmpl := 0x2000, armed := true }) (.qdisarm 0 9 10)
    fun s => (s.rs 9).toNat < 4096 ∧ s.partOfAsid s.thr.asid = some 0 ∧ (s.tokq 0 1).armed = true := ⟨runs (by decide), by decide⟩
theorem witness_TokenQueues_range : Meets (tState (tRegs [(9, 1#64), (10, 0x1000000000000#64)])) (.qarm 0 9 10)
    fun s => (s.rs 9).toNat < 4096 ∧ 2 ^ 48 ≤ (s.rs 10).toNat := ⟨runs (by decide), by decide⟩
theorem witness_TokenQueues_align : Meets (tState (tRegs [(9, 1#64), (10, 0xFFFFFFFFFFC0#64)])) (.qarm 0 9 10)
    fun s => (s.rs 9).toNat < 4096 ∧ (s.rs 10).toNat < 2 ^ 48 ∧ (s.rs 10).toNat % 128 ≠ 0 := ⟨runs (by decide), by decide⟩
theorem witness_TokenQueues_kind : Meets (tState (tRegs [(9, 1#64), (10, 0x2000#64)])) (.qarm 0 9 10)
    fun s => (match s.threadLoad (s.rs 10).toNat 8 with
      | .ok (ctl, v) => ctl.toNat % 256 != 2 && v.partOfAsid v.thr.asid == some 0
      | .error _ => false) = true := ⟨runs (by decide), by decide⟩
theorem witness_TokenQueues_far : Meets (tState (tRegs [(9, 4096#64)])) (.tokq 0 9 10 0 0) fun s => 4096 ≤ (s.rs 9).toNat :=
  ⟨runs (by decide), by decide⟩
theorem witness_TokenQueues_full :
    Meets ((tState (tRegs [(9, 1#64)])).setTokq 0 1 { toks := List.replicate 63 0#32, held := [(1#32, none)] }) (.tokq 0 9 10 0 0)
      fun s => (s.rs 9).toNat < 4096 ∧ s.partOfAsid s.thr.asid = some 0 ∧ 64 ≤ (s.tokq 0 1).toks.length + (s.tokq 0 1).held.length :=
  ⟨runs (by decide), by decide⟩

/-- A token template of queue 0 at 0x2000. -/
def tTemplate (x : Slot) : State :=
  let s := tState x
  let t := s.writePhys 0x2000 0x2 8
  { s with mem := commitStores s.mem t.stores }

theorem witness_TokenQueues_arm : Meets (tTemplate (tRegs [(9, 1#64), (10, 0x2000#64)])) (.qarm 0 9 10)
    fun s => (s.rs 9).toNat < 4096 ∧ (match s.threadLoad (s.rs 10).toNat 8 with
      | .ok (ctl, v) => ctl.toNat % 256 == 2 && v.partOfAsid v.thr.asid == some 0 && (v.qctl 0 0).asid == v.thr.asid
      | .error _ => false) = true := ⟨runs (by decide), by decide⟩
theorem witness_TokenQueues_armUnowned :
    Meets { tTemplate (tRegs [(9, 1#64), (10, 0x2000#64)]) with parts := [] } (.qarm 0 9 10)
      fun s => (s.rs 9).toNat < 4096 ∧ (match s.threadLoad (s.rs 10).toNat 8 with
        | .ok (ctl, v) => ctl.toNat % 256 == 2 && v.partOfAsid v.thr.asid == none
        | .error _ => false) = true := ⟨runs (by decide), by decide⟩
theorem witness_TokenQueues_disarmUnowned : Meets { tState (tRegs [(9, 1#64)]) with parts := [] } (.qdisarm 0 9 10)
    fun s => (s.rs 9).toNat < 4096 ∧ s.partOfAsid s.thr.asid = none := ⟨runs (by decide), by decide⟩

/-! ### Witnesses: copies, remote operations, translations -/

theorem witness_CopiesAndDrains : Meets (tState (tRegs [(9, 0xFFFFFFFFFFC0#64)])) (.copy 0 9 3 0 1 2)
    fun s => (s.rs 9).toNat < 2 ^ 48 ∧ (s.rs 9).toNat % 64 = 0 ∧ s.copyRoom (dieOf (courseOf s.cur)) = true :=
  ⟨runs (by decide), by decide⟩
theorem witness_CopiesAndDrains_align : Meets (tState (tRegs [(9, 0xFFFFFFFFFFFF#64)])) (.copy 0 9 3 0 1 2)
    fun s => (s.rs 9).toNat < 2 ^ 48 ∧ (s.rs 9).toNat % 64 ≠ 0 := ⟨runs (by decide), by decide⟩
theorem witness_CopiesAndDrains_reset :
    Meets { tState (tRegs [(9, 0x2000#64)]) with dies := [(8, { resetting := true })] } (.copy 0 9 3 0 1 2)
      fun s => s.copyRoom (dieOf (courseOf s.cur)) = true ∧ s.dieDown (8 + dieOf (courseOf s.cur)) = true ∧ s.nextId = 7 :=
  ⟨runs (by decide), by decide⟩
theorem witness_CopiesAndDrains_range : Meets (tState (tRegs [(9, 0x1000000000000#64)])) (.copy 0 9 3 0 1 2)
    fun s => 2 ^ 48 ≤ (s.rs 9).toNat := ⟨runs (by decide), by decide⟩

/-- A copy of channel 2 of the thread. -/
def tCopy (r : Bool) (st : Nat) : Copy :=
  { slot := some 0, chan := 2, asid := 0, sup := true, pd := 0, desc := 0x2000, res := some (st, 0), completed := true, replied := r }

theorem witness_CopiesAndDrains_waits : Meets { tState tThread with copies := [(1, tCopy false 0)] } (.drain 0 10 3 2)
    fun s => ¬ ∀ k ∈ s.channel s.cur 2, k.2.replied = true := ⟨runs (by decide), by decide⟩
theorem witness_CopiesAndDrains_clean : Meets { tState tThread with copies := [(1, tCopy true 0)] } (.drain 0 10 3 2)
    fun s => (∀ k ∈ s.channel s.cur 2, k.2.replied = true) ∧ s.channel s.cur 2 ≠ []
      ∧ ∀ k ∈ s.channel s.cur 2, k.2.reported = true ∨ (k.2.res.getD (0, 0)).1 = 0 := ⟨runs (by decide), by decide⟩
theorem witness_RemoteOperationsReturn : Meets (tState (tRegs [(9, 0xFFFFFFFFFFFFFF8#64)])) (.rld 0 9 10 0 0 3)
    fun s => s.thr.rop = none ∧ (s.rs 9).toNat < 2 ^ 60 ∧ (s.rs 9).toNat % 8 = 0
      ∧ s.ropRoom (s.newRop .load (s.rs 9) 8 0 false false) = true ∧ s.nextId = 7 := ⟨runs (by decide), by decide⟩
theorem witness_CopiesAndDrains_failed : Meets { tState tThread with copies := [(1, tCopy true 5)] } (.drain 0 10 3 2)
    fun s => (∀ k ∈ s.channel s.cur 2, k.2.replied = true)
      ∧ (s.channel s.cur 2).find? (fun k => !k.2.reported && (k.2.res.getD (0, 0)).1 != 0) = some (1, tCopy true 5) :=
  ⟨runs (by decide), by decide⟩
theorem witness_RemoteOperationsReturn_odd : Meets (tState (tRegs [(9, 0xFFFFFFFFFFFFFFC#64)])) (.rfadd 0 9 10 0 0 0)
    fun s => s.thr.rop = none ∧ (s.rs 9).toNat < 2 ^ 60 ∧ (s.rs 9).toNat % 8 ≠ 0 := ⟨runs (by decide), by decide⟩
theorem witness_RemoteOperationsReturn_handler :
    Meets (tState (tRegs [(8, 0x2000#64), (11, 255#64)])) (.ramoBegin 0 8 10 0 0 0)
      fun s => s.thr.rop = none ∧ (s.thr.readS 11).toNat < 256 ∧ (s.thr.readS 8).toNat % 8 = 0 ∧ s.thr.sup = true
        ∧ s.ropRoom (s.newRop (.handler 1) (s.thr.readS 8) 8 0 false false) = true := ⟨runs (by decide), by decide⟩
theorem witness_RemoteOperationsReturn_entry : Meets (tState (tRegs [(8, 0x2000#64), (11, 256#64)])) (.ramoInv 0 8 10 0 0 0)
    fun s => s.thr.rop = none ∧ 256 ≤ (s.thr.readS 11).toNat := ⟨runs (by decide), by decide⟩
theorem witness_RemoteOperationsReturn_barred :
    Meets (tState { tRegs [(8, 0x2000#64)] with csr := [(0, 4#64)] }) (.ramoClear 0 8 10 0 0 0)
      fun s => s.thr.rop = none ∧ (s.thr.readS 11).toNat < 256 ∧ (s.thr.readS 8).toNat % 8 = 0 ∧ s.thr.sup = false :=
  ⟨runs (by decide), by decide⟩
theorem witness_RemoteOperationsReturn_layout : Meets (tState (tRegs [(9, 0x1000000000000000#64)]))
    (.rld 0 9 10 0 0 3) fun s => s.thr.rop = none ∧ 2 ^ 60 ≤ (s.rs 9).toNat := ⟨runs (by decide), by decide⟩

/-- A remote load of the thread, sent, with a reply of status `st` or none yet. -/
def tRop (r : Bool) (st : Nat) : Rop :=
  { kind := .load, addr := 0x2000#64, size := 8, asid := 0, sup := true, slot := some 0, taken := true, res := some (st, 7#64),
    replied := r }
def tAsked (r : Bool) (st : Nat) : State := { tState { tThread with rop := some 5 } with rops := [(5, tRop r st)] }

theorem witness_RemoteOperationsReturn_waits : Meets (tAsked false 0) (.rld 0 9 10 0 0 3)
    fun s => s.thr.rop = some 5 ∧ s.rops.get? 5 = some (tRop false 0) ∧ (tRop false 0).replied = false := ⟨runs (by decide), by decide⟩
theorem witness_RemoteOperationsReturn_value : Meets (tAsked true 0) (.rld 0 9 10 0 0 3)
    fun s => s.thr.rop = some 5 ∧ s.rops.get? 5 = some (tRop true 0) ∧ (tRop true 0).res = some (0, 7#64) := ⟨runs (by decide), by decide⟩
theorem witness_RemoteOperationsReturn_error : Meets (tAsked true 8) (.rld 0 9 10 0 0 3)
    fun s => s.thr.rop = some 5 ∧ s.rops.get? 5 = some (tRop true 8) ∧ (tRop true 8).res = some (8, 7#64) := ⟨runs (by decide), by decide⟩
theorem witness_RemoteStores : Meets (tState (tRegs [(10, 0xFFFFFFFFFFFFFF8#64), (11, 0xFFFFFFFFFFF#64)]))
    (.rst 0 10 12 0 0 1 1 3) fun s => s.thr.rop = none ∧ (s.rs 10).toNat < 2 ^ 60 ∧ (s.rs 10).toNat % 8 = 0
      ∧ (s.thr.readS 11).toNat < 2 ^ 44 ∧ s.ropRoom (s.newRop .store (s.rs 10) 8 0 false false) = true := ⟨runs (by decide), by decide⟩
theorem witness_RemoteStores_layout : Meets (tState (tRegs [(10, 0x2000#64), (11, 0x100000000000#64)]))
    (.rst 0 10 12 0 0 1 1 3) fun s => s.thr.rop = none ∧ (s.rs 10).toNat % 8 = 0
      ∧ 2 ^ 44 ≤ (s.thr.readS 11).toNat := ⟨runs (by decide), by decide⟩
theorem witness_RemoteStores_token :
    Meets { tState { tThread with rop := some 5 } with rops := [(5, { tRop false 0 with kind := .store, tok := some 0x100001 })] }
      (.rst 0 10 12 0 0 0 1 3) fun s => s.thr.rop = some 5
        ∧ ((s.rops.get? 5).bind (·.tok)) = some 0x100001 := ⟨runs (by decide), by decide⟩
theorem witness_RemoteStores_waits :
    Meets { tState { tThread with rop := some 5 } with rops := [(5, { tRop false 0 with kind := .store, tok := some 0 })] }
      (.rst 0 10 12 0 0 0 1 3) fun s => s.thr.rop = some 5 ∧ (((s.rops.get? 5).bind (·.tok)).getD 0) = 0 := ⟨runs (by decide), by decide⟩
theorem witness_RemoteStores_register : Meets (tState tThread) (.rst 0 31 12 0 0 0 1 3)
    fun s => s.thr.rop = none ∧ ¬ (((1 : BitVec 1) = 0#1 ∧ (0 : BitVec 1) = 0#1) ∨ ((31 : BitVec 5) ≠ 0#5 ∧ (31 : BitVec 5) ≠ 31#5)) :=
  ⟨runs (by decide), by decide⟩
theorem witness_RemoteStores_posted : Meets (tState (tRegs [(10, 0x2000#64)])) (.rst 0 10 12 0 0 0 0 3)
    fun s => s.thr.rop = none ∧ s.nextId = 7 ∧ s.ropRoom (s.newRop .store (s.rs 10) 8 0 false false) = true := ⟨runs (by decide), by decide⟩
theorem witness_TokenWaits : Meets (tState (tRegs [])) (.tokwait 0 0 10)
    fun s => (s.rs 0).toNat = 0 ∧ s.ropsOut s.cur = false ∧ s.firstError = none := ⟨runs (by decide), by decide⟩
theorem witness_TokenWaits_serial : Meets (tState (tRegs [(9, 0xFFFFFF00000#64)])) (.tokwait 0 9 10)
    fun s => (s.rs 9).toNat ≠ 0 ∧ (s.rs 9).toNat < 2 ^ 44 ∧ (s.rs 9).toNat % 2 ^ 20 = 0 := ⟨runs (by decide), by decide⟩
theorem witness_TokenWaits_layout : Meets (tState (tRegs [(9, 0x100000000000#64)])) (.tokwait 0 9 10)
    fun s => 2 ^ 44 ≤ (s.rs 9).toNat := ⟨runs (by decide), by decide⟩
theorem witness_TokenWaits_elsewhere : Meets (tState (tRegs [(9, 0xFFFFFF00001#64)])) (.tokwait 0 9 10)
    fun s => (s.rs 9).toNat % 2 ^ 20 ≠ 0 ∧ s.heldTok ((s.rs 9).toNat % 2 ^ 32) = none ∧ s.thr.watch = none := ⟨runs (by decide), by decide⟩
theorem witness_TokenWaits_waits : Meets { tState tThread with rops := [(5, tRop false 0)] } (.tokwait 0 0 10)
    fun s => (s.rs 0).toNat = 0 ∧ s.ropsOut s.cur = true := ⟨runs (by decide), by decide⟩
theorem witness_TokenWaits_failed : Meets { tState tThread with rops := [(5, tRop true 8)] } (.tokwait 0 0 10)
    fun s => (s.rs 0).toNat = 0 ∧ s.ropsOut s.cur = false ∧ s.firstError = some (5, tRop true 8) := ⟨runs (by decide), by decide⟩
theorem witness_TokenWaits_held :
    Meets { tState (tRegs [(9, 0x00001#64)]) with toks := [(1, { st := .landed, serial := 1 })] } (.tokwait 0 9 10)
      fun s => (s.rs 9).toNat % 2 ^ 20 ≠ 0 ∧ s.heldTok 1 = some { st := .landed, serial := 1 }
        ∧ (s.tokOutcome { st := .landed, serial := 1 }).isSome = true := ⟨runs (by decide), by decide⟩
theorem witness_TokenWaits_flies :
    Meets { tState (tRegs [(9, 0x00001#64)]) with toks := [(1, { st := .pending, serial := 1, op := 5 })], rops := [(5, tRop false 0)] }
      (.tokwait 0 9 10) fun s => s.heldTok 1 = some { st := .pending, serial := 1, op := 5 }
        ∧ s.tokOutcome { st := .pending, serial := 1, op := 5 } = none := ⟨runs (by decide), by decide⟩

/-- A `tokwait` of a token of another package, its message sent, or its watch. -/
def tTokwait (m w : Option Nat) (rops : Map Rop) (ws : Map Watch) : State :=
  { tState { tRegs [(9, 0xFFFFFF00001#64)] with rop := m, watch := w } with rops := rops, watches := ws }

theorem witness_TokenWaits_refused :
    Meets (tTokwait (some 5) none [(5, { tRop true 8 with kind := .token, res := some (8, 0#64) })] []) (.tokwait 0 9 10)
      fun s => s.heldTok ((s.rs 9).toNat % 2 ^ 32) = none ∧ s.thr.rop = some 5
        ∧ (s.rops.get? 5).map (fun r => (r.replied, r.res)) = some (true, some (8, 0#64)) := ⟨runs (by decide), by decide⟩
theorem witness_TokenWaits_answered :
    Meets (tTokwait none (some 3) [] [(3, { tok := 0xFFF00001, landing := 0xFFF, by' := .thread 0, made := 0, st := .answered true })])
      (.tokwait 0 9 10) fun s => s.heldTok ((s.rs 9).toNat % 2 ^ 32) = none ∧ s.thr.rop = none ∧ s.thr.watch = some 3
        ∧ (s.watches.get? 3).map (·.st) = some (.answered true) := ⟨runs (by decide), by decide⟩
theorem witness_TokenWaits_watches :
    Meets (tTokwait none (some 3) [] [(3, { tok := 0xFFF00001, landing := 0xFFF, by' := .thread 0, made := 0 })])
      (.tokwait 0 9 10) fun s => s.thr.rop = none ∧ s.thr.watch = some 3 ∧ (s.watches.get? 3).map (·.st) = some .sent :=
  ⟨runs (by decide), by decide⟩
theorem witness_TranslationInvalidation : Meets (tState (tRegs [(9, 0x200F#64), (10, 1#64)]))
    (.tlbinv 0 9 10 3 0) fun s => (s.rs 9).toNat < 2 ^ 48
      ∧ (s.part s.threadPart).pasid.toNat % 2 ^ 12 ≤ 15
      ∧ 15 < (s.part s.threadPart).pasid.toNat % 2 ^ 12 + (s.part s.threadPart).pasid.toNat / 2 ^ 16 % 2 ^ 13 := ⟨runs (by decide), by decide⟩
theorem witness_TranslationInvalidation_outside : Meets (tState (tRegs [(9, 0x2010#64)]))
    (.tlbinv 0 9 10 3 0) fun s => ¬ ((s.rs 9).toNat % 4096
      < (s.part s.threadPart).pasid.toNat % 2 ^ 12 + (s.part s.threadPart).pasid.toNat / 2 ^ 16 % 2 ^ 13) := ⟨runs (by decide), by decide⟩
theorem witness_TranslationInvalidation_sync : Meets (tState tThread) (.tlbsync 0)
    fun s => ∀ n ∈ s.thr.invs, s.invals.get? n = none := ⟨runs (by decide), by decide⟩
/-! ### Witnesses: events -/

theorem witness_HostWritesAndAccess : let s := tState tThread
    ((4 ∈ [1, 2, 4, 8]) ∧ 0x7FFFFFFFFC % 4 = 0) ∧ s.boot.phase = .running
      ∧ ({ s with freeCnt := s.freeCnt + 2 }.awake).placeOf 0x7FFFFFFFFC = .ram (s.hbmLoc 0x7FFFFFFFFC)
      ∧ ({ s with freeCnt := s.freeCnt + 2 }.awake).goodPhys 0x7FFFFFFFFC 4 = true
      ∧ ({ s with freeCnt := s.freeCnt + 2 }.awake).placeOf 0x8000000000 = .hole := by decide
theorem witness_HostWritesAndAccess_asids : let s := tState tThread
    (0x10010FFF#64 &&& rangeMask).toNat % 2 ^ 12 + (0x10010FFF#64 &&& rangeMask).toNat / 2 ^ 16 % 2 ^ 13 > 4096
      ∧ (0x10FFF#64 &&& rangeMask).toNat % 2 ^ 12 + (0x10FFF#64 &&& rangeMask).toNat / 2 ^ 16 % 2 ^ 13 ≤ 4096
      ∧ ∀ a ∈ s.awake.otherParts 0, rangesMeet a.pasid (0x10FFF#64 &&& rangeMask) = false := by decide
theorem witness_HostWritesAndAccess_register : let s := tState tThread
    s.placeOf (0x400000000FFF8 - 0x400000000FFF8 % 8) = .ctl 0 0xFFF8 ∧ s.partOfAsid 15 = some 0 ∧ s.partOfAsid 16 = none
      ∧ inRange (s.part 0).pasid 15 = true ∧ inRange (s.part 0).pasid 16 = false := by decide
theorem witness_HostWritesAndAccess_recovery :
    ({ State.reset with boot := { phase := .recovery } }).boot.phase = .recovery ∧ (State.reset.slot 3).use = .free := by decide
/-- The host link with a TAILP held behind a switched-out queue. -/
def tHeld : State := (tState tThread).modQueue 0 3 fun x => { x with heldWrites := [(1#64, true)] }
/-- The thread with its vector registers open to the host. -/
def tOpen (given : Nat) : State := tState { tThread with csr := [(0x000, 5#64), (csrVOPEN, 1#64)], given := given }

theorem witness_HostWritesAndAccess_held : tHeld.hostHeld = true ∧ (tState tThread).hostHeld = false := by decide
theorem witness_HostWritesAndAccess_opened : let s := tOpen 32
    (0xF8 < 0x2000 ∧ 0xF8 % 8 + 8 ≤ 8 ∧ (s.slot 0).use = .thread ∧ (s.slot 0).back = false ∧ (s.slot 0).switched = false
      ∧ ((s.slot 0).csrv csrVOPEN).getLsbD (0xF8 / 256) = true ∧ (s.slot 0).vm = none)
      ∧ (s.slot 0).holdsQuarter 0 (0xF8 % 256) = true ∧ ((tOpen 3).slot 0).holdsQuarter 0 (0xF8 % 256) = false
      ∧ ((s.slot 0).csrv csrVOPEN).getLsbD (0x100 / 256) = false := by decide
theorem witness_HostWritesAndAccess_image : let s := { State.reset with boot := { phase := .recovery } }
    imageWhy s.boot.staged ≠ none ∧ s.boot.chunks.length = 0 ∧ s.boot.phase ≠ .running ∧ mgmtBase ≤ mgmtBase + 0xFFFF8
      ∧ mgmtBase + 0xFFFF8 < mgmtBase + 0x100000 := by decide

theorem witness_JobsMoveOn_idle : let s := tState tThread
    s.partWorks 0 = true ∧ (s.readQctl 0 0).1.en = false ∧ (State.reset.part 0).qte = false ∧ State.reset.partWorks 0 = false := by decide

/-- Queue 0 with one reference in its ring, to a record at 0x2000 of kind 1. -/
def tActive : State :=
  let s := tState tThread
  let t := (((s.writePhys 0x20000 0x80 8).writePhys 0x20008 0x30000 8).writePhys 0x20010 1 8).writePhys 0x30000 0x2000 8
  { s with mem := commitStores s.mem t.stores, stores := [] }

theorem witness_JobsMoveOn_activates : let s := tActive
    s.partWorks 0 = true ∧ (s.readQctl 0 0).1.en = true ∧ (s.readQctl 0 0).2.qword 0 0 qHEADC = 0
      ∧ 0 < (s.readQctl 0 0).2.qword 0 0 qTAILC
      ∧ (match (s.readQctl 0 0).2.readRecord 0 0 (s.readQctl 0 0).1 0 with | (ref, (_, none)) => ref == 0x2000#64 | _ => false) = true := by
  decide

/-- A job with a dry slice on die 2, done but for it. -/
def tJob : Job :=
  { p := 0, q := 0, pos := some 0, ref := 0x2000#64, asid := 0, words := List.replicate 16 0#64, total := 4
    chunks := [(0, ⟨0, 4, .holding⟩), (2, ⟨4, 4, .dry⟩)], handed := true }

theorem witness_JobsMoveOn_steal : let s := { tState tThread with jobs := [(3, tJob)] }
    s.jobs.get? 3 = some tJob ∧ tJob.chunks.get? 2 = some ⟨4, 4, .dry⟩ ∧ (⟨4, 4, .dry⟩ : Chunk).st = .dry
      ∧ (∀ k < 2, ∀ d ∈ tJob.chunks.get? k, d.st ≠ .dry) ∧ s.jobDone 3 tJob = false := by decide
theorem witness_JobsMoveOn_retires : let j := { tJob with chunks := [(0, ⟨4, 4, .spent⟩)], dispatched := 4, ended := 4 }
    let s := { tState { tThread with use := .free } with jobs := [(3, j)] }
    s.jobs.get? 3 = some j ∧ s.jobDone 3 j = true ∧ (s.part 0).swout = false ∧ j.ref ≠ 0#64 ∧ recCte j.words = false := by decide
theorem witness_JobsMoveOn_dispatch : let s := { tActive with jobs := [(3, tJob)], slots := [] }
    s.partWorks 0 = true ∧ s.dieDown 0 = false ∧ (s.jobToRun 0 0 0).map (·.1) = some 3
      ∧ tJob.chunks.get? 0 = some ⟨0, 4, .holding⟩ ∧ (s.pickCourse tJob 0).isSome = true := by decide +kernel
theorem witness_JobsMoveOn_ages : let s := { tActive with jobs := [(3, tJob)], slots := [], now := 12000000 }
    let t := { s.writePhys 0x20000 0x8080 8 with stores := [] }.modQueue 0 0 fun x => { x with ageSince := some 0 }
    12000000 ≤ t.queueAge 0 0 ∧ (t.queue 0 0).lifted = false ∧ ({ t with now := 11999999 }.queueAge 0 0) < 12000000 := by decide
theorem witness_JobsMoveOn_trailing : let j := { tJob with chunks := [(0, ⟨4, 4, .spent⟩)], dispatched := 4, ended := 4, pos := none }
    let s := { tState { tThread with use := .free } with jobs := [(3, j)] }
    s.jobDone 3 j = true ∧ { s with jobs := s.jobs.erase 3 }.vwords holdWalker j.asid true .load j.ref.toNat 15
      = .ok (List.replicate 15 0#64) := by decide
theorem witness_JobsMoveOn_switches : (State.reset.part 0).swout = false ∧ (State.reset.part 0).qte = false
    ∧ ((tState tThread).part 0).qte = true ∧ (((tState tThread).modPart 0 fun a => { a with swout := true }).part 0).swout = true := by
  decide
theorem witness_TemplatesAndTokens_arrival : let s := (tState tThread).setTokq 0 5 { toks := List.replicate 63 0#32, held := [(1#32, none), (2#32, some 4)] }
    (s.tokq 0 5).held = [(1#32, none), (2#32, some 4)] ∧ (s.tokq 0 5).toks.length < 64 := by decide

/-- A graph firing of the template at 0x2000, which is all zero. -/
def tFiring : Firing := { p := 0, tq := none, ref := 0x2000#64, asid := 0, payload := 0 }

theorem witness_TemplatesAndTokens_malformed : let s := { tState tThread with firings := [(4, tFiring)] }
    s.firings.get? 4 = some tFiring ∧ tFiring.sent = false ∧ s.vwords holdWalker 0 true .load 0x2000 15 = .ok (List.replicate 15 0#64)
      ∧ (tmplMalformed (List.replicate 15 0#64)).isSome = true := by decide
/-- A well-formed template with a descriptor at 0x3000, tainted or not. -/
def tTmpl (taint : Bool) : List W64 := [(if taint then 0x800000000002#64 else 0x2#64), 0#64, 0x3000#64, 0#64, 0#64, 0#64, 7#64] ++ List.replicate 8 0#64
def tTmplState (ws : List W64) : State :=
  let s := tState tThread
  let put := fun (s : State) (a : Nat) (w : W64) => s.writePhys a w.toNat 8
  { s with mem := commitStores s.mem ((put (put (put s 0x2000 (nth 0#64 ws 0)) 0x2010 (nth 0#64 ws 2)) 0x2030 (nth 0#64 ws 6)).stores) }

theorem witness_TemplatesAndTokens_fires : let s := { tTmplState (tTmpl false) with firings := [(4, tFiring)] }
    s.firings.get? 4 = some tFiring ∧ tFiring.sent = false ∧ s.vwords holdWalker 0 true .load 0x2000 15 = .ok (tTmpl false)
      ∧ tmplMalformed (tTmpl false) = none ∧ recTaint (tTmpl false) = false ∧ recW (tTmpl false) 6 % 8 = 7 ∧ s.copyRoom 7 = true
      ∧ s.dieDown 15 = false := by decide
theorem witness_TemplatesAndTokens_tainted : tmplMalformed (tTmpl true) = none ∧ tFiring.tq = none ∧ recTaint (tTmpl true) = true
    ∧ recRunerr (tTmpl true) = false := by decide
theorem witness_TemplatesAndTokens_token : let x := { tFiring with tq := some 5, gen := 2, result := some 3, payload := 9 }
    let s := { (tState tThread).setTokq 0 5 { armed := true, gen := 2 } with firings := [(4, x)] }
    s.firings.get? 4 = some x ∧ x.result = some 3 ∧ (s.tokq 0 5).armed = true ∧ (s.tokq 0 5).gen = x.gen
      ∧ recCte x.words = false := by decide
theorem witness_TemplatesAndTokens_ends : let x := { tFiring with sent := true, result := some 0, words := List.replicate 16 0#64 }
    let s := { tState tThread with firings := [(4, x)] }
    s.firings.get? 4 = some x ∧ x.result = some 0 ∧ recCte x.words = false := by decide

/-- Position `p` of course 0 in a live run. -/
def tNode (p : Nat) (x : Pos) : State :=
  { tRunning false with poss := [(p, { x with run := some 5, active := some 0 })] }

theorem witness_PositionsAndEngines : let s := tNode 2 {}
    isBrick 2 = true ∧ (s.pos 2).emitInit.retire (fun t => decide (t ≤ s.now)) = s.pos 2 ∧ s.nodeActs 2 = true
      ∧ s.runFrozen (s.pos 2).run = false ∧ s.posGated 2 = false ∧ (State.reset.nodeActs 2) = false := by decide
theorem witness_PositionsAndEngines_retires : let s := tNode 2 { pipe := [⟨100, some eosTok, none⟩] }
    let p := (s.pos 2).emitInit.retire fun t => decide (t ≤ s.now)
    p ≠ s.pos 2 ∧ ((s.setPos 2 p).movedAt 2).nodeActs 2 = true := by decide
theorem witness_PositionsAndEngines_tile : isBrick 3 = false ∧ (tNode 3 {}).nodeActs 3 = true := by decide
theorem witness_PositionsAndEngines_gates : let s := tState tThread
    (s.course 0).power = .active ∧ s.posIdle 31 = true ∧ (s.pos 31).ingressWaits = false := by decide
theorem witness_PositionsAndEngines_wakes : ({ tState tThread with poss := [(3, { gated := true, ingress := [(0, [eosTok])] })] }.pos 3).ingressWaits
    = true := by decide
theorem witness_StreamsAndRuns_idle : let s := tState tThread
    (s.port 7).cur = none ∧ (s.port 7).inbox = [] ∧ s.runs.get? 9 = none ∧ s.grants.get? 1 = none := by decide
theorem witness_StreamsAndRuns_grants : let g : Grant := { slot := 0, course := 0, plane := 1, cls := 2, since := 0 }
    let s := { tState tThread with grants := [(1, g)], now := 60000 }
    s.grants.get? 1 = some g ∧ g.granted = false ∧ s.grantBehind 1 g = false ∧ g.since + 60000 ≤ s.now ∧ 1 < g.cls := by decide
theorem witness_StreamsAndRuns_ended : let s := tNode 0 { ended := true }
    s.runs.get? 5 = some (tRun false) ∧ s.runEnded 5 (tRun false) = true ∧ (tRun false).spec.getLsbD 24 = false := by decide
theorem witness_StreamsAndRuns_meter : let s := { tState tThread with now := 2048 }
    (s.meters.getD ({} : Meter) 7).since + 2048 ≤ s.now := by decide

/-- A command of the thread's stream. -/
def tCmd (k : CmdKind) : Cmd := { id := 6, kind := k, masks := [(0, 1)], begun := true }
def tCommand (k : CmdKind) : State := tState { tThread with cmds := [tCmd k] }

theorem witness_StreamsAndRuns_loads : let s := tCommand (.load 0x2000)
    ((s.pump 0).slot 0).cmds.find? (·.id == 6) = some (tCmd (.load 0x2000)) := by decide
theorem witness_StreamsAndRuns_selects : let s := tCommand (.sel 2 false)
    ((s.pump 0).slot 0).switched = false ∧ ((s.pump 0).slot 0).cmds.find? (·.id == 6) = some (tCmd (.sel 2 false))
      ∧ (s.pump 0).quiescent [(0, 1)] false 6 = true ∧ (s.pump 0).lastMoveIn [(0, 1)] false + 16 ≤ (s.pump 0).now := by decide
theorem witness_StreamsAndRuns_begins : let s := { tCommand (.start 5) with runs := [(5, { tRun false with begun := false })] }
    ((s.pump 0).slot 0).switched = false ∧ ((s.pump 0).slot 0).cmds.find? (·.id == 6) = some (tCmd (.start 5))
      ∧ (s.pump 0).regionFree [(0, 1)] false = true := by decide
theorem witness_CopiesRepliesAndStacks : let s := tState tThread
    (s.copies.find? fun k => k.2.eng == some 0 && !k.2.accepted && !k.2.parked) = none ∧ s.rops.get? 1 = none ∧ s.copies.get? 1 = none
      ∧ s.invals.get? 1 = none := by decide
theorem witness_CopiesRepliesAndStacks_accept : let c := { tCopy false 0 with res := none, completed := false, eng := some 0 }
    let s := { tState tThread with copies := [(1, c)] }
    (s.copies.find? fun k => k.2.eng == some 0 && !k.2.accepted && !k.2.parked) = some (1, c) := by decide
theorem witness_CopiesRepliesAndStacks_completes : let c := { tCopy false 0 with res := none, completed := false, accepted := true, words := [], next := 2 ^ 48 }
    c.accepted = true ∧ c.completed = false ∧ c.parked = false ∧ c.res = none ∧ (wordAt c.words 7).testBit 12 = false
      ∧ c.total ≤ c.next := by decide
theorem witness_CopiesRepliesAndStacks_rop : (tRop false 0).own = true ∧ (tRop false 0).replied = false ∧ (tRop false 0).kind ≠ .store
    ∧ (tRop false 0).kind ≠ .xlat ∧ (tAsked false 0).copies.get? 5 = none ∧ (tAsked false 0).rops.get? 5 = some (tRop false 0)
    ∧ (tAsked false 0).settled (tRop false 0) = true := by decide
theorem witness_CopiesRepliesAndStacks_takeover : let s := { tState tThread with now := 2400 }
    (s.hrsOf 7).toNat.testBit 1 = false ∧ (s.stackMgrs.getD ({} : StackMgr) 7).lastBeat + 2400 ≤ s.now := by decide
theorem witness_CopiesRepliesAndStacks_early : let s := { tState tThread with now := 2399 }
    s.now < (s.stackMgrs.getD ({} : StackMgr) 7).lastBeat + 2400 := by decide
theorem witness_CopiesRepliesAndStacks_receives :
    let v : Inval := { slot := 0, asidLo := 0, asidN := 1, lo := 0, hi := 2 ^ 48, scope := 3, waiting := [0x300, holdRemote] }
    let s := { tState tThread with invals := [(2, v)] }
    s.invals.get? 2 = some v ∧ v.src = none ∧ v.waiting.contains 0x300 = true ∧ v.waiting.contains holdRemote = true ∧ v.told = false := by
  decide
theorem witness_ThreadsResetsAndPower_wfe : let s := tState { tThread with wfe := some ⟨0, none, 0⟩ }
    (s.slot 0).wfe = some ⟨0, none, 0⟩ ∧ s.now < 0 + 2400 ∧ ({ s with now := 2400 }.slot 0).wfe = some ⟨0, none, 0⟩ := by decide
theorem witness_ThreadsResetsAndPower_requests : let s := tState { tThread with scapAt := some 0 }
    (s.slot 0).use = .thread ∧ s.scapLate 0 = false ∧ { s with now := 24000 }.scapLate 0 = true ∧ (State.reset.slot 0).use ≠ .thread := by
  decide
theorem witness_ThreadsResetsAndPower_forced : let s := tState { tThread with preq := some ⟨3, 0, false, none⟩ }
    (s.slot 0).preq = some ⟨3, 0, false, none⟩ ∧ (0 : Nat) + 24000 ≤ { s with now := 24000 }.now := by decide
theorem witness_ThreadsResetsAndPower_switches : let s := tState { tThread with forced := true }
    (s.slot 0).use = .thread ∧ (s.slot 0).forced = true ∧ s.stoppable 0 = true := by
  decide
theorem witness_ThreadsResetsAndPower_held : ({ tState { tThread with hold := true } with cur := 0 }.landDue).thr.hold = true := by decide
theorem witness_ThreadsResetsAndPower_resets : let s := tState tThread
    s.dieDown 7 = false ∧ s.dieDown 15 = false ∧ ({ s with dies := [(3, { resetting := true, quiesce := [] })] }.dieDown 3) = true
      ∧ ({ s with dies := [(3, { resetting := true, quiesce := [] })] }.die 3).quiesce = [] := by decide
theorem witness_ThreadsResetsAndPower_gates : let s := { tState { tThread with use := .free } with now := 128, parts := [] }
    s.courseIdle 0 = true ∧ (s.course 0).power = .active ∧ s.idleFor (s.course 0).idleSince 128 = true ∧ s.tolerates 40 = true := by decide
theorem witness_ThreadsResetsAndPower_boot : State.reset.boot.phase = .powerOn
    ∧ (imageWhy (State.reset.boot.store.getD Config.factoryImage) = none
      ∨ ∃ n, imageWhy (State.reset.boot.store.getD Config.factoryImage) = some n) := by
  refine ⟨by decide, ?_⟩
  cases imageWhy (State.reset.boot.store.getD Config.factoryImage) with
  | none => exact .inl rfl
  | some n => exact .inr ⟨n, rfl⟩
theorem witness_LinksTargetsAndWatches_links : let s := { tState tThread with links := [(3, { up := true, txCtr := 2 ^ 39, failures := 16 })] }
    (s.link 3).up = true ∧ 2 ^ 39 ≤ (s.link 3).txCtr ∧ 16 ≤ (s.link 3).failures ∧ (s.link 3).down = false ∧ (s.link 4).up = false
      ∧ (s.link 4).failures < 16 := by decide
theorem witness_LinksTargetsAndWatches_performs :
    let r := { tRop false 0 with res := none, xl := some (0x2000, 0x1F) }
    let s := { tState tThread with rops := [(5, r)], parts := [(0, { pasid := 0x100000#64, pshare := (List.range 8).map fun d => (d, 1#64) })] }
    s.rops.get? 5 = some r ∧ s.here r = true ∧ s.homeWaits 5 r = false ∧ s.homeCheck r = .ok 0x2000 := by decide
theorem witness_LinksTargetsAndWatches_combines :
    let a := { tRop false 0 with kind := .fadd, res := none, xl := some (0x2000, 0x1F), plane := some 2 }
    a.own = true ∧ a.kind = .fadd ∧ a.plane = some 2 ∧ a.xl.isSome = true ∧ a.res = none ∧ a.inside = false ∧ a.sentAt ≤ a.sentAt + 76 := by
  decide
theorem witness_LinksTargetsAndWatches_watches :
    let w : Watch := { tok := 0x100001, landing := 0, by' := .thread 0, made := 0 }
    let s := { tState tThread with watches := [(2, w)] }
    s.watches.get? 2 = some w ∧ w.landing = s.pkg ∧ w.st = .sent ∧ s.landedAs w.tok = none ∧ s.watchCount < 16384 := by decide
theorem witness_LinksTargetsAndWatches_entered :
    let w : Watch := { tok := 0x100001, landing := 0, by' := .op 5, st := .entered 0, made := 0 }
    let s := { tState tThread with watches := [(2, w)] }
    s.watches.get? 2 = some w ∧ s.now < 0 + 480000 ∧ 0 + 480000 ≤ { s with now := 480000 }.now := by decide

/-! ### Witnesses: traps, steps, encodings, states -/

theorem witness_TrapEntryAndReturn : (63 : Nat) < 64 := by decide
theorem witness_ChecksBeforeExecution : let x := (tState { tThread with hdr := 0xFC300100#32, csr := [(0, 4#64)], decl := { sregs := 10 } }).landDue.thr
    x.atom = true ∧ x.sup = false ∧ x.decl.badS 10 = true ∧ x.decl.badS 9 = false ∧ x.decl.badS 31 = false := by decide
theorem witness_ChecksBeforeExecution_user : let x := (tState { tThread with csr := [(0, 4#64)] }).landDue.thr
    x.atom = false ∧ x.sup = false := by decide

/-- The machine after reset with the word of `addi s9, s9, -1` where it fetches. -/
def tPlaced : State := State.reset.withFetchWord 32 0x08253FFF

theorem witness_StepRunsTheDecodedInstruction_header : let s := tPlaced
    let t := s.nextAction.2
    let u := { t with cur := 0 }
    let x := u.thr
    (match s.nextAction.1 with | .issue n dt => n == 0 && dt == 2 | _ => false) = true ∧ u.ready = true ∧ x.atHdr = true
      ∧ x.resumeNext = false ∧ x.pc.toNat < 2 ^ 48 ∧ u.translate 0 x.asid x.sup .fetch x.pc.toNat = .ok 0x14000 0x1401F
      ∧ u.codeAt 0 x.asid 0x14000 = some 0xFC000000#32 ∧ headerTrap x.decl 0xFC000000#32 = none
      ∧ u.translate 0 x.asid x.sup .fetch (x.pc + 4#64).toNat = .ok 0x14004 0x1401F ∧ u.codeAt 0 x.asid 0x14004 = some 0x08253FFF#32
      ∧ decode 0x08253FFF#32 = some (.addi 0 9 9 0x1FFF) := by decide
theorem witness_StepRunsTheDecodedInstruction_inside :
    let s := tPlaced.setSlot 0 { tPlaced.slot 0 with atHdr := false, pc := 0x1004#64, hdr := 0xFC000000#32 }
    let t := s.nextAction.2
    let u := { t with cur := 0 }
    u.ready = true ∧ u.thr.atHdr = false ∧ u.thr.reHdr = false ∧ u.thr.resumeNext = false
      ∧ u.thr.pc.toNat < 2 ^ 48 ∧ u.translate 0 u.thr.asid u.thr.sup .fetch u.thr.pc.toNat = .ok 0x14004 0x1401F
      ∧ u.codeAt 0 u.thr.asid 0x14004 = some 0x08253FFF#32 ∧ decode 0x08253FFF#32 = some (.addi 0 9 9 0x1FFF) := by decide
theorem witness_StepRunsTheDecodedInstruction_code :
    let s := tPlaced.codeFill 0 0 0x1004
    codeFind 0 0x14004 (s.icaches.getD [] 0) = some 0x08253FFF#32 ∧ codeFind 0 0x14000 (s.icaches.getD [] 0) = none
      ∧ s.goodPhys 0x14000 4 = true ∧ syncBeyondCourse 0x1401F = false ∧ syncBeyondCourse 0x1451F = true := by decide
theorem witness_StepRunsTheDecodedInstruction_begins :
    let s := { tPlaced.setSlot 0 { tPlaced.slot 0 with atHdr := false, pc := 0x1004#64 } with agenda := [.begin 0 3] }
    (match s.nextAction.1 with | .begin 0 3 => true | _ => false) = true ∧ ({ s.nextAction.2 with cur := 0 }.ready) = true := by decide
theorem witness_StepRunsTheDecodedInstruction_header_again :
    let x := { tPlaced.slot 0 with atHdr := false, pc := 0x1004#64, reHdr := true, bpos := 0 }
    let s := tPlaced.setSlot 0 x
    (x.pc - BitVec.ofNat 64 (4 * (x.bpos + 1))) = 0x1000#64 ∧ ({ s.nextAction.2 with cur := 0 }.ready) = true
      ∧ headerTrap x.decl 0xFC000000#32 = none := by decide
theorem witness_StepRunsTheDecodedInstruction_notReady :
    let s := { tPlaced.setSlot 0 { tPlaced.slot 0 with earliest := 500 } with agenda := [.issue 0 2] }
    ({ s.nextAction.2 with cur := 0 }.ready) = false := by decide
theorem witness_TrapEntryAndReturn_nested : ({ tThread with vfrozen := true, frozenAt := [false] } : Slot).vfrozen = true
    ∧ (returnFromTrap { tThread with vfrozen := true, frozenAt := [false], csr := [(csrTHS, 2#64)] }).vfrozen = false := by decide

/-- A walk goes through a pointer entry its holder keeps, though the table above has changed, until the entry is withdrawn (R309,
R313): the page's table at level 0 is at 0x13000, and the level-3 entry is cleared. -/
theorem test_pointer_stays_as_cached :
    let s := (tPlaced.ptrFill 0 0 0x1000 1).writePhys 0x10000 0 8
    s.leafFor 0 0 0x1000 = tPlaced.leafFor 0 0 0x1000 ∧ s.leafFor 1 0 0x1000 = none ∧
      (s.withdraw { slot := 0, asidLo := 0, asidN := 1, lo := 0x1000, hi := 0x2000, scope := 3, waiting := [0] } 0).leafFor 0 0 0x1000
        = none := by decide

/-- A store to code does not reach a word an instruction cache holds, until the cache's words of the ASID are dropped (R114). -/
theorem test_code_stays_as_cached :
    let s := ((tPlaced.codeFill 0 0 0x1004).writePhys 0x14004 0 4)
    s.codeAt 0 0 0x14004 = some 0x08253FFF#32 ∧ (s.codeInvalidate 0).codeAt 0 0 0x14004 = some 0#32 := by decide
theorem witness_StepRunsTheDecodedInstruction_event :
    let s := { State.reset with agenda := [.event (.wake none) 2] }
    (match s.nextAction.1 with | .event (.wake none) 2 => true | _ => false) = true ∧ encode (.wake none) = none := by decide
theorem witness_DecodeEncode : WellFormed (.addi 0 9 9 0x1FFF) = true ∧ isWord (.addi 0 9 9 0x1FFF) = true := by decide
theorem witness_StepKeepsInv : tPlaced.Inv := by unfold State.Inv; decide
/-! ### One step of small programs: expected results worked out from spec/ -/

/-- What a next state is asked. -/
def tNext (o : Host.Outcome State Fault Refusal) (f : State → Bool) : Bool :=
  match o with | .next s => f s | _ => false

/-- R117: the words at reset's fetch place run: s9 − 1 of 0 is all ones, one C-cycle after issue. -/
theorem test_step_addi : tNext (step tPlaced) (fun s => (s.slot 0).sAt (s.now + 1) 9 == BitVec.allOnes 64
    && (s.slot 0).pc == 0x1008#64) = true := by decide
/-- R144: −2^63 by −1. -/
theorem test_div_corner : tNext (exec (.div 0 9 9 10) (tState (tRegs [(9, 0x8000000000000000#64), (10, 0xFFFFFFFFFFFFFFFF#64)])))
    (fun s => s.thr.readS 9 == 0x8000000000000000#64) = true := by decide
/-- R140: s0 discards its write (R125), here an interlocked one. -/
theorem test_write_s0 : tNext (exec (.rem 0 0 9 10) (tState (tRegs [(9, 7#64), (10, 4#64)]))) (fun s => s.thr.readS 0 == 0#64) = true := by
  decide
/-- R142: the third word of the example that builds 0xBF58_476D_1CE4_E5B9. -/
theorem test_lext : tNext (exec (.lext 0 9 0x34739) (tState (tRegs [(9, 0xBF58476#64)])))
    (fun s => s.thr.sAt (s.now + 1) 9 == 0x2FD611DB4739#64) = true := by decide
/-- R145: `ld.w` sign-extends 0xFFFF_FFFE. -/
theorem test_ld_sign : tNext (exec (.ld 0 12 10 2 0) (let s := tState (tRegs [(10, 0x1008#64)])
    { s with mem := commitStores s.mem (s.writePhys 0x1008 0xFFFFFFFE 4).stores }))
    (fun s => s.thr.readS 12 == 0xFFFFFFFFFFFFFFFE#64) = true := by decide
/-- R145, R5: `st.h` stores the two low bytes, little-endian. -/
theorem test_st_half : tNext (exec (.st 0 11 10 1 1) (tState (tRegs [(10, 0x1008#64), (11, 0x12345678#64)])))
    (fun s => s.physByte 0x100A == 0x78#8 && s.physByte 0x100B == 0x56#8 && s.physByte 0x100C == 0#8) = true := by decide
/-- R147: a misaligned access is trap 0x06 with EA in TVAL, and the destination stands. -/
theorem test_ld_misaligned : tNext (exec (.ld 0 12 10 3 0) (tState (tRegs [(10, 0x1004#64), (12, 5#64)])))
    (fun s => (s.thr.csrv 1).toNat % 256 == 6 && s.thr.csrv 2 == 0x1004#64 && s.thr.readS 12 == 5#64 && s.thr.hold) = true := by decide
/-- R356, R357: `amo.adds.w` clamps, sets SAT and returns the old value. -/
theorem test_amo_adds : tNext (exec (.amoAdds 0 12 13 14 0 2) (let s := tState (tRegs [(13, 0x2000#64), (14, 1#64)])
    { s with mem := commitStores s.mem (s.writePhys 0x2000 0x7FFFFFFF 4).stores }))
    (fun s => s.readPhys 0x2000 4 == 0x7FFFFFFF && s.thr.readS 12 == 0x7FFFFFFF#64 && s.thr.csrv 0x21 != 0#64) = true := by decide
/-- R402: `trap s9, 5` saves the next instruction's place, with 5 in TCAUSE.CODE. -/
theorem test_trap : tNext (exec (.trap 0 9 5) (tState (tRegs [(9, 77#64)])))
    (fun s => (s.thr.csrv 1).toNat == 0x50E && s.thr.csrv 2 == 77#64 && s.thr.csrv 3 == 0x1008#64 && s.thr.sup && s.thr.atHdr) = true := by
  decide
/-- R155: 1.0 + 1.0 is 2.0 in f32, at L = 6. -/
theorem test_fadd : tNext (exec (.fadd 0 12 9 9 0) (tState (tRegs [(9, 0x3F800000#64)])))
    (fun s => s.thr.sAt (s.now + 6) 12 == 0x40000000#64 && s.thr.sAt (s.now + 5) 12 == 0#64) = true := by decide
/-- R162: of 100 elements of i32 asked for, one slice holds 64. -/
theorem test_setlen : tNext (exec (.setlen 0 12 9 0 7) (tState (tRegs [(9, 100#64)])))
    (fun s => s.thr.readS 12 == 64#64 && s.thr.csrv 0x10 == 64#64 && s.thr.csrv 0x11 == 7#64) = true := by decide
/-- R126, R158: user mode may not write TVEC: trap 0x02. -/
theorem test_csrw_user : tNext (exec (.csrw 0 0 9 4) (tState { tThread with csr := [(0, 4#64)] }))
    (fun s => (s.thr.csrv 1).toNat % 256 == 2) = true := by decide
/-! ### Witnesses: the clauses of the grid, its streams, the copies and the links -/

def tTok : Tok := { vm := 0xFFFF#16 }

/-- Position 1 with a token on O0, which its E output carries to position 2. -/
def tHop (there : Pos) : State :=
  let s := tNode 1 { planes := [(0, { st := .loaded, sw := [0x60#64] })], outs := [(0, [tTok])] }
  { s with poss := s.poss ++ [(2, there)] }

theorem witness_PositionsAndEngines_hop : let s := tHop {}
    swOut (s.pos 1).sw 1 = 6 ∧ (s.pos 1).headFor 6 (outConsumer 1) = some tTok ∧ s.runFrozen (s.pos 1).run = false
      ∧ s.posGated 1 = false ∧ s.leadOf 0 1 1 = .fifo 2 3 ∧ s.gateOn 0 0 = false ∧ s.gates.getD [] (2 * 8 + 3) = []
      ∧ s.courseTakes 0 = true ∧ s.runFrozen (s.pos 2).run = false ∧ s.posGated 2 = false ∧ (s.pos 2).ingress.getD [] 3 = []
      ∧ ((s.pos 2).fifo.getD [] 3).length < 8 ∧ s.ringEmpty 2 3 = true := by decide +kernel

/-- A full FIFO at position 2, served by the ring of the tile at position 3. -/
def tSpilling (recs : List (Tok × Option Nat)) (n : Nat) : State :=
  let s := tHop { planes := [(0, { st := .loaded, sw := [0x800000#64, 0x100000000#64] })], active := some 0, fifo := [(3, List.replicate n tTok)] }
  { s with
    poss := s.poss ++ [(3, { planes := [(0, { st := .loaded, node := List.replicate 7 0#64 ++ [0x8000000000000000#64] })] })]
    spills := [(4, { recs := recs })] }

theorem witness_PositionsAndEngines_spills : let s := tSpilling [] 8
    s.spillKey 2 3 = some 4 ∧ s.leadOf 0 1 1 = .fifo 2 3 ∧ 8 ≤ ((s.pos 2).fifo.getD [] 3).length
      ∧ (((s.spills.getD {} 4).recs).filter fun e => e.2.isNone).length < spillNear := by decide +kernel
theorem witness_PositionsAndEngines_returns : let s := tSpilling [(tTok, none), (tTok, some 4)] 7
    s.spillKey 2 3 = some 4 ∧ (s.spills.getD {} 4).recs = [(tTok, none), (tTok, some 4)] ∧ ((s.pos 2).fifo.getD [] 3).length < 8
      ∧ s.runFrozen (s.pos 2).run = false ∧ s.posGated 2 = false := by decide +kernel

/-- A brick at position 2 whose port N takes the W FIFO, in its one mode, and drives O0. -/
def tBrick (t : Tok) : State :=
  tNode 2 { planes := [(0, { st := .loaded, node := (List.replicate 6 0#64) ++ [4#64, 1#64] ++ List.replicate 6 0#64 ++ [2#64, 0#64] })]
            fifo := [(3, [t])] }

theorem witness_PositionsAndEngines_fires : let s := tBrick tTok
    isBrick 2 = true ∧ s.nodeActs 2 = true ∧ (s.pos 2).pipe = [] ∧ (s.pos 2).iniDue = 0 ∧ brTchk (s.pos 2).node = false
      ∧ (s.pos 2).portHeads (s.pos 2).mode = some [(0, tTok)] := by decide +kernel
theorem witness_PositionsAndEngines_ends : let s := tBrick eosTok
    s.nodeActs 2 = true ∧ (s.pos 2).portHeads (s.pos 2).mode = some [(0, eosTok)] ∧ eosTok.eos = true
      ∧ brDrives (s.pos 2).node 0 = true := by decide +kernel

/-- A tile at position 3, its mode in word 0, its input 0 the W FIFO. -/
def tTile (mode : Nat) (w6 : W64) (x : Pos) : State :=
  tNode 3 { x with planes := [(0, { st := .loaded, node := [BitVec.ofNat 64 (mode + 4 * 2 ^ 8 + 3 * 2 ^ 11), 0x04000000#64,
    0x1001001001#64, 0#64, 0x1001001001#64, 0#64, w6, 0#64] })] }

theorem witness_PositionsAndEngines_writes : let s := tTile 1 0#64 { fifo := [(3, [tTok])], wroteLast := false }
    tiMode (s.pos 3).node = 1 ∧ (s.pos 3).tileHead 0 = some tTok ∧ (s.pos 3).inEos = false ∧ s.nodeActs 3 = true := by decide +kernel
theorem witness_PositionsAndEngines_reads : let s := tTile 1 0#64 { fifo := [(3, [tTok])], wroteLast := true }
    (s.pos 3).readDue = true ∧ (s.pos 3).wroteLast = true := by decide +kernel
theorem witness_PositionsAndEngines_tileEnds : let s := tTile 1 0#64 { inEos := true, gen := [(1, 1)] }
    (s.pos 3).inEos = true ∧ tiRound (s.pos 3).node 1 ≤ (s.pos 3).gen.getD 0 1 ∧ (s.pos 3).outs.getD [] 0 = [] := by decide +kernel
theorem witness_PositionsAndEngines_queue : let s := tTile 2 0#64 { queue := [tTok] }
    let u := tTile 2 0#64 { fifo := [(3, [tTok])] }
    tiMode (s.pos 3).node = 2 ∧ (s.pos 3).queue = [tTok] ∧ (s.pos 3).outs.getD [] 0 = [] ∧ (u.pos 3).queue = []
      ∧ (u.pos 3).tileHead 0 = some tTok ∧ (u.pos 3).queue.length < tiCap (u.pos 3).node := by decide +kernel
theorem witness_PositionsAndEngines_combines : let s := tTile 4 0x40#64 { fifo := [(3, [tTok]), (2, [tTok])] }
    tiMode (s.pos 3).node = 4 ∧ s.nodeActs 3 = true ∧ (s.pos 3).tileHead 0 = some tTok ∧ (s.pos 3).tileHead 1 = some tTok
      ∧ tiFetch (s.pos 3).node = true ∧ tTok.eos = false := by decide +kernel

/-- An input stream at port 7 with an element left, and the run of its port. -/
def tLive (st : Stream) : State :=
  let s := tNode (portKey 7) {}
  { s with ports := [(7, { cur := some st, started := true, run := some 5 })] }

theorem witness_StreamsAndRuns_live : let st := { tStream with desc := List.replicate 8 1#64 }
    (tLive st).streamRuns 7 st = true ∧ (tLive st).runFrozen ((tLive st).pos (portKey 7)).run = false
      ∧ (tLive st).courseTakes (portKey 7 / 32) = true ∧ (tLive st).posGated (portKey 7) = false
      ∧ (tLive st).ringEmpty (portKey 7) 4 = true := by decide +kernel
theorem witness_StreamsAndRuns_next : let s := { tState tThread with ports := [(7, { inbox := [tStream] })] }
    s.runFrozen (s.port 7).run = false ∧ (s.port 7).cur = none ∧ (s.port 7).inbox = [tStream]
      ∧ ((s.pump 0).slot 0).switched = false ∧ ((s.pump 0).slot 0).cmds.find? (·.id == 1) = none
      ∧ ((s.pump 0).port 7).inbox.head? = some tStream := by decide +kernel
theorem witness_StreamsAndRuns_busy : let s := tCommand (.sel 2 false)
    let t := { s with ports := [(0, { inbox := [{ tStream with id := 3 }] })] }
    (t.pump 0).quiescent [(0, 1)] false 6 = false := by decide +kernel
theorem witness_StreamsAndRuns_token : let r := { tRun false with spec := 0x1000000#64 }
    r.spec.getLsbD 24 = true ∧ (tRunning false).partOfAsid 0 = some 0 := by decide +kernel

/-- The engine of course 0 in a live run that it takes part in, with its plane's words. -/
def tEngine (ws : List W64) (x : Fe) : State :=
  let s := tState tThread
  { s with
    runs := [(5, { tRun false with masks := [(0, 0x80000000)], feng := true })]
    fes := [(0, { x with planes := [(0, { st := .loaded, node := ws })], active := some 0, run := some 5 })] }

theorem witness_PositionsAndEngines_engine : (tEngine [0x4000000000000001#64] {}).feActs 0 = true ∧ feMode ((tEngine [0x4000000000000001#64] {}).fe 0).words = 1 ∧
    (tEngine [0x4000000000000002#64] {}).feActs 0 = true ∧ feMode ((tEngine [0x4000000000000002#64] {}).fe 0).words = 2
      ∧ feMode ((tEngine [0x4000000000000003#64] {}).fe 0).words = 3 := by decide
theorem witness_PositionsAndEngines_weightFault :
    let s := tEngine [0x4000000000000001#64] { inA := List.replicate 16 tTok, bufs := [(0, { fault := some (3, 0x2000) })] }
    ((s.fe 0).bufs.getD {} (s.fe 0).bufNo).fault = some (3, 0x2000) ∧ (s.fe 0).run = some 5 := by decide +kernel

/-- A copy under way at port die 7, of one element. -/
def tMoving (d : Nat) : State :=
  let c := { tCopy false 0 with res := none, completed := false, accepted := true, pd := 7, words := List.replicate 8 0#64 }
  { tState tThread with
    copies := [(1, c)], dies := [(15, { resetting := d == 1 })]
    parts := [(0, { pasid := 0x100000#64, pshare := if d == 2 then [] else [(7, 1#64)] })] }

theorem witness_CopiesRepliesAndStacks_piece :
    (tMoving 0).parkedCopy 1 = false ∧ (tMoving 0).dieDown 15 = false ∧ (tMoving 1).dieDown 15 = true
      ∧ (tMoving 0).dieAdmits 7 0 = true ∧ (tMoving 2).dieAdmits 7 0 = false := by decide
theorem witness_CopiesRepliesAndStacks_refresh : let s := { tState tThread with stackMgrs := [(7, { tookAt := some 4 })], now := 5000 }
    (s.stackMgrs.getD ({} : StackMgr) 7).tookAt = some 4 ∧ ((tState tThread).stackMgrs.getD ({} : StackMgr) 7).tookAt = none := by decide
theorem witness_CopiesRepliesAndStacks_inbox : let c := { tCopy false 0 with res := none, completed := false, pd := 1, eng := none }
    let s := { tState tThread with copies := [(1, c)] }
    s.rops.get? 1 = none ∧ s.copies.get? 1 = some c ∧ c.eng = none ∧ c.accepted = false ∧ c.parked = false ∧ 8 / 8 = c.pd
      ∧ (s.copies.filter fun k => k.2.eng == some 8) = [] := by decide
theorem witness_CopiesRepliesAndStacks_replies : let c := { tCopy false 0 with completed := true }
    c.completed = true ∧ c.replied = false ∧ c.firing = none ∧ c.orphan = false ∧ c.slot = some 0 := by decide
theorem witness_CopiesRepliesAndStacks_last :
    let v : Inval := { slot := 0, asidLo := 0, asidN := 1, lo := 0, hi := 2 ^ 48, scope := 3, waiting := [0x300] }
    (∀ h ∈ v.waiting, h = 0x300) ∧ v.scope ≠ 4 ∧ v.src = none ∧ 0x300 ≠ holdRemote ∧ 0x300 < 0x10000 := by decide
theorem witness_CopiesRepliesAndStacks_remote :
    let v : Inval := { slot := 0, asidLo := 0, asidN := 1, lo := 0, hi := 2 ^ 48, scope := 4, waiting := [holdRemote], told := true }
    let s := { tState tThread with invals := [(2, v)] }
    s.invals.get? 2 = some v ∧ v.waiting.contains holdRemote = true ∧ s.usesWithdrawn s.pkg v = false := by decide
theorem witness_ThreadsResetsAndPower_pending : let s := tState { tThread with hold := false, async15 := [(3, 0x2000#64)] }
    ({ s with cur := 0 }.landDue).thr.hold = false
      ∧ (asyncCause { s with cur := 0 }.landDue ({ s with cur := 0 }.landDue).thr {} 0#32).isSome = true := by decide
theorem witness_ThreadsResetsAndPower_detaches : let s := { tState { tThread with att := 3, ranks := [0, 1], spanw := 2 } with
      slots := [(0, { tThread with att := 3, ranks := [0, 1], spanw := 2 }), (4, { use := .slice 0 1 })] }
    (s.slot 4).use = .slice 0 1 := by decide
theorem witness_ThreadsResetsAndPower_outranked : let s := tEnding tThread
    let t := { s.modPart 0 fun a => { a with swout := true } with cur := 0 }
    (t.slot 0).use = .thread ∧ t.jobs.get? (t.slot 0).job = some tRunningJob ∧ (t.part tRunningJob.p).swout = true := by decide
theorem witness_ThreadsResetsAndPower_waits : (tState tThread).mayRestore 0 = false ∧ 8 ≤ 15 ∧ (15 : Nat) < 16 := by decide
theorem witness_ThreadsResetsAndPower_sleeps : let s := { State.reset with now := 24000000, idleSince := some 0 }
    s.power = .active ∧ s.idleFor s.idleSince 24000000 = true ∧ s.idleFor s.idleSince 24000001 = false := by decide
theorem witness_LinksTargetsAndWatches_reads : let s := { tState tThread with links := [(3, { up := true })] }
    3 < 16 ∧ (s.link 3).up = true ∧ (s.link 15).up = false ∧ (s.link 3).unacked = [] ∧ (s.link 3).down = false := by decide
theorem witness_LinksTargetsAndWatches_asks :
    let r := { tRop false 0 with res := none, xl := none, taken := true }
    let s := { tState tThread with rops := [(5, r)] }
    r.kind ≠ .xlat ∧ r.own = true ∧ r.xl = none ∧ r.res = none ∧ s.asksXlat r = true ∧ r.need.isSome = true := by decide
theorem witness_LinksTargetsAndWatches_handler : let s := tState tThread
    (s.handler 3).st = .empty ∧ ({ s with handlers := [(3, { st := .updating })] }.handler 3).st = .updating
      ∧ ({ s with handlers := [(3, { st := .valid })] }.handler 3).lost.contains 16 = false := by decide
theorem witness_LinksTargetsAndWatches_waits :
    let r := { tRop false 0 with kind := .store, res := none, xl := some (0x2000, 0x1F), dep := some 0x100001#64, held := none, clear := false }
    let s := { tState tThread with rops := [(5, r)] }
    s.depWaits r = true ∧ s.holdCount < 8192 ∧ s.landedAs (depTok 0x100001#64) = none := by decide
theorem witness_LinksTargetsAndWatches_answers : let w : Watch := { tok := 1, landing := 0, by' := .pkg 7 9, st := .refused 4, made := 0 }
    let s := { tState tThread with watches := [(2, w)], now := 1204 }
    s.watches.get? 2 = some w ∧ w.by' = .pkg 7 9 ∧ 4 + 1200 ≤ s.now := by decide
theorem witness_LinksTargetsAndWatches_ages : let s := { State.reset with landed := [⟨1, true, 5⟩] }
    s.landed[0]? = some ⟨1, true, 5⟩ ∧ s.landed.length < 262144 ∧ s.landed.length ≤ 1 := by decide

/-! ### Witnesses: the clauses that meet at a boundary -/

theorem witness_VectorMemoryTurns_stored : let s := tState tGather
    let m := { tVmem false 0x2000 with todo := [(16, 0x2040, 5)] }
    m.load = false ∧ m.todo.drop (m.todo.takeWhile fun t => t.1 / 16 == 16 / 16).length = []
      ∧ (s.groupTargets m (m.todo.takeWhile fun t => t.1 / 16 == 16 / 16)).toBool = true
      ∧ (s.groupTargets (tVmem false 0x2000) ((tVmem false 0x2000).todo.take 16)).toBool = true := by decide +kernel
theorem witness_VectorMemoryTurns_scoped : let s := tState tGather
    let m := { tVmem true 0x2000 with scope := some 2 }
    m.scope.isSome = true ∧ m.todo.drop (m.todo.takeWhile fun t => t.1 / 16 == 0 / 16).length ≠ []
      ∧ (match s.groupTargets m (m.todo.takeWhile fun t => t.1 / 16 == 0) with
          | .ok ts => (s.groupReads 4 ((m.todo.takeWhile fun t => t.1 / 16 == 0).zip ts)).toBool
          | .error _ => false) = true := by decide +kernel

/-- The thread at a `vappend` whose cursor has been advanced already, with the old cursor in s11. -/
def tReserved (cur : W64) : State := (tState (tStrip 0x07#64 4#64 [(11, cur)])).setSstart 1 true

theorem witness_VectorAppend_resumes : Meets (tReserved 0x2000#64) (.vappend 0 8 9 11 0 0)
    fun s => s.thr.stripOf (.int true 32) ∧ s.thr.vm = none ∧ s.thr.sstartAd = true ∧ (s.rs 11).toNat % 4 = 0 ∧ s.thr.lostNew = 0
      ∧ (s.thr.active 0).length ≤ 16 ∧ s.thr.sstart < (s.thr.active 0).length
      ∧ ∀ n ∈ List.range 4, s.threadTarget s.thr .store (0x2000 + n * 4) 4 = .ok (.phys (0x2000 + n * 4)) :=
  ⟨runs (by decide +kernel), by unfold Slot.stripOf; decide +kernel⟩
theorem witness_VectorAppend_misaligned : Meets (tReserved 0x2002#64) (.vappend 0 8 9 11 0 0)
    fun s => s.thr.stripOf (.int true 32) ∧ s.thr.vm = none ∧ s.thr.sstartAd = true ∧ (s.rs 11).toNat % 4 ≠ 0 :=
  ⟨runs (by decide +kernel), by unfold Slot.stripOf; decide +kernel⟩

/-- The thread with eight vector registers declared and groups of two. -/
def tGrouped : Slot := { tStrip 0x10#64 4#64 [] with decl := { vregs := 8 } }

theorem witness_ChecksBeforeExecution_beyond : let x := (tState tGrouped).landDue.thr
    x.atom = false ∧ x.sup = true ∧ x.grp = 2 ∧ (usesOf x (.viadd 0 7 0 2 0)).vw = [7] ∧ x.decl.badV x.grp 7 = some 8
      ∧ x.decl.badV x.grp 0 = none ∧ x.decl.badV x.grp 2 = none ∧ encode (.viadd 0 7 0 2 0) ≠ none := by decide
theorem witness_ChecksBeforeExecution_odd : let x := (tState tGrouped).landDue.thr
    let u := usesOf x (.viadd 0 4 5 3 0)
    (∀ n ∈ u.vw ++ u.vr, x.decl.badV x.grp n = none) ∧ u.vs = [] ∧ u.v1w ++ u.v1r = []
      ∧ ((u.vw ++ u.vr).filter fun n => n % x.grp ≠ 0) = [5, 3] := by decide
theorem witness_ChecksBeforeExecution_allowed : let x := (tState { tThread with csr := [(0, 4#64)] }).landDue.thr
    (usesOf x (.eret 0)).priv = true ∧ (usesOf x (.eret 0)).noAtom = true ∧ (usesOf x (.add 0 1 1 1)).priv = false := by decide

theorem witness_ControlRegisterAccesses_registerOnly : let i := Instr.add 0 31 9 9
    let m := (fld (wordOf i) 26 6).toNat
    0x01 ≤ m ∧ m ≤ 0x0C ∧ tNext (exec i (tState (tRegs []))) (fun _ => true) = true := by decide
theorem witness_ControlRegisterAccesses_views : let s := tState tThread
    ((s.slot 0).csrv 0x031).toNat < 2 ^ 24 ∧ s.partOfAsid (s.slot 0).asid = some 0
      ∧ inRange (s.part 0).pasid (s.slot 0).asid = true := by decide
theorem witness_StepRunsTheDecodedInstruction_place : let u := { tPlaced.nextAction.2 with cur := 0 }
    (0x14000 < windowBase ∧ u.placeOf 0x14000 ≠ .spill) ∧ (0x14004 < windowBase ∧ u.placeOf 0x14004 ≠ .spill)
      ∧ u.thr.reclaimDue = none := by decide

/-- Plane words of the engine: dense blocks of 128 rows of 128 elements in i8, or row-gather. -/
def tDense : List W64 := [0x4000000000000001#64, 0x2000#64, 0x0080#64]
def tGatherWords : List W64 := [0x4000000000000002#64, 0x2000#64, 0x00010001#64]

theorem witness_PositionsAndEngines_rowLoads :
    let x : Fe := { bufs := [(0, { loading := true })] }
    let s := tEngine tDense x
    let lb := (s.fe 0).bufs.getD {} 0
    s.feActs 0 = true ∧ feMode (s.fe 0).words = 1 ∧ lb.loading = true ∧ lb.fault = none ∧ lb.next < (s.fe 0).rowsDue := by decide
theorem witness_PositionsAndEngines_gathers :
    let x : Fe := { bufs := [(0, { loading := true })], gathered := [(1, tTok), (0, tTok)].map fun e => (e.1, 0) }
    let s := tEngine tGatherWords x
    s.feActs 0 = true ∧ feMode (s.fe 0).words = 2 ∧ (s.fe 0).bufNo = 0 ∧ feSz (s.fe 0).words 1 ≤ (nth (0, 0) (s.fe 0).gathered 0).1
      ∧ (s.fe 0).rowsDue = 2 := by decide
theorem witness_PositionsAndEngines_passEnds :
    let s := tEngine ([0x4000000000000001#64] ++ List.replicate 15 0#64 ++ [0x8000000000000002#64]) { frames := 2 }
    let t := tEngine ([0x4800000000000001#64] ++ List.replicate 15 0#64 ++ [0x8000000000000002#64]) { frames := 1, ctlIn := 0 }
    s.feActs 0 = true ∧ feMode (s.fe 0).words ≠ 0 ∧ paFrm (fePass (s.fe 0).words (s.fe 0).pass) = 2
      ∧ (s.fe 0).outC.length < fePortCap ∧ feCtla (t.fe 0).words = true ∧ (t.fe 0).passOver = false := by decide

/-- An output stream of port 7 whose gateway holds a token. -/
def tOut (gate : List Tok) : State :=
  let st := { tStream with desc := List.replicate 8 1#64, words := 0x2000000000000000#64 :: List.replicate 5 0#64 }
  let s := tNode (portKey 7) { planes := [(0, { st := .loaded, sw := [0x10000#64] })], outs := [(0, [eosTok])] }
  { s with
    ports := [(7, { cur := some st, out := true, started := true, run := some 5, gate := gate })]
    parts := [(0, { pasid := 0x100000#64, pshare := (List.range 8).map fun d => (d, 1#64) })] }

theorem witness_StreamsAndRuns_gate : let s := tOut [eosTok]
    let st := (s.port 7).cur.getD tStream
    s.streamRuns 7 st = true ∧ st.cnta = 0 ∧ (s.port 7).gate.head? = some eosTok ∧ eosTok.eos = true
      ∧ s.dieAdmits (portDie 7) st.asid = true ∧ s.runFrozen (s.pos (portKey 7)).run = false ∧ s.posGated (portKey 7) = false
      ∧ (s.port 7).gate.length < 8 ∧ (tOut []).streamRuns 7 st = true
      ∧ 8 ≤ ((tOut (List.replicate 8 eosTok)).port 7).gate.length := by decide +kernel
theorem witness_StreamsAndRuns_orphan : let st := { tStream with slot := noSlot, stopped := true }
    let s := { tState tThread with ports := [(7, { cur := some st })] }
    (s.port 7).cur = some st ∧ s.runFrozen (s.port 7).run = false ∧ st.stopped = true ∧ st.slot = noSlot := by decide
theorem witness_StreamsAndRuns_wants : let s := tCommand (.sel 2 false)
    (s.pump 0).wantAll 0 true [] = (true, s.pump 0) := rfl
theorem witness_StreamsAndRuns_refused : let s := tEngine [] {}
    let t := { s with fes := [(0, { planes := [(2, { st := .loaded, node := [0x8000000000000000#64] })] })] }
    2 ≤ t.classOf (0, 2) ∧ (t.wantAll 0 true [(0, 2)]).1 = false := by decide

/-! ### Witnesses: a context that is restored -/

/-- A job of queue 0 that runs in slot 0, a queue that is enabled, and the record of slot 0's context, at physical 2 MiB, with LCAP
1 and QWIN 64. -/
def tRestoring : State :=
  let s := tState { tThread with use := .resThread, switched := true, decl := {} }
  let t := (s.writePhys 0x20000 0x80 8).writePhys 0x201098 1 8
  let u := t.writePhys 0x201188 64 8
  { s with
    mem := commitStores s.mem u.stores, jobs := [(0, tRunningJob)]
    tlbs := s.tlbs.modify [] (holdCp 0) fun l => ⟨0, 0x7F2000000000, 2 ^ 21, 0x20001F#64, 1⟩ :: l }

/-- A word of the record's page is read. -/
theorem tRestoring_reads (va : Nat) (lo : 0x7F2000000000 ≤ va) (hi : va + 8 ≤ 0x7F2000000000 + 2 ^ 21) :
    ∃ w, tRestoring.savedWord 0 va = .ok w := by
  have hleaf : tRestoring.leafFor 0 0 va = some (0x20001F#64, 1) := by
    have : tRestoring.tlbs.getD [] 0 = ⟨0, 0x7F2000000000, 2 ^ 21, 0x20001F#64, 1⟩ :: (tState tThread).tlbs.getD [] 0 := by decide
    simp only [State.leafFor, this, tlbFind]
    rw [if_pos ⟨trivial, lo, by omega⟩]
  obtain ⟨p, hp⟩ : ∃ p, 0x200000 + va % 2 ^ 21 = p := ⟨_, rfl⟩
  have hpa : leafAddr (0x20001F#64).toNat 1 va = p := by simp [leafAddr, leafSize, bitsAt, ← hp]
  have hlt : p + 8 ≤ 0x8000000000 := by omega
  have place : ∀ n, n < 0x8000000000 → tRestoring.placeOf n = .ram (tRestoring.hbmLoc n) := fun n h => by
    unfold State.placeOf; rw [if_pos h]
  have hil : tRestoring.imapIL (bitsAt p 38 33) = 0 := by
    simp only [State.imapIL, show tRestoring.imap = [] by decide]; rfl
  have good : ∀ k n, n + k ≤ 0x8000000000 → tRestoring.goodPhys n k = true := by
    intro k
    induction k with
    | zero => intro n _; rfl
    | succ k ih =>
      intro n h
      simp only [State.goodPhys, place n (by omega), ih (n + 1) (by omega), Bool.and_true]
      rfl
  have ht : tRestoring.translate 0 0 true .load va = .ok p 0x20001F := by
    unfold State.translate
    rw [if_neg (by omega), hleaf]
    dsimp only
    rw [if_neg (by decide), hpa, if_neg (fun h => h.2 (by rw [hil]; decide)), if_neg (by rw [place p (by omega)]; simp)]; rfl
  unfold State.savedWord State.vread
  rw [show (tRestoring.slot 0).asid = 0 by decide, show holdCp (courseOf 0) = 0 from rfl, ht]
  dsimp only
  rw [if_neg (by rw [place p (by omega)]; simp), if_pos (good 8 p hlt)]
  exact ⟨_, rfl⟩

theorem tRestoring_readable : ∀ k va, 0x7F2000000000 ≤ va → va + 8 * k ≤ 0x7F2000000000 + 2 ^ 21 →
    (tRestoring.badWord 0 va k).isNone = true
  | 0, _, _, _ => rfl
  | k + 1, va, lo, hi => by
    obtain ⟨w, h⟩ := tRestoring_reads va lo (by omega)
    simp only [State.badWord, h]
    exact tRestoring_readable k (va + 8) (by omega) (by omega)

theorem witness_ThreadsResetsAndPower_restores : tRestoring.mayRestore 0 = true ∧ tRestoring.recordBroken 0 = false := by
  refine ⟨by decide +kernel, ?_⟩
  have a := tRestoring_readable 4096 (contextRecord 0 + 0) (by decide) (by decide)
  have b := tRestoring_readable 8192 (contextRecord 0 + 0x10000) (by decide) (by decide)
  simp only [State.recordBroken, a, b]
  decide +kernel

/-- The port die of stack 7 has taken over at 100: one listed row group waits in its first pass (`old`), or none does. -/
def tPass (old : Bool) : State :=
  { tState tThread with
    now := 38390000
    stackMgrs := [(7, { tookAt := some (if old then 38380900 else 100), lastBeat := 38380850, carried := [(5, 38380000)] })]
    rowGroups := [(rowKey 7 5, { since := if old then 38380000 else 38380900 })] }

theorem witness_CopiesRepliesAndStacks_firstPass :
    ((tPass true).stackMgrs.getD ({} : StackMgr) 7).tookAt = some 38380900 ∧ (tPass true).firstPass 7 38380900 = true
      ∧ (tPass true).nextDeadline 7 5 = true ∧ (tPass true).nextDeadline 7 6 = false
      ∧ (tPass false).firstPass 7 100 = false := by decide

/-- A copy of one i32 element from 0x2000 to 0x3000, under way at port die 7. -/
def tCopying : State :=
  let side := fun (base : Nat) => [BitVec.ofNat 64 (7 * 2 ^ 56 + 2 ^ 48 + base), 1#64, 4#64] ++ List.replicate 13 0#64
  let c := { tCopy false 0 with res := none, completed := false, accepted := true, pd := 7 }
  let c := { c with words := List.replicate 32 0#64, src := side 0x2000, dst := side 0x3000 }
  { tState tThread with
    copies := [(1, c)], tlbs := [(holdEngine 7 0, [⟨0, 0, 2 ^ 30, 0x1F#64, 2⟩])]
    parts := [(0, { pasid := 0x100000#64, pshare := [(7, 1#64)] })] }

theorem witness_CopiesRepliesAndStacks_flows : let s := tCopying
    (match s.copies.get? 1 with
      | some c => c.accepted && c.res.isNone && !c.parked && decide (c.next < c.total) && s.beatFits c.pd c.asid
          && !s.dieDown (8 + c.pd) && s.dieAdmits c.pd c.asid && c.dest.fmt != 14
          && s.pieceEnd c (s.pieceKey c c.next) (c.next + 1) 255 == 1
          && (match s.copyElems c c.next 1 with | .ok es => es.length == 1 | .error _ => false)
      | none => false) = true ∧ s.parkedCopy 1 = false := by decide +kernel
theorem witness_CopiesRepliesAndStacks_unmapped : let s := { tCopying with tlbs := [] }
    (match s.copies.get? 1 with
      | some c => s.pieceEnd c (s.pieceKey c c.next) (c.next + 1) 255 == 1
          && (match s.copyElems c c.next 1 with | .ok _ => false | .error e => e.status != 0)
      | none => false) = true := by decide +kernel
theorem witness_CopiesRepliesAndStacks_acks :
    let v : Inval := { slot := 0, asidLo := 0, asidN := 1, lo := 0, hi := 2 ^ 48, scope := 4, waiting := [holdRemote], told := true }
    let s := { tState tThread with invals := [(2, v)] }
    v.src = none ∧ s.invals.get? 2 = some v ∧ v.waiting.contains holdRemote = true ∧ s.usesWithdrawn s.pkg v = false
      ∧ (∀ h ∈ v.waiting, h < remoteHolder 0) ∧ remoteHolder 0 ≤ remoteHolder 9 := by decide
theorem witness_CopiesRepliesAndStacks_asked :
    let v : Inval := { slot := 0, asidLo := 0, asidN := 1, lo := 0, hi := 2 ^ 48, scope := 4, waiting := [remoteHolder 3] }
    let v := { v with src := some (1, 9), plane := 3 }
    let s := { tState tThread with invals := [(2, v)], links := [(3, { up := true })] }
    let r := { tRop false 0 with addr := 0x1000000002000#64, res := none, xl := some (0x2000, 0x1F) }
    s.invals.get? 2 = some v ∧ (s.dropRemote 1 v).usesWithdrawn 1 v = false ∧ (s.link 3).up = true
      ∧ (s.link 3).txCtr < stopAt ∧ ({ s with rops := [(5, r)] }.dropRemote 1 v).usesWithdrawn 1 v = true := by decide

theorem witness_ThreadsResetsAndPower_guarded :
    let s := tState { tThread with hdr := 0xFC300100#32, att := 3, ranks := [0, 1], spanw := 2, bpos := 1 }
    (s.slot 0).use = .thread ∧ (s.slot 0).mayShield = true ∧ ((tState tThread).slot 0).mayShield = false := by decide

theorem witness_LinksTargetsAndWatches_exchange : let s := { tState tThread with links := [(3, {})] }
    3 < 16 ∧ (s.link 3).down = false ∧ s.dieDown (8 + 3 / 2) = false ∧ (s.link 3).up = false ∧ (s.link 3).unacked = []
      ∧ ({ s with dies := [(9, { resetting := true })] }.dieDown (8 + 3 / 2)) = true := by decide
theorem witness_LinksTargetsAndWatches_clear : let s := { tState tThread with links := [(3, { up := true })] }
    (s.link 3).up = true ∧ (s.link 3).txCtr + 1 < stopAt ∧ (s.link 4).up = false := by decide
theorem witness_LinksTargetsAndWatches_signed : ∀ a b c : BitVec 512,
    Config.ecdsaVerify a (Config.sha256 (keyBytes b)) c = true ∨ Config.ecdsaVerify a (Config.sha256 (keyBytes b)) c = false := by
  intro a b c; cases Config.ecdsaVerify a (Config.sha256 (keyBytes b)) c <;> simp
theorem witness_LinksTargetsAndWatches_letIn :
    let r := { tRop false 0 with res := none, xl := some (0x2000, 0x1F), slot := none, src := some (1, 9), taken := false }
    let s := { tState tThread with
      rops := [(5, r)], parts := [(0, { pasid := 0x100000#64, pshare := (List.range 8).map fun d => (d, 1#64) })] }
    let full := { s with
      parts := [(0, { pasid := 0x100000#64, pshare := (List.range 8).map fun d => (d, 0x101#64) })]
      meters := (List.range 8).map fun d => (d, { beats := [(0, 16)] }) }
    s.rops.get? 5 = some r ∧ s.here r = true ∧ r.own = false ∧ r.taken = false ∧ r.xl.isSome = true ∧ r.ready = false
      ∧ s.homeWaits 5 r = false ∧ s.beatFits r.atDie r.asid = true ∧ full.beatFits r.atDie r.asid = false := by decide
theorem witness_LinksTargetsAndWatches_invokes :
    let h : Handler := { st := .valid, part := 0, words := List.replicate 32 0#64 }
    let r := { tRop false 0 with kind := .handler 0, res := none, xl := some (0x2000, 0x1F), ready := true, entry := 3 }
    let s := { tState tThread with rops := [(5, r)], handlers := [(3, h)] }
    s.rops.get? 5 = some r ∧ s.handler 3 = h ∧ inRange (s.part 0).pasid 0 = true
      ∧ h.lost.contains ((s.homeDie 0x2000).getD 16) = false ∧ s.goodPhys 0x2000 8 = true
      ∧ { s with poison := [s.hbmLoc 0x2000] }.goodPhys 0x2000 8 = false := by decide
theorem witness_LinksTargetsAndWatches_aged : let s := { State.reset with now := 240006, landed := List.replicate 262144 ⟨1, true, 5⟩ }
    s.landed[0]? = some ⟨1, true, 5⟩ ∧ 262144 ≤ s.landed.length ∧ 5 + 240000 < s.now ∧ ∀ f ∈ s.landed, 5 ≤ f.since := by
  have key : ∀ n, 0 < n → (List.replicate n (⟨1, true, 5⟩ : Landed))[0]? = some ⟨1, true, 5⟩
      ∧ n ≤ (List.replicate n (⟨1, true, 5⟩ : Landed)).length
      ∧ ∀ f ∈ List.replicate n (⟨1, true, 5⟩ : Landed), 5 ≤ f.since := by
    intro n h
    refine ⟨by cases n with | zero => omega | succ n => rfl, Nat.le_of_eq List.length_replicate.symm, fun f hf => ?_⟩
    obtain ⟨_, rfl⟩ := List.mem_replicate.1 hf
    exact Nat.le_refl _
  obtain ⟨a, b, c⟩ := key 262144 (by decide)
  exact ⟨a, b, by decide, c⟩

theorem witness_HostWritesAndAccess_verifying : let s := { State.reset with boot := { phase := .verifying } }
    s.boot.phase = .verifying ∧ s.boot.phase ≠ .running ∧ imageWhy s.boot.staged = some 1 := by decide
theorem witness_HostWritesAndAccess_lands : let s := tOpen 32
    ((s.slot 0).landNow s.now).switched = false ∧ ((s.slot 0).landNow s.now).vm = none
      ∧ (((s.slot 0).landNow s.now).csrv csrVOPEN).getLsbD 0 = true ∧ ((s.slot 0).landNow s.now).holdsQuarter 0 0xF8 = true := by decide
theorem witness_JobsMoveOn_unreadable :
    let t := (tActive.writePhys 0x30000 0x50000000 8)
    let s := { tActive with mem := commitStores tActive.mem t.stores }
    s.partWorks 0 = true ∧ (s.readQctl 0 0).1.en = true
      ∧ (match (s.readQctl 0 0).2.readRecord 0 0 (s.readQctl 0 0).1 0 with
        | (ref, (ws, some n)) => ref == 0x50000000#64 && ws.isEmpty && n == 0
        | _ => false) = true := by decide
theorem witness_TemplatesAndTokens_unreadable : let s := { tState tThread with firings := [(4, { tFiring with ref := 0x50000000#64 })] }
    let t := { tTmplState (tTmpl false) with firings := [(4, tFiring)] }
    (s.recordWords holdWalker 0 0x50000000).2.isSome = true ∧ t.recordWords holdWalker 0 0x2000 = (tTmpl false, none) := by decide
theorem witness_JobsMoveOn_stolen : let s := { tState tThread with jobs := [(3, tJob)] }
    s.stealsIn tJob 2 = true ∧ (s.pickCourse tJob 2).isSome = false := by decide
end

section
/-! SUPPORT. From an instruction's own part to what it does: where the body of a meaning ends as `Exe.done`, `Exe.goto` or
`Exe.trap`, the instruction `Does`, `Jumps` or `Traps`; and the values the scalar bodies of chapter 06 compute. The hypothesis
`hx` is met by `Eq.refl` of the meaning that the dispatch names, from which the body is read off. -/

namespace Sys2Proof.Machine

/-! ### An instruction's body and its claim -/

section Body
variable {i : Instr} {st : BitVec 3} {u : Uses} {body : State → Exe}

/-- An instruction that executes settles what its body ends with. -/
theorem settles_of_body {s : State} {e : Exe} (hx : exec i s = runInsn i st body s) (hu : ∀ x, usesOf x i = u)
    (h : s.executes i) (he : body s.landDue = e) : usesOf s.landDue.thr i = u ∧
      exec i s = .next (State.settle u st (wordOf i) s.landDue.thr.grp e) := by
  refine ⟨hu _, ?_⟩
  rw [hx, runInsn_executes h, hu, he]

theorem does_of_body {P : State → Prop} {f : State → State} (hx : ∀ s, exec i s = runInsn i st body s)
    (hb : ∀ s, P s → body s = .done (f s)) (hu : ∀ x, usesOf x i = u := by intro x; rfl) : Does i u st P f :=
  fun s h hp => settles_of_body (hx s) hu h (hb _ hp)

theorem jumps_of_body {P : State → Prop} {f : State → State} {target : State → W64}
    (hx : ∀ s, exec i s = runInsn i st body s) (hb : ∀ s, P s → body s = .goto (f s) (target s))
    (hu : ∀ x, usesOf x i = u := by intro x; rfl) : Jumps i u st P f target :=
  fun s h hp => settles_of_body (hx s) hu h (hb _ hp)

theorem traps_of_body {P : State → Prop} {f : State → State} {t : State → Trap}
    (hx : ∀ s, exec i s = runInsn i st body s) (hb : ∀ s, P s → body s = .trap (f s) (t s))
    (hu : ∀ x, usesOf x i = u := by intro x; rfl) : Traps i u P f t :=
  fun s h hp => settles_of_body (hx s) hu h (hb _ hp)

/-- A body that is one fixed-latency write, of a value `v'` that the claim spells `v` (R119). -/
theorem lands_of_body {lat : Nat} {d : BitVec 5} {v v' : State → W64}
    (hx : ∀ s, exec i s = runInsn i st (fun s => exeLater s lat d (v' s)) s) (hv : ∀ s, v' s = v s)
    (hu : ∀ x, usesOf x i = u := by intro x; rfl) : Lands i u st lat d v :=
  does_of_body hx (fun s _ => by rw [exeLater, hv]) hu

end Body

/-! ### Immediates and compares (R117, R141, R151) -/

/-- A sign-extended offset in words, as bytes. -/
theorem sx_shiftLeft_two {n : Nat} (i : BitVec n) : sx i <<< 2 = BitVec.ofInt 64 (4 * i.toInt) := by
  have hs : sx i = BitVec.ofInt 64 i.toInt := rfl
  rw [hs, BitVec.shiftLeft_eq_mul_twoPow, mul_comm 4, BitVec.ofInt_mul]
  rfl

/-- A transfer's target, in words from the instruction (R149, R151). -/
theorem State.wordsOn_eq {n : Nat} (s : State) (i : BitVec n) : s.wordsOn i = s.thr.pc + BitVec.ofInt 64 (4 * i.toInt) := by
  rw [State.wordsOn, sx_shiftLeft_two]

theorem bit1_slt (x y : W64) : bit1 (x.slt y) = if x.toInt < y.toInt then 1#64 else 0#64 := by
  simp [bit1, BitVec.slt_iff_toInt_lt]

theorem bit1_ult (x y : W64) : bit1 (x.ult y) = if x.toNat < y.toNat then 1#64 else 0#64 := by
  simp [bit1, BitVec.ult_iff_toNat_lt]

/-- A rotation as R141 writes it. -/
theorem rotateLeft_eq_shifts (x : W64) (h : BitVec 6) :
    x.rotateLeft h.toNat = (x <<< h.toNat) ||| (x >>> (64 - h.toNat)) := by
  rw [BitVec.rotateLeft_def, Nat.mod_eq_of_lt h.isLt]

/-! ### Branches (R151, R152) -/

/-- A pending register write leaves the thread's place. -/
@[simp] theorem Slot.addPend_pc (x : Slot) (land : Nat) (w : PendWrite) (vec : Bool) :
    (x.addPend land w vec).pc = x.pc := by
  unfold Slot.addPend; split <;> rfl

section Branch
variable {i : Instr} {st : BitVec 3} {u : Uses} {o : BitVec 13} {taken : State → Bool} {f : State → State}
  {P : State → Prop}

/-- A branch taken where `P` holds. -/
theorem jumps_of_branch (hx : ∀ s, exec i s = runInsn i st (fun s => exeBranch (f s) o (taken s)) s)
    (hf : ∀ s, (f s).thr.pc = s.thr.pc) (hc : ∀ s, P s → taken s = true) (hu : ∀ x, usesOf x i = u := by intro x; rfl) :
    Jumps i u st P f fun s => s.thr.pc + BitVec.ofInt 64 (4 * o.toInt) :=
  jumps_of_body hx (fun s hp => by simp only [exeBranch, hc s hp, if_true, State.wordsOn_eq, hf]) hu

/-- A branch not taken where `P` holds. -/
theorem does_of_branch (hx : ∀ s, exec i s = runInsn i st (fun s => exeBranch (f s) o (taken s)) s)
    (hc : ∀ s, P s → taken s = false) (hu : ∀ x, usesOf x i = u := by intro x; rfl) : Does i u st P f :=
  does_of_body hx (fun s hp => by simp [exeBranch, hc s hp]) hu

/-- A branch on a test that decides `P`: taken where `P` holds, and on to the next instruction elsewhere. -/
theorem branches_of_test (hx : ∀ s, exec i s = runInsn i st (fun s => exeBranch s o (taken s)) s)
    (ht : ∀ s, taken s = true ↔ P s) (hu : ∀ x, usesOf x i = u := by intro x; rfl) :
    Jumps i u st P id (fun s => s.thr.pc + BitVec.ofInt 64 (4 * o.toInt)) ∧ Does i u st (fun s => ¬ P s) id :=
  ⟨jumps_of_branch (f := id) hx (fun _ => rfl) (fun s => (ht s).2) hu,
    does_of_branch (f := id) hx (fun s hp => by rw [← Bool.not_eq_true, ht]; exact hp) hu⟩

end Branch

end Sys2Proof.Machine
end

section
open Sys2Proof Sys2Proof.Machine

/-- Settles O3: each body is one write at L = 1, its value spelled as the rules R141 to R143 do. -/
theorem immediatesAndConstants : Obligations.ImmediatesAndConstants := by
  unfold Obligations.ImmediatesAndConstants
  intro st d a i h w u sign zero
  refine ⟨?addi, ?andi, ?ori, ?xori, ?slti, ?sltni, ?slli, ?srli, ?srai, ?roli, ?li, ?lext, ?lea, ?nop, rfl, rfl, rfl⟩
  case addi => exact lands_of_body (fun s => Eq.refl (execAddi st d a i s)) fun _ => rfl
  case andi => exact lands_of_body (fun s => Eq.refl (execAndi st d a i s)) fun _ => rfl
  case ori => exact lands_of_body (fun s => Eq.refl (execOri st d a i s)) fun _ => rfl
  case xori => exact lands_of_body (fun s => Eq.refl (execXori st d a i s)) fun _ => rfl
  case slti =>
    exact lands_of_body (fun s => Eq.refl (execSlti st d a i s)) fun _ => by
      rw [bit1_slt, sx, BitVec.toInt_signExtend_of_le (by decide)]
  case sltni => exact lands_of_body (fun s => Eq.refl (execSltni st d a i s)) fun _ => bit1_ult _ _
  case slli => exact lands_of_body (fun s => Eq.refl (execSlli st d a h s)) fun _ => rfl
  case srli => exact lands_of_body (fun s => Eq.refl (execSrli st d a h s)) fun _ => rfl
  case srai => exact lands_of_body (fun s => Eq.refl (execSrai st d a h s)) fun _ => rfl
  case roli => exact lands_of_body (fun s => Eq.refl (execRoli st d a h s)) fun _ => rotateLeft_eq_shifts _ _
  case li => exact lands_of_body (fun s => Eq.refl (execLi st d w s)) fun _ => rfl
  case lext => exact lands_of_body (fun s => Eq.refl (execLext st d w s)) fun _ => rfl
  case lea => exact lands_of_body (fun s => Eq.refl (execLea st d w s)) fun _ => rfl
  case nop => exact does_of_body (fun s => Eq.refl (execNop st s)) fun _ _ => rfl

/-- Settles O5: `br`, `call` and `jr` from their bodies, the six branches and `loop` from the shared branch. -/
theorem controlTransfers : Obligations.ControlTransfers := by
  unfold Obligations.ControlTransfers
  intro st d a b i w on link dest branch
  have hdest (s : State) : s.rs a + (sx i <<< 2) = dest s := by rw [sx_shiftLeft_two]
  have hlast (s : State) : s.rs a - 1#64 = 0#64 ↔ s.rs a = 1#64 := sub_eq_zero
  have hpc (s : State) : (s.later 1 a (s.rs a - 1#64)).thr.pc = s.thr.pc := by simp
  refine ⟨?br, ?call, ?jr, ?jrOdd, ?beq, ?bne, ?blt, ?bge, ?bltn, ?bgen, ?loop, ?loopLast, rfl, rfl, rfl, rfl, rfl, rfl⟩
  case br => exact jumps_of_body (fun s => Eq.refl (execBr st w s)) fun s _ => by rw [State.wordsOn_eq]; rfl
  case call => exact jumps_of_body (fun s => Eq.refl (execCall st w s)) fun s _ => by rw [State.wordsOn_eq]
  case jr => exact jumps_of_body (fun s => Eq.refl (execJr st d a i s)) fun s h => by simp [hdest, h, link]
  case jrOdd =>
    exact traps_of_body (fun s => Eq.refl (execJr st d a i s)) fun s h => by simp only [hdest, if_pos h]; rfl
  case beq => exact branches_of_test (fun s => Eq.refl (execBeq st a b i s)) fun s => beq_iff_eq
  case bne => exact branches_of_test (fun s => Eq.refl (execBne st a b i s)) fun s => bne_iff_ne
  case blt => exact branches_of_test (fun s => Eq.refl (execBlt st a b i s)) fun s => BitVec.slt_iff_toInt_lt
  case bge =>
    exact branches_of_test (fun s => Eq.refl (execBge st a b i s)) fun s => by simp [BitVec.slt_eq_decide]
  case bltn => exact branches_of_test (fun s => Eq.refl (execBltn st a b i s)) fun s => BitVec.ult_iff_toNat_lt
  case bgen =>
    exact branches_of_test (fun s => Eq.refl (execBgen st a b i s)) fun s => by simp [BitVec.ult_eq_decide]
  case loop =>
    exact jumps_of_branch (fun s => Eq.refl (execLoop st a i s)) hpc fun s h => bne_iff_ne.2 (mt (hlast s).1 h)
  case loopLast =>
    exact does_of_branch (fun s => Eq.refl (execLoop st a i s)) fun s h => by simp [(hlast s).2 h]

end

section
/-! SUPPORT. Where HBM stands (R296, R297): every scheme of the table is one spreading of the group offset, with its own line
size and number of neighbouring stacks, and that spreading is one-to-one because its parts are the digits of the offset. -/

namespace Sys2Proof.Machine

/-! ### One spreading behind the eight schemes (R297) -/

/-- A number's bits as quotient and remainder. -/
theorem bitsAt_eq_div_mod (x hi lo : Nat) : bitsAt x hi lo = x / 2 ^ lo % 2 ^ (hi + 1 - lo) := by
  rw [bitsAt, Nat.shiftRight_eq_div_pow]

/-- Lines of 2^k bytes dealt over 2^m neighbouring stacks, then over the 64 pseudo-channels of each; the bits from 30 + m on
choose among the sets of neighbouring stacks. -/
def spread (k m o : Nat) : Nat × Nat × Nat :=
  (2 ^ m * (o / 2 ^ (30 + m)) + o / 2 ^ k % 2 ^ m, o / 2 ^ (k + m) % 64, 2 ^ k * (o % 2 ^ (30 + m) / 2 ^ (k + m + 6)) + o % 2 ^ k)

/-- The exponent of a scheme's line size. -/
def lineBits : Nat → Nat
  | 1 => 10
  | 2 => 12
  | 3 => 16
  | 7 => 24
  | _ => 8

/-- The exponent of the number of stacks a scheme stripes over. -/
def stackBits : Nat → Nat
  | 4 => 2
  | 5 => 1
  | 6 | 7 => 0
  | _ => 3

theorem lineBits_le (il : Nat) : lineBits il ≤ 24 := by
  unfold lineBits; split <;> decide

theorem stackBits_le (il : Nat) : stackBits il ≤ 3 := by
  unfold stackBits; split <;> decide

theorem interleave_eq_spread {il o : Nat} (hil : il < 8) (ho : o < 2 ^ 33) :
    interleave il o = spread (lineBits il) (stackBits il) o := by
  interval_cases il <;>
    simp only [interleave, spread, lineBits, stackBits, bitsAt_eq_div_mod, Nat.shiftRight_eq_div_pow, Prod.mk.injEq] <;> omega

/-- Over all eight stacks no bit is left to choose among sets of them. -/
theorem spread_allStacks {o : Nat} (k : Nat) (ho : o < 2 ^ 33) :
    spread k 3 o = (o / 2 ^ k % 8, o / 2 ^ (k + 3) % 64, o / 2 ^ (k + 9) * 2 ^ k + o % 2 ^ k) := by
  have hset : o / 2 ^ (30 + 3) = 0 := Nat.div_eq_of_lt ho
  have hlow : o % 2 ^ (30 + 3) = o := Nat.mod_eq_of_lt ho
  rw [spread, hset, hlow, mul_zero, zero_add, mul_comm (2 ^ k)]
  rfl

/-- Each part of a spreading stays in its range: 8 stacks, 64 pseudo-channels, 16 MiB of a group. -/
theorem spread_lt {k m o : Nat} (hk : k ≤ 24) (hm : m ≤ 3) (ho : o < 2 ^ 33) :
    (spread k m o).1 < 8 ∧ (spread k m o).2.1 < 64 ∧ (spread k m o).2.2 < 2 ^ 24 := by
  have hset : o / 2 ^ (30 + m) < 2 ^ (3 - m) := Nat.div_lt_of_lt_mul (by rwa [← pow_add, show 30 + m + (3 - m) = 33 by omega])
  have hline : o % 2 ^ (30 + m) / 2 ^ (k + m + 6) < 2 ^ (24 - k) := Nat.div_lt_of_lt_mul (by
    rw [← pow_add, show k + m + 6 + (24 - k) = 30 + m by omega]; exact Nat.mod_lt _ (by positivity))
  refine ⟨?_, Nat.mod_lt _ (by decide), ?_⟩
  · have h := Nat.mul_add_lt_mul_of_lt_of_lt hset (Nat.mod_lt (o / 2 ^ k) (Nat.two_pow_pos m))
    rwa [← pow_add, Nat.sub_add_cancel hm] at h
  · have h := Nat.mul_add_lt_mul_of_lt_of_lt hline (Nat.mod_lt o (Nat.two_pow_pos k))
    rwa [← pow_add, Nat.sub_add_cancel hk] at h

/-- A quotient and a remainder are read back from the number they make. -/
theorem mul_add_inj_of_lt {b q q' r r' : Nat} (hr : r < b) (hr' : r' < b) (h : b * q + r = b * q' + r') : q = q' ∧ r = r' := by
  have hb : 0 < b := by omega
  have hq := congrArg (· / b) h
  have hm := congrArg (· % b) h
  simp only [Nat.mul_add_div hb, Nat.div_eq_of_lt hr, Nat.div_eq_of_lt hr', add_zero] at hq
  simp only [Nat.mul_add_mod, Nat.mod_eq_of_lt hr, Nat.mod_eq_of_lt hr'] at hm
  exact ⟨hq, hm⟩

/-- The parts of a spreading hold the digits of the offset: its line, the stack within its set, the pseudo-channel, the line's
number there, and the set. -/
theorem spread_injective {k m : Nat} (hk : k ≤ 24) : Function.Injective (spread k m) := by
  intro o q h
  simp only [spread, Prod.mk.injEq] at h
  obtain ⟨hstack, hpc, hoff⟩ := h
  obtain ⟨hset, hnear⟩ := mul_add_inj_of_lt (Nat.mod_lt _ (by positivity)) (Nat.mod_lt _ (by positivity)) hstack
  obtain ⟨hnum, hbyte⟩ := mul_add_inj_of_lt (Nat.mod_lt _ (by positivity)) (Nat.mod_lt _ (by positivity)) hoff
  have hlow : o % 2 ^ (k + m + 6) = q % 2 ^ (k + m + 6) := by
    simp only [pow_add, Nat.mod_mul, hbyte, hnear] at hpc ⊢
    rw [show 2 ^ 6 = 64 from rfl, hpc]
  refine Nat.ext_div_mod hset (Nat.ext_div_mod hnum ?_)
  have hdvd : 2 ^ (k + m + 6) ∣ 2 ^ (30 + m) := pow_dvd_pow 2 (by omega)
  rwa [Nat.mod_mod_of_dvd _ hdvd, Nat.mod_mod_of_dvd _ hdvd]

/-! ### A scheme and the place of an address (R296 to R298) -/

theorem interleave_lt {il o : Nat} (hil : il < 8) (ho : o < 2 ^ 33) :
    (interleave il o).1 < 8 ∧ (interleave il o).2.1 < 64 ∧ (interleave il o).2.2 < 2 ^ 24 := by
  rw [interleave_eq_spread hil ho]
  exact spread_lt (lineBits_le il) (stackBits_le il) ho

theorem interleave_inj {il o q : Nat} (hil : il < 8) (ho : o < 2 ^ 33) (hq : q < 2 ^ 33) (h : interleave il o = interleave il q) :
    o = q := by
  rw [interleave_eq_spread hil ho, interleave_eq_spread hil hq] at h
  exact spread_injective (lineBits_le il) h

/-- The schemes as the table of R297 writes them. -/
theorem interleave_table {o : Nat} (ho : o < 2 ^ 33) :
    let stripe := fun (k o : Nat) => (o / 2 ^ k % 8, o / 2 ^ (k + 3) % 64, o / 2 ^ (k + 9) * 2 ^ k + o % 2 ^ k)
    interleave 0 o = stripe 8 o ∧ interleave 1 o = stripe 10 o ∧ interleave 2 o = stripe 12 o ∧ interleave 3 o = stripe 16 o
      ∧ interleave 4 o = (4 * (o / 2 ^ 32) + o / 2 ^ 8 % 4, o / 2 ^ 10 % 64, o % 2 ^ 32 / 2 ^ 16 * 256 + o % 256)
      ∧ interleave 5 o = (2 * (o / 2 ^ 31) + o / 2 ^ 8 % 2, o / 2 ^ 9 % 64, o % 2 ^ 31 / 2 ^ 15 * 256 + o % 256)
      ∧ interleave 6 o = (o / 2 ^ 30, o / 2 ^ 8 % 64, o % 2 ^ 30 / 2 ^ 14 * 256 + o % 256)
      ∧ interleave 7 o = (o / 2 ^ 30, o / 2 ^ 24 % 64, o % 2 ^ 24) := by
  have eq := fun il (hil : il < 8) => interleave_eq_spread hil ho
  refine ⟨(eq 0 (by decide)).trans (spread_allStacks 8 ho), (eq 1 (by decide)).trans (spread_allStacks 10 ho),
    (eq 2 (by decide)).trans (spread_allStacks 12 ho), (eq 3 (by decide)).trans (spread_allStacks 16 ho),
    (eq 4 (by decide)).trans ?_, (eq 5 (by decide)).trans ?_, (eq 6 (by decide)).trans ?_, (eq 7 (by decide)).trans ?_⟩ <;>
    simp only [spread, lineBits, stackBits, Prod.mk.injEq, true_and] <;> omega

/-- Under scheme 7 the stack and the pseudo-channel are bits [32:24] of the offset. -/
theorem interleave_seven_fst_eq {o q : Nat} (h : o / 2 ^ 30 = q / 2 ^ 30) : (interleave 7 o).1 = (interleave 7 q).1 := by
  simp only [interleave, bitsAt_eq_div_mod, h]

theorem interleave_seven_channel_eq {o q : Nat} (h : o / 2 ^ 24 = q / 2 ^ 24) :
    (interleave 7 o).2.1 = (interleave 7 q).2.1 := by
  simp only [interleave, bitsAt_eq_div_mod, h]

theorem State.imapIL_lt (s : State) (g : Nat) : s.imapIL g < 8 := Nat.mod_lt _ (by decide)

/-- Stack, pseudo-channel and offset of an HBM address under the scheme of its group. -/
def State.hbmParts (s : State) (pa : Nat) : Nat × Nat × Nat := interleave (s.imapIL (pa / 2 ^ 33)) (pa % 2 ^ 33)

theorem State.hbmParts_lt (s : State) (pa : Nat) :
    (s.hbmParts pa).1 < 8 ∧ (s.hbmParts pa).2.1 < 64 ∧ (s.hbmParts pa).2.2 < 2 ^ 24 :=
  interleave_lt (s.imapIL_lt _) (Nat.mod_lt pa (by decide))

/-- Within a group the parts give the address back. -/
theorem State.hbmParts_inj (s : State) {pa qa : Nat} (hg : pa / 2 ^ 33 = qa / 2 ^ 33) (h : s.hbmParts pa = s.hbmParts qa) :
    pa = qa := by
  rw [hbmParts, hbmParts, hg] at h
  exact Nat.ext_div_mod hg (interleave_inj (s.imapIL_lt _) (Nat.mod_lt pa (by decide)) (Nat.mod_lt qa (by decide)) h)

/-- An HBM address lies in its group's 16 MiB of its stack and pseudo-channel. -/
theorem State.hbmLoc_eq (s : State) {pa : Nat} (h : pa < 0x8000000000) :
    s.hbmLoc pa = ((s.hbmParts pa).1 * 64 + (s.hbmParts pa).2.1) * 2 ^ 30 + (pa / 2 ^ 33 * 2 ^ 24 + (s.hbmParts pa).2.2) := by
  have hg : bitsAt pa 38 33 = pa / 2 ^ 33 := by rw [bitsAt_eq_div_mod]; omega
  simp only [hbmLoc, hbmParts, hg]
  ring

/-- Group, stack, pseudo-channel and offset are digits of the place, and within a group they give the address back. -/
theorem State.hbmLoc_inj (s : State) {pa qa : Nat} (hp : pa < 0x8000000000) (hq : qa < 0x8000000000)
    (h : s.hbmLoc pa = s.hbmLoc qa) : pa = qa := by
  obtain ⟨_, hpChannel, hpOffset⟩ := s.hbmParts_lt pa
  obtain ⟨_, hqChannel, hqOffset⟩ := s.hbmParts_lt qa
  rw [s.hbmLoc_eq hp, s.hbmLoc_eq hq] at h
  refine s.hbmParts_inj (by omega) ?_
  ext <;> omega

end Sys2Proof.Machine
end

section
open Sys2Proof Sys2Proof.Machine

/-- Settles O18: each scheme is a spreading of the offset, which keeps its digits, and a place names its group. -/
theorem interleaveIsOneToOne : Obligations.InterleaveIsOneToOne := by
  unfold Obligations.InterleaveIsOneToOne
  intro s stripe
  refine ⟨fun _ _ => s.hbmLoc_inj, fun _ _ => interleave_lt, fun _ => s.hbmLoc_eq, fun _ => interleave_table, fun o q => ⟨?_, ?_⟩⟩
  · intro page
    exact ⟨interleave_seven_fst_eq (by omega), interleave_seven_channel_eq (by omega)⟩
  · exact interleave_seven_fst_eq

end

section
/-! SUPPORT. Groups (R360 to R363): when an arrival completes the episode, and how each of `join`, `leave` and `gbar` ends, one
equation per outcome. -/

namespace Sys2Proof.Machine

/-- Where the body stands for its next turn, the instruction `Waits` (R137). -/
theorem waits_of_body {i : Instr} {st : BitVec 3} {u : Uses} {body : State → Exe} {P : State → Prop} {f : State → State}
    (hx : ∀ s, exec i s = runInsn i st body s) (hb : ∀ s, P s → body s = .turn (f s))
    (hu : ∀ x, usesOf x i = u := by intro x; rfl) : Waits i u P f :=
  fun s h hp => settles_of_body (hx s) hu h (hb _ hp)

theorem allB_eq_true {α : Type} {p : α → Bool} : ∀ {l : List α}, allB p l = true ↔ ∀ x ∈ l, p x = true
  | [] => by simp [allB]
  | x :: r => by simp [allB, allB_eq_true (l := r)]

/-! ### A group as it was set, and its arrivals (R363) -/

@[simp] theorem State.setGroup_thr (s : State) (p g : Nat) (x : Group) : (s.setGroup p g x).thr = s.thr := rfl

@[simp] theorem State.group_setGroup_same (s : State) (p g : Nat) (x : Group) : (s.setGroup p g x).group p g = x := by
  simp [State.group, State.setGroup, State.modPart_eq]

/-- A group with one more arrival, counted once. -/
def Group.arrive (x : Group) (n : Nat) : Group := { x with arrived := x.arrived.filter (· ≠ n) ++ [n] }

/-- An arrival is the last one where every other member has arrived before. -/
theorem Group.met_arrive (x : Group) (n : Nat) : (x.arrive n).met = true ↔ ∀ m ∈ x.members, m = n ∨ m ∈ x.arrived := by
  have harrived (m : Nat) : m ∈ (x.arrive n).arrived ↔ m = n ∨ m ∈ x.arrived := by
    by_cases h : m = n <;> simp [arrive, h]
  have hsome : (x.arrive n).arrived.isEmpty = false := by simp [arrive]
  simp only [met, hsome, Bool.not_false, Bool.true_and, allB_eq_true, List.contains_iff_mem, harrived]
  rfl

/-- A thread that is no member leaves nothing (R362). -/
theorem State.leaveGroup_of_not_mem {s : State} {n p g : Nat} (h : n ∉ (s.group p g).members) : s.leaveGroup n p g = s := by
  simp [State.leaveGroup, h]

/-! ### The outcomes of `join`, `leave` and `gbar` -/

section Outcomes
variable {s : State} {v : W64}

theorem exeJoin_far (b : BitVec 5) (h : 256 ≤ v.toNat) : exeJoin s v b = exeTrap s 0x04 v := if_pos h

theorem exeJoin_member (b : BitVec 5) (hv : v.toNat < 256) (hm : s.cur ∈ (s.group s.threadPart v.toNat).members) :
    exeJoin s v b = exePut s b (BitVec.ofNat 64 (s.group s.threadPart v.toNat).members.length) := by
  simp [exeJoin, hv, hm]

theorem exeJoin_full (b : BitVec 5) (hv : v.toNat < 256) (hm : s.cur ∉ (s.group s.threadPart v.toNat).members)
    (hg : s.thr.decl.groups ≤ (s.groupsOf s.cur).length) : exeJoin s v b = exeTrap s 0x0D v := by
  simp [exeJoin, hv, hm, hg]

theorem exeJoin_adds (b : BitVec 5) (hv : v.toNat < 256) (hm : s.cur ∉ (s.group s.threadPart v.toNat).members)
    (hg : (s.groupsOf s.cur).length < s.thr.decl.groups) :
    exeJoin s v b =
      let x := s.group s.threadPart v.toNat
      exePut (s.setGroup s.threadPart v.toNat { x with members := x.members ++ [s.cur] }) b
        (BitVec.ofNat 64 (x.members.length + 1)) := by
  simp [exeJoin, Nat.not_le.2 hv, Nat.not_le.2 hg, hm]

theorem exeLeave_far (h : 256 ≤ v.toNat) : exeLeave s v = exeTrap s 0x04 v := if_pos h

theorem exeLeave_near (h : v.toNat < 256) : exeLeave s v = .done (s.leaveGroup s.cur s.threadPart v.toNat) :=
  if_neg (Nat.not_le.2 h)

theorem exeGbar_far (h : 256 ≤ v.toNat) : exeGbar s v = exeTrap s 0x04 v := if_pos h

theorem exeGbar_stranger (hm : s.cur ∉ (s.group s.threadPart v.toNat).members) :
    exeGbar s v = exeTrap s 0x04 v := by
  simp [exeGbar, hm]

/-- A member that stands in a wait already arrives no second time. -/
theorem exeGbar_waiting {e : Nat} (hv : v.toNat < 256) (hm : s.cur ∈ (s.group s.threadPart v.toNat).members)
    (he : s.thr.gbar.get? (s.threadPart * 256 + v.toNat) = some e) :
    exeGbar s v =
      if (s.group s.threadPart v.toNat).episode = e then .turn s
      else .done (s.setThr { s.thr with gbar := s.thr.gbar.erase (s.threadPart * 256 + v.toNat) }) := by
  simp [exeGbar, hv, hm, he]

/-- A member that stands in no wait arrives: it passes where it is the last, and begins to wait elsewhere. -/
theorem exeGbar_arrives (hv : v.toNat < 256) (hm : s.cur ∈ (s.group s.threadPart v.toNat).members)
    (he : s.thr.gbar.get? (s.threadPart * 256 + v.toNat) = none) :
    exeGbar s v =
      let x := s.group s.threadPart v.toNat
      let t := s.setGroup s.threadPart v.toNat (x.arrive s.cur)
      if (x.arrive s.cur).met then .done (t.episode s.threadPart v.toNat)
      else .turn (t.setThr { s.thr with gbar := s.thr.gbar.set (s.threadPart * 256 + v.toNat) x.episode }) := by
  simp [exeGbar, hv, hm, he, Group.arrive]

end Outcomes

end Sys2Proof.Machine
end

section
open Sys2Proof Sys2Proof.Machine

/-- Settles O16: each clause is one outcome of the instruction's own part, and a `gbar` that arrives passes where its arrival is
the last of the members'. -/
theorem groupsMeet : Obligations.GroupsMeet := by
  unfold Obligations.GroupsMeet
  intro st c a b ju u no grp isIn put far arrive all' key fresh
  have hjoin (s : State) : exec (.join st a b) s = runInsn (.join st a b) st (fun s => exeJoin s (s.rs a) b) s := rfl
  have hleave (s : State) : exec (.leave st a) s = runInsn (.leave st a) st (fun s => exeLeave s (s.rs a)) s := rfl
  have hgbar (s : State) : exec (.gbar st a c) s = runInsn (.gbar st a c) st (fun s => exeGbar s (s.rs a)) s := rfl
  have hmet (s : State) : ((grp s).arrive s.cur).met = true ↔ all' s := (grp s).met_arrive s.cur
  refine ⟨?joinFar, ?leaveFar, ?gbarFar, ?joinMember, ?joinFull, ?joinAdds, ?leaveMember, ?leaveStranger, ?gbarStranger,
    ?gbarPasses, ?gbarArrives, ?gbarStays, ?gbarMoved⟩
  case joinFar => exact traps_of_body hjoin fun _ h => exeJoin_far b h
  case leaveFar => exact traps_of_body hleave fun _ h => exeLeave_far h
  case gbarFar => exact traps_of_body hgbar fun _ h => exeGbar_far h
  case joinMember => exact does_of_body hjoin fun _ ⟨hv, hm⟩ => exeJoin_member b hv hm
  case joinFull => exact traps_of_body hjoin fun _ ⟨hv, hm, hg⟩ => exeJoin_full b hv hm hg
  case joinAdds => exact does_of_body hjoin fun _ ⟨hv, hm, hg⟩ => exeJoin_adds b hv hm hg
  case leaveMember => exact does_of_body hleave fun _ ⟨hv, _⟩ => exeLeave_near hv
  case leaveStranger =>
    exact does_of_body hleave fun _ ⟨hv, hm⟩ => (exeLeave_near hv).trans (congrArg Exe.done (State.leaveGroup_of_not_mem hm))
  case gbarStranger => exact traps_of_body hgbar fun _ ⟨_, hm⟩ => exeGbar_stranger hm
  case gbarPasses =>
    exact does_of_body hgbar fun s ⟨hv, hm, he, hall⟩ => (exeGbar_arrives hv hm he).trans (if_pos ((hmet s).2 hall))
  case gbarArrives =>
    exact waits_of_body hgbar fun s ⟨hv, hm, he, hall⟩ => (exeGbar_arrives hv hm he).trans (if_neg (mt (hmet s).1 hall))
  case gbarStays =>
    exact fun e => waits_of_body hgbar fun _ ⟨hv, hm, he, hep⟩ => (exeGbar_waiting hv hm he).trans (if_pos hep)
  case gbarMoved =>
    exact fun e => does_of_body hgbar fun _ ⟨hv, hm, he, hep⟩ => (exeGbar_waiting hv hm he).trans (if_neg hep)

end

section
open Sys2Proof Sys2Proof.Laws.RoundTrip

/-- Settles O59: the law of each constructor, in the order of the table. -/
theorem decodeEncode : Obligations.DecodeEncode := by
  unfold Obligations.DecodeEncode
  intro i
  cases i
  exacts [
    add _ _ _ _, sub _ _ _ _, and _ _ _ _, or _ _ _ _, xor _ _ _ _, andn _ _ _ _, sll _ _ _ _, srl _ _ _ _, sra _ _ _ _,
    rol _ _ _ _, min _ _ _ _, max _ _ _ _, minn _ _ _ _, maxn _ _ _ _, slt _ _ _ _, sltn _ _ _ _, seq _ _ _ _, mul _ _ _ _,
    mulh _ _ _ _, mulhn _ _ _ _, clz _ _ _, ctz _ _ _, popc _ _ _, csel _ _ _ _, addi _ _ _ _, andi _ _ _ _, ori _ _ _ _,
    xori _ _ _ _, slli _ _ _ _, srli _ _ _ _, srai _ _ _ _, roli _ _ _ _, slti _ _ _ _, sltni _ _ _ _, li _ _ _, lext _ _ _,
    lea _ _ _, div _ _ _ _, divn _ _ _ _, rem _ _ _ _, remn _ _ _ _, ld _ _ _ _ _, st _ _ _ _ _, ldx _ _ _ _ _, stx _ _ _ _ _,
    ldacq _ _ _ _ _, strel _ _ _ _ _, amoAdd _ _ _ _ _ _, amoAdds _ _ _ _ _ _, amoAnd _ _ _ _ _ _, amoOr _ _ _ _ _ _,
    amoXor _ _ _ _ _ _, amoMin _ _ _ _ _ _, amoMax _ _ _ _ _ _, amoMinn _ _ _ _ _ _, amoMaxn _ _ _ _ _ _, amoSwap _ _ _ _ _ _,
    amoFadd _ _ _ _ _ _, cas _ _ _ _ _ _, fenceFull _ _, fenceAcq _ _, fenceRel _ _, fenceEng _ _, br _ _, call _ _, jr _ _ _ _,
    beq _ _ _ _, bne _ _ _ _, blt _ _ _ _, bge _ _ _ _, bltn _ _ _ _, bgen _ _ _ _, loop _ _ _, fadd _ _ _ _ _, fsub _ _ _ _ _,
    fmul _ _ _ _ _, fdiv _ _ _ _ _, fsqrt _ _ _ _, fmin _ _ _ _ _, fmax _ _ _ _ _, fcmp _ _ _ _ _ _, fcvt _ _ _ _ _,
    fmv _ _ _ _, fmvNeg _ _ _ _, fmvAbs _ _ _ _, fmvSgn _ _ _ _ _, ffma _ _ _ _ _ _, ffms _ _ _ _ _ _, ffnma _ _ _ _ _ _,
    ffnms _ _ _ _ _ _, csrr _ _ _, csrw _ _ _ _, csrs _ _ _ _, csrc _ _ _ _, trap _ _ _, eret _, wfe _ _ _, yield _, claim _,
    nop _, done _, doneErr _, etrig _ _, launch _ _ _, join _ _ _, leave _ _, gbar _ _ _, setlen _ _ _ _ _, vadd _ _ _ _ _,
    vsub _ _ _ _ _, vmul _ _ _ _ _, vdiv _ _ _ _ _, vmin _ _ _ _ _, vmax _ _ _ _ _, vabs _ _ _ _, vneg _ _ _ _, vsqrt _ _ _ _,
    vrsq _ _ _ _, vrcp _ _ _ _, vexp2 _ _ _ _, vclass _ _ _ _, vfma _ _ _ _ _, vfms _ _ _ _ _, vfnma _ _ _ _ _, vfnms _ _ _ _ _,
    viadd _ _ _ _ _, visub _ _ _ _ _, vimul _ _ _ _ _, vimulh _ _ _ _ _, vand _ _ _ _ _, vor _ _ _ _ _, vxor _ _ _ _ _,
    vsll _ _ _ _ _, vsrl _ _ _ _ _, vsra _ _ _ _ _, vimin _ _ _ _ _, vimax _ _ _ _ _, vminn _ _ _ _ _, vmaxn _ _ _ _ _,
    viadds _ _ _ _ _, visubs _ _ _ _ _, vmadd _ _ _ _ _, vmsub _ _ _ _ _, vmmul _ _ _ _ _, vmred _ _ _ _, vcmp _ _ _ _ _ _,
    mand _ _ _ _, mor _ _ _ _, mxor _ _ _ _, mandn _ _ _ _, mnot _ _ _, mpopc _ _ _ _, mfirst _ _ _ _, mset _ _ _,
    vcvt _ _ _ _ _ _, vredsum _ _ _ _ _, vredsumo _ _ _ _ _, vredmax _ _ _ _ _, vredmin _ _ _ _ _, vredand _ _ _ _ _,
    vredor _ _ _ _ _, vperm _ _ _ _ _, vslup _ _ _ _ _, vsldn _ _ _ _ _, vmerge _ _ _ _ _, vcompress _ _ _ _, vexpand _ _ _ _,
    viota _ _ _, vbcast _ _ _ _, vextract _ _ _ _, vxch _ _ _ _, vxchRot _ _ _ _, vld _ _ _ _, vlds _ _ _ _ _, vldx _ _ _ _ _ _,
    vldxa _ _ _ _ _ _, vst _ _ _ _, vsts _ _ _ _ _, vstx _ _ _ _ _ _, vstxa _ _ _ _ _ _, vappend _ _ _ _ _ _, vq4dq _ _ _ _ _,
    vq4q _ _ _ _ _, cfgload _ _ _, cfgsel _ _ _ _, cfgck _ _ _, gresume _ _, gdrain _ _, gquery _ _ _ _, strm _ _ _ _ _ _ _,
    start _ _ _ _, ctok _ _ _, sbarCfg _, sbarStrm _, sbarMem _ _, sbarCond _ _ _, swait _ _ _ _, tokq _ _ _ _ _, qarm _ _ _,
    qdisarm _ _ _, copy _ _ _ _ _ _, drain _ _ _ _, rld _ _ _ _ _ _, rst _ _ _ _ _ _ _ _, ramoInv _ _ _ _ _ _,
    ramoBegin _ _ _ _ _ _, ramoBody _ _ _ _ _ _, ramoValid _ _ _ _ _ _, ramoClear _ _ _ _ _ _, rfadd _ _ _ _ _ _, tokwait _ _ _,
    tlbinv _ _ _ _ _, tlbsync _, tailpWrite _ _ _, qstatWrite _ _ _, pcmkWrite _ _ _, pasidWrite _ _, registerWrite _ _,
    asidRootEntryWrite _ _ _, imapWrite _ _, rchkWrite _, rgoWrite _, vregImageWrite _ _ _ _, lintelHostAccess _ _ _ _,
    attestationRequest _, pcapUpdate _ _, append _ _, jobActivate _ _, iterationDispatch _ _, steal _ _, agingTimerExpiry _ _,
    earlyTrigger _, jobRetire _, progcAdvance _ _, partitionSwitchOut _, partitionSwitchIn _, templateFire _,
    templateGraphComplete _, tokenArrival _ _, tokenFiringComplete _, engineMessageAccept _ _, reply _, copyAccept _,
    copyPiece _, copyComplete _, streamAccept _ _, streamBeatIn _ _, streamTokenOut _ _, tokenHop _ _ _, brickFiring _ _,
    controlTokenArrival _ _, controlTokenDeliver _, nodeEnd _ _, tileAccess _ _, tileRmwFiring _ _, spillOut _ _ _,
    spillReturn _ _ _, positionWake _ _, backstopStall _, cfgloadComplete _ _, cfgselTakeEffect _ _, runBegin _ _,
    barrierComplete _, powerGrant _, grantOfferLower _, engineFrame _, passEnd _, weightRowLoad _ _, weightFault _,
    weightStepSwap _, refreshRowGroup _ _, stackHeartbeat _, refreshTakeover _, cxlEnumeration _ _, invalidationReceive _ _,
    parkedAccessResolve _ _ _, trapEntry _, preemptionRequest _ _, forcedSwitchTimeout _, scapTimeout _, fullSwitch _,
    contextRestore _, sliceDetach _ _, dieReset _, quiesceAck _ _, dieReturn _, courseGate _ _, packageStandby, packageParked,
    wake _, powerOnBoot, linkKeyExchange _ _ _, rekeyCounterLimit _ _, flitReceive _ _, flitReplay _ _, linkRetrain _,
    portDown _, remoteOpAtTarget _, translationRequest _, targetInvalidation _, switchCombine _ _ _, combinedReplySplit _ _,
    handlerInvocation _, handlerHoldExpiry _, dependentStoreArrival _, landedRecord _, watchArrival _, watchAnswer _,
    watchResend _, watchEntryDrop _, heldStoreExpiry _, remoteStoreCompletion _, gatewayMeterWindow _, stackManagerReset _,
    managementPortRetrain _, positionClockGate _ _, wfeLimitExpiry _, tokwaitWatchTimeout _, targetPackageReset _,
    landedEntryAging _]

end

section
/-! SUPPORT. The end of a step (log 3): it changes aging timers, quiet counts, waiting threads and idle times beside the memory
it commits to, so every byte reads after the step as it did within it; and bytes stored within a step read back (R5, R148). -/

namespace Sys2Proof.Machine

/-! ### What the end of a step changes -/

theorem State.ageQueues_eq (s : State) : ∃ ps, s.ageQueues = { s with parts := ps } := by
  unfold State.ageQueues
  generalize s.agingQueues = l
  induction l generalizing s with
  | nil => exact ⟨s.parts, rfl⟩
  | cons pq r ih =>
    obtain ⟨ps, h⟩ := ih (s.modQueue pq.1 pq.2 fun x => match x.ageSince with
      | some t => if (s.qctl pq.1 pq.2).agen && s.queueHasWork pq.1 pq.2 then x
        else { x with aged := x.aged + (s.now - t), ageSince := none }
      | none => if (s.qctl pq.1 pq.2).agen && s.queueHasWork pq.1 pq.2 then { x with ageSince := some s.now } else x)
    exact ⟨ps, h⟩

theorem State.seenWrites_eq (l : List Host.Cell) (s : State) :
    ∃ ss, l.foldl (fun u c => u.seenWrite c.1 1) s = { s with slots := ss } := by
  induction l generalizing s with
  | nil => exact ⟨s.slots, rfl⟩
  | cons c r ih => exact ih (s.seenWrite c.1 1)

theorem State.close_eq (s t : State) : ∃ ps rs is ss, s.close t =
    { t with
      parts := ps, runs := rs, idleSince := is, slots := ss, mem := commitStores s.mem t.stores, stores := [] } := by
  obtain ⟨ps, hp⟩ := t.ageQueues_eq
  unfold State.close
  rw [hp]
  obtain ⟨ss, hs⟩ := State.seenWrites_eq t.stores _
  exact ⟨_, _, _, ss, hs⟩

@[simp] theorem State.close_mem (s t : State) : (s.close t).mem = commitStores s.mem t.stores := by
  obtain ⟨_, _, _, _, h⟩ := s.close_eq t; rw [h]
@[simp] theorem State.close_stores (s t : State) : (s.close t).stores = [] := by
  obtain ⟨_, _, _, _, h⟩ := s.close_eq t; rw [h]
@[simp] theorem State.close_imap (s t : State) : (s.close t).imap = t.imap := by
  obtain ⟨_, _, _, _, h⟩ := s.close_eq t; rw [h]
@[simp] theorem State.close_cxlcap (s t : State) : (s.close t).cxlcap = t.cxlcap := by
  obtain ⟨_, _, _, _, h⟩ := s.close_eq t; rw [h]

/-- However a step ended, its end is sound where its beginning was. -/
theorem State.close_inv {s : State} (t : State) (h : s.Inv) : (s.close t).Inv :=
  ⟨by rw [State.close_mem]; exact commitStores_wf h.1 _, State.close_stores s t⟩

theorem State.closeOut_inv {s t : State} {o : Out} (h : s.Inv) (ho : s.closeOut o = .next t) : t.Inv := by
  cases o with
  | next u => cases ho; exact State.close_inv u h
  | fault r => cases ho
  | refused r => cases ho

/-- Every step ends by `closeOut` of the state it began at: at once, after a fetch, or by whether an event has a word. -/
theorem step_eq_closeOut (s : State) : ∃ o, step s = s.closeOut o := by
  unfold step
  rcases s.nextAction with ⟨a, t⟩
  cases a with
  | issue n dt => dsimp only; split; exacts [⟨.next _, rfl⟩, ⟨_, rfl⟩]
  | event e dt => dsimp only; split; exacts [⟨.next _, rfl⟩, ⟨_, rfl⟩]
  | begin n dt => dsimp only; split <;> exact ⟨.next _, rfl⟩
  | park n va dt => dsimp only; split <;> exact ⟨.next _, rfl⟩
  | _ => exact ⟨.next _, rfl⟩

theorem step_inv {s t : State} (h : s.Inv) (hs : step s = .next t) : t.Inv := by
  obtain ⟨o, ho⟩ := step_eq_closeOut s
  exact State.closeOut_inv h (ho ▸ hs)

/-! ### Places of memory are one-to-one (R287, R296) -/

theorem State.hbmLoc_lt (s : State) {pa : Nat} (h : pa < 0x8000000000) : s.hbmLoc pa < 0x8000000000 := by
  obtain ⟨hstack, hchannel, hoffset⟩ := s.hbmParts_lt pa
  rw [s.hbmLoc_eq h]
  omega

theorem windowPlace_ram {n off pa loc : Nat} (h : windowPlace n off pa = .ram loc) : loc = pa := by
  unfold windowPlace at h
  split_ifs at h
  cases h; rfl

theorem mgmtPlace_ne_ram {off loc : Nat} : mgmtPlace off ≠ .ram loc := by
  unfold mgmtPlace
  split <;> simp

/-- Memory at an address beyond HBM has the address for its location. -/
theorem State.placeOf_ram_beyond {s : State} {pa loc : Nat} (h : 0x8000000000 ≤ pa) (hp : s.placeOf pa = .ram loc) : loc = pa := by
  simp only [State.placeOf, if_neg (Nat.not_lt.2 h)] at hp
  split_ifs at hp
  · exact (Place.ram.inj hp).symm
  · exact (Place.ram.inj hp).symm
  · exact windowPlace_ram hp
  · exact absurd hp mgmtPlace_ne_ram

theorem State.placeOf_hbm (s : State) {pa : Nat} (h : pa < 0x8000000000) : s.placeOf pa = .ram (s.hbmLoc pa) := if_pos h

/-- Two addresses that share a location of memory are the same. -/
theorem State.placeOf_ram_inj {s : State} {pa qa loc : Nat} (hp : s.placeOf pa = .ram loc) (hq : s.placeOf qa = .ram loc) :
    pa = qa := by
  have hbm {a : Nat} (ha : a < 0x8000000000) (h : s.placeOf a = .ram loc) : loc = s.hbmLoc a := by
    rw [s.placeOf_hbm ha] at h; cases h; rfl
  rcases lt_or_ge pa 0x8000000000 with h | h <;> rcases lt_or_ge qa 0x8000000000 with g | g
  · exact s.hbmLoc_inj h g (by rw [← hbm h hp, ← hbm g hq])
  · have := s.hbmLoc_lt h; rw [← hbm h hp, State.placeOf_ram_beyond g hq] at this; omega
  · have := s.hbmLoc_lt g; rw [← hbm g hq, State.placeOf_ram_beyond h hp] at this; omega
  · rw [← State.placeOf_ram_beyond h hp, State.placeOf_ram_beyond g hq]

/-! ### Bytes within a step -/

theorem State.physByte_eq_of_place {s t : State} {pa : Nat} (hp : t.placeOf pa = s.placeOf pa)
    (hb : ∀ loc, s.placeOf pa = .ram loc → t.byteAt loc = s.byteAt loc) : t.physByte pa = s.physByte pa := by
  unfold State.physByte
  rw [hp]
  split
  · next loc h => exact hb loc h
  · rfl

/-- A run of bytes stored leaves what every byte at another place reads (R148). -/
theorem State.physByte_writePhys_ne {s : State} {pa n qa : Nat} (v : Nat) (h : ∀ i, i < n → s.placeOf (pa + i) ≠ s.placeOf qa) :
    (s.writePhys pa v n).physByte qa = s.physByte qa := by
  have hplace : (s.writePhys pa v n).placeOf qa = s.placeOf qa := by
    clear h
    induction n generalizing s pa v with
    | zero => rfl
    | succ n ih => rw [State.writePhys, ih, State.placeOf_writePhysByte]
  exact State.physByte_eq_of_place hplace fun loc hq => State.byteAt_writePhys_ne loc n s pa v fun i hi e => h i hi (e.trans hq.symm)

theorem State.physByte_writePhysByte_same {s : State} {pa loc : Nat} (b : Byte) (h : s.placeOf pa = .ram loc) :
    (s.writePhysByte pa b).physByte pa = b := by
  simp only [State.physByte, State.placeOf_writePhysByte, h]
  simp only [State.writePhysByte, h, State.byteAt_putByte_same]

/-- Bytes stored where all of them are memory give their value again, little-endian (R5). -/
theorem State.readPhys_writePhys_same {s : State} {pa v n : Nat} (h : ∀ i, i < n → ∃ loc, s.placeOf (pa + i) = .ram loc) :
    (s.writePhys pa v n).readPhys pa n = v % 256 ^ n := by
  induction n generalizing s pa v with
  | zero => simp [State.readPhys, Nat.mod_one]
  | succ n ih =>
    obtain ⟨loc, hl⟩ : ∃ loc, s.placeOf pa = .ram loc := h 0 (by omega)
    have hrest (i : Nat) (hi : i < n) :
        ∃ l, (s.writePhysByte pa (BitVec.ofNat 8 v)).placeOf (pa + 1 + i) = .ram l := by
      obtain ⟨l, hl⟩ := h (i + 1) (by omega)
      exact ⟨l, by rw [State.placeOf_writePhysByte, ← hl]; congr 1; omega⟩
    have hfirst : (s.writePhys pa v (n + 1)).physByte pa = BitVec.ofNat 8 v := by
      rw [State.writePhys, State.physByte_writePhys_ne _ fun i hi e => ?_, State.physByte_writePhysByte_same _ hl]
      obtain ⟨l, hi'⟩ := hrest i hi
      have := State.placeOf_ram_inj hi' (e ▸ hi')
      omega
    rw [State.readPhys, hfirst, State.writePhys, ih hrest, BitVec.toNat_ofNat, pow_succ' 256]
    exact Nat.mod_mul.symm

/-- In a sound memory every byte reads after a step as it did within it. -/
theorem State.physByte_close {s t : State} (hm : t.mem = s.mem) (h : Memory.wf s.mem = true) (pa : Nat) :
    (s.close t).physByte pa = t.physByte pa := by
  refine State.physByte_eq_of_place (State.placeOf_congr (by simp) (by simp) pa) fun loc _ => ?_
  simp only [State.byteAt, State.close_stores, State.close_mem, cellAt, cellAt_commitStores h, hm] <;> rfl

end Sys2Proof.Machine
end

section
open Sys2Proof Sys2Proof.Machine

/-- Settles O60: every step ends by committing what it stored to the memory it began with. -/
theorem stepKeepsInv : Obligations.StepKeepsInv := by
  unfold Obligations.StepKeepsInv
  exact fun _ _ => step_inv

/-- Settles O19: places of memory are one-to-one, so a stored byte is hidden by no later one of its run. -/
theorem storesReadBack : Obligations.StoresReadBack := by
  unfold Obligations.StoresReadBack
  intro s t pa v n
  exact ⟨State.readPhys_writePhys_same, fun _ => State.physByte_writePhys_ne v,
    fun hm h => ⟨State.physByte_close hm h, by rw [State.close_mem]; exact commitStores_wf h _, State.close_stores s t⟩⟩

end

section
/-! SUPPORT. The values of the integer instructions (R140, R144) as the rules spell them: minimum and maximum, rotation, division
and remainder, and the three counts of bits. -/

namespace Sys2Proof.Machine

/-! ### Minimum, maximum and rotation (R140) -/

theorem ite_lt_eq_ite_le {α : Type} [LinearOrder α] {x y : α} {p q : W64} (h : x = y → p = q) :
    (if x < y then p else q) = if x ≤ y then p else q := by
  rcases lt_trichotomy x y with hlt | rfl | hgt
  · rw [if_pos hlt, if_pos hlt.le]
  · simp [h rfl]
  · rw [if_neg hgt.not_gt, if_neg hgt.not_ge]

theorem minS_eq (x y : W64) : minS x y = if x.toInt ≤ y.toInt then x else y := by
  simp only [minS, BitVec.slt_iff_toInt_lt]
  exact ite_lt_eq_ite_le BitVec.toInt_inj.1

theorem maxS_eq (x y : W64) : maxS x y = if x.toInt ≤ y.toInt then y else x := by
  simp only [maxS, BitVec.slt_iff_toInt_lt]
  exact ite_lt_eq_ite_le fun h => (BitVec.toInt_inj.1 h).symm

theorem minU_eq (x y : W64) : minU x y = if x.toNat ≤ y.toNat then x else y := by
  simp only [minU, BitVec.ult_iff_toNat_lt]
  exact ite_lt_eq_ite_le BitVec.toNat_inj.1

theorem maxU_eq (x y : W64) : maxU x y = if x.toNat ≤ y.toNat then y else x := by
  simp only [maxU, BitVec.ult_iff_toNat_lt]
  exact ite_lt_eq_ite_le fun h => (BitVec.toNat_inj.1 h).symm

theorem rotateLeft_amt (x y : W64) :
    x.rotateLeft (amt y) = (x <<< (y.toNat % 64)) ||| (x >>> (64 - y.toNat % 64)) := by
  rw [BitVec.rotateLeft_def, amt, Nat.mod_mod]

theorem bit1_beq (x y : W64) : bit1 (x == y) = if x = y then 1#64 else 0#64 := by
  simp [bit1]

/-! ### Division (R144) -/

theorem toNat_eq_zero_iff (y : W64) : y.toNat = 0 ↔ y = 0#64 := BitVec.toNat_inj (y := 0#64)
theorem toInt_eq_zero_iff (y : W64) : y.toInt = 0 ↔ y = 0#64 := BitVec.toInt_inj (y := 0#64)

theorem divS_eq (x y : W64) :
    divS x y = if y.toInt = 0 then BitVec.allOnes 64 else BitVec.ofInt 64 (x.toInt.tdiv y.toInt) := by
  simp only [divS, toInt_eq_zero_iff]
  congr 1
  exact BitVec.eq_of_toInt_eq (by rw [BitVec.toInt_sdiv, BitVec.toInt_ofInt])

theorem divU_eq (x y : W64) :
    divU x y = if y.toNat = 0 then BitVec.allOnes 64 else BitVec.ofNat 64 (x.toNat / y.toNat) := by
  simp only [divU, toNat_eq_zero_iff]
  congr 1
  exact BitVec.eq_of_toNat_eq (by simp [Nat.mod_eq_of_lt (lt_of_le_of_lt (Nat.div_le_self _ _) x.isLt)])

theorem remS_eq (x y : W64) : remS x y = if y.toInt = 0 then x else BitVec.ofInt 64 (x.toInt.tmod y.toInt) := by
  simp only [remS, toInt_eq_zero_iff]
  congr 1
  rw [← BitVec.toInt_srem, BitVec.ofInt_toInt]

theorem remU_eq (x y : W64) : remU x y = if y.toNat = 0 then x else BitVec.ofNat 64 (x.toNat % y.toNat) := by
  simp only [remU, toNat_eq_zero_iff]
  congr 1
  exact BitVec.eq_of_toNat_eq (by simp [Nat.mod_eq_of_lt (lt_of_le_of_lt (Nat.mod_le _ _) x.isLt)])

/-! ### Counts of bits (R140) -/

/-- A number whose highest set bit is bit `k` has `k + 1` bits. -/
theorem bitLen_eq {x k : Nat} (hk : x.testBit k = true) (hz : ∀ j, k < j → x.testBit j = false) : bitLen x = k + 1 := by
  have hge := Nat.ge_two_pow_of_testBit hk
  have hx : x ≠ 0 := by have := Nat.two_pow_pos k; omega
  rw [bitLen, if_neg hx, (Nat.log2_eq_iff hx).2 ⟨hge, Nat.lt_pow_two_of_testBit x fun j hj => hz j hj⟩]

/-- The search finds the first index that is admitted. -/
theorem findFrom_eq_some {p : Nat → Bool} {k : Nat} (hk : p k = true) :
    ∀ {n lo : Nat}, lo ≤ k → k < lo + n → (∀ j, lo ≤ j → j < k → p j = false) → findFrom p lo n = some k
  | 0, _, hlo, hhi, _ => by omega
  | n + 1, lo, hlo, hhi, hz => by
    rcases hlo.eq_or_lt with rfl | hlt
    · simp [findFrom, hk]
    · rw [findFrom, hz lo le_rfl hlt, if_neg Bool.false_ne_true]
      exact findFrom_eq_some hk hlt (by omega) fun j hj => hz j (by omega)

/-- Setting a bit that is clear counts one more, once the count reaches it. -/
theorem popCount_setBit {x k : Nat} (hk : x.testBit k = false) :
    ∀ n, popCount (x ||| 2 ^ k) n = popCount x n + if k < n then 1 else 0
  | 0 => rfl
  | n + 1 => by
    rw [popCount, popCount, popCount_setBit hk n, Nat.testBit_or, Nat.testBit_two_pow]
    rcases Nat.lt_trichotomy k n with h | rfl | h
    · simp [b2n, h.ne, h, h.le]; omega
    · simp [b2n, hk]
    · simp [b2n, h.ne', Nat.lt_asymm h, show ¬ k < n + 1 by omega]

theorem clz64_eq {x : W64} {n : Nat} (hn : n < 64) (hx : x.getLsbD (63 - n) = true)
    (hz : ∀ j, j < n → x.getLsbD (63 - j) = false) : clz64 x = BitVec.ofNat 64 n := by
  have hlen : bitLen x.toNat = 63 - n + 1 := bitLen_eq hx fun j hj => by
    by_cases h : j < 64
    · have := hz (63 - j) (by omega)
      rwa [show 63 - (63 - j) = j by omega] at this
    · exact BitVec.getLsbD_of_ge x j (by omega)
  rw [clz64, hlen]
  congr 1
  omega

theorem ctz64_eq {x : W64} {n : Nat} (hn : n < 64) (hx : x.getLsbD n = true) (hz : ∀ j, j < n → x.getLsbD j = false) :
    ctz64 x = BitVec.ofNat 64 n := by
  rw [ctz64, findFrom_eq_some (p := fun i => x.toNat.testBit i) hx (by omega) (by omega) fun j _ => hz j]
  rfl

theorem popc64_setBit {x : W64} {n : Nat} (hn : n < 64) (hx : x.getLsbD n = false) :
    popc64 (x ||| BitVec.twoPow 64 n) = popc64 x + 1#64 := by
  have hbit : (x ||| BitVec.twoPow 64 n).toNat = x.toNat ||| 2 ^ n := by
    rw [BitVec.toNat_or, BitVec.toNat_twoPow_of_lt hn]
  rw [popc64, popc64, hbit, popCount_setBit hx, if_pos hn, BitVec.ofNat_add]

/-! ### Interlocked results (R119) -/

/-- A body that is one interlocked write, of a value `v'` that the claim spells `v`. -/
theorem returns_of_body {i : Instr} {st : BitVec 3} {u : Uses} {d : BitVec 5} {v v' : State → W64}
    (hx : ∀ s, exec i s = runInsn i st (fun s => exePut s d (v' s)) s) (hv : ∀ s, v' s = v s)
    (hu : ∀ x, usesOf x i = u := by intro x; rfl) : Returns i u st d v :=
  does_of_body hx (fun s _ => by rw [exePut, hv]) hu

end Sys2Proof.Machine
end

section
open Sys2Proof Sys2Proof.Machine

/-- Settles O1: each body is one write at its latency, its value spelled as R140's table does. -/
theorem integerRegisterOperations : Obligations.IntegerRegisterOperations := by
  unfold Obligations.IntegerRegisterOperations
  intro st d a b r2 r1 rm
  refine ⟨?add, ?sub, ?and, ?or, ?xor, ?andn, ?sll, ?srl, ?sra, ?rol, ?min, ?max, ?minn, ?maxn, ?slt, ?sltn, ?seq, ?mul, ?mulh,
    ?mulhn, ?clz, ?ctz, ?popc, ?csel⟩
  case add => exact lands_of_body (fun s => Eq.refl (execAdd st d a b s)) fun _ => rfl
  case sub => exact lands_of_body (fun s => Eq.refl (execSub st d a b s)) fun _ => rfl
  case and => exact lands_of_body (fun s => Eq.refl (execAnd st d a b s)) fun _ => rfl
  case or => exact lands_of_body (fun s => Eq.refl (execOr st d a b s)) fun _ => rfl
  case xor => exact lands_of_body (fun s => Eq.refl (execXor st d a b s)) fun _ => rfl
  case andn => exact lands_of_body (fun s => Eq.refl (execAndn st d a b s)) fun _ => rfl
  case sll => exact lands_of_body (fun s => Eq.refl (execSll st d a b s)) fun _ => rfl
  case srl => exact lands_of_body (fun s => Eq.refl (execSrl st d a b s)) fun _ => rfl
  case sra => exact lands_of_body (fun s => Eq.refl (execSra st d a b s)) fun _ => rfl
  case rol => exact lands_of_body (fun s => Eq.refl (execRol st d a b s)) fun _ => rotateLeft_amt _ _
  case min => exact lands_of_body (fun s => Eq.refl (execMin st d a b s)) fun _ => minS_eq _ _
  case max => exact lands_of_body (fun s => Eq.refl (execMax st d a b s)) fun _ => maxS_eq _ _
  case minn => exact lands_of_body (fun s => Eq.refl (execMinn st d a b s)) fun _ => minU_eq _ _
  case maxn => exact lands_of_body (fun s => Eq.refl (execMaxn st d a b s)) fun _ => maxU_eq _ _
  case slt => exact lands_of_body (fun s => Eq.refl (execSlt st d a b s)) fun _ => bit1_slt _ _
  case sltn => exact lands_of_body (fun s => Eq.refl (execSltn st d a b s)) fun _ => bit1_ult _ _
  case seq => exact lands_of_body (fun s => Eq.refl (execSeq st d a b s)) fun _ => bit1_beq _ _
  case mul => exact lands_of_body (fun s => Eq.refl (execMul st d a b s)) fun _ => rfl
  case mulh => exact lands_of_body (fun s => Eq.refl (execMulh st d a b s)) fun _ => rfl
  case mulhn => exact lands_of_body (fun s => Eq.refl (execMulhn st d a b s)) fun _ => rfl
  case clz => exact lands_of_body (fun s => Eq.refl (execClz st d a s)) fun _ => rfl
  case ctz => exact lands_of_body (fun s => Eq.refl (execCtz st d a s)) fun _ => rfl
  case popc => exact lands_of_body (fun s => Eq.refl (execPopc st d a s)) fun _ => rfl
  case csel => exact lands_of_body (fun s => Eq.refl (execCsel st d a b s)) fun _ => rfl

/-- Settles O2: the highest set bit gives the length, the search finds the lowest, and each set bit counts once. -/
theorem countingBits : Obligations.CountingBits := by
  unfold Obligations.CountingBits
  exact ⟨by decide, fun _ _ => clz64_eq, fun _ _ => ctz64_eq, fun _ _ => popc64_setBit⟩

/-- Settles O4: each body is one interlocked write, its value the truncated quotient or remainder with R144's corners. -/
theorem division : Obligations.Division := by
  unfold Obligations.Division
  intro st d a b u r
  refine ⟨?div, ?divn, ?rem, ?remn⟩
  case div => exact returns_of_body (fun s => Eq.refl (execDiv st d a b s)) fun _ => divS_eq _ _
  case divn => exact returns_of_body (fun s => Eq.refl (execDivn st d a b s)) fun _ => divU_eq _ _
  case rem => exact returns_of_body (fun s => Eq.refl (execRem st d a b s)) fun _ => remS_eq _ _
  case remn => exact returns_of_body (fun s => Eq.refl (execRemn st d a b s)) fun _ => remU_eq _ _

end

section
/-! SUPPORT. Scalar floating point (R154 to R157): what an instruction that rounds by FRM comes to under a mode and under a
reserved code (R54), and the sign operations as arithmetic on the operand's bits (R155). -/

namespace Sys2Proof.Machine

/-! ### Rounding by FRM (R53, R54, R56) -/

theorem Rm.ofCode_eq_none {c : Nat} (h : 6 ≤ c) : Rm.ofCode c = none := by
  unfold Rm.ofCode
  split <;> first | rfl | omega

/-- A scalar instruction is element 0: its counter is SBASE (R56). -/
theorem Slot.srAt_zero (x : Slot) : x.srAt 0 = srBits (x.csrv csrSEED) (x.csrv csrSBASE) := by
  simp [Slot.srAt]

section Rounds
variable {s : State} {lat : Option Nat} {d : BitVec 5} {f : Rm → Nat → Nat × Flags}

theorem exeFp_reserved (h : s.thr.rm = none) : exeFp s lat d f = exeTrap s 0x04 (s.thr.csrv csrFRM) := by
  simp [exeFp, h]

theorem exeFp_lands {l : Nat} {m : Rm} (h : s.thr.rm = some m) :
    exeFp s (some l) d f =
      let r := f m (srBits (s.thr.csrv csrSEED) (s.thr.csrv csrSBASE))
      .done ((s.raise r.2).later l d (BitVec.ofNat 64 r.1)) := by
  simp [exeFp, h, Slot.srAt_zero, exeLater]

theorem exeFp_returns {m : Rm} (h : s.thr.rm = some m) :
    exeFp s none d f =
      let r := f m (srBits (s.thr.csrv csrSEED) (s.thr.csrv csrSBASE))
      exePut (s.raise r.2) d (BitVec.ofNat 64 r.1) := by
  simp [exeFp, h, Slot.srAt_zero]

end Rounds

section Claims
variable {i : Instr} {st : BitVec 3} {u : Uses} {d : BitVec 5} {f : State → Rm → Nat → Nat × Flags}
  {v : Rm → State → Nat × Flags}

/-- An instruction that rounds takes trap 0x04 under a reserved mode. -/
theorem traps_of_fp {lat : Option Nat} (hx : ∀ s, exec i s = runInsn i st (fun s => exeFp s lat d (f s)) s)
    (hu : ∀ x, usesOf x i = u := by intro x; rfl) :
    Traps i u (fun s => 6 ≤ (s.thr.csrv csrFRM).toNat % 8) id fun s => { cause := 0x04, tval := s.thr.csrv csrFRM } :=
  traps_of_body hx (fun _ h => exeFp_reserved (Rm.ofCode_eq_none h)) hu

/-- A result that rounds and lands late, with its flags, and the trap of a reserved mode. -/
theorem lands_of_fp {lat : Nat} (hx : ∀ s, exec i s = runInsn i st (fun s => exeFp s (some lat) d (f s)) s)
    (hv : ∀ m s, f s m (srBits (s.thr.csrv csrSEED) (s.thr.csrv csrSBASE)) = v m s := by intro m s; rfl)
    (hu : ∀ x, usesOf x i = u := by intro x; rfl) :
    (∀ m, Does i u st (fun s => Rm.ofCode ((s.thr.csrv csrFRM).toNat % 8) = some m) fun s =>
      (s.raise (v m s).2).later lat d (BitVec.ofNat 64 (v m s).1))
    ∧ Traps i u (fun s => 6 ≤ (s.thr.csrv csrFRM).toNat % 8) id fun s => { cause := 0x04, tval := s.thr.csrv csrFRM } :=
  ⟨fun _ => does_of_body hx (fun s h => by rw [exeFp_lands h, hv]) hu, traps_of_fp hx hu⟩

/-- A result that rounds and is interlocked, with its flags, and the trap of a reserved mode. -/
theorem returns_of_fp (hx : ∀ s, exec i s = runInsn i st (fun s => exeFp s none d (f s)) s)
    (hv : ∀ m s, f s m (srBits (s.thr.csrv csrSEED) (s.thr.csrv csrSBASE)) = v m s := by intro m s; rfl)
    (hu : ∀ x, usesOf x i = u := by intro x; rfl) :
    (∀ m, Does i u st (fun s => Rm.ofCode ((s.thr.csrv csrFRM).toNat % 8) = some m) fun s =>
      let t := s.raise (v m s).2
      t.setThr (t.thr.putS d.toNat (BitVec.ofNat 64 (v m s).1)))
    ∧ Traps i u (fun s => 6 ≤ (s.thr.csrv csrFRM).toNat % 8) id fun s => { cause := 0x04, tval := s.thr.csrv csrFRM } :=
  ⟨fun _ => does_of_body hx (fun s h => by rw [exeFp_returns h, hv]; rfl) hu, traps_of_fp hx hu⟩

/-- An exact result, of a value and flags `r'` that the claim spells `r`. -/
theorem does_of_fpExact {r r' : State → Nat × Flags} (hx : ∀ s, exec i s = runInsn i st (fun s => exeFpExact s d (r' s)) s)
    (hr : ∀ s, r' s = r s := by intro s; rfl) (hu : ∀ x, usesOf x i = u := by intro x; rfl) :
    Does i u st always fun s => (s.raise (r s).2).later 6 d (BitVec.ofNat 64 (r s).1) :=
  does_of_body hx (fun s _ => by rw [exeFpExact, exeLater, hr]) hu

end Claims

theorem b2n_eq_toNat (b : Bool) : b2n b = b.toNat := by cases b <;> rfl

/-! ### The sign bit of an operand (R155) -/

theorem Fmt.two_pow_width (f : Fmt) : 2 ^ f.width = 2 * 2 ^ (f.width - 1) := (pow_succ' 2 (f.frac + f.expBits)).trans rfl

/-- An operand of `f`'s width is its sign bit over its magnitude. -/
theorem Fmt.b2n_signOf {f : Fmt} {w : Nat} (h : w < 2 ^ f.width) : b2n (f.signOf w) = w / 2 ^ (f.width - 1) := by
  have hlt : w / 2 ^ (f.width - 1) < 2 := Nat.div_lt_of_lt_mul (by rwa [mul_comm, ← f.two_pow_width])
  rw [signOf, b2n, Nat.testBit_eq_decide_div_mod_eq, Nat.mod_eq_of_lt hlt]
  generalize w / 2 ^ (f.width - 1) = b at hlt ⊢
  interval_cases b <;> rfl

theorem Fmt.withSign_signOf {f : Fmt} {w : Nat} (h : w < 2 ^ f.width) : f.withSign (f.signOf w) w = w := by
  rw [withSign, b2n_signOf h, mul_comm]
  exact Nat.mod_add_div _ _

/-- Adding half the range flips the sign bit. -/
theorem Fmt.withSign_not_signOf {f : Fmt} {w : Nat} (h : w < 2 ^ f.width) :
    f.withSign (!f.signOf w) w = (w + 2 ^ (f.width - 1)) % 2 ^ f.width := by
  have hsum := withSign_signOf h
  rw [two_pow_width] at h ⊢
  rw [withSign] at hsum ⊢
  generalize 2 ^ (f.width - 1) = half at *
  have hpos : w % half < half := Nat.mod_lt _ (by omega)
  cases hs : f.signOf w <;> simp only [hs, b2n, Bool.not_true, Bool.not_false, if_true, if_false, Bool.false_eq_true] at hsum ⊢
  · rw [Nat.mod_eq_of_lt (a := w + half) (by omega)]; omega
  · rw [Nat.mod_eq_sub_mod (a := w + half) (by omega), Nat.mod_eq_of_lt (a := w + half - _) (by omega)]; omega

theorem Fmt.withSign_false (f : Fmt) (w : Nat) : f.withSign false w = w % 2 ^ (f.width - 1) := by
  simp [withSign, b2n]

theorem fpOperand_lt (f : Fmt) (v : W64) : fpOperand f v < 2 ^ f.width := Nat.mod_lt _ (Nat.two_pow_pos _)

end Sys2Proof.Machine
end

section
open Sys2Proof Sys2Proof.Machine

/-- Settles O6: each body rounds by FRM, with its operands in the precision of P. -/
theorem floatingPointRounds : Obligations.FloatingPointRounds := by
  unfold Obligations.FloatingPointRounds
  intro st d a b c p k f x key u3 u4 reserved lands returns
  refine ⟨?fadd, ?fsub, ?fmul, ?fdiv, ?fsqrt, ?ffma, ?ffms, ?ffnma, ?ffnms, ?fcvt⟩
  case fadd => exact lands_of_fp fun s => Eq.refl (execFadd st d a b p s)
  case fsub => exact lands_of_fp fun s => Eq.refl (execFsub st d a b p s)
  case fmul => exact lands_of_fp fun s => Eq.refl (execFmul st d a b p s)
  case fdiv => exact returns_of_fp fun s => Eq.refl (execFdiv st d a b p s)
  case fsqrt => exact returns_of_fp fun s => Eq.refl (execFsqrt st d a p s)
  case ffma => exact lands_of_fp fun s => Eq.refl (execFfma st d a b c p s)
  case ffms => exact lands_of_fp fun s => Eq.refl (execFfms st d a b c p s)
  case ffnma => exact lands_of_fp fun s => Eq.refl (execFfnma st d a b c p s)
  case ffnms => exact lands_of_fp fun s => Eq.refl (execFfnms st d a b c p s)
  case fcvt => exact lands_of_fp fun s => Eq.refl (execFcvt st d a p k s)

/-- Settles O7: each body is an exact result; the sign operations are arithmetic on the sign bit. -/
theorem floatingPointExact : Obligations.FloatingPointExact := by
  unfold Obligations.FloatingPointExact
  intro st d a b p c f x rel half flags quiet
  have hlt (r : BitVec 5) (s : State) : x r s < 2 ^ f.width := fpOperand_lt f (s.rs r)
  refine ⟨?fmin, ?fmax, ?fcmp, ?fmv, ?fmvNeg, ?fmvAbs, ?fmvSgn⟩
  case fmin => exact does_of_fpExact fun s => Eq.refl (execFmin st d a b p s)
  case fmax => exact does_of_fpExact fun s => Eq.refl (execFmax st d a b p s)
  case fcmp =>
    exact does_of_fpExact (fun s => Eq.refl (execFcmp st d a b p c s)) fun s =>
      congrArg (·, (fpRel f rel (x a s) (x b s)).2) (b2n_eq_toNat _)
  case fmv =>
    exact does_of_fpExact (r := fun s => (x a s, flNone)) (fun s => Eq.refl (execFmv st d a p s)) fun s =>
      congrArg (·, flNone) (Fmt.withSign_signOf (hlt a s))
  case fmvNeg =>
    exact does_of_fpExact (r := fun s => ((x a s + half) % 2 ^ f.width, flNone)) (fun s => Eq.refl (execFmvNeg st d a p s))
      fun s => congrArg (·, flNone) (Fmt.withSign_not_signOf (hlt a s))
  case fmvAbs =>
    exact does_of_fpExact (r := fun s => (x a s % half, flNone)) (fun s => Eq.refl (execFmvAbs st d a p s))
      fun s => congrArg (·, flNone) (f.withSign_false (x a s))
  case fmvSgn =>
    exact does_of_fpExact (r := fun s => (x a s % half + x b s / half * half, flNone))
      (fun s => Eq.refl (execFmvSgn st d a b p s)) fun s => by
        show (f.withSign (f.signOf (x b s)) (x a s), flNone) = _
        rw [Fmt.withSign, Fmt.b2n_signOf (hlt b s)]

end

section
/-! SUPPORT. Trap entry and return (R398, R403): replaced fields bit by bit, and each register and field of a slot after them. -/

namespace Sys2Proof.Machine

/-! ### Replaced fields -/

/-- A field replaced by the low bits of `v`, bit by bit. -/
theorem testBit_setBits {x hi lo v i : Nat} (h : lo ≤ hi) :
    (setBits x hi lo v).testBit i = if lo ≤ i ∧ i ≤ hi then v.testBit (i - lo) else x.testBit i := by
  obtain ⟨k, hk⟩ : ∃ k, hi + 1 = lo + k := ⟨hi + 1 - lo, by omega⟩
  have hk' : hi + 1 - lo = k := by omega
  have hx : x = 2 ^ lo * (x / 2 ^ lo) + x % 2 ^ lo := (Nat.div_add_mod _ _).symm
  have hy : x / 2 ^ lo = 2 ^ k * (x / 2 ^ lo / 2 ^ k) + x / 2 ^ lo % 2 ^ k := (Nat.div_add_mod _ _).symm
  have hset : setBits x hi lo v = 2 ^ lo * (2 ^ k * (x / 2 ^ lo / 2 ^ k) + v % 2 ^ k) + x % 2 ^ lo := by
    simp only [setBits, bitsAt, hk', Nat.shiftLeft_eq, Nat.shiftRight_eq_div_pow]
    have hmul : x = 2 ^ lo * (2 ^ k * (x / 2 ^ lo / 2 ^ k)) + x / 2 ^ lo % 2 ^ k * 2 ^ lo + x % 2 ^ lo := by
      conv_lhs => rw [hx, hy]
      ring
    rw [Nat.mul_add, Nat.mul_comm (2 ^ lo) (v % 2 ^ k)]
    omega
  rw [hset, Nat.testBit_two_pow_mul_add _ (Nat.mod_lt _ (Nat.two_pow_pos _)),
    Nat.testBit_two_pow_mul_add _ (Nat.mod_lt _ (Nat.two_pow_pos _)), Nat.testBit_mod_two_pow, Nat.testBit_mod_two_pow]
  simp only [Nat.testBit_div_two_pow]
  by_cases h1 : i < lo
  · simp [h1, Nat.not_le.2 h1]
  · by_cases h2 : i ≤ hi
    · simp [h1, Nat.not_lt.1 h1, h2, show i - lo < k by omega]
    · simp [h1, h2, show ¬ i - lo < k by omega, show i - lo - k + k + lo = i by omega]

/-- A one-bit field replaced. -/
theorem testBit_setBit (x k v i : Nat) : (setBits x k k v).testBit i = if i = k then v.testBit 0 else x.testBit i := by
  rw [testBit_setBits le_rfl]
  by_cases h : i = k
  · simp [h]
  · rw [if_neg h, if_neg (by omega)]

theorem testBit_bitsAt {x hi lo i : Nat} (h : lo ≤ hi) : (bitsAt x hi lo).testBit i = (decide (lo + i ≤ hi) && x.testBit (lo + i)) := by
  rw [bitsAt, Nat.testBit_mod_two_pow, Nat.testBit_shiftRight]
  congr 1
  exact decide_eq_decide.2 (by omega)

@[simp] theorem testBit_b2n (b : Bool) : (b2n b).testBit 0 = b := by cases b <;> rfl

theorem testBit_ths (n i : Nat) (h : i < 64) : (BitVec.ofNat 64 n).toNat.testBit i = n.testBit i := by
  rw [BitVec.toNat_ofNat, Nat.testBit_mod_two_pow, decide_eq_true h, Bool.true_and]


/-! ### The writes a trap's entry lands -/

/-- Landing leaves everything but the scalar, vector and mask registers. -/
theorem Slot.landList_eq (x : Slot) (l : List Pend) : ∃ s v m, x.landList l = { x with s := s, v := v, m := m } := by
  induction l generalizing x with
  | nil => exact ⟨x.s, x.v, x.m, rfl⟩
  | cons p r ih =>
    have h1 : ∃ s v m, x.land1 p.w = { x with s := s, v := v, m := m } := by
      cases p.w with
      | s n w => simp only [Slot.land1, Slot.writeS]; split <;> exact ⟨_, _, _, rfl⟩
      | v k n mask w => exact ⟨_, _, _, rfl⟩
      | m n mask w => simp only [Slot.land1, Slot.writeM]; split <;> exact ⟨_, _, _, rfl⟩
    obtain ⟨s, v, m, h⟩ := h1
    obtain ⟨s', v', m', h'⟩ := ih (x.land1 p.w)
    exact ⟨s', v', m', by rw [Slot.landList, h', h]⟩

theorem Slot.landList_csr (l : List Pend) (x : Slot) : (x.landList l).csr = x.csr := by
  obtain ⟨s, v, m, h⟩ := x.landList_eq l; rw [h]
theorem Slot.landAll_eq (x : Slot) : x.landAll = { x with s := x.landAll.s, v := x.landAll.v, m := x.landAll.m, pend := [] } := by
  obtain ⟨s, v, m, h⟩ := x.landList_eq x.pend
  rw [Slot.landAll, h]
@[simp] theorem Slot.landAll_csr (x : Slot) : x.landAll.csr = x.csr := Slot.landList_csr _ x
@[simp] theorem Slot.landAll_csrv (x : Slot) (c : Nat) : x.landAll.csrv c = x.csrv c := by simp [Slot.csrv]

/-! ### Trap entry (R398) -/

theorem Slot.setCsr_eq (x : Slot) (c : Nat) (v : W64) : x.setCsr c v = { x with csr := x.csr.set c v } := rfl

/-- The slot whose earlier writes have landed, with the registers of a trap's entry written. -/
def Slot.trapRegs (x : Slot) (t : Trap) (tpc : W64) (bpos : Nat) (bhdr : Bool) : Slot :=
  let x := x.landAll
  let x := x.setCsr csrTCAUSE t.tcause
  let x := x.setCsr csrTVAL t.tval
  let x := x.setCsr csrINSN (if t.async then 0#64 else t.insn.zeroExtend 64)
  let x := x.setCsr csrTPC tpc
  x.setCsr csrTHS (BitVec.ofNat 64 (thsOnEntry x.ths bpos bhdr))

section Entry
variable (x : Slot) (t : Trap) (tpc : W64) (bpos : Nat) (bhdr : Bool)

theorem Slot.trapRegs_eq : ∃ c, x.trapRegs t tpc bpos bhdr = { x.landAll with csr := c } := by
  simp only [Slot.trapRegs, Slot.setCsr_eq]
  exact ⟨_, rfl⟩

theorem takeTrap_trapRegs : takeTrap x t tpc bpos bhdr =
    { x.trapRegs t tpc bpos bhdr with
      hold := true, vfrozen := true, pc := (x.trapRegs t tpc bpos bhdr).csrv csrTVEC
      frozenAt := (x.trapRegs t tpc bpos bhdr).vfrozen :: (x.trapRegs t tpc bpos bhdr).frozenAt, atHdr := true, reHdr := false
      bpos := 0, firstHdr := some t.cause, wfe := none, vm := none, vrun := none, doing := none, watch := none
      resumeNext := false, after15 := t.cause == 0x15 && !t.async && !t.again } := by
  unfold takeTrap Slot.trapRegs; rfl

/-- Every field of the slot a trap leaves, but for its control registers. -/
theorem takeTrap_eq : ∃ c pc, takeTrap x t tpc bpos bhdr =
    { x with
      csr := c, s := x.landAll.s, v := x.landAll.v, m := x.landAll.m, pend := []
      hold := true, vfrozen := true, frozenAt := x.vfrozen :: x.frozenAt, pc := pc, atHdr := true, reHdr := false
      bpos := 0, firstHdr := some t.cause, wfe := none, vm := none, vrun := none, doing := none, watch := none
      resumeNext := false, after15 := t.cause == 0x15 && !t.async && !t.again } := by
  obtain ⟨c, h⟩ := x.trapRegs_eq t tpc bpos bhdr
  rw [takeTrap_trapRegs, h, x.landAll_eq]
  exact ⟨_, _, rfl⟩

theorem takeTrap_csr : (takeTrap x t tpc bpos bhdr).csr = (x.trapRegs t tpc bpos bhdr).csr := by
  rw [takeTrap_trapRegs]

/-- The five registers a trap's entry writes, and every other one. -/
theorem takeTrap_csrv (c : Nat) : (takeTrap x t tpc bpos bhdr).csrv c =
    if c = csrTHS then BitVec.ofNat 64 (thsOnEntry x.ths bpos bhdr)
    else if c = csrTPC then tpc
    else if c = csrINSN then (if t.async then 0#64 else t.insn.zeroExtend 64)
    else if c = csrTVAL then t.tval
    else if c = csrTCAUSE then t.tcause else x.csrv c := by
  have hset (y : Slot) (r : Nat) (v : W64) : (y.setCsr r v).csrv c = if c = r then v else y.csrv c := Map.getD_set _ _ _ _ _
  have hths (y : Slot) {r : Nat} (v : W64) (h : csrTHS ≠ r) : (y.setCsr r v).ths = y.ths :=
    congrArg BitVec.toNat (Slot.csrv_setCsr_ne y v h)
  have hland : x.landAll.ths = x.ths := congrArg BitVec.toNat (x.landAll_csrv _)
  rw [Slot.csrv, takeTrap_csr, ← Slot.csrv]
  simp only [Slot.trapRegs, hset, hths _ _ (show csrTHS ≠ csrTPC by decide), hths _ _ (show csrTHS ≠ csrINSN by decide),
    hths _ _ (show csrTHS ≠ csrTVAL by decide), hths _ _ (show csrTHS ≠ csrTCAUSE by decide), hland, Slot.landAll_csrv]

theorem takeTrap_ths : (takeTrap x t tpc bpos bhdr).csrv csrTHS = BitVec.ofNat 64 (thsOnEntry x.ths bpos bhdr) := by
  rw [takeTrap_csrv, if_pos rfl]

/-- THS after trap entry, bit by bit (R398). -/
theorem thsOnEntry_testBit (n i : Nat) : (thsOnEntry n bpos bhdr).testBit i =
    if i = 2 then false else if i = 0 then true else if i = 3 then n.testBit 2 else if i = 1 then n.testBit 0
    else if i = 23 then bhdr else if 16 ≤ i ∧ i ≤ 21 then bpos.testBit (i - 16) else n.testBit i := by
  simp only [thsOnEntry, testBit_setBit, testBit_setBits (show 16 ≤ 21 by decide), testBit_bitsAt le_rfl, testBit_b2n]
  simp

theorem takeTrap_bit {i : Nat} (h : i < 64) : ((takeTrap x t tpc bpos bhdr).csrv csrTHS).toNat.testBit i =
    if i = 2 then false else if i = 0 then true else if i = 3 then x.ths.testBit 2 else if i = 1 then x.ths.testBit 0
    else if i = 23 then bhdr else if 16 ≤ i ∧ i ≤ 21 then bpos.testBit (i - 16) else x.ths.testBit i := by
  rw [takeTrap_ths, testBit_ths _ _ h, thsOnEntry_testBit]

theorem takeTrap_pc : (takeTrap x t tpc bpos bhdr).pc = x.csrv csrTVEC := by
  have hpc : (takeTrap x t tpc bpos bhdr).pc = (x.trapRegs t tpc bpos bhdr).csrv csrTVEC := by rw [takeTrap_trapRegs]
  rw [hpc, Slot.csrv, ← takeTrap_csr]
  exact (takeTrap_csrv x t tpc bpos bhdr csrTVEC).trans (by simp [csrTVEC, csrTHS, csrTPC, csrINSN, csrTVAL, csrTCAUSE])

end Entry

/-! ### The return (R403) -/

theorem returnFromTrap_csrv (x : Slot) (c : Nat) : (returnFromTrap x).csrv c =
    if c = csrTHS then BitVec.ofNat 64 (thsOnReturn x.ths) else x.csrv c := Map.getD_set _ _ _ _ _

theorem returnFromTrap_vfrozen (x : Slot) : (returnFromTrap x).vfrozen = x.frozenAt.headD false := rfl

theorem returnFromTrap_bit (x : Slot) {i : Nat} (h : i < 64) : ((returnFromTrap x).csrv csrTHS).toNat.testBit i =
    if i = 2 then x.ths.testBit 3 else if i = 0 then x.ths.testBit 1 else x.ths.testBit i := by
  rw [returnFromTrap_csrv, if_pos rfl, testBit_ths _ _ h, thsOnReturn]
  simp only [testBit_setBit, testBit_bitsAt le_rfl]
  simp

end Sys2Proof.Machine
end

section
open Sys2Proof Sys2Proof.Machine

/-- Settles O54: each register and field after an entry and after a return. -/
theorem trapEntryAndReturn : Obligations.TrapEntryAndReturn := by
  unfold Obligations.TrapEntryAndReturn
  intro x t tpc b h hb bit pos y z
  have entry (c : Nat) := takeTrap_csrv x t tpc b h c
  have ybit (i : Nat) (hi : i < 64) : bit y i = _ := takeTrap_bit x t tpc b h hi
  have zbit (i : Nat) (hi : i < 64) : bit z i = _ := returnFromTrap_bit x hi
  have landed (i : Nat) : bit x.landAll i = x.ths.testBit i := by simp only [bit, Slot.landAll_csrv]; rfl
  have ypos : pos y = b := by
    refine Nat.eq_of_testBit_eq fun i => ?_
    rw [Nat.testBit_mod_two_pow, Nat.testBit_div_two_pow]
    by_cases hi : i < 6
    · rw [show (y.csrv csrTHS).toNat.testBit (i + 16) = _ from ybit (i + 16) (by omega)]
      simp [hi, show i ≤ 5 by omega, show i + 16 ≠ 23 by omega]
    · rw [decide_eq_false hi, Bool.false_and, Nat.testBit_lt_two_pow (hb.trans_le (Nat.pow_le_pow_right (n := 2) (by decide) (not_lt.1 hi)))]
  obtain ⟨c, pc, hy⟩ : ∃ c pc, y = _ := takeTrap_eq x t tpc b h
  refine ⟨⟨entry csrTCAUSE, entry csrTVAL, entry csrTPC, entry csrINSN, ypos, ybit 23 (by decide), ?ppriv, ?pie, ybit 0 (by decide),
    ybit 2 (by decide), ?schk, by rw [hy], by rw [hy], takeTrap_pc x t tpc b h, by rw [hy], by rw [hy], by rw [hy], by rw [hy],
    by rw [hy], by rw [hy], by rw [hy], by rw [hy], by rw [hy], by rw [hy], by rw [hy]; rfl, by rw [hy]; exact fun _ => rfl,
    by rw [hy], by rw [hy], by rw [hy], ?others⟩,
    ⟨zbit 0 (by decide), zbit 2 (by decide), zbit 1 (by decide), zbit 3 (by decide), rfl, returnFromTrap_csrv x csrTPC, rfl, rfl,
      bitsAt_eq_div_mod _ _ _, rfl, rfl, rfl, rfl, fun _ => rfl, rfl, rfl, fun c hc => (returnFromTrap_csrv x c).trans (if_neg hc)⟩, ?_⟩
  case ppriv => rw [landed]; exact ybit 1 (by decide)
  case pie => rw [landed]; exact ybit 3 (by decide)
  case schk => rw [landed]; exact ybit 4 (by decide)
  case others =>
    intro c hc
    simp only [List.mem_cons, List.not_mem_nil, or_false, not_or] at hc
    obtain ⟨h1, h2, h3, h4, h5⟩ := hc
    exact (entry c).trans (by simp [h1, h2, h3, h4, h5])
  · rw [returnFromTrap_vfrozen, hy]; rfl

end

section
/-! SUPPORT. Control registers (R126, R127, R158): what a write of one leaves and changes, when an instruction waits to issue, and
the privilege bit, which the bodies of the register instructions leave to every thread. -/

namespace Sys2Proof.Machine

/-! ### What a control register's write does -/

/-- The value a written register takes, but for LCAP and PTBASE. -/
def csrNew (c : Nat) (old v : W64) : W64 :=
  let new := (old &&& ~~~ csrMask c) ||| (v &&& csrMask c)
  if c = csrQWIN ∧ new.toNat < 64 then 64#64 else new

@[simp] theorem State.artbWrite_slots (s : State) (a : Nat) (o : Option Nat) (v : W64) : (s.artbWrite a o v).slots = s.slots := by
  simp only [State.artbWrite, apply_ite State.slots, ite_self]
@[simp] theorem State.artbWrite_cur (s : State) (a : Nat) (o : Option Nat) (v : W64) : (s.artbWrite a o v).cur = s.cur := by
  simp only [State.artbWrite, apply_ite State.cur, ite_self]

@[simp] theorem State.csrWrite_cur (s : State) (n c : Nat) (v : W64) : (s.csrWrite n c v).cur = s.cur := by
  simp only [State.csrWrite]; split
  · rfl
  · split <;> simp

/-- Another thread's slot stands. -/
theorem State.slot_csrWrite_ne (s : State) {n m : Nat} (c : Nat) (v : W64) (h : m ≠ n) : (s.csrWrite n c v).slot m = s.slot m := by
  simp only [State.csrWrite]
  split
  · exact State.slot_setSlot_ne s _ h
  · split
    · simp [State.slot]
    · exact State.slot_setSlot_ne s _ h

/-- LCAP and PTBASE are views: no stored value changes. -/
theorem State.csrv_csrWrite_view (s : State) (n : Nat) {c : Nat} (v : W64) (h : c = csrLCAP ∨ c = csrPTBASE) (m : Nat) :
    ((s.csrWrite n c v).slot n).csrv m = (s.slot n).csrv m := by
  rcases h with rfl | rfl
  · simp [State.csrWrite, Slot.csrv]
  · simp [State.csrWrite, State.slot, csrPTBASE, csrLCAP]

/-- The slot after a write of any other register holds its new value there. -/
theorem State.csr_csrWrite (s : State) (n : Nat) {c : Nat} (v : W64) (h : c ≠ csrLCAP) (h' : c ≠ csrPTBASE) :
    ((s.csrWrite n c v).slot n).csr = ((s.slot n).setCsr c (csrNew c ((s.slot n).csrv c) v)).csr := by
  simp only [State.csrWrite, if_neg h, if_neg h', State.slot_setSlot_same, apply_ite Slot.csr, ite_self]
  rfl

theorem State.csrv_csrWrite_same (s : State) (n : Nat) {c : Nat} (v : W64) (h : c ≠ csrLCAP) (h' : c ≠ csrPTBASE) :
    ((s.csrWrite n c v).slot n).csrv c = csrNew c ((s.slot n).csrv c) v := by
  rw [Slot.csrv, State.csr_csrWrite s n v h h']
  exact Slot.csrv_setCsr_same _ _ _

/-- Every other register of the thread stands. -/
theorem State.csrv_csrWrite_ne (s : State) (n : Nat) {c m : Nat} (v : W64) (hm : m ≠ c) :
    ((s.csrWrite n c v).slot n).csrv m = (s.slot n).csrv m := by
  by_cases h : c = csrLCAP ∨ c = csrPTBASE
  · exact State.csrv_csrWrite_view s n v h m
  · obtain ⟨h1, h2⟩ := not_or.1 h
    rw [Slot.csrv, State.csr_csrWrite s n v h1 h2]
    exact Slot.csrv_setCsr_ne _ _ hm

/-- A register other than QWIN takes the written value in the bits of its mask. -/
theorem csrNew_getLsbD {c b : Nat} {old v : W64} (hc : c ≠ csrQWIN) (hb : b < 64) :
    (csrNew c old v).getLsbD b = if (csrMask c).getLsbD b then v.getLsbD b else old.getLsbD b := by
  simp only [csrNew, hc, false_and, if_false, BitVec.getLsbD_or, BitVec.getLsbD_and, BitVec.getLsbD_not, hb, decide_true,
    Bool.true_and]
  cases (csrMask c).getLsbD b <;> simp

/-- QWIN is held at 64 and above (R231). -/
theorem csrNew_qwin {old v : W64} (h : old.toNat < 2 ^ 24) :
    csrNew csrQWIN old v = BitVec.ofNat 64 (max 64 (v.toNat % 2 ^ 24)) := by
  have hmask : csrMask csrQWIN = BitVec.ofNat 64 (2 ^ 24 - 1) := by decide
  have hlow : old &&& csrMask csrQWIN = old := BitVec.eq_of_toNat_eq (by
    rw [hmask, BitVec.toNat_and]
    exact (Nat.and_two_pow_sub_one_eq_mod _ 24).trans (Nat.mod_eq_of_lt h))
  have hold : old &&& ~~~ csrMask csrQWIN = 0#64 := by
    rw [← hlow, BitVec.and_assoc, BitVec.and_not_self]
    exact BitVec.and_zero
  have hnew : ((0#64) ||| (v &&& csrMask csrQWIN)).toNat = v.toNat % 2 ^ 24 := by
    rw [BitVec.zero_or, hmask, BitVec.toNat_and]
    exact Nat.and_two_pow_sub_one_eq_mod _ 24
  simp only [csrNew, hold, hnew, true_and]
  split
  · next h' => rw [Nat.max_eq_left h'.le]
  · next h' => exact BitVec.eq_of_toNat_eq (by rw [hnew]; simp; omega)

/-! ### What R126 lets a program access -/

theorem csrUser_eq (n : Nat) : csrUser n =
    if n ∈ ([0x020, 0x021, 0x022, 0x023, 0x024, 0x025, 0x030, 0x031] : List Nat) then 2
    else if n ∈ ([0x000, 0x010, 0x011, 0x012, 0x013, 0x014, 0x040, 0x050] : List Nat) then 1 else 0 := by
  simp only [List.mem_cons, List.not_mem_nil, or_false]
  rfl

theorem csrBarred_read_iff (n : Nat) :
    csrBarred n false = true ↔ n ∈ ([0x001, 0x002, 0x003, 0x004, 0x005, 0x041] : List Nat) ∨ n ∉ csrNumbers := by
  rw [csrBarred, decide_eq_true_iff, csrUser_eq, csrNumbers]
  simp only [List.mem_cons, List.not_mem_nil, or_false, Bool.false_eq_true, if_false]
  split_ifs <;> omega

theorem csrBarred_write_iff (n : Nat) :
    csrBarred n true = false ↔ n ∈ ([0x020, 0x021, 0x022, 0x023, 0x024, 0x025, 0x030, 0x031] : List Nat) := by
  rw [csrBarred, decide_eq_false_iff_not, csrUser_eq, if_pos rfl]
  split_ifs with h h' <;> simp [h]

theorem csrSupWrites_iff (n : Nat) : csrSupWrites n = false ↔ n ∈ ([0x010, 0x011, 0x014, 0x050] : List Nat) := by
  simp [csrSupWrites, csrGLEN, csrSTYPE, csrSLSTR, csrCYC, or_assoc, -Bool.not_or]

/-! ### The privilege bit (R127) -/

theorem State.slot_setThr (s : State) (x : Slot) (n : Nat) : (s.setThr x).slot n = if n = s.cur then x else s.slot n :=
  Map.getD_set _ _ _ _ _

theorem Slot.sup_congr {x y : Slot} (h : y.csr = x.csr) : y.sup = x.sup := by
  simp only [Slot.sup, Slot.ths, Slot.csrv, h]

/-- Two states with the same issuing thread and the same privilege in every slot. -/
def State.SameSup (s t : State) : Prop := t.cur = s.cur ∧ ∀ n, (t.slot n).sup = (s.slot n).sup

theorem State.SameSup.rfl {s : State} : s.SameSup s := ⟨Eq.refl _, fun _ => Eq.refl _⟩

theorem State.SameSup.trans {s t u : State} (h : s.SameSup t) (h' : t.SameSup u) : s.SameSup u :=
  ⟨h'.1.trans h.1, fun n => (h'.2 n).trans (h.2 n)⟩

theorem State.sameSup_setThr {s : State} {x : Slot} (h : x.sup = s.thr.sup) : s.SameSup (s.setThr x) := by
  refine ⟨rfl, fun n => ?_⟩
  rw [State.slot_setThr]
  split
  · next e => rw [h, e]; rfl
  · rfl

@[simp] theorem Slot.addPend_csr (x : Slot) (land : Nat) (w : PendWrite) (vec : Bool) : (x.addPend land w vec).csr = x.csr := by
  unfold Slot.addPend; split <;> rfl
@[simp] theorem Slot.writeS_csr (x : Slot) (n : Nat) (v : W64) : (x.writeS n v).csr = x.csr := by
  unfold Slot.writeS; split <;> rfl
@[simp] theorem Slot.putS_csr (x : Slot) (n : Nat) (v : W64) : (x.putS n v).csr = x.csr := Slot.writeS_csr x n v
@[simp] theorem Slot.advance_csr (x : Slot) : x.advance.csr = x.csr := by
  unfold Slot.advance; split <;> rfl

theorem Slot.sup_setCsr_ne (x : Slot) {c : Nat} (v : W64) (h : csrTHS ≠ c) : (x.setCsr c v).sup = x.sup := by
  simp only [Slot.sup, Slot.ths, Slot.csrv_setCsr_ne x v h]

theorem State.sameSup_later (s : State) (lat : Nat) (d : BitVec 5) (v : W64) (vec : Bool) : s.SameSup (s.later lat d v vec) :=
  State.sameSup_setThr (Slot.sup_congr (Slot.addPend_csr _ _ _ _))

theorem State.sameSup_putS (s : State) (n : Nat) (v : W64) : s.SameSup (s.setThr (s.thr.putS n v)) :=
  State.sameSup_setThr (Slot.sup_congr (Slot.putS_csr _ _ _))

theorem State.sameSup_raise (s : State) (f : Flags) : s.SameSup (s.raise f) :=
  State.sameSup_setThr (Slot.sup_setCsr_ne _ _ (by decide))

/-- PRIV is no RW field of THS. -/
theorem State.sameSup_csrWrite (s : State) (n c : Nat) (v : W64) : s.SameSup (s.csrWrite n c v) := by
  refine ⟨by simp, fun m => ?_⟩
  by_cases hm : m = n
  · subst hm
    by_cases hc : csrTHS = c
    · subst hc
      simp only [Slot.sup, Slot.ths, State.csrv_csrWrite_same s m v (c := csrTHS) (by decide) (by decide)]
      exact (csrNew_getLsbD (by decide) (by decide)).trans (if_neg (by decide))
    · simp only [Slot.sup, Slot.ths, State.csrv_csrWrite_ne s m v hc]
  · rw [State.slot_csrWrite_ne s c v hm]

/-! ### The body of an instruction and the privilege bit -/

/-- The state an instruction's own part leaves. -/
def Exe.state : Exe → State
  | .done s | .goto s _ | .trap s _ | .trapNext s _ | .wait s | .turn s | .left s => s

section Bodies
variable (s : State)

@[simp] theorem sameSup_exeLater (lat : Nat) (d : BitVec 5) (v : W64) : s.SameSup (exeLater s lat d v).state := s.sameSup_later lat d v _
@[simp] theorem sameSup_exePut (d : BitVec 5) (v : W64) : s.SameSup (exePut s d v).state := s.sameSup_putS d.toNat v
theorem sameSup_exeTrap (c : Nat) (v : W64) : s.SameSup (exeTrap s c v).state := .rfl

@[simp] theorem sameSup_exeBranch (o : BitVec 13) (taken : Bool) : s.SameSup (exeBranch s o taken).state := by
  cases taken <;> exact .rfl

theorem sameSup_exeBranch_of {t : State} (h : s.SameSup t) (o : BitVec 13) (taken : Bool) : s.SameSup (exeBranch t o taken).state := by
  cases taken <;> exact h

@[simp] theorem sameSup_exeFpExact (d : BitVec 5) (r : Nat × Flags) : s.SameSup (exeFpExact s d r).state :=
  (s.sameSup_raise r.2).trans (sameSup_exeLater _ _ _ _)

@[simp] theorem sameSup_exeFp (lat : Option Nat) (d : BitVec 5) (f : Rm → Nat → Nat × Flags) : s.SameSup (exeFp s lat d f).state := by
  cases h : s.thr.rm with
  | none => rw [exeFp_reserved h]; exact .rfl
  | some m => cases lat with
    | none => rw [exeFp_returns h]; exact (s.sameSup_raise _).trans (sameSup_exePut _ _ _)
    | some l => rw [exeFp_lands h]; exact (s.sameSup_raise _).trans (State.sameSup_later _ _ _ _ _)

@[simp] theorem sameSup_exeCsr (d : BitVec 5) (c : Nat) (f : Option (W64 → W64)) (w : W32) : s.SameSup (exeCsr s d c f w).state := by
  unfold exeCsr
  split
  · exact .rfl
  · cases f with
    | none => exact sameSup_exePut _ _ _
    | some f =>
      dsimp only
      split
      · exact .rfl
      · exact (s.sameSup_csrWrite _ _ _).trans (sameSup_exePut _ _ _)

end Bodies

/-- A trap is entered in supervisor mode with Hold set. -/
theorem takeTrap_sup (x : Slot) (t : Trap) (tpc : W64) (bpos : Nat) (bhdr : Bool) :
    (takeTrap x t tpc bpos bhdr).sup = true ∧ (takeTrap x t tpc bpos bhdr).hold = true := by
  refine ⟨?_, rfl⟩
  rw [Slot.sup, Slot.ths, bitAt, takeTrap_ths, testBit_ths _ _ (by decide), thsOnEntry, testBit_setBits le_rfl,
    testBit_setBits le_rfl]
  simp

/-! ### The end of an instruction's own part -/

@[simp] theorem State.issued_cur (s : State) (u : Uses) (g : Nat) : (s.issued u g).cur = s.cur := by
  unfold State.issued; split <;> rfl
@[simp] theorem State.issued_slot (s : State) (u : Uses) (g n : Nat) : (s.issued u g).slot n = s.slot n := by
  unfold State.issued; split <;> rfl

theorem State.sameSup_issued (s : State) (u : Uses) (g : Nat) : s.SameSup (s.issued u g) := ⟨by simp, by simp⟩

theorem State.sameSup_finish (s : State) (st : BitVec 3) : s.SameSup (s.finish st) :=
  State.sameSup_setThr (Slot.sup_congr (Slot.advance_csr _))

theorem State.sameSup_jumpTo (s : State) (st : BitVec 3) (t : W64) : s.SameSup (s.jumpTo st t) :=
  State.sameSup_setThr (Slot.sup_congr rfl)

theorem State.sameSup_underWay (s : State) (u : Uses) (w : W32) (g : Nat) : s.SameSup (s.underWay u w g) :=
  (s.sameSup_issued u g).trans (State.sameSup_setThr (Slot.sup_congr rfl))

/-- A thread that ends as trapped: it alone has changed its privilege, to supervisor mode with Hold set. -/
theorem State.sup_setThr_of_trapped {s : State} {x : Slot} (hx : x.sup = true ∧ x.hold = true) (n : Nat) :
    ((s.setThr x).slot n).sup = (s.slot n).sup
      ∨ (n = s.cur ∧ ((s.setThr x).slot n).sup = true ∧ ((s.setThr x).slot n).hold = true) := by
  rw [State.slot_setThr]
  split
  · next e => exact .inr ⟨e, hx⟩
  · exact .inl rfl

theorem State.sup_trapHere (s : State) (t : Trap) (n : Nat) :
    ((s.trapHere t).slot n).sup = (s.slot n).sup
      ∨ (n = s.cur ∧ ((s.trapHere t).slot n).sup = true ∧ ((s.trapHere t).slot n).hold = true) :=
  State.sup_setThr_of_trapped (s := s.dropRequests) (takeTrap_sup _ t _ _ _) n

theorem trapNext_sup {y : Slot} (h : y.sup = true ∧ y.hold = true) (e : Nat) :
    Slot.sup { y with earliest := e } = true ∧ Slot.hold { y with earliest := e } = true := h

/-- Where an instruction's own part leaves every privilege, its end changes none but by a trap. -/
theorem settle_sup {s : State} {e : Exe} (u : Uses) (st : BitVec 3) (w : W32) (g : Nat) (h : s.SameSup e.state) (n : Nat) :
    ((State.settle u st w g e).slot n).sup = (s.slot n).sup
      ∨ (n = s.cur ∧ ((State.settle u st w g e).slot n).sup = true ∧ ((State.settle u st w g e).slot n).hold = true) := by
  have hi := h.trans (e.state.sameSup_issued u g)
  cases e with
  | done t => exact .inl ((hi.trans (State.sameSup_finish _ st)).2 n)
  | goto t v => exact .inl ((hi.trans (State.sameSup_jumpTo _ st v)).2 n)
  | trap t c => rw [← hi.2 n, ← hi.1]; exact State.sup_trapHere (t.issued u g) { c with insn := w } n
  | trapNext t c =>
    rw [← hi.2 n, ← hi.1]
    exact State.sup_setThr_of_trapped (trapNext_sup (takeTrap_sup (t.issued u g).thr { c with insn := w } _ _ _) _) n
  | wait t => exact .inl (h.2 n)
  | turn t => exact .inl ((h.trans (State.sameSup_underWay _ u w g)).2 n)
  | left t => exact .inl (hi.2 n)

@[simp] theorem Slot.landBy_csr (x : Slot) (t : Nat) : (x.landBy t).csr = x.csr := Slot.landList_csr _ x
@[simp] theorem Slot.landNow_csr (x : Slot) (t : Nat) : (x.landNow t).csr = x.csr := by
  unfold Slot.landNow; split <;> simp

theorem State.sameSup_landDue (s : State) : s.SameSup s.landDue := State.sameSup_setThr (Slot.sup_congr (Slot.landNow_csr _ _))

/-- An instruction whose own part leaves every privilege changes none but by a trap (R127). -/
theorem sup_of_body {i : Instr} {st : BitVec 3} {body : State → Exe} {s r : State} (hx : exec i s = runInsn i st body s)
    (hb : ∀ t : State, t.SameSup (body t).state) (he : s.executes i) (hr : exec i s = .next r) (n : Nat) :
    (r.slot n).sup = (s.slot n).sup ∨ (n = s.cur ∧ (r.slot n).sup = true ∧ (r.slot n).hold = true) := by
  rw [hx, runInsn_executes he] at hr
  cases hr
  exact settle_sup _ _ _ _ (s.sameSup_landDue.trans (hb s.landDue)) n

/-! ### Major opcodes -/

/-- The upper fields of a word built by appending. -/
theorem toNat_append_div {m n k : Nat} (x : BitVec m) (y : BitVec n) (h : n ≤ k) :
    (x ++ y).toNat / 2 ^ k = x.toNat / 2 ^ (k - n) := by
  apply Nat.eq_of_testBit_eq
  intro i
  have hy : y.toNat.testBit (i + k) = false :=
    Nat.testBit_lt_two_pow (y.isLt.trans_le (Nat.pow_le_pow_right (by decide) (by omega)))
  rw [BitVec.toNat_append, Nat.testBit_div_two_pow, Nat.testBit_div_two_pow, Nat.testBit_or, hy, Bool.or_false,
    Nat.testBit_shiftLeft, decide_eq_true (show i + k ≥ n by omega), Bool.true_and, Nat.add_sub_assoc h]

/-- The field that names the major opcode. -/
theorem toNat_fld_major (w : W32) : (fld w 26 6).toNat = w.toNat / 2 ^ 26 := by
  have hw : w.toNat / 2 ^ 26 < 2 ^ 6 := Nat.div_lt_of_lt_mul (by rw [← pow_add]; exact w.isLt)
  rw [fld, BitVec.extractLsb'_toNat, Nat.shiftRight_eq_div_pow, Nat.mod_eq_of_lt hw]

/-- The register instructions: majors 0x01 to 0x0C and 0x15 to 0x20. -/
def isRegister : Instr → Bool
  | .add .. | .sub .. | .and .. | .or .. | .xor .. | .andn .. | .sll .. | .srl .. | .sra .. | .rol .. | .min .. | .max ..
  | .minn .. | .maxn .. | .slt .. | .sltn .. | .seq .. | .mul .. | .mulh .. | .mulhn .. | .clz .. | .ctz .. | .popc ..
  | .csel .. | .addi .. | .andi .. | .ori .. | .xori .. | .slli .. | .srli .. | .srai .. | .roli .. | .slti .. | .sltni ..
  | .li .. | .lext .. | .lea .. | .div .. | .divn .. | .rem .. | .remn .. | .br .. | .call .. | .jr .. | .beq .. | .bne ..
  | .blt .. | .bge .. | .bltn .. | .bgen .. | .loop .. | .fadd .. | .fsub .. | .fmul .. | .fdiv .. | .fsqrt .. | .fmin ..
  | .fmax .. | .fcmp .. | .fcvt .. | .fmv .. | .fmvNeg .. | .fmvAbs .. | .fmvSgn .. | .ffma .. | .ffms .. | .ffnma ..
  | .ffnms .. | .csrr .. | .csrw .. | .csrs .. | .csrc .. => true
  | _ => false

theorem isRegister_of_major {i : Instr}
    (h : let m := (wordOf i).toNat / 2 ^ 26; (1 ≤ m ∧ m ≤ 12) ∨ (21 ≤ m ∧ m ≤ 32)) : isRegister i = true := by
  cases i
  all_goals simp (disch := decide) only [wordOf, encode, Option.getD_some, Option.getD_none, toNat_append_div] at h
  all_goals first | rfl | simp at h

/-- Each register instruction's own part leaves every thread's privilege. -/
theorem sameSup_of_register {i : Instr} (s : State) (h : isRegister i = true) :
    ∃ st body, exec i s = runInsn i st body s ∧ ∀ t : State, t.SameSup (body t).state := by
  cases i
  all_goals first | exact absurd h Bool.false_ne_true | (simp only [exec]; refine ⟨_, _, rfl, fun t => ?_⟩)
  case jr => dsimp only; split; exacts [sameSup_exeTrap t _ _, t.sameSup_later _ _ _ _]
  case br => exact .rfl
  case call => exact t.sameSup_later _ _ _ _
  case loop => exact sameSup_exeBranch_of t (t.sameSup_later _ _ _ _) _ _
  all_goals simp

/-! ### The control register instructions (R121, R158) -/

/-- Where the body does not issue yet, the instruction `Stays` (R121). -/
theorem stays_of_body {i : Instr} {st : BitVec 3} {u : Uses} {body : State → Exe} {P : State → Prop} {f : State → State}
    (hx : ∀ s, exec i s = runInsn i st body s) (hb : ∀ s, P s → body s = .wait (f s))
    (hu : ∀ x, usesOf x i = u := by intro x; rfl) : Stays i u P f :=
  fun s h hp => settles_of_body (hx s) hu h (hb _ hp)

section Outcomes
variable {s : State} {c : Nat}

theorem exeCsr_waits (d : BitVec 5) (f : Option (W64 → W64)) (w : W32) (h : s.thr.pend ≠ []) : exeCsr s d c f w = .wait s := by
  simp [exeCsr, h]

theorem exeCsr_reads (d : BitVec 5) (w : W32) (h : s.thr.pend = []) : exeCsr s d c none w = exePut s d (s.csrRead s.thr c) := by
  simp [exeCsr, h]

theorem exeCsr_writes (d : BitVec 5) (f : W64 → W64) (w : W32) (h : s.thr.pend = []) (hc : csrSupWrites c = true) :
    exeCsr s d c (some f) w = exePut (s.csrWrite s.cur c (f (s.csrRead s.thr c))) d (s.csrRead s.thr c) := by
  simp [exeCsr, h, hc]

theorem exeCsr_refused (d : BitVec 5) (f : W64 → W64) (w : W32) (h : s.thr.pend = []) (hc : csrSupWrites c = false) :
    exeCsr s d c (some f) w = exeTrap s 0x04 (w.zeroExtend 64) := by
  simp [exeCsr, h, hc]

end Outcomes

/-- An access that writes where `wr` holds, by `f` of the old value. -/
theorem claims_of_csr {i : Instr} {st : BitVec 3} {u : Uses} {d : BitVec 5} {c : Nat} {wr : Bool} {f : State → W64 → W64}
    {g : State → Option (W64 → W64)} (hx : ∀ s, exec i s = runInsn i st (fun s => exeCsr s d c (g s) (wordOf i)) s)
    (hg : ∀ s, g s = if wr then some (f s) else none) (hu : ∀ x, usesOf x i = u := by intro x; rfl) :
    Stays i u (fun s => s.thr.pend ≠ []) id
      ∧ (csrSupWrites c = true → wr = true → Does i u st (fun s => s.thr.pend = []) fun s =>
          let t := s.csrWrite s.cur c (f s (s.csrRead s.thr c))
          t.setThr (t.thr.putS d.toNat (s.csrRead s.thr c)))
      ∧ (csrSupWrites c = false → wr = true → Traps i u (fun s => s.thr.pend = []) id fun _ =>
          { cause := 0x04, tval := (wordOf i).zeroExtend 64 })
      ∧ (wr = false → Does i u st (fun s => s.thr.pend = []) fun s => s.setThr (s.thr.putS d.toNat (s.csrRead s.thr c))) := by
  refine ⟨stays_of_body hx (fun s h => exeCsr_waits d _ _ h) hu, fun hc hw => does_of_body hx (fun s h => ?_) hu,
    fun hc hw => traps_of_body hx (fun s h => ?_) hu, fun hw => does_of_body hx (fun s h => ?_) hu⟩
  · rw [hg, if_pos hw]; exact exeCsr_writes d (f s) _ h hc
  · rw [hg, if_pos hw]; exact exeCsr_refused d (f s) _ h hc
  · rw [hg, if_neg (by simp [hw])]; exact exeCsr_reads d _ h

end Sys2Proof.Machine
end

section
open Sys2Proof Sys2Proof.Machine

/-- Settles O8: the four accesses from one body, the fields of a write from its register's mask, and the privilege bit, which no
register instruction's own part changes. -/
theorem controlRegisterAccesses : Obligations.ControlRegisterAccesses := by
  unfold Obligations.ControlRegisterAccesses
  intro st d a e c none' some' old put u fields registerOnly writes
  refine ⟨?stays, ?reads, ?csrw, ?csrs, ?csrc, ?who, ?fields, ?others, ?qwin, ?scap, ?ptbase, ?privilege⟩
  case stays => exact stays_of_body (fun s => Eq.refl (execCsrr st d e s)) fun s h => exeCsr_waits d _ _ h
  case reads => exact does_of_body (fun s => Eq.refl (execCsrr st d e s)) fun s h => exeCsr_reads d _ h
  case csrw =>
    exact claims_of_csr (f := fun s _ => s.rs a) (fun s => Eq.refl (execCsrw st d a e s)) fun _ => rfl
  case csrs =>
    exact claims_of_csr (f := fun s o => o ||| s.rs a) (fun s => Eq.refl (execCsrs st d a e s)) fun _ => by
      by_cases h : a = 0#5 <;> simp [h]
  case csrc =>
    exact claims_of_csr (f := fun s o => o &&& ~~~ s.rs a) (fun s => Eq.refl (execCsrc st d a e s)) fun _ => by
      by_cases h : a = 0#5 <;> simp [h]
  case who => exact fun n => ⟨csrBarred_read_iff n, csrBarred_write_iff n, csrSupWrites_iff n⟩
  case fields =>
    have hmask : ∀ f ∈ fields, (f.1 ≠ csrLCAP ∧ f.1 ≠ csrPTBASE ∧ f.1 ≠ csrQWIN)
        ∧ ∀ b : Fin 64, (csrMask f.1).getLsbD b = decide (∃ r ∈ f.2, r.2 ≤ b.val ∧ b.val ≤ r.1) := by decide
    intro f hf s n b v hb
    obtain ⟨⟨h1, h2, h3⟩, hbits⟩ := hmask f hf
    rw [State.csrv_csrWrite_same s n v h1 h2, csrNew_getLsbD h3 hb, hbits ⟨b, hb⟩]
    simp only [decide_eq_true_eq]
  case others => exact fun s n r m v h => State.csrv_csrWrite_ne s n v h
  case qwin => exact fun s n v h => (State.csrv_csrWrite_same s n v (by decide) (by decide)).trans (csrNew_qwin h)
  case scap => intro s n v; simp [State.csrWrite, csrLCAP]
  case ptbase =>
    intro s n p v hp hr
    simp only [State.csrWrite, State.artbWrite, hp, hr]
    rfl
  case privilege =>
    intro i s r hi he hr n
    obtain ⟨st, body, hx, hb⟩ := sameSup_of_register s (isRegister_of_major (i := i) (by rw [← toNat_fld_major]; exact hi))
    exact sup_of_body hx hb he hr n

end

section
/-! SUPPORT. Accesses of a thread (R147, R308): what a translation answers, what the checks of an access come to, and what a read
or a write of a target does, one equation per outcome. -/

namespace Sys2Proof.Machine

/-! ### Translations (R308) -/

theorem inScratch_iff {va : Nat} : inScratch va = true ↔ scratchVa ≤ va ∧ va ≤ 0x7F0003FFFFFF := by
  have hs : scratchVa = 0x7F0000000000 := rfl
  have hz : scratchSize = 0x4000000 := rfl
  simp only [inScratch, hs, hz, Bool.and_eq_true, decide_eq_true_eq]
  omega

theorem bitAt_toNat (e : W64) (n : Nat) : bitAt e.toNat n = e.getLsbD n := rfl

/-- A translation that answers a page answers no hole. -/
theorem State.translate_ok_place {s : State} {h asid va pa e : Nat} {sup : Bool} {k : AKind}
    (ht : s.translate h asid sup k va = .ok pa e) : s.placeOf pa ≠ .hole := by
  unfold translate at ht
  split at ht
  · cases ht
  split at ht
  · cases ht
  · dsimp only at ht
    split at ht
    · cases ht
    split at ht
    · cases ht
    split at ht
    · cases ht
    · rename_i hp
      cases ht
      exact hp

/-! ### The checks of an access (R147) -/

section Target
variable {s : State} {x : Slot} {k : AKind} {ea size : Nat}

theorem State.threadTarget_beyond (h : 2 ^ 48 ≤ ea) :
    s.threadTarget x k ea size = .error { cause := k.pageFault, tval := BitVec.ofNat 64 ea } := by
  simp only [threadTarget, ge_iff_le, h, if_true]

theorem State.threadTarget_misaligned (h : ea < 2 ^ 48) (ha : ea % size ≠ 0) :
    s.threadTarget x k ea size = .error { cause := 0x06, tval := BitVec.ofNat 64 ea } := by
  simp only [threadTarget, ge_iff_le, Nat.not_le.2 h, ha, ne_eq, not_false_eq_true, if_true, if_false]

theorem State.threadTarget_scratch (h : ea < 2 ^ 48) (ha : ea % size = 0) (hs : inScratch ea = true) :
    s.threadTarget x k ea size = if x.decl.scratch * 4096 ≤ ea - scratchVa then
      .error { cause := 0x0D, tval := BitVec.ofNat 64 ea } else .ok (.scratch (ea - scratchVa)) := by
  simp only [threadTarget, ge_iff_le, Nat.not_le.2 h, ha, hs, ne_eq, not_true_eq_false, if_true, if_false]

theorem State.threadTarget_fault {c : Nat} (h : ea < 2 ^ 48) (ha : ea % size = 0) (hs : inScratch ea = false)
    (ht : s.translate (holdCp (courseOf s.cur)) x.asid x.sup k ea = .fault c) :
    s.threadTarget x k ea size = .error { cause := c, tval := BitVec.ofNat 64 ea } := by
  simp only [threadTarget, ge_iff_le, Nat.not_le.2 h, ha, hs, ht, ne_eq, not_true_eq_false, Bool.false_eq_true, if_false]

theorem State.threadTarget_page {pa e : Nat} (h : ea < 2 ^ 48) (ha : ea % size = 0) (hs : inScratch ea = false)
    (ht : s.translate (holdCp (courseOf s.cur)) x.asid x.sup k ea = .ok pa e) :
    s.threadTarget x k ea size = if placeAllows x.sup (s.placeOf pa) then .ok (.phys pa)
      else .error { cause := 0x0C, tval := BitVec.ofNat 64 ea } := by
  have hp := State.translate_ok_place ht
  simp only [threadTarget, ge_iff_le, Nat.not_le.2 h, ha, hs, ht, ne_eq, not_true_eq_false, Bool.false_eq_true, if_false]

end Target

end Sys2Proof.Machine
end

section
open Sys2Proof Sys2Proof.Machine

/-- Settles O10: each clause is one outcome of the checks. -/
theorem accessChecksInOrder : Obligations.AccessChecksInOrder := by
  unfold Obligations.AccessChecksInOrder
  intro s k ea size x r fails scratch x'
  have hin : inScratch ea = true ↔ scratch := inScratch_iff
  refine ⟨State.threadTarget_beyond, State.threadTarget_misaligned, fun h ha hs hb => ?_, fun h ha hs hb => ?_,
    fun c h ha hs ht => ?_, fun pa e h ha hs ht => ?_⟩
  · exact (State.threadTarget_scratch h ha (hin.2 hs)).trans (if_pos hb)
  · exact (State.threadTarget_scratch h ha (hin.2 hs)).trans (if_neg (Nat.not_le.2 hb))
  · exact State.threadTarget_fault h ha (Bool.eq_false_iff.2 (mt hin.1 hs)) ht
  · have hr := State.threadTarget_page (size := size) h ha (Bool.eq_false_iff.2 (mt hin.1 hs)) ht
    exact ⟨fun hp => hr.trans (if_neg (by rw [hp]; exact Bool.false_ne_true)), fun hp => hr.trans (if_pos hp)⟩

/-- Settles O11: the checks of `translate`, its bit fields read as the claim spells them. -/
theorem translationOutcomes : Obligations.TranslationOutcomes := by
  unfold Obligations.TranslationOutcomes
  intro s h asid va lvl sup k e r permits pa foreign
  have hk : k.allowed e.toNat = permits := by cases k <;> rfl
  have hf : (pa < 0x8000000000 ∧ bitsAt e.toNat 7 5 ≠ s.imapIL (bitsAt pa 38 33)) ↔ foreign := by
    rw [bitsAt_eq_div_mod, bitsAt_eq_div_mod]
    exact Iff.rfl
  refine ⟨fun hv => if_pos hv, fun hv hl => ?_, fun hv hl => ?_⟩
  · simp only [r, State.translate, ge_iff_le, Nat.not_le.2 hv, hl, if_false]
  have hr : r = if !permits || (!sup && !e.getLsbD 4) then .fault 0x0C
      else if foreign then .fault 0x0C else if s.placeOf pa = .hole then .fault 0x08 else .ok pa e.toNat := by
    simp only [r, State.translate, ge_iff_le, Nat.not_le.2 hv, hl, if_false, hk, bitAt_toNat]
    simp only [pa] at hf ⊢
    simp only [hf]
  rw [hr]
  refine ⟨fun hp => if_pos ?_, fun hp hu => ?_⟩
  · simpa using hp
  · rw [if_neg (by rcases hu with hu | hu <;> simp only [hp, hu] <;> simp)]
    exact ⟨fun hfo => if_pos hfo, fun hfo hh => by rw [if_neg hfo, if_pos hh], fun hfo hh => by rw [if_neg hfo, if_neg hh]⟩

end

section
/-! SUPPORT. Loads, stores and atomics (R145 to R148, R352 to R359): how each of their own parts ends, one equation per outcome of
the access. -/

namespace Sys2Proof.Machine

/-! ### Values read, and their extension (R5, R145) -/

theorem ofBytesLE_lt : ∀ l : List Byte, ofBytesLE l < 256 ^ l.length
  | [] => Nat.one_pos
  | b :: r => by
    have := ofBytesLE_lt r
    have := b.isLt
    rw [ofBytesLE, List.length_cons, pow_succ]
    omega

@[simp] theorem rangeFrom_length : ∀ lo n : Nat, (rangeFrom lo n).length = n
  | _, 0 => rfl
  | lo, n + 1 => by rw [rangeFrom, List.length_cons, rangeFrom_length]

theorem Slot.scratchRead_lt (x : Slot) (off n : Nat) : x.scratchRead off n < 2 ^ (8 * n) := by
  have := ofBytesLE_lt ((rangeFrom off n).map (x.scratch.getD 0#8))
  rwa [List.length_map, rangeFrom_length, show (256 : Nat) = 2 ^ 8 from rfl, ← pow_mul] at this

theorem State.readPhys_lt (s : State) : ∀ n pa : Nat, s.readPhys pa n < 2 ^ (8 * n)
  | 0, _ => Nat.one_pos
  | n + 1, pa => by
    have := readPhys_lt s n (pa + 1)
    have := (s.physByte pa).isLt
    rw [readPhys, Nat.mul_succ, pow_add]
    omega

/-- A value of an access's bytes, extended by its size code: with its sign below code 4, with zeros from there on. -/
theorem loadExt_ofNat {z v : Nat} (hz : z < 8) (hv : v < 2 ^ (8 * sizeOf' z)) :
    loadExt z (BitVec.ofNat 64 v) =
      if z < 4 then (BitVec.ofNat (8 * sizeOf' z) v).signExtend 64 else BitVec.ofNat 64 v := by
  have hs : ∀ w, w ≤ 64 → (BitVec.ofNat 64 v).setWidth w = BitVec.ofNat w v := fun w h => by
    apply BitVec.eq_of_toNat_eq
    rw [BitVec.toNat_setWidth, BitVec.toNat_ofNat, BitVec.toNat_ofNat, Nat.mod_mod_of_dvd _ (Nat.pow_dvd_pow 2 h)]
  have hzx : ∀ w, v < 2 ^ w → w ≤ 64 → (BitVec.ofNat w v).setWidth 64 = BitVec.ofNat 64 v := fun w hv h => by
    apply BitVec.eq_of_toNat_eq
    rw [BitVec.toNat_setWidth, BitVec.toNat_ofNat, BitVec.toNat_ofNat, Nat.mod_eq_of_lt hv]
  interval_cases z
  · exact congrArg (BitVec.signExtend 64) (hs 8 (by decide))
  · exact congrArg (BitVec.signExtend 64) (hs 16 (by decide))
  · exact congrArg (BitVec.signExtend 64) (hs 32 (by decide))
  · exact (BitVec.signExtend_eq _).symm
  · exact (congrArg (BitVec.setWidth 64) (hs 8 (by decide))).trans (hzx 8 hv (by decide))
  · exact (congrArg (BitVec.setWidth 64) (hs 16 (by decide))).trans (hzx 16 hv (by decide))
  · exact (congrArg (BitVec.setWidth 64) (hs 32 (by decide))).trans (hzx 32 hv (by decide))
  · rfl

/-- EA of an offset in units of the access's size (R145). -/
theorem eaOff_eq (s : State) (a : BitVec 5) (o : BitVec 10) (z : Nat) :
    eaOff s a o z = s.rs a + BitVec.ofInt 64 (o.toInt * (sizeOf' z : Nat)) := by
  rw [BitVec.ofInt_mul]
  rfl

/-! ### Reads and writes of a target (R148, R412) -/

section Access
variable {s : State} {pa ea size : Nat}

theorem State.targetRead_reaches (h : s.reaches pa size) :
    s.targetRead s.thr (.phys pa) ea size = .ok (BitVec.ofNat 64 (s.readPhys pa size), s) := by
  obtain ⟨hh, hw, ⟨loc, hp⟩, hg⟩ := h
  simp only [targetRead, hh, hw, hp, hg, Bool.false_eq_true, if_false, if_true]

theorem State.targetRead_down {x : Slot} (h : s.homeDown pa = true) :
    s.targetRead x (.phys pa) ea size = .error { cause := 0x15, tval := BitVec.ofNat 64 ea, rsts := 8 } := by
  simp only [targetRead, h, if_true]

theorem State.targetRead_device {x : Slot} (h : s.homeDown pa = false) (hw : s.windowDrops x.asid pa = false)
    (hp : ∀ loc, s.placeOf pa ≠ .ram loc) : s.targetRead x (.phys pa) ea size =
      .ok (s.devRead (s.placeOf pa) size, { s with freeCnt := s.freeCnt + 1 }) := by
  simp only [targetRead, h, hw, Bool.false_eq_true, if_false]

theorem State.targetWrite_ram {x : Slot} {v : W64} (h : s.homeDown pa = false) (hw : s.windowDrops x.asid pa = false)
    (hp : ∃ loc, s.placeOf pa = .ram loc) :
    s.targetWrite x (.phys pa) ea size v = .ok (s.writePhys pa v.toNat size) := by
  obtain ⟨loc, hp⟩ := hp
  simp only [targetWrite, h, hw, hp, Bool.false_eq_true, if_false]

theorem State.targetWrite_down {x : Slot} {v : W64} (h : s.homeDown pa = true) :
    s.targetWrite x (.phys pa) ea size v =
      .ok (s.setThr { s.thr with async15 := s.thr.async15 ++ [(8, BitVec.ofNat 64 ea)] }) := by
  simp only [targetWrite, h, if_true]

theorem State.targetWrite_device {x : Slot} {v : W64} {s' : State} (h : s.homeDown pa = false)
    (hw : s.windowDrops x.asid pa = false) (hp : ∀ loc, s.placeOf pa ≠ .ram loc)
    (hd : s.devWrite (some x.asid) (s.placeOf pa) v size = some s') : s.targetWrite x (.phys pa) ea size v = .ok s' := by
  simp only [targetWrite, h, hw, hd, Bool.false_eq_true, if_false]

theorem State.targetWrite_refused {x : Slot} {v : W64} (h : s.homeDown pa = false)
    (hw : s.windowDrops x.asid pa = false) (hp : ∀ loc, s.placeOf pa ≠ .ram loc)
    (hd : s.devWrite (some x.asid) (s.placeOf pa) v size = none) :
    s.targetWrite x (.phys pa) ea size v = .error { cause := 0x0C, tval := BitVec.ofNat 64 ea } := by
  simp only [targetWrite, h, hw, hd, Bool.false_eq_true, if_false]

end Access

/-! ### How a load and a store end -/

section Scalar
variable {s : State} {d : BitVec 5} {ea v : W64} {z : Nat}

theorem exeLoad_error {t : Trap} (h : s.threadTarget s.thr .load ea.toNat (sizeOf' z) = .error t) :
    exeLoad s d ea z = .trap s t := by
  simp only [exeLoad, State.threadLoad, h]

theorem exeLoad_ok {t : Target} {s' : State} (h : s.threadTarget s.thr .load ea.toNat (sizeOf' z) = .ok t)
    (hr : s.targetRead s.thr t ea.toNat (sizeOf' z) = .ok (v, s')) : exeLoad s d ea z = exePut s' d (loadExt z v) := by
  simp only [exeLoad, State.threadLoad, h, hr]

theorem exeLoad_trap {t : Target} {e : Trap} (h : s.threadTarget s.thr .load ea.toNat (sizeOf' z) = .ok t)
    (hr : s.targetRead s.thr t ea.toNat (sizeOf' z) = .error e) : exeLoad s d ea z = .trap s e := by
  simp only [exeLoad, State.threadLoad, h, hr]

theorem exeStore_error {t : Trap} (h : s.threadTarget s.thr .store ea.toNat (sizeOf' z) = .error t) :
    exeStore s ea v z = .trap s t := by
  simp only [exeStore, State.threadStore, h]

theorem exeStore_ok {t : Target} {s' : State} (h : s.threadTarget s.thr .store ea.toNat (sizeOf' z) = .ok t)
    (hw : s.targetWrite s.thr t ea.toNat (sizeOf' z) v = .ok s') : exeStore s ea v z = .done s' := by
  simp only [exeStore, State.threadStore, h, hw]

theorem exeStore_trap {t : Target} {e : Trap} (h : s.threadTarget s.thr .store ea.toNat (sizeOf' z) = .ok t)
    (hw : s.targetWrite s.thr t ea.toNat (sizeOf' z) v = .error e) : exeStore s ea v z = .trap s e := by
  simp only [exeStore, State.threadStore, h, hw]

end Scalar

/-- The outcomes of a load whose EA is `ea`, its size code `z` (R148). -/
theorem claims_of_load {i : Instr} {st z : BitVec 3} {u : Uses} {d : BitVec 5} {ea' ea : State → W64}
    (hx : ∀ s, exec i s = runInsn i st (fun s => exeLoad s d (ea' s) z.toNat) s) (he : ∀ s, ea' s = ea s)
    (hu : ∀ x, usesOf x i = u := by intro x; rfl) :
    let size := 2 ^ (z.toNat % 4)
    let ext := fun (v : Nat) => if z.toNat < 4 then (BitVec.ofNat (8 * size) v).signExtend 64 else BitVec.ofNat 64 v
    let put := fun (s : State) (v : W64) => s.setThr (s.thr.putS d.toNat v)
    let goes := fun (t : Target) (s : State) => s.threadTarget s.thr .load (ea s).toNat size = .ok t
    (∀ t : Trap, Traps i u (fun s => s.threadTarget s.thr .load (ea s).toNat size = .error t) id (fun _ => t))
      ∧ (∀ off : Nat, Does i u st (goes (.scratch off)) fun s => put s (ext (s.thr.scratchRead off size)))
      ∧ (∀ pa : Nat, Does i u st (fun s => goes (.phys pa) s ∧ s.reaches pa size) fun s => put s (ext (s.readPhys pa size)))
      ∧ (∀ pa : Nat, Traps i u (fun s => goes (.phys pa) s ∧ s.homeDown pa = true) id
          fun s => { cause := 0x15, tval := ea s, rsts := 8 })
      ∧ (∀ pa : Nat, Does i u st
          (fun s => goes (.phys pa) s ∧ s.homeDown pa = false ∧ s.windowDrops s.thr.asid pa = false
            ∧ ∀ loc, s.placeOf pa ≠ .ram loc)
          fun s => put { s with freeCnt := s.freeCnt + 1 } (loadExt z.toNat (s.devRead (s.placeOf pa) size))) := by
  obtain rfl : ea' = ea := funext he
  intro size ext put goes
  refine ⟨fun t => traps_of_body hx (fun s h => exeLoad_error h) hu, fun off => does_of_body hx (fun s h => ?_) hu,
    fun pa => does_of_body hx (fun s ⟨h, hr⟩ => ?_) hu, fun pa => traps_of_body hx (fun s ⟨h, hd⟩ => ?_) hu,
    fun pa => does_of_body hx (fun s ⟨h, hd, hw, hp⟩ => ?_) hu⟩
  · rw [exeLoad_ok h rfl]
    exact congrArg (exePut s d) (loadExt_ofNat z.isLt (Slot.scratchRead_lt _ _ _))
  · rw [exeLoad_ok h (State.targetRead_reaches hr)]
    exact congrArg (exePut s d) (loadExt_ofNat z.isLt (State.readPhys_lt _ _ _))
  · rw [exeLoad_trap h (State.targetRead_down hd), BitVec.ofNat_toNat, BitVec.setWidth_eq]
    rfl
  · rw [exeLoad_ok h (State.targetRead_device hd hw hp)]
    rfl

/-- The outcomes of a store of s(d) whose EA is `ea`, its size code `z` (R148). -/
theorem claims_of_store {i : Instr} {st : BitVec 3} {z : BitVec 2} {u : Uses} {d : BitVec 5} {ea' ea : State → W64}
    (hx : ∀ s, exec i s = runInsn i st (fun s => exeStore s (ea' s) (s.rs d) z.toNat) s) (he : ∀ s, ea' s = ea s)
    (hu : ∀ x, usesOf x i = u := by intro x; rfl) :
    let size := 2 ^ z.toNat
    let goes := fun (t : Target) (s : State) => s.threadTarget s.thr .store (ea s).toNat size = .ok t
    (∀ t : Trap, Traps i u (fun s => s.threadTarget s.thr .store (ea s).toNat size = .error t) id (fun _ => t))
      ∧ (∀ off : Nat, Does i u st (goes (.scratch off))
          fun s => s.setThr (s.thr.scratchWrite off (toBytesLE (s.rs d).toNat size)))
      ∧ (∀ pa : Nat, Does i u st
          (fun s => goes (.phys pa) s ∧ s.homeDown pa = false ∧ s.windowDrops s.thr.asid pa = false
            ∧ ∃ loc, s.placeOf pa = .ram loc)
          fun s => s.writePhys pa (s.rs d).toNat size)
      ∧ (∀ pa : Nat, Does i u st (fun s => goes (.phys pa) s ∧ s.homeDown pa = true)
          fun s => s.setThr { s.thr with async15 := s.thr.async15 ++ [(8, ea s)] })
      ∧ (∀ (pa : Nat) (t : State → State), Does i u st
          (fun s => goes (.phys pa) s ∧ s.homeDown pa = false ∧ s.windowDrops s.thr.asid pa = false
            ∧ (∀ loc, s.placeOf pa ≠ .ram loc)
            ∧ s.devWrite (some s.thr.asid) (s.placeOf pa) (s.rs d) size = some (t s)) t)
      ∧ (∀ pa : Nat, Traps i u
          (fun s => goes (.phys pa) s ∧ s.homeDown pa = false ∧ s.windowDrops s.thr.asid pa = false
            ∧ (∀ loc, s.placeOf pa ≠ .ram loc)
            ∧ s.devWrite (some s.thr.asid) (s.placeOf pa) (s.rs d) size = none)
          id fun s => { cause := 0x0C, tval := ea s }) := by
  obtain rfl : ea' = ea := funext he
  intro size goes
  have hz : sizeOf' z.toNat = size := congrArg (2 ^ ·) (Nat.mod_eq_of_lt z.isLt)
  simp only [goes, ← hz]
  refine ⟨fun t => traps_of_body hx (fun s h => exeStore_error h) hu,
    fun off => does_of_body hx (fun s h => exeStore_ok h rfl) hu,
    fun pa => does_of_body hx (fun s ⟨h, hd, hw, hp⟩ => exeStore_ok h (State.targetWrite_ram hd hw hp)) hu,
    fun pa => does_of_body hx (fun s ⟨h, hd⟩ => ?_) hu,
    fun pa t => does_of_body hx (fun s ⟨h, hd, hw, hp, ht⟩ => exeStore_ok h (State.targetWrite_device hd hw hp ht)) hu,
    fun pa => traps_of_body hx (fun s ⟨h, hd, hw, hp, ht⟩ => ?_) hu⟩
  · rw [exeStore_ok h (State.targetWrite_down hd), BitVec.ofNat_toNat, BitVec.setWidth_eq]
  · rw [exeStore_trap h (State.targetWrite_refused hd hw hp ht), BitVec.ofNat_toNat, BitVec.setWidth_eq]
    rfl

end Sys2Proof.Machine
end

section
open Sys2Proof Sys2Proof.Machine

/-- Settles O12: the three loads differ in their EA alone. -/
theorem loadsReadTheirAddress : Obligations.LoadsReadTheirAddress := by
  unfold Obligations.LoadsReadTheirAddress
  intro st d a b z c o size ext put load
  exact ⟨claims_of_load (fun s => Eq.refl (execLd st d a z o s)) fun _ => eaOff_eq _ _ _ _,
    claims_of_load (fun s => Eq.refl (execLdx st d a b z s)) fun _ => rfl,
    claims_of_load (fun s => Eq.refl (execLdacq st d a c z s)) fun _ => rfl⟩

/-- Settles O13: the three stores differ in their EA alone. -/
theorem storesWriteTheirAddress : Obligations.StoresWriteTheirAddress := by
  unfold Obligations.StoresWriteTheirAddress
  intro st c d a b z o size store
  have hz : sizeOf' z.toNat = size := congrArg (2 ^ ·) (Nat.mod_eq_of_lt z.isLt)
  exact ⟨claims_of_store (fun s => Eq.refl (execSt st d a z o s)) fun _ => by rw [eaOff_eq, hz],
    claims_of_store (fun s => Eq.refl (execStx st d a b z s)) fun _ => by rw [eaIdx, hz],
    claims_of_store (fun s => Eq.refl (execStrel st d a c z s)) fun _ => rfl⟩

end

section
/-! SUPPORT. Atomics (R355 to R359): how a read-modify-write ends, and how the parts of an atomic and of `cas` end by it. -/

namespace Sys2Proof.Machine

/-! ### A read-modify-write at its home (R356, R357) -/

section Rmw
variable {s : State} {ea size pa off v : Nat} {f : Nat → Option Nat}

theorem State.threadRmw_error {t : Trap} (h : s.threadTarget s.thr .atomic ea size = .error t) :
    s.threadRmw ea size f = .error t := by
  simp only [threadRmw, h]

theorem State.threadRmw_noAtomics (h : s.threadTarget s.thr .atomic ea size = .ok (.phys pa))
    (ht : s.takesAtomics pa = false) : s.threadRmw ea size f = .error { cause := 0x0C, tval := BitVec.ofNat 64 ea } := by
  simp only [threadRmw, h, ht, Bool.not_false, if_true]

theorem State.threadRmw_down (h : s.threadTarget s.thr .atomic ea size = .ok (.phys pa)) (ht : s.takesAtomics pa = true)
    (hd : s.homeDown pa = true) :
    s.threadRmw ea size f = .error { cause := 0x15, tval := BitVec.ofNat 64 ea, rsts := 8 } := by
  simp only [threadRmw, h, ht, hd, Bool.not_true, Bool.false_eq_true, if_false, if_true]

section Reaches
variable (h : s.threadTarget s.thr .atomic ea size = .ok (.phys pa)) (ht : s.takesAtomics pa = true) (hr : s.reaches pa size)
include h ht hr

theorem State.threadRmw_writes (hf : f (s.readPhys pa size) = some v) :
    s.threadRmw ea size f = .ok (s.readPhys pa size, s.writePhys pa v size) := by
  obtain ⟨hd, hw, -, hg⟩ := hr
  simp only [threadRmw, h, ht, hd, hw, hg, hf, Bool.not_true, Bool.false_eq_true, if_false]

theorem State.threadRmw_reads (hf : f (s.readPhys pa size) = none) :
    s.threadRmw ea size f = .ok (s.readPhys pa size, s) := by
  obtain ⟨hd, hw, -, hg⟩ := hr
  simp only [threadRmw, h, ht, hd, hw, hg, hf, Bool.not_true, Bool.false_eq_true, if_false]

end Reaches

theorem State.threadRmw_scratch_writes (h : s.threadTarget s.thr .atomic ea size = .ok (.scratch off))
    (hf : f (s.thr.scratchRead off size) = some v) :
    s.threadRmw ea size f = .ok (s.thr.scratchRead off size, s.setThr (s.thr.scratchWrite off (toBytesLE v size))) := by
  simp only [threadRmw, h, hf]

theorem State.threadRmw_scratch_reads (h : s.threadTarget s.thr .atomic ea size = .ok (.scratch off))
    (hf : f (s.thr.scratchRead off size) = none) : s.threadRmw ea size f = .ok (s.thr.scratchRead off size, s) := by
  simp only [threadRmw, h, hf]

end Rmw

/-! ### How an atomic and a `cas` end -/

section Ends
variable {s : State} {d a b : BitVec 5} {z : BitVec 1} {op old : Nat} {signed : Bool}

theorem exeAmo_trap {t : Trap} (h : ∀ f, s.threadRmw (s.rs a).toNat (amoSize z) f = .error t) :
    exeAmo s d a b z op signed = .trap s t := by
  simp only [exeAmo, h]

theorem exeCas_trap {t : Trap} (h : ∀ f, s.threadRmw (s.rs a).toNat (amoSize z) f = .error t) :
    exeCas s d a b z = .trap s t := by
  simp only [exeCas, h]

theorem exeAmo_ok {s' : State} (h : s.threadRmw (s.rs a).toNat (amoSize z)
      (fun old => some (amoOp op (8 * amoSize z) old ((s.rs b).toNat % 2 ^ (8 * amoSize z))).1) = .ok (old, s')) :
    exeAmo s d a b z op signed = exePut (s'.raise (amoOp op (8 * amoSize z) old ((s.rs b).toNat % 2 ^ (8 * amoSize z))).2)
      d (amoExt z signed old) := by
  simp only [exeAmo, h]

theorem exeCas_ok {s' : State} (h : s.threadRmw (s.rs a).toNat (amoSize z)
      (fun old => if old = (s.rs d).toNat % 2 ^ (8 * amoSize z) then some ((s.rs b).toNat % 2 ^ (8 * amoSize z)) else none)
        = .ok (old, s')) : exeCas s d a b z = exePut s' d (amoExt z true old) := by
  simp only [exeCas, h]

end Ends

theorem amoExt_sign (z : BitVec 1) (v : Nat) : amoExt z true v = (BitVec.ofNat (8 * amoSize z) v).signExtend 64 := by
  rcases BitVec.eq_zero_or_eq_one z with rfl | rfl
  · rfl
  · exact (BitVec.signExtend_eq _).symm

theorem amoExt_zero (z : BitVec 1) (v : Nat) : amoExt z false v = (BitVec.ofNat (8 * amoSize z) v).zeroExtend 64 := by
  rcases BitVec.eq_zero_or_eq_one z with rfl | rfl
  · rfl
  · exact (BitVec.setWidth_eq _).symm

section Claims
variable {i : Instr} {st : BitVec 3} {d a b : BitVec 5} {z : BitVec 1} {u : Uses} {body : State → Exe}

/-- An atomic that its checks stop, where its part ends in the trap of every read-modify-write that fails. -/
theorem stops_of_rmw (hx : ∀ s, exec i s = runInsn i st body s)
    (hb : ∀ s t, (∀ f, s.threadRmw (s.rs a).toNat (amoSize z) f = .error t) → body s = .trap s t)
    (hu : ∀ x, usesOf x i = u := by intro x; rfl) :
    let goes := fun (t : Target) (s : State) => s.threadTarget s.thr .atomic (s.rs a).toNat (amoSize z) = .ok t
    (∀ t : Trap, Traps i u (fun s => s.threadTarget s.thr .atomic (s.rs a).toNat (amoSize z) = .error t) id (fun _ => t))
      ∧ (∀ pa, Traps i u (fun s => goes (.phys pa) s ∧ s.takesAtomics pa = false) id
          fun s => { cause := 0x0C, tval := s.rs a })
      ∧ (∀ pa, Traps i u (fun s => goes (.phys pa) s ∧ s.takesAtomics pa = true ∧ s.homeDown pa = true) id
          fun s => { cause := 0x15, tval := s.rs a, rsts := 8 }) := by
  refine ⟨fun t => traps_of_body hx (fun s h => hb s t fun _ => State.threadRmw_error h) hu,
    fun pa => traps_of_body hx (fun s ⟨h, ht⟩ => ?_) hu, fun pa => traps_of_body hx (fun s ⟨h, ht, hd⟩ => ?_) hu⟩
  · rw [hb s _ fun _ => State.threadRmw_noAtomics h ht, BitVec.ofNat_toNat, BitVec.setWidth_eq]
    rfl
  · rw [hb s _ fun _ => State.threadRmw_down h ht hd, BitVec.ofNat_toNat, BitVec.setWidth_eq]
    rfl

/-- The outcomes of an atomic of operation `op`, which the claim spells `op'` and whose old value it extends by `ext`. -/
theorem claims_of_amo {op : Nat} {signed : Bool} {ext : Nat → W64} {op' : Nat → Nat → Nat × Flags}
    (hx : ∀ s, exec i s = runInsn i st (fun s => exeAmo s d a b z op signed) s)
    (he : ∀ v, amoExt z signed v = ext v) (ho : ∀ x y, amoOp op (8 * amoSize z) x y = op' x y := by intro x y; rfl)
    (hu : ∀ x, usesOf x i = u := by intro x; rfl) :
    let size := amoSize z
    let put := fun (s : State) (v : W64) => s.setThr (s.thr.putS d.toNat v)
    let ea := fun (s : State) => (s.rs a).toNat
    let B := fun (s : State) => (s.rs b).toNat % 2 ^ (8 * size)
    let goes := fun (t : Target) (s : State) => s.threadTarget s.thr .atomic (ea s) size = .ok t
    ((∀ t : Trap, Traps i u (fun s => s.threadTarget s.thr .atomic (ea s) size = .error t) id (fun _ => t))
      ∧ (∀ pa, Traps i u (fun s => goes (.phys pa) s ∧ s.takesAtomics pa = false) id
          fun s => { cause := 0x0C, tval := s.rs a })
      ∧ (∀ pa, Traps i u (fun s => goes (.phys pa) s ∧ s.takesAtomics pa = true ∧ s.homeDown pa = true) id
          fun s => { cause := 0x15, tval := s.rs a, rsts := 8 }))
      ∧ (∀ pa, Does i u st (fun s => goes (.phys pa) s ∧ s.takesAtomics pa = true ∧ s.reaches pa size) fun s =>
          let old := s.readPhys pa size
          put ((s.writePhys pa (op' old (B s)).1 size).raise (op' old (B s)).2) (ext old))
      ∧ (∀ off, Does i u st (goes (.scratch off)) fun s =>
          let old := s.thr.scratchRead off size
          put ((s.setThr (s.thr.scratchWrite off (toBytesLE (op' old (B s)).1 size))).raise (op' old (B s)).2) (ext old)) := by
  obtain rfl : amoExt z signed = ext := funext he
  obtain rfl : amoOp op (8 * amoSize z) = op' := funext fun x => funext (ho x)
  exact ⟨stops_of_rmw hx (fun s t => exeAmo_trap) hu,
    fun pa => does_of_body hx (fun s ⟨h, ht, hr⟩ => exeAmo_ok (State.threadRmw_writes h ht hr rfl)) hu,
    fun off => does_of_body hx (fun s h => exeAmo_ok (State.threadRmw_scratch_writes h rfl)) hu⟩

end Claims

end Sys2Proof.Machine
end

section
open Sys2Proof Sys2Proof.Machine

/-- Settles O14: the eleven atomics differ in their operation and in how the old value is extended; `cas` writes where the old
value is the one expected. -/
theorem atomicsAreOneEvent : Obligations.AtomicsAreOneEvent := by
  unfold Obligations.AtomicsAreOneEvent
  intro st c d a b z size n sign zero put ea B goes scr stops amo u' expd
  have hs : ∀ v, amoExt z true v = sign v := amoExt_sign z
  have hz : ∀ v, amoExt z false v = zero v := amoExt_zero z
  refine ⟨?add, ?adds, ?and, ?or, ?xor, ?min, ?max, ?minn, ?maxn, ?swap, ?fadd, ?stops, ?swaps, ?stands, ?scratch⟩
  case add => exact claims_of_amo (op' := fun x y => ((x + y) % 2 ^ n, flNone)) (fun s => Eq.refl (execAmoAdd st d a b z c s)) hs
  case adds => exact claims_of_amo (op' := fun x y => clampInt true n flSAT (sintOf n x + sintOf n y)) (fun s => Eq.refl (execAmoAdds st d a b z c s)) hs
  case and => exact claims_of_amo (op' := fun x y => (x &&& y, flNone)) (fun s => Eq.refl (execAmoAnd st d a b z c s)) hs
  case or => exact claims_of_amo (op' := fun x y => (x ||| y, flNone)) (fun s => Eq.refl (execAmoOr st d a b z c s)) hs
  case xor => exact claims_of_amo (op' := fun x y => (x ^^^ y, flNone)) (fun s => Eq.refl (execAmoXor st d a b z c s)) hs
  case min => exact claims_of_amo (op' := fun x y => (if sintOf n x ≤ sintOf n y then x else y, flNone)) (fun s => Eq.refl (execAmoMin st d a b z c s)) hs
  case max => exact claims_of_amo (op' := fun x y => (if sintOf n x ≤ sintOf n y then y else x, flNone)) (fun s => Eq.refl (execAmoMax st d a b z c s)) hs
  case minn => exact claims_of_amo (op' := fun x y => (min x y, flNone)) (fun s => Eq.refl (execAmoMinn st d a b z c s)) hz
  case maxn => exact claims_of_amo (op' := fun x y => (max x y, flNone)) (fun s => Eq.refl (execAmoMaxn st d a b z c s)) hz
  case swap => exact claims_of_amo (op' := fun _ y => (y, flNone)) (fun s => Eq.refl (execAmoSwap st d a b z c s)) hs
  case fadd =>
    refine claims_of_amo (fun s => Eq.refl (execAmoFadd st d a b z c s)) hz fun x y => ?_
    rcases BitVec.eq_zero_or_eq_one z with rfl | rfl <;> rfl
  case stops => exact stops_of_rmw (fun s => Eq.refl (execCas st d a b z c s)) fun s t => exeCas_trap
  case swaps =>
    refine fun pa => does_of_body (fun s => Eq.refl (execCas st d a b z c s)) fun s ⟨h, ht, hr, ho⟩ => ?_
    rw [exeCas_ok (State.threadRmw_writes h ht hr (if_pos ho)), hs, show s.readPhys pa (amoSize z) = expd s from ho]
    rfl
  case stands =>
    refine fun pa => does_of_body (fun s => Eq.refl (execCas st d a b z c s)) fun s ⟨h, ht, hr, ho⟩ => ?_
    rw [exeCas_ok (State.threadRmw_reads h ht hr (if_neg ho)), hs]
    rfl
  case scratch =>
    refine fun off => does_of_body (fun s => Eq.refl (execCas st d a b z c s)) fun s h => ?_
    let ends := fun t => Exe.done (put t (sign (s.thr.scratchRead off size)))
    by_cases ho : s.thr.scratchRead off size = expd s
    · rw [exeCas_ok (State.threadRmw_scratch_writes h (if_pos ho)), hs]
      exact congrArg ends (if_pos ho).symm
    · rw [exeCas_ok (State.threadRmw_scratch_reads h (if_neg ho)), hs]
      exact congrArg ends (if_neg ho).symm

end

section
/-! SUPPORT. Fences and `launch` (R161, R354): what a fence waits for, and how a launch whose record answers ends by its queue. -/

namespace Sys2Proof.Machine

theorem anyB_eq_true {α : Type} {p : α → Bool} : ∀ {l : List α}, anyB p l = true ↔ ∃ x ∈ l, p x = true
  | [] => by simp [anyB]
  | x :: r => by simp [anyB, anyB_eq_true (l := r)]

theorem State.copiesOut_eq_true {s : State} {n : Nat} : s.copiesOut n = true ↔
    ∃ e ∈ s.copies, e.2.slot = some n ∧ e.2.orphan = false ∧ e.2.replied = false := by
  simp [copiesOut, anyB_eq_true, and_assoc]

theorem State.ropsOut_eq_true {s : State} {n : Nat} : s.ropsOut n = true ↔
    ∃ e ∈ s.rops, e.2.slot = some n ∧ e.2.orphan = false ∧ e.2.replied = false := by
  simp [ropsOut, anyB_eq_true, and_assoc]

/-! ### launch (R161) -/

/-- How a launch that is the thread's own ends, by what becomes of the append at queue `q`. -/
def launchEnd (s : State) (d : BitVec 5) (q : Nat) : AppRes → Exe
  | .accepted pos t => exePut t d (BitVec.ofNat 64 pos)
  | .refused t => exePut t d (BitVec.allOnes 64)
  | .full t => exePut t d (BitVec.allOnes 64)
  | .staged t => .done (if d = 0#5 then t
      else t.setThr { t.thr.putS d.toNat (t.rs d) with owed := t.thr.owed ++ [(d.toNat, s.threadPart * 256 + q, none)] })
  | .wait => .wait s

section Launch
variable {s t : State} {r ctl : W64} {d : BitVec 5}

theorem exeLaunch_beyond (h : 2 ^ 48 ≤ r.toNat) : exeLaunch s r d = .trap s { cause := 0x09, tval := r } := if_pos h

theorem exeLaunch_misaligned (h : r.toNat < 2 ^ 48) (ha : r.toNat % 128 ≠ 0) :
    exeLaunch s r d = .trap s { cause := 0x06, tval := r } := by
  rw [exeLaunch, if_neg (Nat.not_le.2 h), if_pos ha, exeTrap]

theorem exeLaunch_unreadable {e : Trap} (h : r.toNat < 2 ^ 48) (ha : r.toNat % 128 = 0)
    (hl : s.threadLoad r.toNat 8 = .error e) : exeLaunch s r d = .trap s e := by
  rw [exeLaunch, if_neg (Nat.not_le.2 h), if_neg (not_not.2 ha), hl]

section Read
variable (h : r.toNat < 2 ^ 48 ∧ r.toNat % 128 = 0 ∧ s.threadLoad r.toNat 8 = .ok (ctl, t))
include h

theorem exeLaunch_foreign (ho : ¬ ((t.part t.threadPart).qte = true →
      (t.qctl t.threadPart (bitsAt ctl.toNat 31 24)).asid = t.thr.asid)) :
    exeLaunch s r d =
      exePut (t.modQueue t.threadPart (bitsAt ctl.toNat 31 24) fun x => { x with badref := true }) d (BitVec.allOnes 64) := by
  obtain ⟨h, ha, hl⟩ := h
  rw [Classical.not_imp] at ho
  rw [exeLaunch, if_neg (Nat.not_le.2 h), if_neg (not_not.2 ha), hl]
  exact if_pos (by simpa using ho)

theorem exeLaunch_ours (ho : (t.part t.threadPart).qte = true →
      (t.qctl t.threadPart (bitsAt ctl.toNat 31 24)).asid = t.thr.asid) :
    exeLaunch s r d = launchEnd t d (bitsAt ctl.toNat 31 24)
      (t.append t.threadPart (bitsAt ctl.toNat 31 24) (some t.cur) false r) := by
  obtain ⟨h, ha, hl⟩ := h
  rw [exeLaunch, if_neg (Nat.not_le.2 h), if_neg (not_not.2 ha), hl]
  refine (if_neg (by simpa using ho)).trans ?_
  unfold launchEnd
  rfl

end Read

end Launch

end Sys2Proof.Machine
end

section
open Sys2Proof Sys2Proof.Machine

/-- Settles O15: a fence's part either ends at once or, for `fence.eng`, stands while something is out. -/
theorem fences : Obligations.Fences := by
  unfold Obligations.Fences
  intro st c out
  have hout : ∀ s : State, (s.copiesOut s.cur || s.ropsOut s.cur) = true ↔ out s := fun s => by
    rw [Bool.or_eq_true, State.copiesOut_eq_true, State.ropsOut_eq_true]
  exact ⟨does_of_body (fun s => Eq.refl (execFenceFull st c s)) fun _ _ => rfl,
    does_of_body (fun s => Eq.refl (execFenceAcq st c s)) fun _ _ => rfl,
    does_of_body (fun s => Eq.refl (execFenceRel st c s)) fun _ _ => rfl,
    does_of_body (fun s => Eq.refl (execFenceEng st c s)) fun s h => if_neg (mt (hout s).1 h),
    waits_of_body (fun s => Eq.refl (execFenceEng st c s)) fun s h => if_pos ((hout s).2 h)⟩

/-- Settles O17: the record's checks, and for a record that answers each outcome of the append. -/
theorem launchAppends : Obligations.LaunchAppends := by
  unfold Obligations.LaunchAppends
  intro st a b i u r put ok p q ours app ready
  have hx : ∀ s, exec i s = runInsn i st (fun s => exeLaunch s (s.rs a) b) s := fun s => Eq.refl (execLaunch st a b s)
  have hq : ∀ ctl : W64, bitsAt ctl.toNat 31 24 = q ctl := fun ctl => bitsAt_eq_div_mod _ _ _
  have hours : ∀ {ctl t s o}, ready ctl t s → app ctl t s = o → exeLaunch s (s.rs a) b = launchEnd t b (q ctl) o := by
    intro ctl t s o ⟨hl, ho⟩ ha
    rw [exeLaunch_ours hl (by rw [hq]; exact ho), hq, ← ha]
  refine ⟨traps_of_body hx fun s h => exeLaunch_beyond h, traps_of_body hx fun s ⟨h, ha⟩ => exeLaunch_misaligned h ha,
    fun t => traps_of_body hx fun s ⟨h, ha, hl⟩ => exeLaunch_unreadable h ha hl,
    fun ctl t => does_of_body hx fun s ⟨h, ho⟩ => ?_, fun ctl pos t v => does_of_body hx fun s ⟨h, ho⟩ => ?_,
    fun ctl t v => does_of_body hx fun s ⟨h, ho⟩ => ?_, fun ctl t => stays_of_body hx fun s ⟨h, ho⟩ => ?_,
    fun ctl t v => does_of_body hx fun s ⟨h, ho⟩ => ?_⟩
  · rw [exeLaunch_foreign h (by rw [hq]; exact ho), hq]
    rfl
  · rw [hours h ho]
    rfl
  · rcases ho with ho | ho <;> (rw [hours h ho]; rfl)
  · rw [hours h ho]
    rfl
  · rw [hours h ho]
    rfl

end

section
/-! SUPPORT. What an instruction leaves unchanged: the registers as they will read once pending writes have landed (R119, R120), the
rest of the thread, the other threads, and the machine outside the slots. -/

namespace Sys2Proof.Machine

/-! ### Pending writes and what they leave -/

/-- Landing two lists of writes agrees in a part of the registers that only the writes of kind `q` change, where the lists have the
same writes of that kind. -/
theorem Slot.landList_congr {α : Type} {ρ : Slot → α} {q : Pend → Bool}
    (hskip : ∀ x (p : Pend), q p = false → ρ (x.land1 p.w) = ρ x)
    (hcongr : ∀ x y (p : Pend), ρ x = ρ y → ρ (x.land1 p.w) = ρ (y.land1 p.w))
    {x y : Slot} {l l' : List Pend} (h : ρ x = ρ y) (hl : l.filter q = l'.filter q) : ρ (x.landList l) = ρ (y.landList l') := by
  have hfilter : ∀ (l : List Pend) (x y : Slot), ρ x = ρ y → ρ (x.landList l) = ρ (y.landList (l.filter q)) := by
    intro l
    induction l with
    | nil => exact fun x y h => h
    | cons p r ih =>
      intro x y h
      cases hq : q p with
      | true => rw [List.filter_cons_of_pos hq]; exact ih _ _ (hcongr x y p h)
      | false => rw [List.filter_cons_of_neg (by simp [hq])]; exact ih _ _ ((hskip x p hq).trans h)
  rw [hfilter l x x rfl, hl, hfilter l' y x h.symm]

/-- The kinds of pending writes: to a vector register, and to a mask register. -/
def Pend.isVec (p : Pend) : Bool := match p.w with | .v _ _ _ _ => true | _ => false
def Pend.isMask (p : Pend) : Bool := match p.w with | .m _ _ _ => true | _ => false

theorem Slot.landList_v_congr {x y : Slot} {l l' : List Pend} (h : x.v = y.v) (hl : l.filter Pend.isVec = l'.filter Pend.isVec) :
    (x.landList l).v = (y.landList l').v := by
  refine landList_congr (ρ := Slot.v) (fun x p hp => ?_) (fun x y p h => ?_) h hl
  · obtain ⟨_, w, _⟩ := p
    cases w with
    | s n v => simp only [land1, writeS]; split <;> rfl
    | v k n mask v => exact absurd hp (by simp [Pend.isVec])
    | m n mask v => simp only [land1, writeM]; split <;> rfl
  · cases p.w with
    | s n v => simp only [land1, writeS]; split <;> exact h
    | v k n mask v => simp only [land1, writeV, readV, h]
    | m n mask v => simp only [land1, writeM]; split <;> exact h

theorem Slot.landList_m_congr {x y : Slot} {l l' : List Pend} (h : x.m = y.m) (hl : l.filter Pend.isMask = l'.filter Pend.isMask) :
    (x.landList l).m = (y.landList l').m := by
  refine landList_congr (ρ := Slot.m) (fun x p hp => ?_) (fun x y p h => ?_) h hl
  · obtain ⟨_, w, _⟩ := p
    cases w with
    | s n v => simp only [land1, writeS]; split <;> rfl
    | v k n mask v => rfl
    | m n mask v => exact absurd hp (by simp [Pend.isMask])
  · cases p.w with
    | s n v => simp only [land1, writeS]; split <;> exact h
    | v k n mask v => exact h
    | m n mask v =>
      by_cases h0 : n = 0
      · simpa only [land1, writeM, h0, if_true] using h
      · simp only [land1, writeM, readM, h0, if_false, h]

theorem Slot.readS_landList_congr {n : Nat} {x y : Slot} {l l' : List Pend} (h : x.readS n = y.readS n)
    (hl : l.filter (Pend.isS n) = l'.filter (Pend.isS n)) : (x.landList l).readS n = (y.landList l').readS n := by
  refine landList_congr (ρ := fun x => x.readS n) (fun x p hp => ?_) (fun x y p h => ?_) h hl
  · obtain ⟨_, w, _⟩ := p
    cases w with
    | s k v => exact x.readS_writeS_ne v fun e => by simp [Pend.isS, e] at hp
    | v k n mask v => rfl
    | m k mask v => simp only [land1, writeM]; split <;> rfl
  · cases p.w with
    | s k v =>
      by_cases e : n = k
      · by_cases h0 : k = 0
        · simpa only [land1, writeS, h0, if_true] using h
        · rw [land1, land1, e, readS_writeS_same x v h0, readS_writeS_same y v h0]
      · simpa only [land1, readS_writeS_ne _ _ e] using h
    | v k n mask v => exact h
    | m k mask v =>
      simp only [land1, writeM]
      split <;> exact h

theorem filter_insertPend {q : Pend → Bool} {p : Pend} (h : q p = false) : ∀ l, (insertPend p l).filter q = l.filter q
  | [] => by simp [insertPend, h]
  | r :: l => by
    rw [insertPend]
    split
    · simp only [List.filter_cons, filter_insertPend h l]
    · simp only [List.filter_cons, h, Bool.false_eq_true, if_false]

/-! ### Threads that agree but in one scalar register -/

/-- `y` is the thread `x` but for s(d), what is on its way there, and where the thread stands. -/
structure Slot.KeepsBut (d : Nat) (x y : Slot) : Prop where
  v : y.v = x.v
  m : y.m = x.m
  csr : y.csr = x.csr
  scratch : y.scratch = x.scratch
  hold : y.hold = x.hold
  att : y.att = x.att
  ranks : y.ranks = x.ranks
  readS : ∀ n, n ≠ d → y.readS n = x.readS n
  pend : ∀ q : Pend → Bool, (∀ p, p.isS d = true → q p = false) → y.pend.filter q = x.pend.filter q

namespace Slot.KeepsBut
variable {d : Nat} {x y : Slot}

theorem refl (d : Nat) (x : Slot) : x.KeepsBut d x := ⟨rfl, rfl, rfl, rfl, rfl, rfl, rfl, fun _ _ => rfl, fun _ _ => rfl⟩

theorem addPend (d : Nat) (x : Slot) (land : Nat) (v : W64) : x.KeepsBut d (x.addPend land (.s d v)) := by
  unfold Slot.addPend
  split
  · exact refl d x
  · exact ⟨rfl, rfl, rfl, rfl, rfl, rfl, rfl, fun _ _ => rfl, fun q hq => filter_insertPend (hq ⟨land, .s d v, false⟩ (beq_self_eq_true d)) _⟩

theorem putS (d : Nat) (x : Slot) (v : W64) : x.KeepsBut d (x.putS d v) := by
  have hw : ∃ s, x.writeS d v = { x with s := s } := by
    unfold writeS
    split
    · exact ⟨x.s, rfl⟩
    · exact ⟨_, rfl⟩
  have hr : ∀ n, n ≠ d → (x.putS d v).readS n = x.readS n := fun n hn => x.readS_writeS_ne v hn
  obtain ⟨s, hs⟩ := hw
  unfold Slot.putS at hr ⊢
  rw [hs] at hr ⊢
  refine ⟨rfl, rfl, rfl, rfl, rfl, rfl, rfl, hr, fun q hq => ?_⟩
  rw [List.filter_filter]
  refine List.filter_congr fun p _ => ?_
  cases hp : p.isS d with
  | true => rw [hq p hp]; rfl
  | false => rw [Bool.not_false, Bool.and_true]

/-- Passing on to the next instruction leaves the registers. -/
theorem finish (h : x.KeepsBut d y) (e : Nat) (i : Option Nat) :
    x.KeepsBut d { y.advance with earliest := e, issuedAt := i, doing := none } := by
  obtain ⟨hv, hm, hc, hx, hh, ha, hr, hs, hp⟩ := h
  unfold advance
  split <;> exact ⟨hv, hm, hc, hx, hh, ha, hr, hs, hp⟩

variable (h : x.KeepsBut d y)
include h

theorem due (T : Nat) {q : Pend → Bool} (hq : ∀ p, p.isS d = true → q p = false) :
    (y.pend.filter fun p => decide (p.land ≤ T)).filter q = (x.pend.filter fun p => decide (p.land ≤ T)).filter q := by
  simp only [List.filter_filter]
  exact h.pend _ fun p hp => by rw [hq p hp, Bool.false_and]

theorem readV (T k n : Nat) : (y.landBy T).readV k n = (x.landBy T).readV k n := by
  refine congrArg (fun v : Map (BitVec 2048) => v.getD 0#2048 (k * 32 + n)) (landList_v_congr h.v (h.due T fun p hp => ?_))
  obtain ⟨_, w, _⟩ := p
  cases w <;> simp_all [Pend.isS, Pend.isVec]

theorem readM (T n : Nat) : (y.landBy T).readM n = (x.landBy T).readM n := by
  refine congrArg (fun m : Map (BitVec 16384) => if n = 0 then BitVec.allOnes 16384 else m.getD 0#16384 n)
    (landList_m_congr h.m (h.due T fun p hp => ?_))
  obtain ⟨_, w, _⟩ := p
  cases w <;> simp_all [Pend.isS, Pend.isMask]

theorem sAt (T : Nat) {n : Nat} (hn : n ≠ d) : y.sAt T n = x.sAt T n := by
  refine readS_landList_congr (h.readS n hn) (h.due T fun p hp => ?_)
  obtain ⟨_, w, _⟩ := p
  cases w with
  | s k v =>
    obtain rfl : k = d := beq_iff_eq.1 hp
    exact beq_eq_false_iff_ne.2 hn.symm
  | v k n mask v => cases hp
  | m k mask v => cases hp

end Slot.KeepsBut

/-! ### States that agree outside the slots -/

theorem State.agreesOutside_setThr (s : State) (x : Slot) : s.agreesOutside (s.setThr x) := rfl

theorem State.agreesOutside_issued (s : State) (u : Uses) (g : Nat) : s.agreesOutside (s.issued u g) := by
  unfold issued
  split <;> rfl

theorem State.agreesOutside.trans {s t r : State} (h : s.agreesOutside t) (h' : t.agreesOutside r) : s.agreesOutside r := by
  unfold agreesOutside at h h' ⊢
  rw [h] at h'
  exact h'

/-- The end of an instruction touches only its thread's slot and its course. -/
theorem State.agreesOutside_finish (s : State) (u : Uses) (g : Nat) (st : BitVec 3) :
    s.agreesOutside ((s.issued u g).finish st) := (s.agreesOutside_issued u g).trans (agreesOutside_setThr _ _)

theorem State.agreesOutside_landDue (s : State) : s.agreesOutside s.landDue := s.agreesOutside_setThr _

theorem State.agreesOutside.place {s t : State} (h : s.agreesOutside t) (pa : Nat) : t.placeOf pa = s.placeOf pa := by
  rw [h]
  exact placeOf_congr rfl rfl pa

theorem State.agreesOutside.sameMemory {s t : State} (h : s.agreesOutside t) : s.sameMemory t := fun pa =>
  physByte_eq_of_place (h.place pa) fun loc _ => by rw [h]; rfl

/-- What a thread other than the issuing one is, through an instruction's end. -/
theorem State.slot_finish_ne (s : State) (u : Uses) (g : Nat) (st : BitVec 3) {n : Nat} (h : n ≠ s.cur) :
    ((s.issued u g).finish st).slot n = s.slot n := by
  rw [finish, slot_setThr, issued_cur, if_neg h, issued_slot]

/-- Landing the due writes leaves everything but the scalar, vector and mask registers. -/
theorem Slot.landNow_eq (x : Slot) (t : Nat) : ∃ s v m p, x.landNow t = { x with s := s, v := v, m := m, pend := p } := by
  unfold landNow landBy
  split
  · exact ⟨_, _, _, _, rfl⟩
  · obtain ⟨s, v, m, h⟩ := x.landList_eq (x.pend.filter fun p => decide (p.land ≤ t))
    exact ⟨s, v, m, _, by rw [h]⟩

/-- What an instruction leaves whose effect on the thread `x` at issue is within s(d). -/
theorem frames_of_keepsBut {s m : State} {d : Nat} (hx : s.landDue.thr.KeepsBut d m.thr) (hc : m.cur = s.cur)
    (ho : ∀ n, n ≠ s.cur → m.slot n = s.slot n) (u : Uses) (g : Nat) (st : BitVec 3) :
    let l := s.landDue
    let t := (m.issued u g).finish st
    (s.sameOthers t
      ∧ (∀ T k n, s.now ≤ T → (t.thr.landBy T).readV k n = (l.thr.landBy T).readV k n)
      ∧ (∀ T n, s.now ≤ T → (t.thr.landBy T).readM n = (l.thr.landBy T).readM n)
      ∧ (∀ n, t.thr.csrv n = s.thr.csrv n)
      ∧ t.thr.hold = s.thr.hold ∧ t.thr.att = s.thr.att ∧ t.thr.ranks = s.thr.ranks)
      ∧ t.thr.scratch = s.thr.scratch ∧ ∀ T n, s.now ≤ T → n ≠ d → t.thr.sAt T n = l.thr.sAt T n := by
  intro l t
  have hk : l.thr.KeepsBut d t.thr := by
    simp only [t, State.finish_thr, State.issued_thr]
    exact hx.finish _ _
  have hl : ∃ a b c p, l.thr = { s.thr with s := a, v := b, m := c, pend := p } := by
    rw [State.landDue_thr]
    exact s.thr.landNow_eq s.now
  refine ⟨⟨fun n hn => ?_, fun T k n _ => hk.readV T k n, fun T n _ => hk.readM T n, fun n => ?_, ?_, ?_, ?_⟩, ?_,
    fun T n _ hn => hk.sAt T hn⟩
  · rw [State.slot_finish_ne m u g st (hc ▸ hn), ho n hn]
  all_goals obtain ⟨a, b, c, p, hl⟩ := hl
  · rw [Slot.csrv, hk.csr, hl]; rfl
  · rw [hk.hold, hl]
  · rw [hk.att, hl]
  · rw [hk.ranks, hl]
  · rw [hk.scratch, hl]

/-- A store changes the step's stores and what had met an error, and nothing else. -/
theorem State.writePhys_eq (n : Nat) : ∀ (s : State) (pa v : Nat), ∃ st po, s.writePhys pa v n = { s with stores := st, poison := po } := by
  induction n with
  | zero => exact fun s pa v => ⟨s.stores, s.poison, rfl⟩
  | succ n ih =>
    intro s pa v
    have h1 : ∃ st po, s.writePhysByte pa (BitVec.ofNat 8 v) = { s with stores := st, poison := po } := by
      unfold writePhysByte
      split
      · exact ⟨_, _, rfl⟩
      · exact ⟨_, _, rfl⟩
    obtain ⟨st, po, h1⟩ := h1
    obtain ⟨st', po', h2⟩ := ih (s.writePhysByte pa (BitVec.ofNat 8 v)) (pa + 1) (v / 256)
    exact ⟨st', po', by rw [writePhys, h2, h1]⟩

/-- What a store of `size` bytes at `pa` leaves. -/
theorem frames_of_store (s : State) (pa v size : Nat) (u : Uses) (g : Nat) (st : BitVec 3) :
    let l := s.landDue
    let t := ((l.writePhys pa v size).issued u g).finish st
    (s.sameOthers t
      ∧ (∀ T k n, s.now ≤ T → (t.thr.landBy T).readV k n = (l.thr.landBy T).readV k n)
      ∧ (∀ T n, s.now ≤ T → (t.thr.landBy T).readM n = (l.thr.landBy T).readM n)
      ∧ (∀ n, t.thr.csrv n = s.thr.csrv n)
      ∧ t.thr.hold = s.thr.hold ∧ t.thr.att = s.thr.att ∧ t.thr.ranks = s.thr.ranks)
      ∧ t.thr.scratch = s.thr.scratch
      ∧ t = { s with slots := t.slots, courses := t.courses, stores := t.stores, poison := t.poison }
      ∧ (∀ T n, s.now ≤ T → t.thr.sAt T n = l.thr.sAt T n)
      ∧ (∀ qa, (∀ j, j < size → s.placeOf (pa + j) ≠ s.placeOf qa) → t.physByte qa = s.physByte qa) := by
  intro l t
  obtain ⟨ss, po, hw⟩ := State.writePhys_eq size l pa v
  have hthr : (l.writePhys pa v size).thr = l.thr := by rw [hw]; rfl
  have hslot : ∀ n, n ≠ s.cur → (l.writePhys pa v size).slot n = s.slot n := fun n hn => by
    rw [hw, ← (show l.slot n = s.slot n by rw [show l = s.setThr _ from rfl, State.slot_setThr, if_neg hn])]
    rfl
  obtain ⟨hkeeps, hscratch, hs⟩ := frames_of_keepsBut (d := 0) (hthr ▸ .refl 0 l.thr) (by rw [hw]; rfl) hslot u g st
  have hout : (l.writePhys pa v size).agreesOutside t := State.agreesOutside_finish _ u g st
  refine ⟨hkeeps, hscratch, ?_, fun T n hT => ?_, fun qa hq => ?_⟩
  · unfold State.agreesOutside at hout
    rw [hout, hw]
    rfl
  · by_cases hn : n = 0
    · rw [hn]; rfl
    · exact hs T n hT hn
  · have hplace := s.agreesOutside_landDue.place
    rw [hout.sameMemory qa, State.physByte_writePhys_ne v fun j hj => by rw [hplace, hplace]; exact hq j hj,
      s.agreesOutside_landDue.sameMemory qa]

end Sys2Proof.Machine
end

section
open Sys2Proof Sys2Proof.Machine

/-- Settles O9: an instruction whose effect is one scalar register keeps the rest of its thread; a store keeps all of it. -/
theorem registerAndStoreFrames : Obligations.RegisterAndStoreFrames := by
  unfold Obligations.RegisterAndStoreFrames
  intro i u st c lat d a b z o v s size l keeps stores
  have hl : ∀ n, n ≠ s.cur → l.slot n = s.slot n := fun n hn => by
    rw [show l = s.setThr _ from rfl, State.slot_setThr, if_neg hn]
  have hset : ∀ (x : Slot) n, n ≠ s.cur → (l.setThr x).slot n = s.slot n := fun x n hn => by
    rw [State.slot_setThr, if_neg (show n ≠ l.cur from hn), hl n hn]
  refine ⟨fun hi hx => ?_, ?_⟩
  · have hm : ∃ m : State, exec i s = .next ((m.issued u l.thr.grp).finish st) ∧ l.thr.KeepsBut d.toNat m.thr
        ∧ ∃ x, m = l.setThr x := by
      rcases hi with hi | hi
      · refine ⟨_, (hi s hx trivial).2, ?_, _, rfl⟩
        rw [State.later_thr]
        exact Slot.KeepsBut.addPend _ _ _ _
      · refine ⟨_, (hi s hx trivial).2, ?_, _, rfl⟩
        rw [State.thr_setThr]
        exact Slot.KeepsBut.putS _ _ _
    obtain ⟨m, hm, hk, x, rfl⟩ := hm
    obtain ⟨hkeeps, hscratch, hs⟩ := frames_of_keepsBut hk rfl (hset x) u l.thr.grp st
    have hout := s.agreesOutside_landDue.trans ((l.agreesOutside_setThr x).trans (State.agreesOutside_finish _ u l.thr.grp st))
    exact ⟨_, hm, hkeeps, hscratch, hout, hout.sameMemory, hs, fun T => rfl⟩
  · obtain ⟨⟨-, -, hst, -⟩, ⟨-, -, hstx, -⟩, -, -, hstrel, -⟩ := storesWriteTheirAddress st c d a b z o
    exact ⟨fun pa hx ht hh hw hp => ⟨_, (hst pa s hx ⟨ht, hh, hw, hp⟩).2, frames_of_store s pa _ size _ _ st⟩,
      fun pa hx ht hh hw hp => ⟨_, (hstx pa s hx ⟨ht, hh, hw, hp⟩).2, frames_of_store s pa _ size _ _ st⟩,
      fun pa hx ht hh hw hp => ⟨_, (hstrel pa s hx ⟨ht, hh, hw, hp⟩).2, frames_of_store s pa _ size _ _ st⟩⟩

end

section
/-! SUPPORT. The strip (R169): what its checks come to, and how an instruction that passes or fails them ends. -/

namespace Sys2Proof.Machine

/-! ### The checks of the strip, in order -/

section Checks
variable {x : Slot} {ok : Kind → Nat → Bool} {rounds : Bool} {kd : Kind}

theorem stripTrap_of_ilf (h : x.ilf = true) : stripTrap x ok rounds = some { cause := 0x03, tval := x.csrv csrSTYPE } := by
  unfold stripTrap
  split
  · rfl
  · exact if_pos h

/-- The checks of a supported format, each where those before it pass. -/
theorem stripTrap_of_kind (hk : kindOf x.fmt = some kd) (hi : x.ilf = false) : stripTrap x ok rounds =
    if kd = .mod ∧ x.modOk = false then some { cause := 0x03, tval := x.csrv csrSTYPE }
    else if ok kd x.grp = false then some { cause := 0x04, tval := x.csrv csrSTYPE }
    else if rounds = true ∧ x.rm = none then some { cause := 0x04, tval := x.csrv csrFRM } else none := by
  simp only [stripTrap, hk, hi, Bool.false_eq_true, if_false, Bool.and_eq_true, decide_eq_true_eq, Bool.not_eq_true',
    Option.isNone_iff_eq_none]

theorem stripTrap_stripOf (h : x.stripOf kd) : stripTrap x ok rounds =
    if ok kd x.grp = false then some { cause := 0x04, tval := x.csrv csrSTYPE }
    else if rounds = true ∧ x.rm = none then some { cause := 0x04, tval := x.csrv csrFRM } else none := by
  obtain ⟨hk, hi, hm⟩ := h
  rw [stripTrap_of_kind hk hi, if_neg]
  rintro ⟨he, hq⟩
  exact Bool.false_ne_true (hq.symm.trans (hm he))

theorem stripTrap_eq_none (h : x.stripOf kd) (hok : ok kd x.grp = true) (hr : rounds = true → x.rm ≠ none) :
    stripTrap x ok rounds = none := by
  rw [stripTrap_stripOf h, if_neg (by rw [hok]; exact Bool.true_eq_false.mp), if_neg fun ⟨hro, hrm⟩ => hr hro hrm]

end Checks

section Strip
variable {s : State} {ok : Kind → Nat → Bool} {rounds : Bool} {kd : Kind} {body : Kind → Exe}

theorem withStrip_trap {t : Trap} (h : stripTrap s.thr ok rounds = some t) : withStrip s ok rounds body = .trap s t := by
  rw [withStrip, h]

theorem withStrip_stripOf (h : s.thr.stripOf kd) (hok : ok kd s.thr.grp = true) (hr : rounds = true → s.thr.rm ≠ none) :
    withStrip s ok rounds body = body kd := by
  rw [withStrip, stripTrap_eq_none h hok hr]
  simp only [h.1]

end Strip

/-! ### Claims of an instruction whose part is within the strip's checks -/

section Claims
variable {i : Instr} {st : BitVec 3} {u : Uses} {ok : Kind → Nat → Bool} {rounds : Bool} {body : State → Kind → Exe}

theorem traps_of_strip (hx : ∀ s, exec i s = runInsn i st (fun s => withStrip s ok rounds (body s)) s) (t : Trap)
    (hu : ∀ x, usesOf x i = u := by intro x; rfl) :
    Traps i u (fun s => stripTrap s.thr ok rounds = some t) id (fun _ => t) :=
  traps_of_body hx (fun _ h => withStrip_trap h) hu

theorem does_of_strip {P : State → Prop} {f : State → State} (kd : Kind)
    (hx : ∀ s, exec i s = runInsn i st (fun s => withStrip s ok rounds (body s)) s)
    (hs : ∀ s, P s → s.thr.stripOf kd) (hok : ∀ s, P s → ok kd s.thr.grp = true) (hr : ∀ s, P s → rounds = true → s.thr.rm ≠ none)
    (hb : ∀ s, P s → body s kd = .done (f s)) (hu : ∀ x, usesOf x i = u := by intro x; rfl) : Does i u st P f :=
  does_of_body hx (fun s h => by rw [withStrip_stripOf (hs s h) (hok s h) (hr s h)]; exact hb s h) hu

end Claims

theorem Slot.rmd_of_rm {x : Slot} {m : Rm} (h : x.rm = some m) : x.rmd = m := by rw [rmd, h]; rfl

theorem okFloat_of {fm : Fmt} (h : fm = .f32 ∨ fm = .f16 ∨ fm = .b16) (g : Nat) : okFloat (.fp fm) g = true := by
  rcases h with rfl | rfl | rfl <;> rfl

theorem okAny_of {kd : Kind} (h : kd ≠ .q4) (g : Nat) : okAny kd g = true := decide_eq_true h

/-- The outcomes of an operation on float elements: `body`'s function may read FRM's mode only where the instruction rounds. -/
theorem claims_of_vf {i : Instr} {st : BitVec 3} {u : Uses} {rounds : Bool} {d k lat : Nat} {body : State → Kind → Exe}
    {f : Fmt → Rm → State → Nat → Nat × Flags}
    (hx : ∀ s, exec i s = runInsn i st (fun s => withStrip s okFloat rounds (body s)) s)
    (hb : ∀ s fm, body s (.fp fm) = .done (s.mapped (some lat) d k (f fm s.thr.rmd s)))
    (hf : rounds = false → ∀ fm m m' s, f fm m s = f fm m' s)
    (hu : ∀ x, usesOf x i = u := by intro x; rfl) :
    (∀ t, Traps i u (fun s => stripTrap s.thr okFloat rounds = some t) id (fun _ => t))
      ∧ ∀ (fm : Fmt) (m : Rm), fm = .f32 ∨ fm = .f16 ∨ fm = .b16 →
          Does i u st (fun s => s.thr.stripOf (.fp fm) ∧ (rounds = true → s.thr.rm = some m))
            fun s => s.mapped (some lat) d k (f fm m s) := by
  refine ⟨fun t => traps_of_strip hx t hu, fun fm m hfm => does_of_strip (.fp fm) hx (fun s h => h.1)
    (fun s _ => okFloat_of hfm _) (fun s h hr => by rw [h.2 hr]; exact Option.some_ne_none m) (fun s h => ?_) hu⟩
  rw [hb]
  cases rounds with
  | true => rw [Slot.rmd_of_rm (h.2 rfl)]
  | false => rw [hf rfl fm s.thr.rmd m s]

end Sys2Proof.Machine
end

section
open Sys2Proof Sys2Proof.Machine

/-- Settles O21: the checks in their order. -/
theorem stripChecksInOrder : Obligations.StripChecksInOrder := by
  unfold Obligations.StripChecksInOrder
  intro x ok rounds r ty
  refine ⟨stripTrap_of_ilf, fun kd hk hi => ⟨fun hm hq => ?_, fun hs => ⟨fun ho => ?_, fun ho hr hrm => ?_, stripTrap_eq_none hs⟩⟩⟩
  · exact (stripTrap_of_kind hk hi).trans (if_pos ⟨hm, hq⟩)
  · exact (stripTrap_stripOf hs).trans (if_pos ho)
  · exact (stripTrap_stripOf hs).trans ((if_neg (by rw [ho]; exact Bool.true_eq_false.mp)).trans (if_pos ⟨hr, hrm⟩))

/-- Settles O22: each operation maps its function of FRM's mode over the active elements. -/
theorem vectorFloatingPoint : Obligations.VectorFloatingPoint := by
  unfold Obligations.VectorFloatingPoint
  intro st d a b k X sr map two one fused minMax
  refine ⟨?vadd, ?vsub, ?vmul, ?vdiv, ?vmin, ?vmax, ?vabs, ?vneg, ?vsqrt, ?vrsq, ?vrcp, ?vexp2, ?vclass, ?vfma, ?vfms, ?vfnma,
    ?vfnms⟩
  case vadd => exact claims_of_vf (fun s => Eq.refl (execVadd st d a b k s)) (fun _ _ => rfl) nofun
  case vsub => exact claims_of_vf (fun s => Eq.refl (execVsub st d a b k s)) (fun _ _ => rfl) nofun
  case vmul => exact claims_of_vf (fun s => Eq.refl (execVmul st d a b k s)) (fun _ _ => rfl) nofun
  case vdiv => exact claims_of_vf (fun s => Eq.refl (execVdiv st d a b k s)) (fun _ _ => rfl) nofun
  case vmin => exact claims_of_vf (fun s => Eq.refl (execVmin st d a b k s)) (fun _ _ => rfl) fun _ _ _ _ _ => rfl
  case vmax => exact claims_of_vf (fun s => Eq.refl (execVmax st d a b k s)) (fun _ _ => rfl) fun _ _ _ _ _ => rfl
  case vabs => exact claims_of_vf (fun s => Eq.refl (execVabs st d a k s)) (fun _ _ => rfl) fun _ _ _ _ _ => rfl
  case vneg => exact claims_of_vf (fun s => Eq.refl (execVneg st d a k s)) (fun _ _ => rfl) fun _ _ _ _ _ => rfl
  case vsqrt => exact claims_of_vf (fun s => Eq.refl (execVsqrt st d a k s)) (fun _ _ => rfl) nofun
  case vrsq => exact claims_of_vf (fun s => Eq.refl (execVrsq st d a k s)) (fun _ _ => rfl) nofun
  case vrcp => exact claims_of_vf (fun s => Eq.refl (execVrcp st d a k s)) (fun _ _ => rfl) nofun
  case vexp2 => exact claims_of_vf (fun s => Eq.refl (execVexp2 st d a k s)) (fun _ _ => rfl) nofun
  case vclass => exact claims_of_vf (fun s => Eq.refl (execVclass st d a k s)) (fun _ _ => rfl) fun _ _ _ _ _ => rfl
  case vfma => exact claims_of_vf (fun s => Eq.refl (execVfma st d a b k s)) (fun _ _ => rfl) nofun
  case vfms => exact claims_of_vf (fun s => Eq.refl (execVfms st d a b k s)) (fun _ _ => rfl) nofun
  case vfnma => exact claims_of_vf (fun s => Eq.refl (execVfnma st d a b k s)) (fun _ _ => rfl) nofun
  case vfnms => exact claims_of_vf (fun s => Eq.refl (execVfnms st d a b k s)) (fun _ _ => rfl) nofun

end

section
/-! SUPPORT. Integer, modular and mask operations and conversion (R174 to R178): the claims of their shared parts. -/

namespace Sys2Proof.Machine

section Claims
variable {i : Instr} {st : BitVec 3} {u : Uses} {d a b : BitVec 5} {k : BitVec 3}

/-- The outcomes of an integer operation (R174). -/
theorem claims_of_vi {f : Bool → Nat → Nat → Nat → Nat × Flags}
    (hx : ∀ s, exec i s = runInsn i st (exeVI d a b k f) s) (hu : ∀ x, usesOf x i = u := by intro x; rfl) :
    (∀ t, Traps i u (fun s => stripTrap s.thr okInt false = some t) id (fun _ => t))
      ∧ ∀ sg w, Does i u st (fun s => s.thr.stripOf (.int sg w))
          fun s => s.mapped (some 8) d.toNat k.toNat fun e =>
            f sg w (s.thr.elem (widthOf s.thr.fmt) s.thr.grp a.toNat e) (s.thr.elem (widthOf s.thr.fmt) s.thr.grp b.toNat e) :=
  ⟨fun t => traps_of_strip hx t hu,
    fun sg w => does_of_strip (.int sg w) hx (fun _ h => h) (fun _ _ => rfl) (fun _ _ => nofun) (fun _ _ => rfl) hu⟩

/-- What a modular operation does on a strip of residues (R175). -/
theorem does_of_vm {f : Nat → Nat → Nat → Nat × Flags}
    (hx : ∀ s, exec i s = runInsn i st (exeVM d a b k f) s) (hu : ∀ x, usesOf x i = u := by intro x; rfl) :
    Does i u st (fun s => s.thr.stripOf .mod)
      fun s => s.mapped (some 8) d.toNat k.toNat fun e => f (s.thr.csrv csrMODQ).toNat
        (s.thr.elem (widthOf s.thr.fmt) s.thr.grp a.toNat e) (s.thr.elem (widthOf s.thr.fmt) s.thr.grp b.toNat e) :=
  does_of_strip .mod hx (fun _ h => h) (fun _ _ => rfl) (fun _ _ => nofun) (fun _ _ => rfl) hu

/-- The outcomes of a modular operation (R175). -/
theorem claims_of_vm {f : Nat → Nat → Nat → Nat × Flags}
    (hx : ∀ s, exec i s = runInsn i st (exeVM d a b k f) s) (hu : ∀ x, usesOf x i = u := by intro x; rfl) :
    (∀ t, Traps i u (fun s => stripTrap s.thr okMod false = some t) id (fun _ => t))
      ∧ Does i u st (fun s => s.thr.stripOf .mod)
          fun s => s.mapped (some 8) d.toNat k.toNat fun e => f (s.thr.csrv csrMODQ).toNat
            (s.thr.elem (widthOf s.thr.fmt) s.thr.grp a.toNat e) (s.thr.elem (widthOf s.thr.fmt) s.thr.grp b.toNat e) :=
  ⟨fun t => traps_of_strip hx t hu, does_of_vm hx hu⟩

/-- An instruction of any kind of element (R169), on a strip of kind `kd`. -/
theorem does_of_any {body : State → Kind → Exe} {f : State → State} {kd : Kind}
    (hx : ∀ s, exec i s = runInsn i st (fun s => withStrip s okAny false (body s)) s)
    (hb : ∀ s, body s kd = .done (f s)) (hu : ∀ x, usesOf x i = u := by intro x; rfl) :
    Does i u st (fun s => s.thr.stripOf kd ∧ kd ≠ .q4) f :=
  does_of_strip kd hx (fun _ h => h.1) (fun _ h => okAny_of h.2 _) (fun _ _ => nofun) (fun s _ => hb s) hu

end Claims

/-! ### Instructions whose operands depend on the thread -/

section As
variable {i : Instr} {st : BitVec 3} {u : Uses} {body : State → Exe} {P : State → Prop} {f : State → State} {t : State → Trap}

theorem does_of_body_as (hx : ∀ s, exec i s = runInsn i st body s) (hb : ∀ s, P s → body s = .done (f s)) :
    Does i u st (fun s => usesOf s.thr i = u ∧ P s) f := fun s h ⟨hu, hp⟩ =>
  ⟨hu, by rw [hx, runInsn_executes h, hu, hb _ hp]; rfl⟩

theorem traps_of_body_as (hx : ∀ s, exec i s = runInsn i st body s) (hb : ∀ s, P s → body s = .trap (f s) (t s)) :
    Traps i u (fun s => usesOf s.thr i = u ∧ P s) f t := fun s h ⟨hu, hp⟩ =>
  ⟨hu, by rw [hx, runInsn_executes h, hu, hb _ hp]; rfl⟩

end As

/-! ### Conversion (R178) -/

/-- The grouping of a conversion's source group. -/
def Slot.cvtGrp (x : Slot) (f : BitVec 4) : Nat := max 1 (x.grp * widthOf f.toNat / widthOf x.fmt)

theorem kindOf_beyond {c : Nat} (h : 15 ≤ c) : kindOf c = none := by
  unfold kindOf
  split <;> first | rfl | omega

theorem cvtOffered_eq_false {src dst : Kind} :
    cvtOffered src dst = false ↔ ((∃ f, src = .fp f) ∧ dst = .mod) ∨ (src = .mod ∧ ∃ f, dst = .fp f) := by
  cases src <;> cases dst <;> simp [cvtOffered]

/-- An instruction that every kind of element may run passes its checks on a strip of a supported format. -/
theorem withStrip_any {s : State} {kd : Kind} {body : Kind → Exe} (hs : s.thr.stripOf kd) (hq : kd ≠ .q4) :
    withStrip s okAny false body = body kd := withStrip_stripOf hs (okAny_of hq _) fun h => absurd h Bool.false_ne_true

section Cvt
variable {s : State} {d a : BitVec 5} {k : BitVec 3} {t : BitVec 1} {f : BitVec 4} {w : W32} {src dst : Kind}

theorem exeVcvt_reserved (hs : s.thr.stripOf dst) (hq : dst ≠ .q4) (hf : 14 ≤ f.toNat) :
    exeVcvt d a k t f w s = .trap s { cause := 0x04, tval := w.zeroExtend 64 } := by
  rw [exeVcvt, withStrip_any hs hq]
  rcases Nat.eq_or_lt_of_le hf with he | hl
  · simp only [show kindOf f.toNat = some .q4 by rw [← he]; rfl, reduceCtorEq, decide_false, decide_true, Bool.false_and,
      Bool.true_or, Bool.false_eq_true, if_false, if_true, exeTrap]
  · simp only [kindOf_beyond hl, exeTrap]

/-- A conversion between two kinds that are no q4: its checks in their order, then the elements. -/
theorem exeVcvt_eq (hs : s.thr.stripOf dst) (hq : dst ≠ .q4) (hk : kindOf f.toNat = some src) (hsrc : src ≠ .q4) :
    exeVcvt d a k t f w s =
      if src = .mod ∧ s.thr.modOk = false then .trap s { cause := 0x03, tval := s.thr.csrv csrSTYPE }
      else if cvtOffered src dst = false ∨ 8 < s.thr.cvtGrp f then .trap s { cause := 0x04, tval := w.zeroExtend 64 }
      else if (src ≠ .mod ∧ dst ≠ .mod) ∧ s.thr.rm = none then .trap s { cause := 0x04, tval := s.thr.csrv csrFRM }
      else .done (s.mapped (some 8) d.toNat k.toNat fun e =>
        convert src dst (s.thr.rm.getD .rne) (s.thr.srAt e) (t = 1#1) (s.thr.csrv csrMODQ).toNat
          (s.thr.lane (widthOf f.toNat) (s.thr.cvtGrp f) a.toNat (e / lanesOf (widthOf s.thr.fmt) s.thr.grp)
            (e % lanesOf (widthOf s.thr.fmt) s.thr.grp))) := by
  rw [exeVcvt, withStrip_any hs hq]
  simp only [hk, hsrc, exeTrap, Bool.and_eq_true, Bool.or_eq_true, decide_eq_true_eq, Bool.not_eq_true', false_or,
    Option.isNone_iff_eq_none, gt_iff_lt, Slot.cvtGrp]
  rfl

theorem usesOf_vcvt {x : Slot} (st : BitVec 3) (hk : kindOf f.toNat = some src) (hd : kindOf x.fmt = some dst) (hg : x.cvtGrp f ≤ 8) :
    usesOf x (.vcvt st d a k t f) =
      { vw := [d.toNat], vs := [(a.toNat, x.cvtGrp f)], mr := [k.toNat], lat := some 8, vec := true } := by
  have hc : cvtGroup x f a = [(a.toNat, x.cvtGrp f)] := by
    rw [cvtGroup]
    exact if_pos (by simp only [hk, hd, Option.isSome_some, Bool.true_and, decide_eq_true_eq]; exact hg)
  exact congrArg (fun vs => ({ vw := [d.toNat], vs := vs, mr := [k.toNat], lat := some 8, vec := true } : Uses)) hc

/-- The source group's register that `undeclared` names, where the destination group is declared and aligned (log 26). -/
theorem undeclared_source {x : Slot} {d a gs : Nat} {mr : List Nat} {lat : Option Nat} {vec : Bool}
    (hd : d + x.grp ≤ x.decl.vregs) (hm : d % x.grp = 0) :
    undeclared x { vw := [d], vs := [(a, gs)], mr := mr, lat := lat, vec := vec } =
      if x.decl.vregs < a + gs then some (max a x.decl.vregs) else if a % gs ≠ 0 then some a else none := by
  have hb : x.decl.badV x.grp d = none := if_neg (Nat.not_lt.2 hd)
  have hf : (([d] : List Nat).find? fun n => n % x.grp != 0) = none := by simp only [List.find?, hm, bne_self_eq_false]
  by_cases h : x.decl.vregs < a + gs
  · have hs : x.decl.badV gs a = some (max a x.decl.vregs) := if_pos h
    simp only [undeclared, List.append_nil, List.nil_append, List.filter_nil, List.filterMap_cons, List.filterMap_nil, minOf, hb,
      hs, h, if_true]
  · have hs : x.decl.badV gs a = none := if_neg h
    simp only [undeclared, List.append_nil, List.filter_nil, List.filterMap_cons, List.filterMap_nil, minOf, hb, hs, hf, h,
      if_false]
    by_cases h0 : a % gs = 0
    · simp only [List.find?, h0, bne_self_eq_false, Option.map_none, ne_eq, not_true_eq_false, if_false]
    · simp only [List.find?, bne_iff_ne.2 h0, Option.map_some, ne_eq, h0, not_false_eq_true, if_true]

end Cvt

end Sys2Proof.Machine
end

section
open Sys2Proof Sys2Proof.Machine

/-- Settles O23: each operation maps its function over the active elements. -/
theorem vectorIntegersAndResidues : Obligations.VectorIntegersAndResidues := by
  unfold Obligations.VectorIntegersAndResidues
  intro st d a b k X int plain res
  refine ⟨?viadd, ?visub, ?vimul, ?vimulh, ?vand, ?vor, ?vxor, ?vsll, ?vsrl, ?vsra, ?vimin, ?vimax, ?vminn, ?vmaxn, ?viadds,
    ?visubs, ?vmadd, ?vmsub, ?vmmul, ?vmred⟩
  case viadd => exact claims_of_vi (f := fun _ _ x y => (x + y, flNone)) fun s => Eq.refl (execViadd st d a b k s)
  case visub => exact claims_of_vi (f := fun _ w x y => (x + 2 ^ w - y, flNone)) fun s => Eq.refl (execVisub st d a b k s)
  case vimul => exact claims_of_vi (f := fun _ _ x y => (x * y, flNone)) fun s => Eq.refl (execVimul st d a b k s)
  case vimulh =>
    exact claims_of_vi (f := fun sg w x y => (natOfInt w (intOf sg w x * intOf sg w y / 2 ^ w), flNone))
      fun s => Eq.refl (execVimulh st d a b k s)
  case vand => exact claims_of_vi (f := fun _ _ x y => (x &&& y, flNone)) fun s => Eq.refl (execVand st d a b k s)
  case vor => exact claims_of_vi (f := fun _ _ x y => (x ||| y, flNone)) fun s => Eq.refl (execVor st d a b k s)
  case vxor => exact claims_of_vi (f := fun _ _ x y => (x ^^^ y, flNone)) fun s => Eq.refl (execVxor st d a b k s)
  case vsll => exact claims_of_vi (f := fun _ w x y => (x <<< (y % w), flNone)) fun s => Eq.refl (execVsll st d a b k s)
  case vsrl => exact claims_of_vi (f := fun _ w x y => (x >>> (y % w), flNone)) fun s => Eq.refl (execVsrl st d a b k s)
  case vsra =>
    exact claims_of_vi (f := fun _ w x y => (natOfInt w (sintOf w x / 2 ^ (y % w)), flNone))
      fun s => Eq.refl (execVsra st d a b k s)
  case vimin =>
    exact claims_of_vi (f := fun _ w x y => (if sintOf w x ≤ sintOf w y then x else y, flNone))
      fun s => Eq.refl (execVimin st d a b k s)
  case vimax =>
    exact claims_of_vi (f := fun _ w x y => (if sintOf w x ≤ sintOf w y then y else x, flNone))
      fun s => Eq.refl (execVimax st d a b k s)
  case vminn => exact claims_of_vi (f := fun _ _ x y => (min x y, flNone)) fun s => Eq.refl (execVminn st d a b k s)
  case vmaxn => exact claims_of_vi (f := fun _ _ x y => (max x y, flNone)) fun s => Eq.refl (execVmaxn st d a b k s)
  case viadds =>
    exact claims_of_vi (f := fun sg w x y => clampInt sg w flSAT (intOf sg w x + intOf sg w y))
      fun s => Eq.refl (execViadds st d a b k s)
  case visubs =>
    exact claims_of_vi (f := fun sg w x y => clampInt sg w flSAT (intOf sg w x - intOf sg w y))
      fun s => Eq.refl (execVisubs st d a b k s)
  case vmadd => exact claims_of_vm (f := modAdd) fun s => Eq.refl (execVmadd st d a b k s)
  case vmsub => exact claims_of_vm (f := modSub) fun s => Eq.refl (execVmsub st d a b k s)
  case vmmul => exact claims_of_vm (f := modMul) fun s => Eq.refl (execVmmul st d a b k s)
  case vmred => exact does_of_vm (f := fun q x _ => (x % q, flNone)) fun s => Eq.refl (execVmred st d a k s)

/-- Settles O24: each part, read where the strip's checks pass. -/
theorem comparesAndMasks : Obligations.ComparesAndMasks := by
  unfold Obligations.ComparesAndMasks
  intro st d3 m n k c d a b kd any' bit X cmp logic hits cu
  refine ⟨?vcmp, ?mand, ?mor, ?mxor, ?mandn, ?mnot, ?mset, ?mpopc, ?mfirst⟩
  case vcmp =>
    refine does_of_any (fun s => Eq.refl (execVcmp st d3 a b k c s)) fun s => ?_
    simp only [List.map_map, List.foldl_map]
    rfl
  case mand => exact does_of_any (fun s => Eq.refl (execMand st d3 m n s)) fun _ => rfl
  case mor => exact does_of_any (fun s => Eq.refl (execMor st d3 m n s)) fun _ => rfl
  case mxor => exact does_of_any (fun s => Eq.refl (execMxor st d3 m n s)) fun _ => rfl
  case mandn => exact does_of_any (fun s => Eq.refl (execMandn st d3 m n s)) fun _ => rfl
  case mnot => exact does_of_any (fun s => Eq.refl (execMnot st d3 m s)) fun _ => rfl
  case mset => exact does_of_any (fun s => Eq.refl (execMset st d3 a s)) fun _ => rfl
  case mpopc => exact does_of_any (fun s => Eq.refl (execMpopc st d m k s)) fun _ => rfl
  case mfirst =>
    refine does_of_any (fun s => Eq.refl (execMfirst st d m k s)) fun s => ?_
    refine congrArg (fun v => Exe.done (s.later 8 d v true)) ?_
    change (match hits s with | [] => BitVec.allOnes 64 | e :: _ => BitVec.ofNat 64 e) = _
    cases hits s <;> rfl

/-- Settles O25: the checks of a conversion in their order, and its source group among the registers that must be declared. -/
theorem vectorConversion : Obligations.VectorConversion := by
  unfold Obligations.VectorConversion
  intro st d a k t f u i word ws gs fp mixed as
  have hx : ∀ s, exec i s = runInsn i st (exeVcvt d a k t f (wordOf i)) s := fun s => Eq.refl (execVcvt st d a k t f s)
  refine ⟨fun hf kd => traps_of_body_as hx fun s ⟨hs, hq⟩ => exeVcvt_reserved hs hq hf, fun src dst hk hsrc hdst => ?_⟩
  intro pair fits bare
  have hmix : cvtOffered src dst = false ↔ mixed src dst := cvtOffered_eq_false
  have hmod : ∀ s : State, (src = .mod → s.thr.modOk = true) → ¬ (src = .mod ∧ s.thr.modOk = false) := fun s h ⟨he, hm⟩ =>
    Bool.false_ne_true (hm.symm.trans (h he))
  have hfits : ∀ s : State, ¬ mixed src dst → gs s.thr ≤ 8 → ¬ (cvtOffered src dst = false ∨ 8 < s.thr.cvtGrp f) :=
    fun s hn hg h => h.elim (mt hmix.1 hn) (Nat.not_lt.2 hg)
  refine ⟨traps_of_body_as hx fun s ⟨hs, h⟩ => ?_, traps_of_body_as hx fun s ⟨⟨hs, hm⟩, h⟩ => ?_,
    traps_of_body_as hx fun s ⟨⟨⟨hs, hm⟩, hn, hg⟩, h⟩ => ?_, does_of_body_as hx fun s ⟨⟨⟨hs, hm⟩, hn, hg⟩, h⟩ => ?_,
    fun x hd hg => ⟨usesOf_vcvt st hk hd hg, fun hv ha => ?_⟩⟩
  · exact (exeVcvt_eq hs hdst hk hsrc).trans (if_pos h)
  · exact (exeVcvt_eq hs hdst hk hsrc).trans ((if_neg (hmod s hm)).trans (if_pos (h.imp_left hmix.2)))
  · exact (exeVcvt_eq hs hdst hk hsrc).trans ((if_neg (hmod s hm)).trans ((if_neg (hfits s hn hg)).trans (if_pos h)))
  · exact (exeVcvt_eq hs hdst hk hsrc).trans ((if_neg (hmod s hm)).trans ((if_neg (hfits s hn hg)).trans
      (if_neg fun hb => h hb.1 hb.2)))
  · have hu := undeclared_source (a := a.toNat) (gs := gs x) (mr := [k.toNat]) (lat := some 8) (vec := true) hv ha
    rw [usesOf_vcvt st hk hd hg]
    exact ⟨fun h => hu.trans (if_pos h), fun h h0 => hu.trans ((if_neg (Nat.not_lt.2 h)).trans (if_pos h0))⟩

end

section
/-! SUPPORT. Where elements stand (R165) and what a write of elements leaves in the registers (R167): the masks and data of the
lanes, bit by bit. -/

namespace Sys2Proof.Machine

/-! ### Lanes -/

theorem nth_eq_getD {α : Type} (d : α) : ∀ (l : List α) (n : Nat), nth d l n = l.getD n d
  | [], _ => rfl
  | _ :: _, 0 => rfl
  | _ :: r, n + 1 => by rw [nth, nth_eq_getD d r n, List.getD_cons_succ]

/-- An element's bits, by the place of its lane. -/
theorem Slot.elem_eq (x : Slot) (w g base e : Nat) : x.elem w g base e =
    bitsAt (x.readV (x.ranks.getD (e / lanesOf w g) 0) (base + (lanePlace w g (e % lanesOf w g)).1)).toNat
      ((lanePlace w g (e % lanesOf w g)).2 + w - 1) (lanePlace w g (e % lanesOf w g)).2 := by
  rw [← nth_eq_getD]
  rfl

/-- A width and a grouping that a strip may have (R165). -/
def laneDims (w g : Nat) : Prop := w ∈ [8, 16, 32, 64] ∧ g ∈ [1, 2, 4, 8]

section Lanes
variable {w g : Nat} (h : laneDims w g)
include h

/-- A quarter of a register holds 512 / W lanes, and a register four quarters. -/
theorem laneDims.quarter : w * (512 / w) = 512 ∧ 0 < 512 / w ∧ 2048 / w = 4 * (512 / w) ∧ 0 < w := by
  obtain ⟨hw, -⟩ := h
  simp only [List.mem_cons, List.not_mem_nil, or_false] at hw
  rcases hw with rfl | rfl | rfl | rfl <;> decide

theorem laneDims.grp_pos : 0 < g := by
  obtain ⟨-, hg⟩ := h
  simp only [List.mem_cons, List.not_mem_nil, or_false] at hg
  omega

theorem laneDims.lanes : lanesOf w g = 4 * (512 / w * g) := by
  rw [lanesOf, h.quarter.2.2.1, mul_assoc]

theorem laneDims.lanes_pos : 0 < lanesOf w g := by
  rw [h.lanes]
  exact Nat.mul_pos (by decide) (Nat.mul_pos h.quarter.2.1 h.grp_pos)

/-- The register of a lane is one of the group's. -/
theorem laneDims.reg_lt (j : Nat) : (lanePlace w g j).1 < g := by
  have hq := h.quarter.2.1
  exact Nat.div_lt_of_lt_mul (Nat.mod_lt _ (Nat.mul_pos hq h.grp_pos))

/-- The bits of a lane lie in its quarter of the register. -/
theorem laneDims.bit_eq (j : Nat) : ∃ r, r + w ≤ 512 ∧ (lanePlace w g j).2 = 512 * (j / (512 / w * g)) + r := by
  obtain ⟨h512, hq, -, -⟩ := h.quarter
  refine ⟨w * (j % (512 / w * g) % (512 / w)), ?_, ?_⟩
  · have := Nat.mul_le_mul_left w (Nat.succ_le_of_lt (Nat.mod_lt (j % (512 / w * g)) hq))
    rwa [Nat.mul_succ, h512] at this
  · simp only [lanePlace]
    generalize 512 / w = q at h512 ⊢
    rw [← h512]
    ring

theorem laneDims.bit_le {j : Nat} (hj : j < lanesOf w g) : (lanePlace w g j).2 + w ≤ 2048 := by
  obtain ⟨r, hr, he⟩ := h.bit_eq j
  have : j / (512 / w * g) < 4 := Nat.div_lt_of_lt_mul (by rwa [h.lanes, mul_comm] at hj)
  omega

omit h in
theorem lanePlace_aligned (j : Nat) : (lanePlace w g j).2 % w = 0 := Nat.mul_mod_right _ _

theorem laneDims.place_inj {i j : Nat} (he : lanePlace w g i = lanePlace w g j) : i = j := by
  obtain ⟨h512, hq, -, hw⟩ := h.quarter
  simp only [lanePlace, Prod.mk.injEq] at he
  obtain ⟨ho, hb⟩ := he
  generalize 512 / w = q at *
  have hb := Nat.eq_of_mul_eq_mul_left hw hb
  have hm : ∀ o : Nat, o % q < q := fun o => Nat.mod_lt _ hq
  have hd : i / (q * g) = j / (q * g) := by
    have := congrArg (· / q) hb
    simpa only [mul_comm _ q, Nat.mul_add_div hq, Nat.div_eq_of_lt (hm _), add_zero] using this
  have hr : i % (q * g) % q = j % (q * g) % q := by rw [hd] at hb; omega
  have ho : i % (q * g) = j % (q * g) := by rw [← Nat.div_add_mod (i % (q * g)) q, ho, hr, Nat.div_add_mod]
  rw [← Nat.div_add_mod i (q * g), hd, ho, Nat.div_add_mod]

/-- The lanes of the quarters below `c`. -/
theorem laneDims.quarter_lt_iff (j c : Nat) : (lanePlace w g j).2 / 512 < c ↔ j < c * (512 / w * g) := by
  obtain ⟨r, hr, he⟩ := h.bit_eq j
  obtain ⟨-, hq, -, hw⟩ := h.quarter
  have hr : r / 512 = 0 := Nat.div_eq_of_lt (by omega)
  rw [he, Nat.mul_add_div (by decide), hr, add_zero, Nat.div_lt_iff_lt_mul (Nat.mul_pos hq h.grp_pos)]

end Lanes

theorem lanePlace_one {w : Nat} (h : laneDims w 1) (j : Nat) : lanePlace w 1 j = (0, w * j) := by
  have hq := h.quarter.2.1
  simp only [lanePlace, mul_one, Nat.mod_mod, Nat.div_eq_of_lt (Nat.mod_lt _ hq), mul_comm (j / _), Nat.div_add_mod]

end Sys2Proof.Machine
end

section
open Sys2Proof Sys2Proof.Machine

/-- Settles O29: the place of a lane, read from the quarter that holds it. -/
theorem lanesAreOneToOne : Obligations.LanesAreOneToOne := by
  unfold Obligations.LanesAreOneToOne
  intro w g hw hg
  have h : laneDims w g := ⟨hw, hg⟩
  refine ⟨fun j hj => ⟨h.reg_lt j, h.bit_le hj, lanePlace_aligned j⟩, fun i j _ _ => h.place_inj,
    fun j _ => lanePlace_one ⟨hw, by simp⟩ j, rfl, fun j _ => rfl, fun x base e => ?_, fun j c _ => h.quarter_lt_iff j c⟩
  intro l at'
  have hw := h.quarter.2.2.2
  rw [Slot.elem_eq, bitsAt_eq_div_mod, Nat.sub_add_cancel (by omega), Nat.add_sub_cancel_left]

end

section
/-! SUPPORT. Writes of elements (R167): the masks and data that a list of elements comes to, bit by bit, and the registers after
an interlocked write of them. -/

namespace Sys2Proof.Machine

/-! ### Maps in rising key order -/

theorem Map.set_keys_pairwise {α : Type} (k : Nat) (v : α) : ∀ m : Map α, (m.map (·.1)).Pairwise (· < ·) →
    ((m.set k v).map (·.1)).Pairwise (· < ·) ∧ ∀ j ∈ (m.set k v).map (·.1), j = k ∨ j ∈ m.map (·.1)
  | [], _ => by simp [Map.set]
  | (k', v') :: r, h => by
    rw [List.map_cons, List.pairwise_cons] at h
    obtain ⟨hlt, hr⟩ := h
    obtain ⟨hs, hm⟩ := Map.set_keys_pairwise k v r hr
    rw [Map.set]
    split
    · next e => subst e; exact ⟨List.pairwise_cons.2 ⟨hlt, hr⟩, fun j hj => .inr hj⟩
    split
    · next hk =>
      refine ⟨List.pairwise_cons.2 ⟨fun j hj => ?_, List.pairwise_cons.2 ⟨hlt, hr⟩⟩, fun j hj => ?_⟩
      · rcases List.mem_cons.1 hj with rfl | hj
        · exact hk
        · exact hk.trans (hlt j hj)
      · exact List.mem_cons.1 hj
    · next hne hk =>
      refine ⟨List.pairwise_cons.2 ⟨fun j hj => ?_, hs⟩, fun j hj => ?_⟩
      · rcases hm j hj with rfl | hj
        · exact lt_of_le_of_ne (not_lt.1 hk) (Ne.symm hne)
        · exact hlt j hj
      · rcases List.mem_cons.1 hj with rfl | hj
        · exact .inr (List.mem_cons_self ..)
        · exact (hm j hj).imp_right (List.mem_cons_of_mem _)

theorem Map.getD_of_notMem {α : Type} (d : α) (k : Nat) : ∀ m : Map α, k ∉ m.map (·.1) → m.getD d k = d
  | [], _ => rfl
  | (k', v) :: r, h => by
    rw [List.map_cons, List.mem_cons, not_or] at h
    rw [Map.getD, if_neg h.1, Map.getD_of_notMem d k r h.2]

/-! ### Registers written under masks -/

/-- A register with the bits of a mask replaced by those of some data. -/
def maskedBy (v : BitVec 2048) (md : Nat × Nat) : BitVec 2048 :=
  (v &&& ~~~ BitVec.ofNat 2048 md.1) ||| (BitVec.ofNat 2048 md.2 &&& BitVec.ofNat 2048 md.1)

theorem maskedBy_getLsbD (v : BitVec 2048) (md : Nat × Nat) {b : Nat} (h : b < 2048) :
    (maskedBy v md).getLsbD b = if md.1.testBit b then md.2.testBit b else v.getLsbD b := by
  simp only [maskedBy, BitVec.getLsbD_or, BitVec.getLsbD_and, BitVec.getLsbD_not, BitVec.getLsbD_ofNat, h, decide_true,
    Bool.true_and]
  cases md.1.testBit b <;> simp

theorem maskedBy_zero (v : BitVec 2048) : maskedBy v (0, 0) = v :=
  BitVec.eq_of_getLsbD_eq fun b h => by rw [maskedBy_getLsbD v (0, 0) h, Nat.zero_testBit, if_neg Bool.false_ne_true]

/-- No pending write: an interlocked one to a vector register is the write alone. -/
theorem Slot.landV_of_pend {x : Slot} (h : x.pend = []) (n : Nat) : x.landV n = x := by
  have hx : ({ x with pend := [] } : Slot) = x := by rw [← h]
  rw [landV, h]
  exact hx

/-- Interlocked writes under masks change the vector registers they name, each once. -/
theorem Slot.writeLanes_eq (now : Nat) : ∀ (m : Map (Nat × Nat)) (x : Slot), x.pend = [] → (m.map (·.1)).Pairwise (· < ·) →
    ∃ v, x.writeLanes now none m = { x with v := v }
      ∧ ∀ k, Map.getD 0#2048 v k = maskedBy (Map.getD 0#2048 x.v k) (m.getD (0, 0) k)
  | [], x, _, _ => ⟨x.v, rfl, fun k => (maskedBy_zero _).symm⟩
  | (key, mask, data) :: r, x, hp, hm => by
    rw [List.map_cons, List.pairwise_cons] at hm
    have h1 : (x.landV (key % 32)).land1
          (.v (key / 32) (key % 32) (BitVec.ofNat 2048 mask) (BitVec.ofNat 2048 data)) =
        { x with v := x.v.set key (maskedBy (Map.getD 0#2048 x.v key) (mask, data)) } := by
      have hk : key / 32 * 32 + key % 32 = key := by omega
      rw [landV_of_pend hp, land1, writeV, readV, hk, maskedBy]
    obtain ⟨v, he, hv⟩ := writeLanes_eq now r { x with v := x.v.set key (maskedBy (Map.getD 0#2048 x.v key) (mask, data)) } hp hm.2
    refine ⟨v, ?_, fun k => ?_⟩
    · rw [writeLanes]
      simp only [h1]
      exact he
    · rw [hv, Map.getD_set, Map.getD]
      by_cases hk : k = key
      · have hn : key ∉ r.map (·.1) := fun hm' => lt_irrefl _ (hm.1 key hm')
        rw [if_pos hk, if_pos hk, hk, Map.getD_of_notMem _ _ _ hn, maskedBy_zero]
      · rw [if_neg hk, if_neg hk]

/-! ### The masks and data of a list of elements -/

/-- The register and the bit at which an element of the group at `base` stands. -/
def Slot.placeOfElem (x : Slot) (w g base e : Nat) : Nat × Nat :=
  (x.sliceOf (e / lanesOf w g) * 32 + (base + (lanePlace w g (e % lanesOf w g)).1), (lanePlace w g (e % lanesOf w g)).2)

section Writes
variable (x : Slot) (w g base : Nat)

theorem laneWrites_cons (e v : Nat) (r : List (Nat × Nat)) : laneWrites x w g base ((e, v) :: r) =
    Map.modify (0, 0) (laneWrites x w g base r) (x.placeOfElem w g base e).1 fun md =>
      (md.1 ||| ((2 ^ w - 1) <<< (x.placeOfElem w g base e).2), md.2 ||| ((v % 2 ^ w) <<< (x.placeOfElem w g base e).2)) := rfl

theorem laneWrites_pairwise : ∀ es : List (Nat × Nat), ((laneWrites x w g base es).map (·.1)).Pairwise (· < ·)
  | [] => List.Pairwise.nil
  | (e, v) :: r => by
    rw [laneWrites_cons]
    exact (Map.set_keys_pairwise _ _ _ (laneWrites_pairwise r)).1

/-- Whether bit `b` of register `key` belongs to element `e`. -/
def Slot.holdsBit (e key b : Nat) : Prop :=
  (x.placeOfElem w g base e).1 = key ∧ (x.placeOfElem w g base e).2 ≤ b ∧ b < (x.placeOfElem w g base e).2 + w

theorem testBit_ones_shiftLeft (w p b : Nat) : ((2 ^ w - 1) <<< p).testBit b = true ↔ p ≤ b ∧ b < p + w := by
  rw [Nat.testBit_shiftLeft, Nat.testBit_two_pow_sub_one]
  simp only [ge_iff_le, Bool.and_eq_true, decide_eq_true_eq]
  omega

theorem testBit_mod_shiftLeft (v w p b : Nat) :
    ((v % 2 ^ w) <<< p).testBit b = true ↔ (p ≤ b ∧ b < p + w) ∧ v.testBit (b - p) = true := by
  rw [Nat.testBit_shiftLeft, Nat.testBit_mod_two_pow]
  simp only [ge_iff_le, Bool.and_eq_true, decide_eq_true_eq]
  constructor
  · rintro ⟨hp, hb, hv⟩
    exact ⟨⟨hp, by omega⟩, hv⟩
  · rintro ⟨⟨hp, hb⟩, hv⟩
    exact ⟨hp, by omega, hv⟩

/-- The mask of a register has the bits of the elements that stand in it, and the data their values'. -/
theorem laneWrites_testBit (key b : Nat) : ∀ es : List (Nat × Nat),
    (((laneWrites x w g base es).getD (0, 0) key).1.testBit b = true ↔ ∃ ev ∈ es, x.holdsBit w g base ev.1 key b)
      ∧ (((laneWrites x w g base es).getD (0, 0) key).2.testBit b = true ↔
          ∃ ev ∈ es, x.holdsBit w g base ev.1 key b ∧ ev.2.testBit (b - (x.placeOfElem w g base ev.1).2) = true)
  | [] => by simp [laneWrites, Map.getD]
  | (e, v) :: r => by
    obtain ⟨hm, hd⟩ := laneWrites_testBit key b r
    rw [laneWrites_cons, Map.modify, Map.getD_set]
    by_cases hk : key = (x.placeOfElem w g base e).1
    · rw [if_pos hk, ← hk]
      simp only [Nat.testBit_or, Bool.or_eq_true, hm, hd, List.exists_mem_cons_iff, testBit_ones_shiftLeft,
        testBit_mod_shiftLeft, Slot.holdsBit, ← hk, true_and]
      exact ⟨or_comm, or_comm⟩
    · have hn : ¬ x.holdsBit w g base e key b := fun h => hk h.1.symm
      simp only [if_neg hk, hm, hd, List.exists_mem_cons_iff, hn, false_and, false_or, and_self]

end Writes

/-! ### Elements of one group do not overlap -/

section Disjoint
variable {x : Slot} {w g base : Nat} (h : laneDims w g) (hb : base + g ≤ 32) (hr : x.ranks.Nodup)
include h hb

theorem Slot.placeOfElem_reg (e : Nat) : (x.placeOfElem w g base e).1 / 32 = x.ranks.getD (e / lanesOf w g) 0
    ∧ base ≤ (x.placeOfElem w g base e).1 % 32 ∧ (x.placeOfElem w g base e).1 % 32 < base + g := by
  have := h.reg_lt (e % lanesOf w g)
  simp only [placeOfElem, sliceOf, nth_eq_getD]
  omega

include hr

/-- Two elements of the ranks that were granted share no bit of a register. -/
theorem Slot.holdsBit_inj {e e' key b : Nat} (he : e < lanesOf w g * x.ranks.length) (he' : e' < lanesOf w g * x.ranks.length)
    (hk : x.holdsBit w g base e key b) (hk' : x.holdsBit w g base e' key b) : e = e' := by
  obtain ⟨hkey, hlo, hhi⟩ := hk
  obtain ⟨hkey', hlo', hhi'⟩ := hk'
  have hl := h.lanes_pos
  have hrank : e / lanesOf w g = e' / lanesOf w g := by
    have h1 : e / lanesOf w g < x.ranks.length := Nat.div_lt_of_lt_mul he
    have h2 : e' / lanesOf w g < x.ranks.length := Nat.div_lt_of_lt_mul he'
    have hs : x.ranks.getD (e / lanesOf w g) 0 = x.ranks.getD (e' / lanesOf w g) 0 := by
      rw [← (placeOfElem_reg h hb e).1, ← (placeOfElem_reg h hb e').1, hkey, hkey']
    rw [List.getD_eq_getElem _ _ h1, List.getD_eq_getElem _ _ h2] at hs
    exact (List.Nodup.getElem_inj_iff hr).1 hs
  have hlane : lanePlace w g (e % lanesOf w g) = lanePlace w g (e' % lanesOf w g) := by
    refine Prod.ext ?_ ?_
    · have := hkey.trans hkey'.symm
      simp only [placeOfElem, hrank] at this
      omega
    · have hdiv : ∀ p, p % w = 0 → p ≤ b → b < p + w → p / w = b / w := fun p h0 h1 h2 => by
        obtain ⟨c, rfl⟩ := Nat.dvd_of_mod_eq_zero h0
        rw [Nat.mul_div_cancel_left _ h.quarter.2.2.2]
        exact (Nat.div_eq_of_lt_le (by rwa [mul_comm]) (by rwa [Nat.succ_mul, mul_comm c])).symm
      have ha := lanePlace_aligned (w := w) (g := g) (e % lanesOf w g)
      have ha' := lanePlace_aligned (w := w) (g := g) (e' % lanesOf w g)
      exact (Nat.div_left_inj (Nat.dvd_of_mod_eq_zero ha) (Nat.dvd_of_mod_eq_zero ha')).1
        ((hdiv _ ha hlo hhi).trans (hdiv _ ha' hlo' hhi').symm)
  rw [← Nat.div_add_mod e (lanesOf w g), hrank, h.place_inj hlane, Nat.div_add_mod]

end Disjoint

/-! ### Registers after an interlocked write of elements -/

theorem Slot.elem_testBit (x : Slot) {w : Nat} (hw : 0 < w) (g base e i : Nat) : (x.elem w g base e).testBit i =
    (decide (i < w) && (Map.getD 0#2048 x.v (x.placeOfElem w g base e).1).getLsbD ((x.placeOfElem w g base e).2 + i)) := by
  have he : x.elem w g base e = bitsAt (Map.getD 0#2048 x.v (x.placeOfElem w g base e).1).toNat
      ((x.placeOfElem w g base e).2 + w - 1) (x.placeOfElem w g base e).2 := rfl
  rw [he, testBit_bitsAt (by omega)]
  congr 1
  exact decide_eq_decide.2 (by omega)

section Put
variable {s : State} {w g base : Nat} (es : List (Nat × Nat)) (hp : s.thr.pend = [])
include hp

/-- The thread after an interlocked write of elements: its vector registers under the masks of the lanes. -/
theorem State.putElems_thr : ∃ v, (s.putElems none w g base es).thr = { s.thr with v := v }
    ∧ ∀ k, Map.getD 0#2048 v k = maskedBy (Map.getD 0#2048 s.thr.v k) ((laneWrites s.thr w g base es).getD (0, 0) k) := by
  rw [putElems, thr_setThr]
  exact Slot.writeLanes_eq _ _ _ hp (laneWrites_pairwise _ _ _ _ es)

variable (h : laneDims w g) (hb : base + g ≤ 32) (hr : s.thr.ranks.Nodup) (hes : ∀ e ∈ es, e.1 < lanesOf w g * s.thr.ranks.length)
include h hb hr hes

/-- Bit `i` of an element after the write, by the elements written over it. -/
theorem State.elem_putElems_testBit {e i : Nat} (he : e < lanesOf w g * s.thr.ranks.length) (hi : i < w) :
    ((s.putElems none w g base es).thr.elem w g base e).testBit i = true ↔
      if e ∈ es.map (·.1) then ∃ v, (e, v) ∈ es ∧ v.testBit i = true else (s.thr.elem w g base e).testBit i = true := by
  obtain ⟨v, hthr, hv⟩ := putElems_thr (w := w) (g := g) (base := base) es hp
  have hbit : (s.thr.placeOfElem w g base e).2 + i < 2048 :=
    lt_of_lt_of_le (Nat.add_lt_add_left hi _) (h.bit_le (Nat.mod_lt e h.lanes_pos))
  have hself : s.thr.holdsBit w g base e (s.thr.placeOfElem w g base e).1 ((s.thr.placeOfElem w g base e).2 + i) :=
    ⟨rfl, by omega, by omega⟩
  obtain ⟨hm, hd⟩ := laneWrites_testBit s.thr w g base (s.thr.placeOfElem w g base e).1 ((s.thr.placeOfElem w g base e).2 + i) es
  have hown : ∀ ev ∈ es, s.thr.holdsBit w g base ev.1 (s.thr.placeOfElem w g base e).1
      ((s.thr.placeOfElem w g base e).2 + i) → ev.1 = e := fun ev hev hh =>
    Slot.holdsBit_inj h hb hr (hes ev hev) he hh hself
  have hafter : ((s.putElems none w g base es).thr.elem w g base e).testBit i =
      (maskedBy (Map.getD 0#2048 s.thr.v (s.thr.placeOfElem w g base e).1)
        ((laneWrites s.thr w g base es).getD (0, 0) (s.thr.placeOfElem w g base e).1)).getLsbD
          ((s.thr.placeOfElem w g base e).2 + i) := by
    rw [hthr, Slot.elem_testBit _ h.quarter.2.2.2, decide_eq_true hi, Bool.true_and, ← hv]
    rfl
  rw [hafter, maskedBy_getLsbD _ _ hbit]
  by_cases hin : e ∈ es.map (·.1)
  · obtain ⟨ev, hev, rfl⟩ := List.mem_map.1 hin
    rw [if_pos (hm.2 ⟨ev, hev, hself⟩), if_pos hin, hd]
    constructor
    · rintro ⟨ev', hev', hh, hbit'⟩
      have := hown ev' hev' hh
      exact ⟨ev'.2, by rw [← this]; exact hev', by rwa [this, Nat.add_sub_cancel_left] at hbit'⟩
    · rintro ⟨v', hv', hbit'⟩
      exact ⟨(ev.1, v'), hv', hself, by rwa [Nat.add_sub_cancel_left]⟩
  · have hoff : ¬ ((laneWrites s.thr w g base es).getD (0, 0) (s.thr.placeOfElem w g base e).1).1.testBit
        ((s.thr.placeOfElem w g base e).2 + i) = true := fun hon => by
      obtain ⟨ev, hev, hh⟩ := hm.1 hon
      exact hin (List.mem_map.2 ⟨ev, hev, hown ev hev hh⟩)
    rw [if_neg hoff, if_neg hin, Slot.elem_testBit _ h.quarter.2.2.2, decide_eq_true hi, Bool.true_and]

end Put

end Sys2Proof.Machine
end

section
open Sys2Proof Sys2Proof.Machine

/-- Settles O30: each bit of an element is its value's where it is written, and as it was elsewhere. -/
theorem elementsWrittenInPlace : Obligations.ElementsWrittenInPlace := by
  unfold Obligations.ElementsWrittenInPlace
  intro s w g base es hw hg hb hp hr hnd hes t
  have h : laneDims w g := ⟨hw, hg⟩
  have hlt : ∀ (x : Slot) (e i : Nat), w ≤ i → (x.elem w g base e).testBit i = false := fun x e i hi => by
    rw [Slot.elem_testBit _ h.quarter.2.2.2, decide_eq_false (Nat.not_lt.2 hi), Bool.false_and]
  refine ⟨fun e he => Nat.eq_of_testBit_eq fun i => ?_, fun e he hn => Nat.eq_of_testBit_eq fun i => ?_, fun k n hn hout => ?_⟩
  · rw [Nat.testBit_mod_two_pow]
    by_cases hi : i < w
    · rw [decide_eq_true hi, Bool.true_and, Bool.eq_iff_iff, State.elem_putElems_testBit es hp h hb hr hes (hes e he) hi,
        if_pos (List.mem_map_of_mem he)]
      refine ⟨fun ⟨v, hv, hbit⟩ => ?_, fun hbit => ⟨e.2, he, hbit⟩⟩
      rwa [← show (e.1, v) = e from List.inj_on_of_nodup_map hnd hv he rfl]
    · rw [hlt _ _ _ (Nat.not_lt.1 hi), decide_eq_false hi, Bool.false_and]
  · by_cases hi : i < w
    · rw [Bool.eq_iff_iff, State.elem_putElems_testBit es hp h hb hr hes he hi, if_neg hn]
    · rw [hlt _ _ _ (Nat.not_lt.1 hi), hlt _ _ _ (Nat.not_lt.1 hi)]
  · obtain ⟨v, hthr, hv⟩ := State.putElems_thr (w := w) (g := g) (base := base) es hp
    simp only [t, hthr, Slot.readV, hv]
    refine BitVec.eq_of_getLsbD_eq fun b hb' => ?_
    rw [maskedBy_getLsbD _ _ hb', if_neg]
    rw [(laneWrites_testBit s.thr w g base (k * 32 + n) b es).1]
    rintro ⟨ev, -, hkey, -⟩
    obtain ⟨-, hlo, hhi⟩ := Slot.placeOfElem_reg (x := s.thr) h hb ev.1
    rw [hkey] at hlo hhi
    omega

end

section
/-! SUPPORT. Reductions (R60 to R62, R179): the pairwise tree over integers, and how the parts of a reduction end. -/

namespace Sys2Proof.Machine

/-! ### The tree over integers (R60) -/

/-- The leaves that are present below node (l, j). -/
def presentLeaves (leaf : Nat → Option Nat) (l j : Nat) : List Nat := (List.range (2 ^ l)).filterMap fun n => leaf (j * 2 ^ l + n)

theorem presentLeaves_zero (leaf : Nat → Option Nat) (j : Nat) : presentLeaves leaf 0 j = (leaf j).toList := by
  cases h : leaf j <;> simp [presentLeaves, h]

/-- The leaves below a node are those below its two children, in order. -/
theorem presentLeaves_succ (leaf : Nat → Option Nat) (l j : Nat) :
    presentLeaves leaf (l + 1) j = presentLeaves leaf l (2 * j) ++ presentLeaves leaf l (2 * j + 1) := by
  have h1 : ∀ n, j * 2 ^ (l + 1) + n = 2 * j * 2 ^ l + n := fun n => by ring
  have h2 : ∀ n, 2 * j * 2 ^ l + (2 ^ l + n) = (2 * j + 1) * 2 ^ l + n := fun n => by ring
  simp only [presentLeaves, pow_succ 2 l, Nat.mul_two (2 ^ l), List.range_add, List.filterMap_append, List.filterMap_map]
  simp only [← Nat.mul_two (2 ^ l), ← pow_succ, h1, Function.comp_def, h2]

theorem presentLeaves_eq_nil {leaf : Nat → Option Nat} {l j glen : Nat} (h : ∀ e, glen ≤ e → leaf e = none)
    (hg : glen ≤ j * 2 ^ l) : presentLeaves leaf l j = [] :=
  List.filterMap_eq_nil_iff.2 fun n _ => h _ (by omega)

/-- What a node over integers answers about the leaves below it. -/
def sumsLeaves (w : Nat) (present : List Nat) : Option (Nat × Flags) → Prop
  | none => present = []
  | some (v, f) => present ≠ [] ∧ v % 2 ^ w = present.sum % 2 ^ w ∧ f = flNone

theorem sumsLeaves_append {w a b : Nat} {p q : List Nat} (hp : p ≠ []) (ha : a % 2 ^ w = p.sum % 2 ^ w)
    (hb : b % 2 ^ w = q.sum % 2 ^ w) : sumsLeaves w (p ++ q) (some ((a + b) % 2 ^ w, flNone)) := by
  refine ⟨fun h => hp (List.append_eq_nil_iff.1 h).1, ?_, rfl⟩
  rw [Nat.mod_mod, List.sum_append, Nat.add_mod, ha, hb, ← Nat.add_mod]

/-- The tree over integers sums the leaves that are present. -/
theorem redTree_int (sg : Bool) (w : Nat) (x : Slot) (top glen : Nat) {leaf : Nat → Option Nat}
    (h : ∀ e, glen ≤ e → leaf e = none) (l : Nat) :
    ∀ j, sumsLeaves w (presentLeaves leaf l j) (redTree (.int sg w) x top glen leaf l j) := by
  induction l with
  | zero =>
    intro j
    rw [redTree, presentLeaves_zero]
    cases leaf j with
    | none => rfl
    | some v => exact ⟨List.cons_ne_nil _ _, by simp, rfl⟩
  | succ l ih =>
    intro j
    rw [redTree]
    by_cases hg : glen ≤ j * 2 ^ (l + 1)
    · rw [if_pos hg, presentLeaves_eq_nil h hg]
      rfl
    rw [if_neg hg, presentLeaves_succ]
    have h1 := ih (2 * j)
    have h2 := ih (2 * j + 1)
    generalize presentLeaves leaf l (2 * j) = p at h1 ⊢
    generalize presentLeaves leaf l (2 * j + 1) = q at h2 ⊢
    cases hl : redTree (.int sg w) x top glen leaf l (2 * j) with
    | none =>
      rw [hl] at h1
      obtain rfl : p = [] := h1
      cases hr : redTree (.int sg w) x top glen leaf l (2 * j + 1) with
      | none => rwa [hr] at h2
      | some r => rwa [hr] at h2
    | some a =>
      rw [hl] at h1
      obtain ⟨hp, ha, hf⟩ := h1
      cases hr : redTree (.int sg w) x top glen leaf l (2 * j + 1) with
      | none =>
        rw [hr] at h2
        obtain rfl : q = [] := h2
        rw [List.append_nil]
        exact ⟨hp, ha, hf⟩
      | some b =>
        rw [hr] at h2
        obtain ⟨-, hb, hf'⟩ := h2
        have := sumsLeaves_append hp ha hb
        simp only [redAdd, hf, hf']
        exact this

/-! ### Active elements (R167) -/

theorem mem_rangeFrom {lo e : Nat} : ∀ {n : Nat}, e ∈ rangeFrom lo n ↔ lo ≤ e ∧ e < lo + n
  | 0 => by simp [rangeFrom]
  | n + 1 => by rw [rangeFrom, List.mem_cons, mem_rangeFrom]; omega

theorem Slot.mem_active {x : Slot} {k e : Nat} : e ∈ x.active k ↔
    e < x.glen ∧ (x.readM k).toNat.testBit e = true ∧ x.rankOn (e / lanesOf (widthOf x.fmt) x.grp) = true := by
  simp only [active, inStrip, List.mem_filter, mem_rangeFrom]
  constructor
  · rintro ⟨⟨⟨-, hlt⟩, hr⟩, hm⟩
    exact ⟨by omega, hm, hr⟩
  · rintro ⟨hlt, hm, hr⟩
    exact ⟨⟨⟨by omega, by omega⟩, hr⟩, hm⟩

/-! ### Kinds whose sums round (R169) -/

/-- Whether a sum of a kind rounds. -/
def kindIsFp : Option Kind → Bool
  | some (.fp _) => true
  | _ => false

end Sys2Proof.Machine
end

section
open Sys2Proof Sys2Proof.Machine

/-- Settles O26: each reduction from its part, and the tree over integers by induction on its height. -/
theorem vectorReductions : Obligations.VectorReductions := by
  unfold Obligations.VectorReductions
  intro st d a b k kd u W X act seed put sums exts any' fold top leaf pick
  have hfp : ∀ s : State, sums s → kindIsFp (kindOf s.thr.fmt) = true → s.thr.rm ≠ none := fun s ⟨hs, _, hrm⟩ h => by
    rw [hs.1] at h
    cases kd with
    | fp f => exact hrm ⟨f, rfl⟩
    | int sg w => cases h
    | mod => cases h
    | q4 => cases h
  have hleaf : ∀ s : State, (fun e => if e < s.thr.glen ∧ (s.thr.readM k.toNat).toNat.testBit e = true
      ∧ s.thr.rankOn (e / lanesOf (W s) s.thr.grp) = true then some (X s e) else none) = leaf s := fun s =>
    funext fun e => if_congr Slot.mem_active.symm rfl rfl
  refine ⟨?sum, ?ordered, ?max, ?min, ?and, ?or, fun sg w x top glen l j leaf h => redTree_int sg w x top glen h l j⟩
  case sum =>
    refine does_of_body (fun s => Eq.refl (execVredsum st d a b k s)) fun s hs => ?_
    refine (withStrip_stripOf hs.1 hs.2.1 (hfp s hs)).trans ?_
    have key : ∀ lf, lf = leaf s → (match (match redTree kd s.thr (top s) s.thr.glen lf (top s) 0 with
          | none => (seed s, flNone)
          | some (r, f) => ((redAdd kd s.thr 0 (seed s) r).1, f ||| (redAdd kd s.thr 0 (seed s) r).2)) with
        | (v, fl) => exePut (s.raise fl) d (extendElem kd v)) = Exe.done (put s
          (match redTree kd s.thr (top s) s.thr.glen (leaf s) (top s) 0 with
          | none => (seed s, flNone)
          | some r => ((redAdd kd s.thr 0 (seed s) r.1).1, r.2 ||| (redAdd kd s.thr 0 (seed s) r.1).2))) := by
      rintro _ rfl
      cases redTree kd s.thr (top s) s.thr.glen (leaf s) (top s) 0 <;> rfl
    exact key _ (hleaf s)
  case ordered =>
    refine does_of_body (fun s => Eq.refl (execVredsumo st d a b k s)) fun s hs => ?_
    exact withStrip_stripOf hs.1 hs.2.1 (hfp s hs)
  case max =>
    exact does_of_strip kd (fun s => Eq.refl (execVredmax st d a b k s)) (fun _ h => h.1) (fun _ h => h.2) (fun _ _ => nofun)
      fun _ _ => rfl
  case min =>
    exact does_of_strip kd (fun s => Eq.refl (execVredmin st d a b k s)) (fun _ h => h.1) (fun _ h => h.2) (fun _ _ => nofun)
      fun _ _ => rfl
  case and => exact does_of_any (fun s => Eq.refl (execVredand st d a b k s)) fun _ => rfl
  case or => exact does_of_any (fun s => Eq.refl (execVredor st d a b k s)) fun _ => rfl

end

section
/-! SUPPORT. Exchanges across slices and packed registers (R186 to R188): the elements as the claims spell them. -/

namespace Sys2Proof.Machine

/-- An exchange moves each active element from its partner's rank, where the last grant counted that rank and its slice is
attached. -/
theorem exchanged_eq (x : Slot) (w g base : Nat) (p : Nat → Nat) (es : List Nat) :
    (es.filterMap fun e =>
      if (decide (p (e / lanesOf w g) < x.ranks.length) && bitAt x.att (x.sliceOf (p (e / lanesOf w g)))) = true then
        some (e, x.lane w g base (p (e / lanesOf w g)) (e % lanesOf w g))
      else none)
    = es.filterMap fun e =>
      (if p (e / lanesOf w g) < x.ranks.length ∧ x.att.testBit (x.sliceOf (p (e / lanesOf w g))) = true then
        some (x.lane w g base (p (e / lanesOf w g)) (e % lanesOf w g))
      else none).map fun v => (e, v) := by
  refine List.filterMap_congr fun e _ => ?_
  simp only [Bool.and_eq_true, decide_eq_true_eq, bitAt]
  split <;> rfl

/-- The scale code of a lane's block in a packed register, as a number. -/
theorem q4RegScale_eq (v : BitVec 2048) (b : Nat) : q4RegScale v b = v.toNat / 2 ^ (1536 + 8 * b) % 2 ^ 8 := by
  rw [q4RegScale, bitsAt_eq_div_mod, show 1543 + 8 * b + 1 - (1536 + 8 * b) = 8 by omega]

theorem q4RegCode_eq (v : BitVec 2048) (j : Nat) : q4RegCode v j = v.toNat / 2 ^ (4 * j) % 2 ^ 4 := by
  rw [q4RegCode, bitsAt_eq_div_mod, show 4 * j + 3 + 1 - 4 * j = 4 by omega]

end Sys2Proof.Machine
end

section
open Sys2Proof Sys2Proof.Machine

/-- Settles O27: each permute moves what its part gives; a test of the part that is a Boolean is the claim's proposition. -/
theorem vectorPermutes : Obligations.VectorPermutes := by
  unfold Obligations.VectorPermutes
  intro st d a b k kd any' W L X n mk move all' packed from'
  refine ⟨?vperm, ?vslup, ?vsldn, ?vmerge, ?vcompress, ?vexpand, ?viota, ?vbcast, ?vextract, ?vxch, ?vxchRot⟩
  case vperm => exact does_of_any (fun s => Eq.refl (execVperm st d a b k s)) fun _ => rfl
  case vslup => exact does_of_any (fun s => Eq.refl (execVslup st d a b k s)) fun _ => rfl
  case vsldn => exact does_of_any (fun s => Eq.refl (execVsldn st d a b k s)) fun _ => rfl
  case vmerge => exact does_of_any (fun s => Eq.refl (execVmerge st d a b k s)) fun _ => rfl
  case vcompress => exact does_of_any (fun s => Eq.refl (execVcompress st d a k s)) fun _ => rfl
  case vexpand => exact does_of_any (fun s => Eq.refl (execVexpand st d a k s)) fun _ => rfl
  case viota => exact does_of_any (fun s => Eq.refl (execViota st d k s)) fun _ => rfl
  case vbcast => exact does_of_any (fun s => Eq.refl (execVbcast st d a k s)) fun _ => rfl
  case vextract => exact does_of_any (fun s => Eq.refl (execVextract st d a b s)) fun _ => rfl
  case vxch =>
    exact does_of_any (fun s => Eq.refl (execVxch st d a k s)) fun s =>
      congrArg (fun es => Exe.done (s.putElems none (W s) s.thr.grp d.toNat es))
        (exchanged_eq s.thr (W s) s.thr.grp a.toNat (fun r => r ^^^ s.thr.dist) _)
  case vxchRot =>
    exact does_of_any (fun s => Eq.refl (execVxchRot st d a k s)) fun s =>
      congrArg (fun es => Exe.done (s.putElems none (W s) s.thr.grp d.toNat es)) (exchanged_eq s.thr (W s) s.thr.grp a.toNat
        (fun r => (((r : Int) - (s.thr.dist : Int)) % (s.thr.ranks.length : Int)).toNat) _)

/-- Settles O28: the code and the scale of an element, read from the packed register as numbers. -/
theorem vectorQ4N : Obligations.VectorQ4N := by
  unfold Obligations.VectorQ4N
  intro st d a b k ok L super
  have hok : ∀ s, ok s → okQ4 (.fp .f32) s.thr.grp = true := fun s h => by simpa [okQ4] using h.2
  refine ⟨does_of_strip (.fp .f32) (fun s => Eq.refl (execVq4dq st d a b k s)) (fun _ h => h.1) hok (fun _ _ => nofun) fun s _ => ?_,
    does_of_strip (.fp .f32) (fun s => Eq.refl (execVq4q st d a b k s)) (fun _ h => h.1) hok (fun _ _ => nofun) fun s _ => rfl⟩
  refine congrArg (fun f => Exe.done (s.mapped (some 8) d.toNat k.toNat f)) (funext fun e => ?_)
  simp only [q4RegCode_eq, q4RegScale_eq]
  rfl

end

section
/-! SUPPORT. A thread that a grant takes a slice from (R162, R168): slices 0 and 1 attached, SCAP 4, so that the whole of slice 1
lies beyond the cap; register 0 of slice 1 is not zero. -/

namespace Sys2Proof.Machine

/-- The thread, with room for a request of 100 elements in s(1). -/
def gapThread : Slot := { att := 3, scap := 4, hold := true, s := [(1, 100#64)], v := [(32, 1#2048)] }

def gapState : State := { slots := [(0, gapThread)] }

theorem gapState_executes : gapState.executes (.setlen 0 2 1 0 7) := by
  unfold State.executes
  refine ⟨rfl, by decide, by decide, by decide, .inr ⟨fun _ h => absurd h (by decide), .inl (by decide)⟩, by decide, by decide,
    by decide⟩

end Sys2Proof.Machine
end

section
open Sys2Proof Sys2Proof.Machine

/-- Refutes O20: the clause on `readV k n` is stated for every number n, also beyond the 32 registers of a slice, where `readV 0 32`
names register 0 of slice 1. With SCAP 4 that register lies beyond the cap and the grant drops it, while the clause asks of
`readV 0 32` that it keep the four quarters that rank 0 holds. -/
theorem not_setlenGrants : ¬ Obligations.SetlenGrants := by
  unfold Obligations.SetlenGrants
  intro h
  obtain ⟨r, hr, -, -, -, -, -, hv, -⟩ := (h 0 2 1 0 7 gapState gapState_executes (by decide)).2 (by decide)
  have hdropped : (match exec (.setlen 0 2 1 0 7) gapState with
      | .next r => r.thr.readV 0 32 == 0#2048
      | _ => false) = true := by decide +kernel
  rw [hr, beq_iff_eq] at hdropped
  have hkept := (hv 0 32).trans (if_neg (by decide +kernel))
  rw [hdropped] at hkept
  exact absurd hkept (by decide +kernel)

end

section
/-! SUPPORT. The turns of a vector memory instruction (R322): the end, and a turn by the outcome of its group's checks. -/

namespace Sys2Proof.Machine

/-- How a vector memory instruction ends on state `t` (R102, R322). -/
theorem vmemEnd_eq (s : State) : s.vmemEnd =
    let t := s.setSstart 0 false
    let r := t.setThr { t.thr with vm := none, lostNew := 0 }
    if t.thr.lostNew = 0 then Exe.done r else .trap r { cause := 0x17, tval := BitVec.ofNat 64 t.thr.lostNew } :=
  ite_not _ _ _

section Turn
variable {m : VMem} {s : State} {e ea v : Nat} {r : List (Nat × Nat × Nat)} (h : m.todo = (e, ea, v) :: r)

/-- The elements of a turn's group, and those after it. -/
def VMem.group (m : VMem) (k : Nat) : List (Nat × Nat × Nat) := m.todo.takeWhile fun t => t.1 / 16 == k
def VMem.after (m : VMem) (k : Nat) : List (Nat × Nat × Nat) := m.todo.drop (m.group k).length

/-- A turn whose group is performed, in state `t`: the marks of a scoped form, and the end or the next group (R322, R324). -/
def vmemNext (m : VMem) (k : Nat) (ts : List (Target × Bool)) (t : State) (landed : List Nat) : Exe :=
  let t := if m.scope.isSome then t.putMisses ((m.group k).zip ts) else t
  if (m.after k).isEmpty then t.vmemEnd
  else
    let t := t.setSstart (16 * (k + 1)) m.append
    .turn (t.setThr { t.thr with vm := some { m with todo := m.after k, landed := landed ++ m.landed } })

include h

theorem exeVmemTurn_fails {t : Trap} (ht : s.groupTargets m (m.group (e / 16)) = .error t) : exeVmemTurn m s =
    .trap (if t.cause = 0x15 then s.setSstart 0 false else s.setSstart (max s.thr.sstart (16 * (e / 16))) m.append) t := by
  rw [VMem.group, h] at ht
  simp only [exeVmemTurn, h, ht]

theorem exeVmemTurn_stores {ts : List (Target × Bool)} (ht : s.groupTargets m (m.group (e / 16)) = .ok ts) (hl : m.load = false) :
    exeVmemTurn m s = vmemNext m (e / 16) ts (s.groupWrites (m.w / 8) ((m.group (e / 16)).zip ts)) [] := by
  rw [VMem.group, h] at ht
  simp only [exeVmemTurn, h, ht, hl, vmemNext, VMem.group, VMem.after, Bool.false_eq_true, if_false]

theorem exeVmemTurn_loads {ts : List (Target × Bool)} {vs : List (Nat × Nat)} {t : State}
    (ht : s.groupTargets m (m.group (e / 16)) = .ok ts) (hl : m.load = true)
    (hr : s.groupReads (m.w / 8) ((m.group (e / 16)).zip ts) = .ok (vs, t)) :
    exeVmemTurn m s = vmemNext m (e / 16) ts (t.putElems none m.w m.g m.d vs) (vs.map (·.1)) := by
  rw [VMem.group, h] at ht hr
  simp only [exeVmemTurn, h, ht, hl, hr, vmemNext, VMem.group, VMem.after, if_true]

omit h

theorem vmemNext_turn {k : Nat} {ts : List (Target × Bool)} {t : State} {landed : List Nat} (hn : m.after k ≠ []) :
    vmemNext m k ts t landed =
      let t := (if m.scope.isSome then t.putMisses ((m.group k).zip ts) else t).setSstart (16 * (k + 1)) m.append
      .turn (t.setThr { t.thr with vm := some { m with todo := m.after k, landed := landed ++ m.landed } }) := by
  rw [vmemNext]
  exact if_neg (by rwa [List.isEmpty_iff])

theorem vmemNext_end {k : Nat} {ts : List (Target × Bool)} {t : State} {landed : List Nat} (hn : m.after k = []) :
    vmemNext m k ts t landed = (if m.scope.isSome then t.putMisses ((m.group k).zip ts) else t).vmemEnd := by
  rw [vmemNext]
  exact if_pos (by rw [hn]; rfl)

end Turn

end Sys2Proof.Machine
end

section
open Sys2Proof Sys2Proof.Machine

/-- Settles O32: a turn by the outcome of its group's checks, and by whether a group is left. -/
theorem vectorMemoryTurns : Obligations.VectorMemoryTurns := by
  unfold Obligations.VectorMemoryTurns
  intro m s e ea v r h k grp rest cut goOn mark finis
  have hend : ∀ t : State, t.vmemEnd = finis t := fun t => vmemEnd_eq t
  refine ⟨fun t ht => exeVmemTurn_fails h ht, fun ts ht hl hn => ?_, fun ts ht hl hn => ?_, fun ts vs t ht hl hn hr => ?_,
    fun ts vs t ht hl hn hr => ?_⟩
  · rw [exeVmemTurn_stores h ht hl, vmemNext_turn hn]
    rfl
  · rw [exeVmemTurn_stores h ht hl, vmemNext_end hn, hend]
    rfl
  · rw [exeVmemTurn_loads h ht hl hr, vmemNext_turn hn]
    rfl
  · rw [exeVmemTurn_loads h ht hl hr, vmemNext_end hn, hend]
    rfl

end

section
/-! SUPPORT. Reads and translations see nothing of the thread slots; stores leave where an access may go. -/

namespace Sys2Proof.Machine

/-! ### Reads and translations under other slots -/

section Slots
variable (s : State) (sl : Map Slot)

theorem State.readPhys_slots : ∀ n pa : Nat, { s with slots := sl }.readPhys pa n = s.readPhys pa n
  | 0, _ => rfl
  | n + 1, pa => by rw [readPhys, readPhys, readPhys_slots n]; rfl

theorem State.goodPhys_slots : ∀ n pa : Nat, { s with slots := sl }.goodPhys pa n = s.goodPhys pa n
  | 0, _ => rfl
  | n + 1, pa => by rw [goodPhys, goodPhys, goodPhys_slots n]; rfl

theorem State.walkGo_slots (va : Nat) : ∀ n t : Nat, { s with slots := sl }.walkGo va t n = s.walkGo va t n
  | 0, _ => rfl
  | n + 1, t => by simp only [walkGo, readPhys_slots, goodPhys_slots, walkGo_slots va n]

theorem State.leafFor_slots (h asid va : Nat) : { s with slots := sl }.leafFor h asid va = s.leafFor h asid va := by
  have hb : { s with slots := sl }.walkBy h asid va = s.walkBy h asid va := by
    rw [walkBy, walkBy, show ({ s with slots := sl } : State).walkStart h asid va = s.walkStart h asid va from rfl]
    simp only [walkGo_slots]
  rw [leafFor, leafFor, hb]

theorem State.translate_slots (h asid va : Nat) (sup : Bool) (k : AKind) :
    { s with slots := sl }.translate h asid sup k va = s.translate h asid sup k va := by
  rw [translate, translate, leafFor_slots]
  rfl

end Slots

section SetThr
variable (s : State) (y : Slot)

theorem State.readPhys_setThr (n pa : Nat) : (s.setThr y).readPhys pa n = s.readPhys pa n := s.readPhys_slots _ n pa
theorem State.translate_setThr (h asid va : Nat) (sup : Bool) (k : AKind) :
    (s.setThr y).translate h asid sup k va = s.translate h asid sup k va := s.translate_slots _ h asid va sup k

/-- The checks of an access look at the thread's ASID, mode and declarations alone. -/
theorem State.threadTarget_setThr {x y' : Slot} (hc : y'.csr = x.csr ∨ y'.asid = x.asid ∧ y'.sup = x.sup) (hd : y'.decl = x.decl)
    (k : AKind) (ea n : Nat) : (s.setThr y).threadTarget y' k ea n = s.threadTarget x k ea n := by
  have ha : y'.asid = x.asid ∧ y'.sup = x.sup := by
    rcases hc with hc | hc
    · exact ⟨by simp only [Slot.asid, Slot.csrv, hc], Slot.sup_congr hc⟩
    · exact hc
  simp only [threadTarget, translate_setThr, ha.1, ha.2, hd]
  rfl

theorem State.reaches_setThr {pa n : Nat} (ha : y.asid = s.thr.asid) : (s.setThr y).reaches pa n ↔ s.reaches pa n := by
  have hg : (s.setThr y).goodPhys pa n = s.goodPhys pa n := s.goodPhys_slots _ n pa
  simp only [reaches, thr_setThr, ha, hg]
  exact Iff.rfl

end SetThr

/-! ### Stores leave where an access may go -/

/-- A store of the thread goes to memory at `pa`: its home answers, no gateway drops it, and it is memory. -/
def State.storesAt (s : State) (x : Slot) (pa : Nat) : Prop :=
  s.homeDown pa = false ∧ s.windowDrops x.asid pa = false ∧ ∃ loc, s.placeOf pa = .ram loc

theorem State.reaches.storesAt {s : State} {pa n : Nat} (h : s.reaches pa n) : s.storesAt s.thr pa := ⟨h.1, h.2.1, h.2.2.1⟩

theorem State.storesAt_writePhys {s : State} {x : Slot} {pa : Nat} (h : s.storesAt x pa) (qa v n : Nat) :
    (s.writePhys qa v n).storesAt x pa := by
  obtain ⟨st, po, hw⟩ := State.writePhys_eq n s qa v
  rw [hw]
  exact h

theorem State.targetWrite_storesAt {s : State} {x : Slot} {pa : Nat} (h : s.storesAt x pa) (ea size : Nat) (v : W64) :
    s.targetWrite x (.phys pa) ea size v = .ok (s.writePhys pa v.toNat size) := targetWrite_ram h.1 h.2.1 h.2.2

@[simp] theorem State.writePhys_thr (s : State) (pa v n : Nat) : (s.writePhys pa v n).thr = s.thr := by
  obtain ⟨st, po, hw⟩ := State.writePhys_eq n s pa v
  rw [hw]
  rfl

end Sys2Proof.Machine
end

section
/-! SUPPORT. A vector memory instruction of one group (R320 to R324): its checks, its reads or stores, and its end, where every
element goes to memory. The elements are those of a list, with an index, an address, a value to store and a place each. -/

namespace Sys2Proof.Machine

/-! ### The end of an instruction that has lost no slice -/

/-- The state a vector memory instruction leaves that has lost no slice: SSTART 0, nothing under way. -/
def State.vmemEnded (s : State) : State :=
  let t := s.setSstart 0 false
  t.setThr { t.thr with vm := none, lostNew := 0 }

@[simp] theorem State.setSstart_thr (s : State) (n : Nat) (ad : Bool) :
    (s.setSstart n ad).thr = s.thr.setCsr csrSSTART (BitVec.ofNat 64 (n % 2 ^ 15 + b2n ad * 2 ^ 15)) := thr_setThr _ _

theorem State.vmemEnd_of_kept {s : State} (h : s.thr.lostNew = 0) : s.vmemEnd = .done s.vmemEnded := by
  rw [vmemEnd_eq]
  exact if_pos (by rw [setSstart_thr]; exact h)

/-! ### One element -/

/-- A scoped access that meets no synchronising page misses nothing (R324). -/
def State.noMiss (s : State) (m : VMem) (k : AKind) (ea : Nat) : Prop :=
  m.scope = none ∨ ∀ p q, s.translate (holdCp (courseOf s.cur)) s.thr.asid s.thr.sup k ea = .ok p q → q.testBit 8 = false

/-- An element that goes to memory passes its check. -/
theorem State.elemTarget_phys {s : State} {m : VMem} {ea data pa : Nat} {k : AKind} (hk : k = if m.load then .load else .store)
    (ht : s.threadTarget s.thr k ea (m.w / 8) = .ok (.phys pa)) (hm : s.noMiss m k ea)
    (hs : m.load = false → s.storesAt s.thr pa) : s.elemTarget m ea data = .ok (.phys pa, false) := by
  subst hk
  cases hl : m.load
  case' true => simp only [hl, if_true] at ht hm
  case' false => simp only [hl, Bool.false_eq_true, if_false] at ht hm
  case' true => simp only [elemTarget, hl, if_true, ht]
  case' false => simp only [elemTarget, hl, Bool.false_eq_true, if_false, ht, targetWrite_storesAt (hs hl)]
  all_goals
    rcases hm with hm | hm
    · simp only [hm, Bool.false_eq_true, if_false]
    cases m.scope with
    | none => rfl
    | some c =>
      generalize s.translate (holdCp (courseOf s.cur)) s.thr.asid s.thr.sup _ ea = x at hm
      cases x with
      | fault f => simp only [Bool.false_eq_true, if_false]
      | ok p q => simp only [bitAt, hm p q rfl, Bool.false_and, Bool.false_eq_true, if_false]

/-! ### A group -/

section Group
variable {ι : Type} (ix ea data pa : ι → Nat)

theorem State.groupTargets_of {s : State} {m : VMem} : ∀ {L : List ι},
    (∀ i ∈ L, s.elemTarget m (ea i) (data i) = .ok (.phys (pa i), false)) →
      s.groupTargets m (L.map fun i => (ix i, ea i, data i)) = .ok (L.map fun i => (.phys (pa i), false))
  | [], _ => rfl
  | i :: r, h => by
    simp only [List.map_cons, groupTargets, h i (List.mem_cons_self ..),
      groupTargets_of fun j hj => h j (List.mem_cons_of_mem _ hj)]

theorem State.groupReads_of {s : State} {n : Nat} (hn : n ≤ 8) : ∀ {L : List ι}, (∀ i ∈ L, s.reaches (pa i) n) →
    s.groupReads n (L.map fun i => ((ix i, ea i, data i), (Target.phys (pa i), false))) =
      .ok (L.map fun i => (ix i, s.readPhys (pa i) n), s)
  | [], _ => rfl
  | i :: r, h => by
    have hv : (BitVec.ofNat 64 (s.readPhys (pa i) n)).toNat = s.readPhys (pa i) n :=
      Nat.mod_eq_of_lt (lt_of_lt_of_le (s.readPhys_lt n (pa i)) (Nat.pow_le_pow_right (by decide) (by omega)))
    simp only [List.map_cons, groupReads, Bool.false_eq_true, if_false, targetRead_reaches (h i (List.mem_cons_self ..)),
      groupReads_of hn fun j hj => h j (List.mem_cons_of_mem _ hj), hv]

theorem State.groupWrites_of {n : Nat} : ∀ {L : List ι} {s : State}, (∀ i ∈ L, s.storesAt s.thr (pa i)) →
    (∀ i ∈ L, data i < 2 ^ 64) →
    s.groupWrites n (L.map fun i => ((ix i, ea i, data i), (Target.phys (pa i), false))) =
      L.foldl (fun r i => r.writePhys (pa i) (data i) n) s
  | [], _, _, _ => rfl
  | i :: r, s, h, hd => by
    have hv : (BitVec.ofNat 64 (data i)).toNat = data i := Nat.mod_eq_of_lt (hd i (List.mem_cons_self ..))
    rw [List.map_cons, groupWrites, List.foldl_cons]
    simp only [Bool.false_eq_true, if_false, targetWrite_storesAt (h i (List.mem_cons_self ..)), hv]
    exact groupWrites_of (fun j hj => by
      rw [writePhys_thr]
      exact storesAt_writePhys (h j (List.mem_cons_of_mem _ hj)) _ _ _) fun j hj => hd j (List.mem_cons_of_mem _ hj)

theorem State.foldl_writePhys_thr {n : Nat} (s : State) (L : List ι) :
    (L.foldl (fun r i => r.writePhys (pa i) (data i) n) s).thr = s.thr := by
  induction L generalizing s with
  | nil => rfl
  | cons i r ih => rw [List.foldl_cons, ih, writePhys_thr]

/-- The bits of m7 of a group that missed nothing, cleared (R324). -/
def State.clearMisses (s : State) (es : List Nat) : State :=
  let y := s.thr.landList (s.thr.pend.filter fun p => p.isM 7)
  let y := { y with pend := s.thr.pend.filter fun p => !p.isM 7 }
  s.setThr (y.land1 (.m 7 (BitVec.ofNat 16384 (bitsOfList es)) 0#16384))

theorem State.putMisses_of (s : State) (L : List ι) :
    s.putMisses (L.map fun i => ((ix i, ea i, data i), (Target.phys (pa i), false))) = s.clearMisses (L.map ix) := by
  have hmask : (L.map fun i => ((ix i, ea i, data i), (Target.phys (pa i), false))).map (·.1.1) = L.map ix := by
    rw [List.map_map]
    rfl
  have hnone : (L.map fun i => ((ix i, ea i, data i), (Target.phys (pa i), false))).filter (·.2.2) = [] := by
    rw [List.filter_eq_nil_iff]
    intro a ha
    obtain ⟨i, -, rfl⟩ := List.mem_map.1 ha
    exact Bool.false_ne_true
  rw [putMisses, hmask, hnone]
  rfl

variable {L : List ι} {m : VMem} {s : State} (hm : m.todo = L.map fun i => (ix i, ea i, data i)) (h16 : ∀ i ∈ L, ix i < 16)
include hm h16

/-- Elements below 16 are one group, with none after it. -/
theorem VMem.group_zero : m.group 0 = L.map (fun i => (ix i, ea i, data i)) ∧ m.after 0 = [] := by
  have hg : m.group 0 = m.todo := List.takeWhile_eq_self_iff.2 fun t ht => by
    rw [hm] at ht
    obtain ⟨i, hi, rfl⟩ := List.mem_map.1 ht
    exact beq_iff_eq.2 (Nat.div_eq_of_lt (h16 i hi))
  exact ⟨hg.trans hm, by rw [VMem.after, hg, List.drop_length]⟩

theorem VMem.todo_cons (hL : L ≠ []) : ∃ e ea' v r, m.todo = (e, ea', v) :: r ∧ e / 16 = 0 := by
  cases L with
  | nil => exact absurd rfl hL
  | cons i r => exact ⟨_, _, _, _, hm, Nat.div_eq_of_lt (h16 i (List.mem_cons_self ..))⟩

/-- The turn of stores that are one group, all to memory. -/
theorem exeVmemTurn_stores_one (hL : L ≠ []) (hl : m.load = false)
    (ht : ∀ i ∈ L, s.elemTarget m (ea i) (data i) = .ok (.phys (pa i), false))
    (hs : ∀ i ∈ L, s.storesAt s.thr (pa i)) (hd : ∀ i ∈ L, data i < 2 ^ 64) :
    exeVmemTurn m s =
      let t := L.foldl (fun r i => r.writePhys (pa i) (data i) (m.w / 8)) s
      (if m.scope.isSome then t.clearMisses (L.map ix) else t).vmemEnd := by
  obtain ⟨hg, ha⟩ := VMem.group_zero ix ea data hm h16
  obtain ⟨e, ea', v, r, htodo, he⟩ := VMem.todo_cons ix ea data hm h16 hL
  have htargets := State.groupTargets_of ix ea data pa ht
  rw [exeVmemTurn_stores htodo (by rw [he, hg]; exact htargets) hl, he, vmemNext_end ha, hg, List.zip_map',
    State.groupWrites_of ix ea data pa hs hd, State.putMisses_of]

/-- The turn of loads that are one group, all from memory. -/
theorem exeVmemTurn_loads_one (hL : L ≠ []) (hl : m.load = true) (hw : m.w / 8 ≤ 8)
    (ht : ∀ i ∈ L, s.elemTarget m (ea i) (data i) = .ok (.phys (pa i), false)) (hr : ∀ i ∈ L, s.reaches (pa i) (m.w / 8)) :
    exeVmemTurn m s =
      let t := s.putElems none m.w m.g m.d (L.map fun i => (ix i, s.readPhys (pa i) (m.w / 8)))
      (if m.scope.isSome then t.clearMisses (L.map ix) else t).vmemEnd := by
  obtain ⟨hg, ha⟩ := VMem.group_zero ix ea data hm h16
  obtain ⟨e, ea', v, r, htodo, he⟩ := VMem.todo_cons ix ea data hm h16 hL
  have htargets := State.groupTargets_of ix ea data pa ht
  have hreads := State.groupReads_of ix ea data pa hw hr
  rw [exeVmemTurn_loads htodo (by rw [he, hg]; exact htargets) hl (by rw [he, hg, List.zip_map']; exact hreads), he, vmemNext_end ha, hg,
    List.zip_map', State.putMisses_of]

end Group

end Sys2Proof.Machine
end

section
/-! SUPPORT. Vector loads and stores that fit in one group (R318 to R322): the instruction's own part at its first turn. -/

namespace Sys2Proof.Machine

/-! ### States that differ in SSTART alone -/

theorem Map.set_set {α : Type} (k : Nat) (v w : α) : ∀ m : Map α, (m.set k v).set k w = m.set k w
  | [] => by simp [Map.set]
  | (k', v') :: r => by
    by_cases h : k = k'
    · simp [Map.set, h]
    · by_cases hlt : k < k'
      · simp [Map.set, h, hlt]
      · simp [Map.set, h, hlt, Map.set_set k v w r]

theorem State.setThr_twice (s : State) (x y : Slot) : (s.setThr x).setThr y = s.setThr y :=
  congrArg (fun sl => { s with slots := sl }) (Map.set_set s.cur x y s.slots)

section Sstart
variable (s : State) (n : Nat) (ad : Bool)

theorem State.setSstart_asid : (s.setSstart n ad).thr.asid = s.thr.asid := by
  rw [setSstart_thr, Slot.asid, Slot.csrv_setCsr_ne _ _ (by decide)]
  rfl

theorem State.setSstart_sup : (s.setSstart n ad).thr.sup = s.thr.sup := by
  rw [setSstart_thr]
  exact Slot.sup_setCsr_ne _ _ (by decide)

theorem State.threadTarget_setSstart (k : AKind) (ea size : Nat) :
    (s.setSstart n ad).threadTarget (s.setSstart n ad).thr k ea size = s.threadTarget s.thr k ea size :=
  s.threadTarget_setThr _ (.inr ⟨s.setSstart_asid n ad, s.setSstart_sup n ad⟩) (by rw [setSstart_thr]; rfl) k ea size

theorem State.reaches_setSstart {pa size : Nat} : (s.setSstart n ad).reaches pa size ↔ s.reaches pa size := by
  have h := s.setSstart_asid n ad
  rw [setSstart_thr] at h
  exact s.reaches_setThr _ h

theorem State.noMiss_setSstart {m : VMem} {k : AKind} {ea : Nat} (h : s.noMiss m k ea) : (s.setSstart n ad).noMiss m k ea := by
  refine h.imp_right fun h p q ht => h p q ?_
  rwa [setSstart_asid, setSstart_sup, setSstart, translate_setThr] at ht

end Sstart

/-! ### Elements of a strip -/

theorem Slot.stripOf.dims {x : Slot} {kd : Kind} (h : x.stripOf kd) (hq : kd ≠ .q4) : widthOf x.fmt ∈ [8, 16, 32, 64] := by
  have hk := h.1
  revert hk
  generalize x.fmt = c
  intro hk
  unfold kindOf at hk
  split at hk <;> cases hk
  case h_15.refl => exact absurd rfl hq
  all_goals decide

theorem Slot.elem_lt (x : Slot) {w : Nat} (hw : 0 < w) (g base e : Nat) : x.elem w g base e < 2 ^ w := by
  rw [elem_eq, bitsAt_eq_div_mod, Nat.sub_add_cancel (by omega), Nat.add_sub_cancel_left]
  exact Nat.mod_lt _ (Nat.two_pow_pos _)

/-! ### The first turn -/

/-- The instruction under way that a vector load or store over the elements `es` begins (R322). -/
def vmemOf (x : Slot) (load : Bool) (d : Nat) (scope : Option Nat) (es : List Nat) (ea : Nat → Nat) : VMem :=
  { load := load, w := widthOf x.fmt, g := x.grp, d := d, scope := scope
    todo := es.map fun e => (e, ea e, if load then 0 else x.el d e) }

/-- A run of one page that breaks no window's rule, where the form is unit-stride (R289, R320). -/
def State.runOk (s : State) (kind : AKind) (es : List Nat) (ea : Nat → Nat) (size : Nat) : Prop :=
  ∀ a b, es.head? = some a → es.getLast? = some b → s.runLeaves s.thr kind none (ea a) ((b - a + 1) * size) (2 ^ 17) = none

/-- A vector load or store that is one group and goes to memory: element e at address `ea e`, physically at `pa e`. Of a scoped form
some element is active, and none lies in a synchronising page (R318 to R324). -/
structure OneGroup (s : State) (kd : Kind) (k : BitVec 3) (load unit : Bool) (scope : Option Nat) (bad : Slot → Option Trap)
    (ea : Slot → Nat → Nat) (pa : Nat → Nat) : Prop where
  strip : s.thr.stripOf kd
  notQ4 : kd ≠ .q4
  first : s.thr.vm = none
  kept : s.thr.lostNew = 0
  start : s.thr.sstart = 0
  glen_pos : 0 < s.thr.glen
  glen_le : s.thr.glen ≤ 16
  good : bad s.thr = none
  run : unit = true →
    s.runOk (if load then .load else .store) (s.thr.active k.toNat) (fun e => ea s.thr e % 2 ^ 64) (widthOf s.thr.fmt / 8)
  noMiss : scope = none ∨ s.thr.active k.toNat ≠ [] ∧ ∀ e ∈ s.thr.active k.toNat, ∀ p q,
    s.translate (holdCp (courseOf s.cur)) s.thr.asid s.thr.sup (if load then .load else .store) (ea s.thr e % 2 ^ 64) = .ok p q →
      q.testBit 8 = false
  there : ∀ e ∈ s.thr.active k.toNat,
    s.threadTarget s.thr (if load then .load else .store) (ea s.thr e % 2 ^ 64) (widthOf s.thr.fmt / 8) = .ok (.phys (pa e))
      ∧ s.reaches (pa e) (widthOf s.thr.fmt / 8)

namespace OneGroup
variable {s : State} {kd : Kind} {k : BitVec 3} {load unit : Bool} {scope : Option Nat} {bad : Slot → Option Trap}
  {ea : Slot → Nat → Nat} {pa : Nat → Nat} (h : OneGroup s kd k load unit scope bad ea pa) (d : BitVec 5)
include h

/-- The first turn begins the instruction with all its active elements. -/
theorem exeVmem_first : exeVmem load unit d k scope bad ea s =
    exeVmemTurn (vmemOf s.thr load d.toNat scope (s.thr.active k.toNat) fun e => ea s.thr e % 2 ^ 64) (s.setSstart 0 false) := by
  have hall : (s.thr.active k.toNat).filter (fun e => decide (0 ≤ e)) = s.thr.active k.toNat :=
    List.filter_eq_self.2 fun e _ => decide_eq_true (Nat.zero_le e)
  have hstrip : ∀ body : Kind → Exe, withStrip s okMem false body = body kd := fun body =>
    withStrip_stripOf h.strip (okAny_of h.notQ4 s.thr.grp) fun h => absurd h Bool.false_ne_true
  simp only [exeVmem, h.first, hstrip, h.good, h.start, hall, ge_iff_le, Nat.not_le.2 h.glen_pos, if_false]
  cases unit with
  | false => rfl
  | true =>
    have hrun := h.run rfl
    simp only [if_true]
    cases h1 : (s.thr.active k.toNat).head? with
    | none => rfl
    | some a =>
      cases h2 : (s.thr.active k.toNat).getLast? with
      | none => rfl
      | some b =>
        have hleaf := hrun a b h1 h2
        dsimp only at hleaf ⊢
        rw [hleaf]
        rfl

theorem width : 0 < widthOf s.thr.fmt ∧ widthOf s.thr.fmt ≤ 64 := by
  have hw := h.strip.dims h.notQ4
  simp only [List.mem_cons, List.not_mem_nil, or_false] at hw
  omega

theorem index_lt {e : Nat} (he : e ∈ s.thr.active k.toNat) : e < 16 := lt_of_lt_of_le (Slot.mem_active.1 he).1 h.glen_le

theorem reaches {e : Nat} (he : e ∈ s.thr.active k.toNat) :
    (s.setSstart 0 false).reaches (pa e) (widthOf s.thr.fmt / 8) := (s.reaches_setSstart 0 false).2 (h.there e he).2

/-- Every active element passes its check at the first turn. -/
theorem elemTarget {e : Nat} (he : e ∈ s.thr.active k.toNat) (data : Nat) (es : List Nat) (ea' : Nat → Nat) :
    (s.setSstart 0 false).elemTarget (vmemOf s.thr load d.toNat scope es ea') (ea s.thr e % 2 ^ 64) data =
      .ok (.phys (pa e), false) :=
  State.elemTarget_phys rfl ((s.threadTarget_setSstart 0 false _ _ _).trans (h.there e he).1)
    (s.noMiss_setSstart 0 false (h.noMiss.imp id fun hm => hm.2 e he)) fun _ => (h.reaches he).storesAt

/-- With no active element the instruction ends at once; it is no scoped form. -/
theorem exeVmem_none (hnil : s.thr.active k.toNat = []) :
    exeVmem load unit d k scope bad ea s = .done (s.setSstart 0 false).vmemEnded ∧ scope = none := by
  refine ⟨?_, h.noMiss.resolve_right fun hm => hm.1 hnil⟩
  rw [h.exeVmem_first, hnil]
  exact State.vmemEnd_of_kept (by rw [State.setSstart_thr]; exact h.kept)

end OneGroup

/-! ### What a group leaves of the thread -/

theorem Slot.writeLanes_regs (now : Nat) : ∀ (m : Map (Nat × Nat)) (x : Slot),
    ∃ s v m' p, x.writeLanes now none m = { x with s := s, v := v, m := m', pend := p }
  | [], x => ⟨x.s, x.v, x.m, x.pend, rfl⟩
  | (key, md) :: r, x => by
    obtain ⟨a, b, c, hl⟩ := x.landList_eq (x.pend.filter fun p => p.isV (key % 32))
    obtain ⟨s, v, m', p, hw⟩ := writeLanes_regs now r ((x.landV (key % 32)).land1
      (.v (key / 32) (key % 32) (BitVec.ofNat 2048 md.1) (BitVec.ofNat 2048 md.2)))
    refine ⟨s, v, m', p, ?_⟩
    rw [writeLanes]
    simp only [hw]
    rw [landV, hl]
    rfl

theorem State.putElems_lostNew (s : State) (w g base : Nat) (es : List (Nat × Nat)) :
    (s.putElems none w g base es).thr.lostNew = s.thr.lostNew := by
  rw [putElems, thr_setThr]
  obtain ⟨a, v, m, p, hw⟩ := s.thr.writeLanes_regs s.now (laneWrites s.thr w g base es)
  rw [hw]

theorem State.clearMisses_lostNew (s : State) (es : List Nat) : (s.clearMisses es).thr.lostNew = s.thr.lostNew := by
  obtain ⟨a, b, c, hl⟩ := s.thr.landList_eq (s.thr.pend.filter fun p => p.isM 7)
  rw [clearMisses, thr_setThr, hl]
  rfl

/-- The end of a group, with the marks of a scoped form. -/
theorem State.vmemEnd_group {r : State} (h : r.thr.lostNew = 0) (scope : Option Nat) (es : List Nat) :
    (if scope.isSome then r.clearMisses es else r).vmemEnd = .done (if scope.isSome then r.clearMisses es else r).vmemEnded := by
  apply vmemEnd_of_kept
  split
  · rw [clearMisses_lostNew, h]
  · exact h

theorem State.putElems_nil (s : State) (x : Slot) (w g base : Nat) : (s.setThr x).putElems none w g base [] = s.setThr x := by
  rw [putElems, thr_setThr]
  exact s.setThr_twice x x

/-! ### The whole instruction -/

namespace OneGroup
variable {s : State} {kd : Kind} {k : BitVec 3} {unit : Bool} {scope : Option Nat} {bad : Slot → Option Trap}
  {ea : Slot → Nat → Nat} {pa : Nat → Nat} (d : BitVec 5)

/-- Loads whose elements all come from memory (R322). -/
theorem exeVmem_loads (h : OneGroup s kd k true unit scope bad ea pa) : exeVmem true unit d k scope bad ea s =
    let r := (s.setSstart 0 false).putElems none (widthOf s.thr.fmt) s.thr.grp d.toNat
      ((s.thr.active k.toNat).map fun e => (e, s.readPhys (pa e) (widthOf s.thr.fmt / 8)))
    .done (if scope.isSome then r.clearMisses (s.thr.active k.toNat) else r).vmemEnded := by
  by_cases hnil : s.thr.active k.toNat = []
  · obtain ⟨he, hn⟩ := h.exeVmem_none d hnil
    rw [he, hnil, hn, List.map_nil, State.setSstart, State.putElems_nil]
    rfl
  have hw := h.width
  rw [h.exeVmem_first, exeVmemTurn_loads_one id (fun e => ea s.thr e % 2 ^ 64) (fun _ => 0) pa (L := s.thr.active k.toNat) rfl
    (fun e he => h.index_lt he) hnil rfl (show widthOf s.thr.fmt / 8 ≤ 8 by omega) (fun e he => h.elemTarget d he _ _ _)
    fun e he => h.reaches he, List.map_id]
  refine (State.vmemEnd_group ?_ _ _).trans ?_
  · rw [State.putElems_lostNew, State.setSstart_thr]
    exact h.kept
  · simp only [id, State.setSstart, State.readPhys_setThr]
    rfl

/-- Stores whose elements all go to memory (R322). -/
theorem exeVmem_stores (h : OneGroup s kd k false unit scope bad ea pa) : exeVmem false unit d k scope bad ea s =
    let r := (s.thr.active k.toNat).foldl
      (fun (r : State) e => r.writePhys (pa e) (s.thr.el d.toNat e) (widthOf s.thr.fmt / 8)) (s.setSstart 0 false)
    .done (if scope.isSome then r.clearMisses (s.thr.active k.toNat) else r).vmemEnded := by
  by_cases hnil : s.thr.active k.toNat = []
  · obtain ⟨he, hn⟩ := h.exeVmem_none d hnil
    rw [he, hnil, hn]
    rfl
  have hw := h.width
  rw [h.exeVmem_first, exeVmemTurn_stores_one id (fun e => ea s.thr e % 2 ^ 64) (s.thr.el d.toNat) pa (L := s.thr.active k.toNat) rfl
    (fun e he => h.index_lt he) hnil rfl (fun e he => h.elemTarget d he _ _ _) (fun e he => (h.reaches he).storesAt)
    fun e he => lt_of_lt_of_le (Slot.elem_lt _ hw.1 _ _ _) (Nat.pow_le_pow_right (by decide) hw.2), List.map_id]
  refine State.vmemEnd_group ?_ _ _
  rw [State.foldl_writePhys_thr, State.setSstart_thr]
  exact h.kept

end OneGroup

/-- An instruction whose part is done has the effect of its part, whatever its operands are. -/
theorem exec_of_done {i : Instr} {st : BitVec 3} {body : State → Exe} {s r : State} (hx : ∀ s, exec i s = runInsn i st body s)
    (hb : body s.landDue = .done r) (h : s.executes i) :
    exec i s = .next ((r.issued (usesOf s.landDue.thr i) s.landDue.thr.grp).finish st) := by
  rw [hx, runInsn_executes h, hb]
  rfl

end Sys2Proof.Machine
end

section
open Sys2Proof Sys2Proof.Machine

/-- Settles O31: the eight forms are one shared part, of the form's addresses. -/
theorem vectorMemoryOneGroup : Obligations.VectorMemoryOneGroup := by
  unfold Obligations.VectorMemoryOneGroup
  intro st k c d a b sc kd pa s t x W E act A I ok there one idx plainPages begun ended loaded stored clear does unit strided indexed
    atScope hok
  obtain ⟨hs, hq, hv, hlost, hstart, hpos, hle⟩ := hok
  have hindexed : eaIndex a b (sc == 1#1) x = indexed := funext fun e => by
    simp only [eaIndex, beq_iff_eq]
    rfl
  have hgroup : ∀ {load unit : Bool} {scope : Option Nat} {bad : Slot → Option Trap} {ea : Slot → Nat → Nat}, bad x = none →
      (unit = true → t.runOk (if load then .load else .store) act (fun e => ea x e % 2 ^ 64) E) →
      (scope = none ∨ act ≠ [] ∧ plainPages (if load then .load else .store) (ea x)) →
      there (if load then .load else .store) (ea x) → OneGroup t kd k load unit scope bad ea pa :=
    fun hb hr hm ht => ⟨hs, hq, hv, hlost, hstart, hpos, hle, hb, hr, hm, ht⟩
  have hdoes : ∀ {i : Instr} {u : Uses} {r : State} {body : State → Exe}, (∀ s, exec i s = runInsn i st body s) →
      usesOf x i = u → body t = .done r.vmemEnded → does i u r :=
    fun hx hu hb h => ⟨hu, (exec_of_done hx hb h).trans (by rw [hu]; rfl)⟩
  refine ⟨?vld, ?vlds, ?vldx, ?vldxa, ?vst, ?vsts, ?vstx, ?vstxa⟩
  case vld =>
    intro ht ho
    have h : OneGroup t kd k true true none (fun _ => none) (eaUnit a) pa := hgroup rfl (fun _ => ho) (.inl rfl) ht
    exact hdoes (fun s => Eq.refl (execVld st d a k s)) rfl (h.exeVmem_loads d)
  case vlds =>
    intro ht
    have h : OneGroup t kd k true false none (fun _ => none) (eaStride a b) pa := hgroup rfl nofun (.inl rfl) ht
    exact hdoes (fun s => Eq.refl (execVlds st d a b k s)) rfl (h.exeVmem_loads d)
  case vldx =>
    intro ht hi
    have h : OneGroup t kd k true false none (idxBad b) (eaIndex a b (sc == 1#1)) pa :=
      hgroup hi nofun (.inl rfl) (by rw [hindexed]; exact ht)
    exact hdoes (fun s => Eq.refl (execVldx st d a b k sc s)) rfl (h.exeVmem_loads d)
  case vldxa =>
    intro ht hi hp hn
    have h : OneGroup t kd k true false (some c.toNat) (idxBad b) (eaIndex a b true) pa := hgroup hi nofun (.inr ⟨hn, hp⟩) ht
    exact hdoes (r := clear loaded) (fun s => Eq.refl (execVldxa st d a b k c s)) rfl (h.exeVmem_loads d)
  case vst =>
    intro ht ho
    have h : OneGroup t kd k false true none (fun _ => none) (eaUnit a) pa := hgroup rfl (fun _ => ho) (.inl rfl) ht
    exact hdoes (fun s => Eq.refl (execVst st d a k s)) rfl (h.exeVmem_stores d)
  case vsts =>
    intro ht
    have h : OneGroup t kd k false false none (fun _ => none) (eaStride a b) pa := hgroup rfl nofun (.inl rfl) ht
    exact hdoes (fun s => Eq.refl (execVsts st d a b k s)) rfl (h.exeVmem_stores d)
  case vstx =>
    intro ht hi
    have h : OneGroup t kd k false false none (idxBad b) (eaIndex a b (sc == 1#1)) pa :=
      hgroup hi nofun (.inl rfl) (by rw [hindexed]; exact ht)
    exact hdoes (fun s => Eq.refl (execVstx st d a b k sc s)) rfl (h.exeVmem_stores d)
  case vstxa =>
    intro ht hi hp hn
    have h : OneGroup t kd k false false (some c.toNat) (idxBad b) (eaIndex a b true) pa := hgroup hi nofun (.inr ⟨hn, hp⟩) ht
    exact hdoes (r := clear stored) (fun s => Eq.refl (execVstxa st d a b k c s)) rfl (h.exeVmem_stores d)

end

section
/-! SUPPORT. `vappend` (R325, R326): its part up to the cursor's add, and its stores, where they are one group. -/

namespace Sys2Proof.Machine

/-- An instruction whose operands are `u` wherever `P` holds. -/
theorem does_of_uses {i : Instr} {st : BitVec 3} {u : Uses} {body : State → Exe} {P : State → Prop} {f : State → State}
    (hx : ∀ s, exec i s = runInsn i st body s) (hb : ∀ s, P s → body s = .done (f s)) (hu : ∀ s, P s → usesOf s.thr i = u) :
    Does i u st P f := fun s h hp => ⟨hu _ hp, by rw [hx, runInsn_executes h, hu _ hp, hb _ hp]; rfl⟩

theorem traps_of_uses {i : Instr} {st : BitVec 3} {u : Uses} {body : State → Exe} {P : State → Prop} {f : State → State}
    {t : State → Trap} (hx : ∀ s, exec i s = runInsn i st body s) (hb : ∀ s, P s → body s = .trap (f s) (t s))
    (hu : ∀ s, P s → usesOf s.thr i = u) : Traps i u P f t := fun s h hp =>
  ⟨hu _ hp, by rw [hx, runInsn_executes h, hu _ hp, hb _ hp]; rfl⟩

theorem usesOf_vappend (y : Slot) (st : BitVec 3) (v a x : BitVec 5) (k c : BitVec 3) : usesOf y (.vappend st v a x k c) =
    { sr := if y.sstartAd then [x.toNat] else [a.toNat], named := [a.toNat], sw := [x.toNat], vr := [v.toNat],
      mr := [k.toNat], vec := true } := rfl

/-! ### The stores of a `vappend` -/

/-- The active elements with their places in the compacted run, from SSTART on (R326). -/
def Slot.appended (x : Slot) (k : Nat) : List (Nat × Nat) :=
  ((rangeFrom 0 (x.active k).length).zip (x.active k)).filter fun te => decide (x.sstart ≤ te.1)

theorem Slot.mem_appended {x : Slot} {k : Nat} {te : Nat × Nat} (h : te ∈ x.appended k) :
    x.sstart ≤ te.1 ∧ te.1 < (x.active k).length := by
  obtain ⟨hz, hs⟩ := List.mem_filter.1 h
  have := mem_rangeFrom.1 (List.of_mem_zip (a := te.1) (b := te.2) hz).1
  exact ⟨of_decide_eq_true hs, by omega⟩

/-- The stores of a `vappend` from the cursor's old value on, as they go to memory. -/
def Slot.appendMem (x : Slot) (v k old : Nat) : VMem :=
  { load := false, w := widthOf x.fmt, g := x.grp, d := v, append := true, elems := x.active k,
    todo := (x.appended k).map fun te => (te.1, (old + te.1 * (widthOf x.fmt / 8)) % 2 ^ 64, x.el v te.2) }

section Stores
variable {r : State} {v k old : Nat}

theorem exeAppendStores_misaligned (h : old % (widthOf r.thr.fmt / 8) ≠ 0) :
    exeAppendStores v k old r = .trap (r.setSstart 0 false) { cause := 0x06, tval := BitVec.ofNat 64 old } := by
  rw [exeAppendStores]
  exact if_pos h

theorem exeAppendStores_turn (h : old % (widthOf r.thr.fmt / 8) = 0) :
    exeAppendStores v k old r = exeVmemTurn (r.thr.appendMem v k old) r := by
  rw [exeAppendStores]
  refine (if_neg (not_not.2 h)).trans ?_
  simp only [List.filter_map, Function.comp_def, Slot.appendMem, Slot.appended]

/-- The stores are one group where at most 16 elements are active; they end the instruction. -/
theorem exeAppendStores_one {pa : Nat → Nat} (h : old % (widthOf r.thr.fmt / 8) = 0)
    (hw : 0 < widthOf r.thr.fmt ∧ widthOf r.thr.fmt ≤ 64) (hlost : r.thr.lostNew = 0) (h16 : (r.thr.active k).length ≤ 16)
    (hthere : ∀ n, r.thr.sstart ≤ n → n < (r.thr.active k).length →
      r.threadTarget r.thr .store ((old + n * (widthOf r.thr.fmt / 8)) % 2 ^ 64) (widthOf r.thr.fmt / 8) = .ok (.phys (pa n))
        ∧ r.reaches (pa n) (widthOf r.thr.fmt / 8)) :
    exeAppendStores v k old r = .done ((r.thr.appended k).foldl
      (fun (t : State) te => t.writePhys (pa te.1) (r.thr.el v te.2) (widthOf r.thr.fmt / 8)) r).vmemEnded := by
  rw [exeAppendStores_turn h]
  by_cases hnil : r.thr.appended k = []
  · simp only [hnil, List.foldl_nil]
    rw [← State.vmemEnd_of_kept hlost, exeVmemTurn]
    simp only [Slot.appendMem, hnil, List.map_nil]
  · rw [exeVmemTurn_stores_one (·.1) (fun te => (old + te.1 * (widthOf r.thr.fmt / 8)) % 2 ^ 64) (fun te => r.thr.el v te.2)
      (fun te => pa te.1) (L := r.thr.appended k) (m := r.thr.appendMem v k old) rfl
      (fun te ht => lt_of_lt_of_le (Slot.mem_appended ht).2 h16) hnil rfl
      (fun te ht => State.elemTarget_phys rfl (hthere te.1 (Slot.mem_appended ht).1 (Slot.mem_appended ht).2).1 (.inl rfl)
        fun _ => (hthere te.1 (Slot.mem_appended ht).1 (Slot.mem_appended ht).2).2.storesAt)
      (fun te ht => (hthere te.1 (Slot.mem_appended ht).1 (Slot.mem_appended ht).2).2.storesAt)
      fun te _ => lt_of_lt_of_le (Slot.elem_lt _ hw.1 _ _ _) (Nat.pow_le_pow_right (by decide) hw.2)]
    simp only [Slot.appendMem, Option.isSome_none, Bool.false_eq_true, if_false]
    refine State.vmemEnd_of_kept ?_
    rw [State.foldl_writePhys_thr]
    exact hlost

end Stores

/-! ### The thread once its space is reserved -/

/-- Two threads with the same strip: its type and length, its ranks, and the vector and mask registers. -/
theorem Slot.strip_congr {x y : Slot} {a : Map W64} {p : List Pend} {c : Map W64} (h : y = { x with s := a, pend := p, csr := c })
    (hg : y.csrv csrGLEN = x.csrv csrGLEN) (ht : y.csrv csrSTYPE = x.csrv csrSTYPE) :
    y.fmt = x.fmt ∧ (∀ k, y.active k = x.active k) ∧ ∀ b e, y.el b e = x.el b e := by
  have hf : y.fmt = x.fmt := by simp only [fmt, stype, ht]
  have hgrp : y.grp = x.grp := by simp only [grp, grpLog, stype, ht]
  have hglen : y.glen = x.glen := by simp only [glen, hg]
  refine ⟨hf, fun k => ?_, fun b e => ?_⟩
  · simp only [active, inStrip, hf, hgrp, hglen]
    rw [h]
    rfl
  · simp only [el, hf, hgrp]
    rw [h]
    rfl

theorem Slot.putS_eq (x : Slot) (n : Nat) (v : W64) : ∃ a p, x.putS n v = { x with s := a, pend := p } := by
  unfold putS writeS
  split
  · exact ⟨x.s, _, rfl⟩
  · exact ⟨_, _, rfl⟩

/-- SSTART as `vappend` marks its reserved space: AD set, START as it stood. -/
theorem Slot.sstart_setCsr (x : Slot) (n : Nat) :
    (x.setCsr csrSSTART (BitVec.ofNat 64 (n % 2 ^ 15 + b2n true * 2 ^ 15))).sstart = n % 2 ^ 15 := by
  rw [sstart, csrv_setCsr_same, bitsAt_eq_div_mod, BitVec.toNat_ofNat, show b2n true = 1 from rfl]
  omega

/-! ### The part up to the stores -/

theorem Slot.stripOf.width {x : Slot} {kd : Kind} (h : x.stripOf kd) (hq : kd ≠ .q4) : 0 < widthOf x.fmt ∧ widthOf x.fmt ≤ 64 := by
  have := h.dims hq
  simp only [List.mem_cons, List.not_mem_nil, or_false] at this
  omega

/-- The state once the cursor at `cur` is advanced by the active elements' bytes, with the reserved space marked (R326). -/
def State.appendAdded (s : State) (k x cur : Nat) : State :=
  let old := s.readPhys cur 8
  let t := s.writePhys cur ((old + (s.thr.active k).length * (widthOf s.thr.fmt / 8)) % 2 ^ 64) 8
  let t := t.setThr (t.thr.putS x (BitVec.ofNat 64 old))
  t.setSstart t.thr.sstart true

theorem State.appendAdded_thr (s : State) (k x cur : Nat) : ∃ a p c, (s.appendAdded k x cur).thr = { s.thr with s := a, pend := p, csr := c }
    ∧ (s.appendAdded k x cur).thr.csrv csrGLEN = s.thr.csrv csrGLEN
    ∧ (s.appendAdded k x cur).thr.csrv csrSTYPE = s.thr.csrv csrSTYPE
    ∧ (s.appendAdded k x cur).thr.sstart = s.thr.sstart % 2 ^ 15 := by
  obtain ⟨a, p, hp⟩ := s.thr.putS_eq x (BitVec.ofNat 64 (s.readPhys cur 8))
  have ht : (s.appendAdded k x cur).thr = ({ s.thr with s := a, pend := p } : Slot).setCsr csrSSTART
      (BitVec.ofNat 64 (s.thr.sstart % 2 ^ 15 + b2n true * 2 ^ 15)) := by
    simp only [appendAdded, setSstart_thr, thr_setThr, writePhys_thr, hp]
    rfl
  rw [ht]
  exact ⟨a, p, _, rfl, Slot.csrv_setCsr_ne _ _ (by decide), Slot.csrv_setCsr_ne _ _ (by decide), Slot.sstart_setCsr _ _⟩

theorem withStrip_mem {s : State} {kd : Kind} (hs : s.thr.stripOf kd) (hq : kd ≠ .q4) (body : Kind → Exe) :
    withStrip s okMem false body = body kd := withStrip_stripOf hs (okAny_of hq s.thr.grp) fun h => absurd h Bool.false_ne_true

section Part
variable {s : State} {kd : Kind} {v a x : BitVec 5} {k : BitVec 3} {w : W32} (hs : s.thr.stripOf kd) (hq : kd ≠ .q4)
  (hv : s.thr.vm = none)
include hs hq hv

theorem exeVappend_noRegister (hx : x = 0#5) : exeVappend v a x k w s = .trap s { cause := 0x04, tval := w.zeroExtend 64 } := by
  simp only [exeVappend, hv, withStrip_mem hs hq, if_pos hx, exeTrap]

/-- With its space reserved it goes on from there (R326). -/
theorem exeVappend_reserved (hx : x ≠ 0#5) (had : s.thr.sstartAd = true) :
    exeVappend v a x k w s = exeAppendStores v.toNat k.toNat (s.rs x).toNat s := by
  simp only [exeVappend, hv, withStrip_mem hs hq, if_neg hx, had, if_true]

section First
variable (hx : x ≠ 0#5) (had : s.thr.sstartAd = false)
include hx had

theorem exeVappend_misaligned (h : (s.rs a).toNat % 8 ≠ 0) :
    exeVappend v a x k w s = .trap s { cause := 0x06, tval := s.rs a } := by
  simp only [exeVappend, hv, withStrip_mem hs hq, if_neg hx, had, Bool.false_eq_true, if_false, if_pos h, exeTrap]

/-- The cursor is advanced once, its old value given, and the space reserved. -/
theorem exeVappend_added {cur : Nat} (h : (s.rs a).toNat % 8 = 0)
    (ht : s.threadTarget s.thr .atomic (s.rs a).toNat 8 = .ok (.phys cur)) (hat : s.takesAtomics cur = true) (hr : s.reaches cur 8) :
    exeVappend v a x k w s =
      exeAppendStores v.toNat k.toNat (s.readPhys cur 8) (s.appendAdded k.toNat x.toNat cur) := by
  have hrmw := State.threadRmw_writes
    (f := fun old => some ((old + (s.thr.active k.toNat).length * (widthOf s.thr.fmt / 8)) % 2 ^ 64)) ht hat hr rfl
  simp only [exeVappend, hv, withStrip_mem hs hq, if_neg hx, had, Bool.false_eq_true, if_false, h, ne_eq, not_true_eq_false,
    hrmw]
  rfl

end First

end Part

end Sys2Proof.Machine
end

section
open Sys2Proof Sys2Proof.Machine

/-- Settles O33: the part up to the stores case by case, and then its stores as one group; once the space is reserved the
strip is as it was, and START as it stood. -/
theorem vectorAppend : Obligations.VectorAppend := by
  intro st k c v a x kd cur pa i u again E act base reserved old ended added stored
  have hbase : ∀ s, base s → usesOf s.thr i = u := fun s ⟨_, _, _, had⟩ => by
    refine (usesOf_vappend ..).trans ?_
    rw [had]
    rfl
  have hagain : ∀ s, reserved s → usesOf s.thr i = again := fun s ⟨_, _, _, had⟩ => by
    refine (usesOf_vappend ..).trans ?_
    rw [had]
    rfl
  have hx : ∀ s, exec i s = runInsn i st (exeVappend v a x k (wordOf i)) s := fun _ => rfl
  have hadded : ∀ s, (added s).thr.fmt = s.thr.fmt ∧ (∀ k, (added s).thr.active k = s.thr.active k)
      ∧ (∀ b e, (added s).thr.el b e = s.thr.el b e) ∧ (added s).thr.sstart = s.thr.sstart % 2 ^ 15
      ∧ (added s).thr.lostNew = s.thr.lostNew := fun s => by
    obtain ⟨a, p, c, ht, hg, hty, hst⟩ := s.appendAdded_thr k.toNat x.toNat cur
    obtain ⟨hf, ha, he⟩ := Slot.strip_congr ht hg hty
    exact ⟨hf, ha, he, hst, by rw [show (added s).thr = _ from ht]⟩
  refine ⟨fun h0 => ?_, fun h0 => ?_, fun h0 => ?_, fun h0 => ?_, fun h0 => ?_, fun h0 => ?_⟩
  · exact traps_of_uses hx (fun s ⟨hs, hq, hv, _⟩ => exeVappend_noRegister hs hq hv h0) hbase
  · exact traps_of_uses hx (fun s ⟨⟨hs, hq, hv, had⟩, h⟩ => exeVappend_misaligned hs hq hv h0 had h) fun s h => hbase s h.1
  · refine traps_of_uses hx (fun s ⟨⟨hs, hq, hv, had⟩, h, ht, hat, hr, hm⟩ => ?_) fun s h => hbase s h.1
    rw [exeVappend_added hs hq hv h0 had h ht hat hr]
    refine exeAppendStores_misaligned (r := added s) ?_
    rw [(hadded s).1]
    exact hm
  · refine does_of_uses hx (fun s ⟨⟨hs, hq, hv, had⟩, h, ht, hat, hr, hm, hss, hl, h16, hn⟩ => ?_) fun s h => hbase s h.1
    obtain ⟨hf, ha, he, hst, hlost⟩ := hadded s
    rw [exeVappend_added hs hq hv h0 had h ht hat hr]
    have hone := exeAppendStores_one (r := added s) (v := v.toNat) (k := k.toNat) (old := old s) (pa := pa) (by rw [hf]; exact hm)
      (by rw [hf]; exact hs.width hq) (hlost.trans hl) (by rw [ha]; exact h16) fun n _ h => by rw [hf]; exact hn n (by rwa [ha] at h)
    refine hone.trans ?_
    have hall : (added s).thr.appended k.toNat = (rangeFrom 0 (act s).length).zip (act s) := by
      rw [Slot.appended, hst, hss, ha]
      exact List.filter_eq_self.2 fun te _ => decide_eq_true (Nat.zero_le _)
    rw [hall, hf]
    simp only [he]
    rfl
  · refine traps_of_uses hx (fun s ⟨⟨hs, hq, hv, had⟩, h⟩ => ?_) fun s h => hagain s h.1
    rw [exeVappend_reserved hs hq hv h0 had, exeAppendStores_misaligned h, BitVec.ofNat_toNat, BitVec.setWidth_eq]
  · refine does_of_uses hx (fun s ⟨⟨hs, hq, hv, had⟩, hm, hl, h16, _, hn⟩ => ?_) fun s h => hagain s h.1
    rw [exeVappend_reserved hs hq hv h0 had]
    exact exeAppendStores_one hm (hs.width hq) hl h16 hn

end

section
open Sys2Proof Sys2Proof.Machine

/-- Settles O57: the sample words are closed; the major of `m ++ r` is `m`, which no arm of the decoder names. -/
theorem sampleWordsDecode : Obligations.SampleWordsDecode := by
  refine ⟨by decide, by decide, by decide, by decide, by decide, by decide, by decide, fun m hm r => ?_⟩
  have hmajor : fld (m ++ r) 26 6 = m := by
    apply BitVec.eq_of_getElem_eq
    intro j hj
    rw [fld, BitVec.getElem_extractLsb', BitVec.getLsbD_append]
    simp [show ¬ 26 + j < 26 by omega, hj]
  simp only [List.mem_cons, List.not_mem_nil, or_false] at hm
  have hraw : decodeRaw (m ++ r) = none := by
    rw [decodeRaw, hmajor]
    obtain rfl | rfl | rfl | rfl | rfl | rfl := hm <;> rfl
  rw [decode, hraw]

/-- Settles O58: every map of the reset state is empty, so that what it holds is the default. -/
theorem resetState : Obligations.ResetState :=
  ⟨⟨rfl, rfl⟩, rfl, rfl, rfl, fun _ => ⟨rfl, rfl, rfl⟩, fun _ => rfl, fun _ => rfl, fun _ => rfl, fun _ => rfl, fun _ => rfl⟩

end

section
/-! SUPPORT. `wfe` (R403): what its turns do. -/

namespace Sys2Proof.Machine

/-- No trap, fault or request is pending: only the reasons gathered so far count. -/
theorem Slot.wakeReasons_quiet {x : Slot} (w : Wfe) (h : ¬ (x.async15 ≠ [] ∨ x.faults ≠ [] ∨ x.preq ≠ none)) :
    x.wakeReasons w = w.reasons := by
  simp only [not_or, not_not] at h
  obtain ⟨ha, hf, hp⟩ := h
  simp [wakeReasons, ha, hf, hp]

/-- One that is pending is reason [3]. -/
theorem Slot.wakeReasons_pending {x : Slot} (w : Wfe) (h : x.async15 ≠ [] ∨ x.faults ≠ [] ∨ x.preq ≠ none) :
    x.wakeReasons w = w.reasons ||| 8 := by
  have hp : (x.async15.isEmpty && x.faults.isEmpty && x.preq.isNone) = false := by
    simp only [Bool.and_eq_false_iff, List.isEmpty_eq_false_iff, Option.isNone_eq_false_iff, ← Option.ne_none_iff_isSome, or_assoc]
    exact h
  rw [wakeReasons, hp]
  rfl

section Wfe
variable {s : State} {d : BitVec 5} {a : W64}

/-- A `wfe` that begins, watching `loc` (R403). -/
def State.wfeFrom (s : State) (loc : Option Nat) : State :=
  s.setThr { s.thr with wfe := some { since := s.now, loc := loc, reasons := 0 } }

theorem exeWfe_begins (h : s.thr.wfe = none) (ha : a = 0#64) : exeWfe s d a = .turn (s.wfeFrom none) := by
  simp only [exeWfe, h, if_pos ha, State.wfeFrom]

theorem exeWfe_refused {t : Trap} (h : s.thr.wfe = none) (ha : a ≠ 0#64) (ht : s.threadTarget s.thr .load a.toNat 8 = .error t) :
    exeWfe s d a = .trap s t := by
  simp only [exeWfe, h, if_neg ha, ht]

theorem exeWfe_memory {pa : Nat} (h : s.thr.wfe = none) (ha : a ≠ 0#64)
    (ht : s.threadTarget s.thr .load a.toNat 8 = .ok (.phys pa)) : exeWfe s d a = .turn (s.wfeFrom (some (s.placeOf pa).addr)) := by
  simp only [exeWfe, h, if_neg ha, ht, State.wfeFrom]

theorem exeWfe_scratch {off : Nat} (h : s.thr.wfe = none) (ha : a ≠ 0#64)
    (ht : s.threadTarget s.thr .load a.toNat 8 = .ok (.scratch off)) : exeWfe s d a = .turn (s.wfeFrom none) := by
  simp only [exeWfe, h, if_neg ha, ht, State.wfeFrom]

theorem exeWfe_waits {w : Wfe} (h : s.thr.wfe = some w) (hr : s.thr.wakeReasons w = 0) : exeWfe s d a = .turn s := by
  simp only [exeWfe, h, if_pos hr]

theorem exeWfe_wakes {w : Wfe} (h : s.thr.wfe = some w) (hr : s.thr.wakeReasons w ≠ 0) :
    exeWfe s d a = exePut (s.setThr { s.thr with wfe := none }) d (BitVec.ofNat 64 (s.thr.wakeReasons w)) := by
  simp only [exeWfe, h, if_neg hr]

end Wfe

end Sys2Proof.Machine
end

section
open Sys2Proof Sys2Proof.Machine

/-- Settles O35: each turn of `wfe` on whether it has begun, where its address goes, and which reasons are present. -/
theorem waitAndYield : Obligations.WaitAndYield := by
  intro st d a i u begins pending ends first goes
  have hx : ∀ s, exec i s = runInsn i st (fun s => exeWfe s d (s.rs a)) s := fun _ => rfl
  refine ⟨waits_of_body hx fun s ⟨h, ha⟩ => exeWfe_begins h ha,
    fun t => traps_of_body hx fun s ⟨⟨h, ha⟩, ht⟩ => exeWfe_refused h ha ht,
    fun pa => waits_of_body hx fun s ⟨⟨h, ha⟩, ht⟩ => exeWfe_memory h ha ht,
    fun off => waits_of_body hx fun s ⟨⟨h, ha⟩, ht⟩ => exeWfe_scratch h ha ht,
    fun w => waits_of_body hx fun s ⟨h, hr, hq⟩ => exeWfe_waits h ((Slot.wakeReasons_quiet w hq).trans hr),
    fun w => does_of_body hx fun s ⟨h, hr, hq⟩ => ?_, fun w => does_of_body hx fun s ⟨h, hp⟩ => ?_,
    does_of_body (body := fun s => .done (s.setThr { s.thr with yieldAt := some s.now })) (fun _ => rfl) fun _ _ => rfl⟩
  · have hw := Slot.wakeReasons_quiet w hq
    rw [exeWfe_wakes h (by rwa [hw]), hw]
    rfl
  · have hw := Slot.wakeReasons_pending w hp
    rw [exeWfe_wakes h (by rw [hw]; exact fun h0 => absurd (Nat.or_eq_zero_iff.1 h0).2 (by decide)), hw]
    rfl

end

section
/-! SUPPORT. `trap`, `claim` and `eret` (R402, R403): where the next instruction stands, and what each of them does. -/

namespace Sys2Proof.Machine

theorem Slot.lastInBlock_eq (x : Slot) : x.lastInBlock = decide (x.hdr.toNat / 2 ^ 20 % 64 ≤ x.bpos) := by
  rw [lastInBlock, bitsAt_eq_div_mod]
  rfl

/-- The place of the next instruction: in its block, or at the next block's header (R108). -/
theorem Slot.advance_place (x : Slot) : x.advance.pc = x.pc + 4#64
    ∧ x.advance.bpos = (if x.hdr.toNat / 2 ^ 20 % 64 ≤ x.bpos then 0 else x.bpos + 1)
    ∧ x.advance.atHdr = if x.hdr.toNat / 2 ^ 20 % 64 ≤ x.bpos then true else x.atHdr := by
  simp only [advance, lastInBlock_eq, decide_eq_true_eq]
  split
  · exact ⟨rfl, rfl, rfl⟩
  · exact ⟨rfl, rfl, rfl⟩

section Claim
variable {s : State}

theorem exeClaim_again (h : s.thr.claimed = true) : exeClaim s = .done (s.setThr { s.thr with vfrozen := false }) := if_pos h

theorem exeClaim_saved {t : State} (h : s.thr.claimed = false) (hp : s.putWords s.cur (saveArea s.cur) s.thr.saveWords = .ok t) :
    exeClaim s = .done (t.setThr { t.thr with claimed := true, vfrozen := false }) := by
  simp only [exeClaim, h, Bool.false_eq_true, if_false, hp]

theorem exeClaim_faults {c va : Nat} {t : State} (h : s.thr.claimed = false)
    (hp : s.putWords s.cur (saveArea s.cur) s.thr.saveWords = .error (c, va, t)) :
    exeClaim s = .trap t { cause := 0x0A, tval := BitVec.ofNat 64 va } := by
  simp only [exeClaim, h, Bool.false_eq_true, if_false, hp]

end Claim

section Eret
variable {s : State} {st : BitVec 3}

/-- The first fault of the reload that an `eret` makes, where a claimed vector state is to be reloaded. -/
def State.eretFault (s : State) : Option (Nat × Nat) := if s.thr.claimed = true then s.reloadFault s.cur else none

theorem exeEret_faults {c va : Nat} (h : s.eretFault = some (c, va)) :
    exeEret st s = .trap ({ s with freeCnt := s.freeCnt + 0x11000 }.setThr (s.reloadVec s.cur (freeMask s.freeCnt)))
      { cause := c, tval := BitVec.ofNat 64 va } := by
  simp only [State.eretFault] at h
  simp only [exeEret, h]

/-- The thread as an `eret` leaves it (R403, R118). -/
def State.eretThr (s : State) (st : BitVec 3) : Slot :=
  { returnFromTrap (if s.thr.claimed = true then { s.reloadVec s.cur (fun _ => 2 ^ 16384 - 1) with claimed := false } else s.thr)
    with earliest := max (s.now + st.toNat + 1) (s.now + 3), issuedAt := some s.now }

theorem exeEret_returns (h : s.eretFault = none) :
    exeEret st s = .left (if (s.eretThr st).switchPending = true then (s.setThr (s.eretThr st)).fullSwitch s.cur
      else s.setThr (s.eretThr st)) := by
  simp only [State.eretFault] at h
  simp only [exeEret, h, State.eretThr]

end Eret

end Sys2Proof.Machine
end

section
open Sys2Proof Sys2Proof.Machine

/-- Settles O34: each of the three by its own part's outcomes. -/
theorem trapClaimReturn : Obligations.TrapClaimReturn := by
  intro st a e pu faulted resumes reloaded
  refine ⟨fun s h => ?_, does_of_body (fun _ => rfl) fun s h => exeClaim_again h,
    fun t => does_of_body (fun _ => rfl) fun s ⟨h, hp⟩ => exeClaim_saved h hp,
    fun c va t => traps_of_body (fun _ => rfl) fun s ⟨h, hp⟩ => exeClaim_faults h hp, fun s h hf => ?_,
    fun c va => traps_of_body (fun _ => rfl) fun s hf => exeEret_faults hf⟩
  · intro t x lastOne
    obtain ⟨hpc, hbpos, hhdr⟩ := x.advance_place
    have hx : exec (.trap st a e) s = runInsn (.trap st a e) st
      (fun s => .trapNext s { cause := 0x0E, tval := s.rs a, code := e.toNat }) s := rfl
    rw [hx, runInsn_executes h, State.settle]
    simp only [State.issued_thr, State.issued_now]
    rw [show s.landDue.thr = x from rfl, hpc, hbpos, hhdr]
    rfl
  · exact (settles_of_body (u := pu) rfl (fun _ => rfl) h (exeEret_returns hf)).2

end

section
/-! SUPPORT. What the end of an iteration (R415) leaves as it was: memory, the jobs but for its own, and which slots are lent. -/

namespace Sys2Proof.Machine

/-! ### Maps whose values are changed one by one -/

theorem Map.get?_set_same {α : Type} (k : Nat) (v : α) : ∀ m : Map α, (m.set k v).get? k = some v
  | [] => if_pos rfl
  | (k', w) :: r => by
    unfold set
    split
    · exact if_pos rfl
    · split
      · exact if_pos rfl
      · next h _ => exact (if_neg h).trans (Map.get?_set_same k v r)

theorem Map.getD_map {α : Type} {d : α} {f : α → α} (hd : f d = d) (k : Nat) :
    ∀ m : Map α, Map.getD d (m.map fun kx => (kx.1, f kx.2)) k = f (m.getD d k)
  | [] => hd.symm
  | (k', v) :: r => by
    simp only [List.map_cons, Map.getD]
    split
    · rfl
    · exact Map.getD_map hd k r

theorem State.modJob_of {s : State} {k : Nat} {j : Job} (f : Job → Job) (h : s.jobs.get? k = some j) :
    s.modJob k f = { s with jobs := s.jobs.set k (f j) } := by
  simp only [modJob, h]

theorem State.modJob_eq (s : State) (k : Nat) (f : Job → Job) : ∃ js, s.modJob k f = { s with jobs := js } := by
  unfold modJob
  split
  · exact ⟨_, rfl⟩
  · exact ⟨s.jobs, rfl⟩

theorem Slot.woken_lentFrom (x : Slot) (b : Nat) : (x.woken b).lentFrom = x.lentFrom := by
  unfold woken
  split <;> rfl

/-- What a byte reads is given by the store and by where addresses lie. -/
theorem State.sameMemory_of {s t : State} (hm : t.mem = s.mem) (hst : t.stores = s.stores) (hi : t.imap = s.imap)
    (hc : t.cxlcap = s.cxlcap) : s.sameMemory t := fun pa =>
  State.physByte_eq_of_place (State.placeOf_congr hi hc pa) fun loc _ => by simp only [State.byteAt, hm, hst]

/-! ### Updates that keep memory, the jobs and what is lent -/

/-- Memory, the jobs, the issuing slot's number and which slots are lent are as they were. -/
structure KeepsLent (s t : State) : Prop where
  jobs : t.jobs = s.jobs
  mem : t.mem = s.mem
  stores : t.stores = s.stores
  imap : t.imap = s.imap
  cxlcap : t.cxlcap = s.cxlcap
  cur : t.cur = s.cur
  lent : ∀ m, (t.slot m).lentFrom = (s.slot m).lentFrom

theorem State.modSlot_slot (s : State) (n m : Nat) (f : Slot → Slot) :
    (s.modSlot n f).slot m = if m = n then f (s.slot n) else s.slot m := by
  rw [modSlot_eq]
  split
  · next h => subst h; exact slot_setSlot_same _ _ _
  · next h => exact slot_setSlot_ne _ _ h

namespace KeepsLent

theorem refl (s : State) : KeepsLent s s := ⟨rfl, rfl, rfl, rfl, rfl, rfl, fun _ => rfl⟩

theorem trans {s t u : State} (h : KeepsLent s t) (k : KeepsLent t u) : KeepsLent s u :=
  ⟨k.jobs.trans h.jobs, k.mem.trans h.mem, k.stores.trans h.stores, k.imap.trans h.imap, k.cxlcap.trans h.cxlcap,
    k.cur.trans h.cur, fun m => (k.lent m).trans (h.lent m)⟩

theorem after {s t u : State} (k : KeepsLent t u) (h : KeepsLent s t) : KeepsLent s u := h.trans k

theorem ite {s t u : State} (c : Prop) [Decidable c] (ht : KeepsLent s t) (hu : KeepsLent s u) : KeepsLent s (if c then t else u) := by
  split
  · exact ht
  · exact hu

theorem foldl {α : Type} {f : State → α → State} (hf : ∀ s a, KeepsLent s (f s a)) : ∀ (l : List α) (s : State), KeepsLent s (l.foldl f s)
  | [], s => refl s
  | a :: l, s => (hf s a).trans (foldl hf l _)

theorem modSlot (s : State) (n : Nat) {f : Slot → Slot} (hf : ∀ x, (f x).lentFrom = x.lentFrom) : KeepsLent s (s.modSlot n f) :=
  ⟨rfl, rfl, rfl, rfl, rfl, rfl, fun m => by
    rw [State.modSlot_slot]
    split
    · next h => subst h; exact hf _
    · rfl⟩

/-- An update of fields that hold neither memory nor slots nor jobs. -/
theorem of_slots {s t : State} (hj : t.jobs = s.jobs) (hm : t.mem = s.mem) (hst : t.stores = s.stores) (hi : t.imap = s.imap)
    (hc : t.cxlcap = s.cxlcap) (hcur : t.cur = s.cur) (hs : t.slots = s.slots) : KeepsLent s t :=
  ⟨hj, hm, hst, hi, hc, hcur, fun m => by rw [State.slot, State.slot, hs]⟩

theorem modPos (s : State) (n : Nat) (f : Pos → Pos) : KeepsLent s (s.modPos n f) := of_slots rfl rfl rfl rfl rfl rfl rfl
theorem modFe (s : State) (n : Nat) (f : Fe → Fe) : KeepsLent s (s.modFe n f) := of_slots rfl rfl rfl rfl rfl rfl rfl
theorem modPort (s : State) (n : Nat) (f : Port → Port) : KeepsLent s (s.modPort n f) := of_slots rfl rfl rfl rfl rfl rfl rfl
theorem modPart (s : State) (n : Nat) (f : Part → Part) : KeepsLent s (s.modPart n f) := of_slots rfl rfl rfl rfl rfl rfl rfl
theorem modCourse (s : State) (n : Nat) (f : Course → Course) : KeepsLent s (s.modCourse n f) :=
  of_slots rfl rfl rfl rfl rfl rfl rfl

theorem sameMemory {s t : State} (h : KeepsLent s t) : s.sameMemory t := State.sameMemory_of h.mem h.stores h.imap h.cxlcap

section Grid
variable (s : State)

theorem modOwner (st : Stream) {f : Slot → Slot} (hf : ∀ x, (f x).lentFrom = x.lentFrom) : KeepsLent s (s.modOwner st f) := by
  unfold State.modOwner
  split
  · exact refl s
  · exact modSlot s _ hf

theorem streamGone (k : Nat) (st : Stream) (eoss : Bool) (lst state : Nat) : KeepsLent s (s.streamGone k st eoss lst state) :=
  ((modPort s k _).trans (modPos _ _ _)).trans (modOwner _ st fun x => x.woken_lentFrom 2)

theorem drainPort (keep : Option Nat) (k : Nat) : KeepsLent s (s.drainPort keep k) := by
  unfold State.drainPort
  dsimp only
  refine after (modPort _ _ _) (after (foldl (fun t st => ?_) _ _) ?_)
  · exact after (modOwner _ st fun x => x.woken_lentFrom 2) (modPort t k _)
  split
  · exact ite _ (refl s) (streamGone s _ _ _ _ _)
  · exact refl s

theorem modRun (r : Nat) (f : Run → Run) : KeepsLent s (s.modRun r f) := by
  unfold State.modRun
  split
  · exact of_slots rfl rfl rfl rfl rfl rfl rfl
  · exact refl s

theorem releaseGrant (ms : Masks) (n : Nat) : KeepsLent s (s.releaseGrant ms n) := modSlot s n fun _ => rfl

theorem endDrained (r : Nat) : KeepsLent s (s.endDrained r) := by
  unfold State.endDrained
  split
  · exact after (releaseGrant _ _ _) (after (modSlot _ _ fun y => y.woken_lentFrom 2) (modRun s r _))
  · exact refl s

theorem drain (ms : Masks) (feng : Bool) (keep : Option Nat) : KeepsLent s (s.drain ms feng keep) := by
  unfold State.drain
  dsimp only
  refine after (foldl (fun t (r : Nat × Run) => endDrained t r.1) _ _) ?_
  refine after (foldl (fun t k => drainPort t keep k) _ _) ?_
  refine after (foldl (fun t c => modFe t c _) _ _) ?_
  refine after (foldl (fun t k => modPos t k _) _ _) ?_
  refine after (foldl (fun t i => ?_) _ _) (foldl (fun t r => ?_) _ _)
  · exact of_slots rfl rfl rfl rfl rfl rfl rfl
  · exact of_slots rfl rfl rfl rfl rfl rfl rfl

theorem planeLoaded (l : Nat × Nat) : KeepsLent s (s.planeLoaded l) := by
  unfold State.planeLoaded
  dsimp only
  split
  · exact modPos _ _ _
  · exact modFe _ _ _

theorem leaveGrid (n : Nat) : KeepsLent s (s.leaveGrid n) :=
  let t := (s.openRuns n).foldl (fun s r => s.drain r.2.masks r.2.feng none) s
  let u := ((t.slot n).cmds.flatMap (·.loads)).foldl State.planeLoaded t
  have hu : KeepsLent s u := after (foldl planeLoaded _ t) (foldl (fun t (r : Nat × Run) => drain t r.2.masks r.2.feng none) _ s)
  after (of_slots (s := u) rfl rfl rfl rfl rfl rfl rfl) hu

theorem episode (p g : Nat) : KeepsLent s (s.episode p g) := by
  unfold State.episode
  dsimp only
  split
  · exact after (foldl (fun t n => modSlot t n fun x => x.woken_lentFrom 2) _ _) (modPart _ _ _)
  · exact refl s

theorem leaveGroup (n p g : Nat) : KeepsLent s (s.leaveGroup n p g) := by
  unfold State.leaveGroup
  dsimp only
  split
  · refine after (episode _ p g) (after (modPart _ _ _) (modSlot s n fun _ => rfl))
  · exact refl s

theorem leaveAll (n : Nat) : KeepsLent s (s.leaveAll n) := foldl (fun t (pg : Nat × Nat) => leaveGroup t n pg.1 pg.2) (s.groupsOf n) s

theorem orphanOps (n : Nat) : KeepsLent s (s.orphanOps n) := of_slots rfl rfl rfl rfl rfl rfl rfl

theorem noteIdle (c : Nat) : KeepsLent s (s.noteIdle c) := by
  unfold State.noteIdle
  split
  · exact modCourse s c _
  · exact refl s

end Grid

end KeepsLent

/-! ### The slots of the thread that ends -/

/-- Slot `n` runs no thread; where `freed` says so it is free and lent to none. -/
def Vacated (n : Nat) (freed : Prop) (s : State) : Prop :=
  (s.slot n).use ≠ .thread ∧ (freed → (s.slot n).use = .free ∧ (s.slot n).lentFrom = none)

theorem State.lend_slot (s : State) (l n : Nat) (f : List Nat → List Nat) :
    ((s.modSlot l fun z => { z with lent := f z.lent }).slot n).use = (s.slot n).use
      ∧ ((s.modSlot l fun z => { z with lent := f z.lent }).slot n).lentFrom = (s.slot n).lentFrom := by
  rw [modSlot_slot]
  split
  · next h => subst h; exact ⟨rfl, rfl⟩
  · exact ⟨rfl, rfl⟩

/-- The slot itself is free, or a slice of the thread it was lent from. -/
theorem State.vacate_same (s : State) (n : Nat) : Vacated n ((s.slot n).lentFrom = none) (s.vacate n) := by
  unfold vacate
  dsimp only
  split
  · rw [Vacated, slot_setSlot_same]
    exact ⟨fun h => SlotUse.noConfusion h, fun _ => ⟨rfl, rfl⟩⟩
  · next l k h =>
    rw [Vacated, (lend_slot _ _ _ _).1, slot_setSlot_same, h]
    refine ⟨?_, fun h => absurd h (Option.some_ne_none _)⟩
    dsimp only
    split
    · exact fun h => SlotUse.noConfusion h
    · exact fun h => SlotUse.noConfusion h

/-- Any slot vacated: what it left of slot `n` is vacated still. -/
theorem State.vacate_keeps {s : State} {n : Nat} {freed : Prop} (h : Vacated n freed s) (m : Nat) : Vacated n freed (s.vacate m) := by
  by_cases hm : n = m
  · subst hm
    exact ⟨(s.vacate_same n).1, fun hf => (s.vacate_same n).2 (h.2 hf).2⟩
  · unfold vacate
    dsimp only
    split
    · rw [Vacated, slot_setSlot_ne _ _ hm]
      exact h
    · rw [Vacated, (lend_slot _ _ _ _).1, (lend_slot _ _ _ _).2, slot_setSlot_ne _ _ hm]
      exact h

theorem State.vacate_eq (s : State) (n : Nat) : ∃ xs, s.vacate n = { s with slots := xs } := by
  unfold vacate
  dsimp only
  split <;> exact ⟨_, rfl⟩

theorem State.vacate_foldl_eq : ∀ (l : List Nat) (s : State), ∃ xs, l.foldl State.vacate s = { s with slots := xs }
  | [], s => ⟨s.slots, rfl⟩
  | n :: l, s => by
    obtain ⟨xs, h⟩ := s.vacate_eq n
    obtain ⟨ys, hl⟩ := vacate_foldl_eq l (s.vacate n)
    exact ⟨ys, by rw [List.foldl_cons, hl, h]⟩

/-- The slots of an ended iteration vacated, its own first. -/
theorem State.vacate_foldl (s : State) (n : Nat) (own : List Nat) :
    Vacated n ((s.slot n).lentFrom = none) ((n :: own).foldl State.vacate s) :=
  own.foldlRecOn State.vacate (s.vacate_same n) fun _ h m _ => vacate_keeps h m

/-- One thread's lent slot, no longer lent from it. -/
def Slot.unlent (n : Nat) (x : Slot) : Slot :=
  match x.lentFrom with
  | some (l, _) => if l = n then { x with lentFrom := none, back := false } else x
  | none => x

/-- A job with one more ended iteration, that of slot `x`, with its error (R414, R415). -/
def Slot.counted (x : Slot) (err : Option Nat) (j : Job) : Job :=
  { j with
    triggered := if x.triggered then j.triggered else j.triggered + 1
    ended := j.ended + 1
    err := match j.err, err with
      | none, some c => some (x.ordinal, c)
      | e, _ => e }

/-- A thread that has left its grid, its groups and its operations (R364, R377, R415). -/
def State.leaves (s : State) (n : Nat) : State := ((s.leaveGrid n).leaveAll n).orphanOps n

/-- No slot is lent from `n` any more. -/
def State.unlend (s : State) (n : Nat) : State := { s with slots := s.slots.map fun kx => (kx.1, kx.2.unlent n) }

/-- The cause an iteration ends with: its own, or an operation's error that was not reported (R377, R415). -/
def State.endCause (s : State) (n : Nat) (err : Option Nat) : Option Nat := match err with | some k => some k | none => s.unreported n

/-- What an ended iteration's slots are vacated from: what it held left, its job counted, its slots no longer lent. -/
def State.ended (s : State) (n : Nat) (err : Option Nat) : State :=
  ((s.leaves n).modJob (s.slot n).job ((s.slot n).counted (s.endCause n err))).unlend n

theorem State.endIteration_eq (s : State) (n : Nat) (err : Option Nat) : ∃ own cs : List Nat, s.endIteration n err =
    cs.foldl State.noteIdle ((n :: own).foldl State.vacate (s.ended n err)) := ⟨_, _, rfl⟩

theorem Slot.unlent_lentFrom {x : Slot} (n : Nat) (h : x.lentFrom = none) : (x.unlent n).lentFrom = none := by
  simp only [unlent, h]

theorem State.noteIdle_slot (s : State) (c m : Nat) : (s.noteIdle c).slot m = s.slot m := by
  unfold noteIdle
  split <;> rfl

theorem State.noteIdle_foldl_slot (m : Nat) : ∀ (cs : List Nat) (s : State), (cs.foldl State.noteIdle s).slot m = s.slot m
  | [], _ => rfl
  | c :: cs, s => (noteIdle_foldl_slot m cs _).trans (s.noteIdle_slot c m)

theorem State.sameMemory.trans {s t u : State} (h : s.sameMemory t) (k : t.sameMemory u) : s.sameMemory u :=
  fun pa => (k pa).trans (h pa)

section End
variable {s : State} {n : Nat} {err : Option Nat}

/-- What the end of an iteration leaves up to the count of its job. -/
theorem State.leaves_keeps (s : State) (n : Nat) : KeepsLent s (s.leaves n) := .after (.orphanOps _ n) (.after (.leaveAll _ n) (.leaveGrid s n))

theorem State.ended_eq : ∃ js, s.ended n err = { (s.leaves n) with jobs := js }.unlend n := by
  obtain ⟨js, h⟩ := (s.leaves n).modJob_eq (s.slot n).job ((s.slot n).counted (s.endCause n err))
  exact ⟨js, congrArg (State.unlend · n) h⟩

theorem State.ended_lentFrom (h : (s.slot n).lentFrom = none) : ((s.ended n err).slot n).lentFrom = none := by
  obtain ⟨js, he⟩ := ended_eq (s := s) (n := n) (err := err)
  rw [he, slot, unlend, Map.getD_map rfl]
  exact Slot.unlent_lentFrom n (((s.leaves_keeps n).lent n).trans h)

theorem State.vacate_foldl_sameMemory (l : List Nat) (s : State) : s.sameMemory (l.foldl State.vacate s) := by
  obtain ⟨xs, h⟩ := State.vacate_foldl_eq l s
  rw [h]
  exact State.sameMemory_of rfl rfl rfl rfl

theorem State.ended_sameMemory : s.sameMemory (s.ended n err) := by
  obtain ⟨js, h⟩ := ended_eq (s := s) (n := n) (err := err)
  rw [h]
  exact (s.leaves_keeps n).sameMemory.trans (State.sameMemory_of rfl rfl rfl rfl)

/-- The end of an iteration leaves memory as it was (R415). -/
theorem State.endIteration_sameMemory : s.sameMemory (s.endIteration n err) := by
  obtain ⟨own, cs, h⟩ := s.endIteration_eq n err
  rw [h]
  exact (ended_sameMemory.trans (vacate_foldl_sameMemory (n :: own) _)).trans (KeepsLent.foldl KeepsLent.noteIdle cs _).sameMemory

/-- Its slot runs no thread after it, and is free unless it was lent (R405, R415). -/
theorem State.endIteration_vacated : Vacated n ((s.slot n).lentFrom = none) (s.endIteration n err) := by
  obtain ⟨own, cs, h⟩ := s.endIteration_eq n err
  have hv := State.vacate_foldl (s.ended n err) n own
  rw [h, Vacated, noteIdle_foldl_slot]
  exact ⟨hv.1, fun hl => hv.2 (ended_lentFrom hl)⟩

/-- Its job counts it (R414, R415). -/
theorem State.endIteration_job {j : Job} (h : s.jobs.get? (s.slot n).job = some j) :
    (s.endIteration n err).jobs.get? (s.slot n).job = some ((s.slot n).counted (s.endCause n err) j) := by
  obtain ⟨own, cs, he⟩ := s.endIteration_eq n err
  obtain ⟨xs, hv⟩ := State.vacate_foldl_eq (n :: own) (s.ended n err)
  rw [he, (KeepsLent.foldl KeepsLent.noteIdle cs _).jobs, hv, ended, modJob_of _ (by rw [(s.leaves_keeps n).jobs]; exact h)]
  exact Map.get?_set_same _ _ _

end End

end Sys2Proof.Machine
end

section
/-! SUPPORT. `done`, `done.err` and `etrig` (R414 to R416): what each of them leaves. -/

namespace Sys2Proof.Machine

/-! ### `done`, `done.err` and `etrig` -/

theorem Slot.doneCause_eq (x : Slot) : x.doneCause =
    if x.sup = true ∧ (x.csrv csrTCAUSE).toNat % 256 ≠ 0 then (x.csrv csrTCAUSE).toNat % 256 else 0x0E := by
  have h : bitsAt (x.csrv csrTCAUSE).toNat 7 0 = (x.csrv csrTCAUSE).toNat % 256 := by
    rw [bitsAt_eq_div_mod, pow_zero, Nat.div_one]
    rfl
  simp only [doneCause, h, Bool.and_eq_true, decide_eq_true_eq]

theorem exeEtrig_again {s : State} (h : s.thr.triggered = true) : exeEtrig s = .done s := if_pos h

theorem exeEtrig_first {s : State} (h : s.thr.triggered = false) : exeEtrig s =
    .done ((s.setThr { s.thr with triggered := true }).modJob s.thr.job fun j => { j with triggered := j.triggered + 1 }) :=
  if_neg (by rw [h]; exact Bool.false_ne_true)

theorem State.issued_courses (s : State) (u : Uses) (g : Nat) : ∃ cs, s.issued u g = { s with courses := cs } := by
  unfold issued
  split
  · exact ⟨s.courses, rfl⟩
  · exact ⟨_, rfl⟩

theorem State.issued_sameMemory (s : State) (u : Uses) (g : Nat) : s.sameMemory (s.issued u g) := by
  obtain ⟨cs, h⟩ := s.issued_courses u g
  rw [h]
  exact State.sameMemory_of rfl rfl rfl rfl

theorem State.issued_jobs (s : State) (u : Uses) (g : Nat) : (s.issued u g).jobs = s.jobs := by
  obtain ⟨cs, h⟩ := s.issued_courses u g
  rw [h]

/-- The end of an instruction leaves the jobs and whether the thread has triggered. -/
theorem State.finish_jobs (s : State) (u : Uses) (g : Nat) (st : BitVec 3) : ((s.issued u g).finish st).jobs = s.jobs
    ∧ ((s.issued u g).finish st).thr.triggered = s.thr.triggered := by
  refine ⟨s.issued_jobs u g, ?_⟩
  rw [finish_thr, issued_thr]
  unfold Slot.advance
  dsimp only
  split <;> rfl

theorem State.modJob_get {s : State} {k : Nat} {j : Job} (f : Job → Job) (h : s.jobs.get? k = some j) :
    (s.modJob k f).jobs.get? k = some (f j) := by
  rw [modJob_of f h]
  exact Map.get?_set_same _ _ _

theorem State.modJob_thr (s : State) (k : Nat) (f : Job → Job) : (s.modJob k f).thr = s.thr := by
  obtain ⟨js, h⟩ := s.modJob_eq k f
  rw [h]
  rfl

/-- `done` and `done.err` (R414, R415): the end of the iteration, with the error that `err` gives. -/
theorem done_ends {i : Instr} {st : BitVec 3} {u : Uses} {s : State} {err : State → Option Nat} (h : s.executes i)
    (hu : usesOf s.landDue.thr i = u)
    (hx : exec i s = runInsn i st (fun s => .left (s.endIteration s.cur (err s))) s) : ∃ r, exec i s = .next r
      ∧ r = (s.landDue.endIteration s.cur (err s.landDue)).issued u s.landDue.thr.grp
      ∧ Vacated s.cur (s.thr.lentFrom = none) r ∧ s.sameMemory r
      ∧ ∀ j, s.jobs.get? s.thr.job = some j →
        r.jobs.get? s.thr.job = some (s.thr.counted (s.landDue.endCause s.cur (err s.landDue)) j) := by
  obtain ⟨a, v, m, p, hl⟩ := s.thr.landNow_eq s.now
  have hthr : s.landDue.slot s.cur = { s.thr with s := a, v := v, m := m, pend := p } := by
    rw [← hl, ← State.landDue_thr]
    rfl
  refine ⟨_, by rw [hx, runInsn_executes h, hu]; rfl, rfl, ?_, ?_, fun j hj => ?_⟩
  · have hv := State.endIteration_vacated (s := s.landDue) (n := s.cur) (err := err s.landDue)
    rw [Vacated, State.issued_slot]
    rw [hthr] at hv
    exact hv
  · have hland : s.sameMemory s.landDue := State.sameMemory_of rfl rfl rfl rfl
    have hend := State.endIteration_sameMemory (s := s.landDue) (n := s.cur) (err := err s.landDue)
    exact (hland.trans hend).trans (State.issued_sameMemory _ u _)
  · have he := State.endIteration_job (s := s.landDue) (n := s.cur) (err := err s.landDue) (j := j) (by rw [hthr]; exact hj)
    rw [hthr] at he
    exact (congrArg (Map.get? · s.thr.job) (State.issued_jobs _ u _)).trans he

/-- `etrig` (R416): the thread has triggered after it, and its job counts it once. -/
theorem etrig_job {st c : BitVec 3} {s : State} (h : s.executes (.etrig st c)) : ∃ r, exec (.etrig st c) s = .next r
    ∧ r.thr.triggered = true ∧ ∀ j, s.jobs.get? s.thr.job = some j → r.jobs.get? s.thr.job =
      some { j with triggered := if s.thr.triggered = true then j.triggered else j.triggered + 1 } := by
  obtain ⟨a, v, m, p, hl⟩ := s.thr.landNow_eq s.now
  have hthr : s.landDue.thr = { s.thr with s := a, v := v, m := m, pend := p } := by rw [State.landDue_thr, hl]
  have hx : ∀ s, exec (.etrig st c) s = runInsn (.etrig st c) st exeEtrig s := fun _ => rfl
  have hjob : s.landDue.thr.job = s.thr.job := by rw [hthr]
  cases ht : s.thr.triggered
  · refine ⟨_, (settles_of_body (hx s) (fun _ => rfl) h (exeEtrig_first (by rw [hthr]; exact ht))).2, ?_, fun j hj => ?_⟩
    · rw [State.settle, (State.finish_jobs _ _ _ st).2, State.modJob_thr, State.thr_setThr]
    · rw [State.settle, (State.finish_jobs _ _ _ st).1, hjob]
      exact State.modJob_get _ hj
  · refine ⟨_, (settles_of_body (hx s) (fun _ => rfl) h (exeEtrig_again (by rw [hthr]; exact ht))).2, ?_, fun j hj => ?_⟩
    · rw [State.settle, (State.finish_jobs _ _ _ st).2, hthr]
      exact ht
    · rw [State.settle, (State.finish_jobs _ _ _ st).1]
      exact hj

end Sys2Proof.Machine
end

section
open Sys2Proof Sys2Proof.Machine

/-- Settles O36: the end of an iteration by what it keeps, `etrig` by whether it has been reported. -/
theorem endAndTrigger : Obligations.EndAndTrigger := by
  intro st c du cause ends
  refine ⟨fun s h => ?_, fun s h => ?_,
    does_of_body (fun _ => rfl) fun s h => exeEtrig_again h, does_of_body (fun _ => rfl) fun s h => exeEtrig_first h,
    fun s h => etrig_job h⟩
  · obtain ⟨r, hx, hr, ⟨ht, hf⟩, hm, hj⟩ := done_ends (err := fun _ => none) h (Eq.refl du) rfl
    exact ⟨r, hx, hr, ht, fun hl => (hf hl).1, hm, hj⟩
  · obtain ⟨r, hx, hr, ⟨ht, hf⟩, hm, hj⟩ := done_ends (err := fun s => some s.thr.doneCause) h (Eq.refl du) rfl
    rw [Slot.doneCause_eq] at hr hj
    exact ⟨r, hx, hr, ht, fun hl => (hf hl).1, hm, hj⟩

end

section
/-! SUPPORT. The checks of R124 steps 1 to 3, which come before every other cause (R399). -/

namespace Sys2Proof.Machine

/-! ### Which instructions a block or a mode forbids -/

/-- The six system instructions that R112 names beside its majors, `done` with and without an error. -/
def isOfSix : Instr → Bool
  | .wfe .. | .yield .. | .eret .. | .claim .. | .done .. | .doneErr .. | .etrig .. => true
  | _ => false

theorem isOfSix_iff (i : Instr) : isOfSix i = true ↔ ∃ (st c : BitVec 3) (d a : BitVec 5), i = .wfe st d a ∨ i = .yield st
    ∨ i = .eret st ∨ i = .claim st ∨ i = .done st ∨ i = .doneErr st ∨ i = .etrig st c := by
  constructor
  · intro h
    unfold isOfSix at h
    split at h
    · next st d a => exact ⟨st, 0, d, a, .inl rfl⟩
    · next st => exact ⟨st, 0, 0, 0, .inr (.inl rfl)⟩
    · next st => exact ⟨st, 0, 0, 0, .inr (.inr (.inl rfl))⟩
    · next st => exact ⟨st, 0, 0, 0, .inr (.inr (.inr (.inl rfl)))⟩
    · next st => exact ⟨st, 0, 0, 0, .inr (.inr (.inr (.inr (.inl rfl))))⟩
    · next st => exact ⟨st, 0, 0, 0, .inr (.inr (.inr (.inr (.inr (.inl rfl)))))⟩
    · next st c => exact ⟨st, c, 0, 0, .inr (.inr (.inr (.inr (.inr (.inr rfl)))))⟩
    · exact absurd h Bool.false_ne_true
  · rintro ⟨st, c, d, a, rfl | rfl | rfl | rfl | rfl | rfl | rfl⟩ <;> rfl

/-- `eret` and `claim`, the supervisor's beside the majors of R124. -/
def isOfTwo : Instr → Bool
  | .eret .. | .claim .. => true
  | _ => false

theorem isOfTwo_iff (i : Instr) : isOfTwo i = true ↔ ∃ st, i = .eret st ∨ i = .claim st := by
  constructor
  · intro h
    unfold isOfTwo at h
    split at h
    · next st => exact ⟨st, .inl rfl⟩
    · next st => exact ⟨st, .inr rfl⟩
    · exact absurd h Bool.false_ne_true
  · rintro ⟨st, rfl | rfl⟩ <;> rfl

/-- R112's list: majors 0x22 and 0x32 to 0x3A, and six more. -/
theorem noAtom_eq (x : Slot) {i : Instr} (he : encode i ≠ none) : (usesOf x i).noAtom = ((wordOf i).toNat / 2 ^ 26 == 0x22
    || (decide (0x32 ≤ (wordOf i).toNat / 2 ^ 26) && decide ((wordOf i).toNat / 2 ^ 26 ≤ 0x3A)) || isOfSix i) := by
  cases i
  any_goals exact absurd rfl he
  all_goals simp (disch := decide) only [wordOf, encode, Option.getD_some, toNat_append_div]
  all_goals rfl

/-- R124's list, but for the control register accesses: major 0x3A, and two more. -/
theorem priv_eq (x : Slot) {i : Instr} (he : encode i ≠ none) (h : (wordOf i).toNat / 2 ^ 26 ≠ 0x20) :
    (usesOf x i).priv = ((wordOf i).toNat / 2 ^ 26 == 0x3A || isOfTwo i) := by
  cases i
  any_goals exact absurd rfl he
  all_goals simp (disch := decide) only [wordOf, encode, Option.getD_some, toNat_append_div] at h ⊢
  case csrr | csrw | csrs | csrc => exact absurd rfl h
  all_goals rfl

/-! ### The registers an instruction names (R124 step 3) -/

theorem minOf_mem : ∀ {l : List Nat} {m : Nat}, minOf l = some m → m ∈ l ∧ ∀ k ∈ l, m ≤ k
  | x :: r, m, h => by
    rw [minOf] at h
    cases hr : minOf r with
    | none =>
      have hnil : r = [] := by
        cases r with
        | nil => rfl
        | cons y t => rw [minOf] at hr; split at hr <;> cases hr
      subst hnil
      rw [hr] at h
      cases h
      simp
    | some y =>
      obtain ⟨hy, hle⟩ := minOf_mem hr
      rw [hr] at h
      cases h
      refine ⟨?_, fun k hk => ?_⟩
      · rcases min_choice x y with he | he <;> rw [he]
        · exact List.mem_cons_self
        · exact List.mem_cons_of_mem _ hy
      · rcases List.mem_cons.1 hk with rfl | hk
        · exact min_le_left _ _
        · exact (min_le_right _ _).trans (hle k hk)

theorem minOf_eq_none {l : List Nat} : minOf l = none ↔ l = [] := by
  cases l with
  | nil => simp [minOf]
  | cons x r =>
    rw [minOf]
    split <;> simp

/-- The lowest of a list. -/
theorem minOf_of_least {l : List Nat} {n : Nat} (hn : n ∈ l) (h : ∀ k ∈ l, n ≤ k) : minOf l = some n := by
  cases hm : minOf l with
  | none => rw [minOf_eq_none.1 hm] at hn; cases hn
  | some m =>
    obtain ⟨hl, hle⟩ := minOf_mem hm
    exact congrArg some (Nat.le_antisymm (hle n hn) (h m hl))

/-- The scalar registers an instruction names, and the lowest register beyond VREGS of each vector group. -/
def Uses.scalars (u : Uses) : List Nat := u.sr ++ u.sw ++ u.named
def Slot.beyond (x : Slot) (u : Uses) : List Nat :=
  (u.vw ++ u.vr).filterMap (x.decl.badV x.grp) ++ (u.v1w ++ u.v1r).filterMap (x.decl.badV 1) ++ u.vs.filterMap fun v => x.decl.badV v.2 v.1
/-- The vector groups at a number that is no multiple of the grouping. -/
def Slot.oddGroups (x : Slot) (u : Uses) : List Nat :=
  (u.vw ++ u.vr).filter (fun n => n % x.grp ≠ 0) ++ (u.vs.filter fun v => v.1 % v.2 ≠ 0).map (·.1)

theorem bne_eq_decide (a b : Nat) : (a != b) = decide (a ≠ b) := by
  by_cases h : a = b <;> simp [h]

section Undeclared
variable {x : Slot} {u : Uses} {n : Nat}

theorem undeclared_scalar (hn : n ∈ u.scalars) (hb : x.decl.badS n = true)
    (h : ∀ k ∈ u.scalars, x.decl.badS k = true → n ≤ k) : undeclared x u = some n := by
  have hm : minOf ((u.sr ++ u.sw ++ u.named).filter x.decl.badS) = some n :=
    minOf_of_least (List.mem_filter.2 ⟨hn, hb⟩) fun k hk => h k (List.mem_filter.1 hk).1 (List.mem_filter.1 hk).2
  simp only [undeclared, hm]

variable (hs : ∀ k ∈ u.scalars, x.decl.badS k = false)
include hs

theorem minOf_scalars : minOf ((u.sr ++ u.sw ++ u.named).filter x.decl.badS) = none :=
  minOf_eq_none.2 (List.filter_eq_nil_iff.2 fun k hk => by rw [hs k hk]; exact Bool.false_ne_true)

theorem undeclared_beyond (hn : n ∈ x.beyond u) (h : ∀ k ∈ x.beyond u, n ≤ k) : undeclared x u = some n := by
  have hm := minOf_of_least hn h
  simp only [Slot.beyond] at hm
  simp only [undeclared, minOf_scalars hs, hm]

theorem undeclared_odd (hb : x.beyond u = []) (h : (x.oddGroups u).head? = some n) : undeclared x u = some n := by
  have hm := minOf_eq_none.2 hb
  simp only [Slot.beyond] at hm
  simp only [undeclared, minOf_scalars hs, hm]
  rw [Slot.oddGroups, List.head?_append, List.head?_map, List.head?_filter, List.head?_filter] at h
  simp only [bne_eq_decide]
  cases hf : (u.vw ++ u.vr).find? fun n => decide (n % x.grp ≠ 0) with
  | some m => rw [hf] at h; exact h
  | none => rw [hf] at h; exact h

end Undeclared

/-! ### The traps -/

/-- An early trap comes before every other cause (R399). -/
theorem exec_earlyTrap {i : Instr} {s : State} {t : Trap} (he : encode i ≠ none) (hv : s.thr.vrun = none)
    (h : earlyTrap s.landDue.thr (usesOf s.landDue.thr i) (wordOf i) = some t) : exec i s = .next (s.landDue.trapHere t) := by
  obtain ⟨st, body, hx⟩ := exec_runInsn i s he
  rw [hx]
  simp only [runInsn, hv, State.boundary, h]

section Early
variable {x : Slot} {u : Uses} {w : W32}

theorem earlyTrap_atom (ha : x.atom = true) (hu : u.noAtom = true) :
    earlyTrap x u w = some { cause := 0x01, tval := w.zeroExtend 64, insn := w } := by
  simp [earlyTrap, ha, hu]

theorem earlyTrap_priv (ha : x.atom = true → u.noAtom = false) (hs : x.sup = false) (hu : u.priv = true) :
    earlyTrap x u w = some { cause := 0x02, tval := w.zeroExtend 64, insn := w } := by
  cases h : x.atom <;> simp_all [earlyTrap]

theorem earlyTrap_register {n : Nat} (ha : x.atom = true → u.noAtom = false) (hs : x.sup = false → u.priv = false)
    (hn : undeclared x u = some n) : earlyTrap x u w = some { cause := 0x04, tval := BitVec.ofNat 64 n, insn := w } := by
  have h1 : (u.noAtom && x.atom) = false := by
    cases h : x.atom
    · exact Bool.and_false _
    · rw [ha h]; rfl
  have h2 : (u.priv && !x.sup) = false := by
    cases h : x.sup
    · rw [hs h]; rfl
    · exact Bool.and_false _
  simp only [earlyTrap, h1, h2, Bool.false_eq_true, if_false, hn]

end Early

end Sys2Proof.Machine
end

section
open Sys2Proof Sys2Proof.Machine

/-- Settles O55: the two lists by the table's rows, and each early trap ahead of every other cause. -/
theorem checksBeforeExecution : Obligations.ChecksBeforeExecution := by
  intro i s he hv t x u major traps word six named beyond odd allowed
  refine ⟨?_, fun hm => ?_, fun ha hu => exec_earlyTrap he hv (earlyTrap_atom ha hu),
    fun ha hs hu => exec_earlyTrap he hv (earlyTrap_priv ha hs hu),
    fun n ⟨ha, hs⟩ hn hb h => exec_earlyTrap he hv (earlyTrap_register ha hs (undeclared_scalar hn hb h)),
    fun n ⟨ha, hs⟩ hk hn h => exec_earlyTrap he hv (earlyTrap_register ha hs (undeclared_beyond hk hn h)),
    fun n ⟨ha, hs⟩ hk hb h => exec_earlyTrap he hv (earlyTrap_register ha hs (undeclared_odd hk hb h))⟩
  · show (usesOf x i).noAtom = true ↔ major = 0x22 ∨ (0x32 ≤ major ∧ major ≤ 0x3A) ∨ six
    rw [noAtom_eq x he, Bool.or_eq_true, Bool.or_eq_true, isOfSix_iff]
    simp only [beq_iff_eq, Bool.and_eq_true, decide_eq_true_eq, or_assoc]
    rfl
  · show (usesOf x i).priv = true ↔ _
    rw [priv_eq x he hm, Bool.or_eq_true, isOfTwo_iff, beq_iff_eq]

end

section
/-! SUPPORT. Configuration commands (R237, R239, R240): each outcome of `cfgload`, `cfgsel` and `cfgck`. -/

namespace Sys2Proof.Machine

theorem anyB_eq_false {α : Type} {p : α → Bool} {l : List α} : anyB p l = false ↔ ∀ x ∈ l, p x = false := by
  rw [← Bool.not_eq_true, anyB_eq_true]
  push Not
  simp only [ne_eq, Bool.not_eq_true]

/-! ### `cfgload` -/

/-- What the `sbar.cond` entry `i` decides for the next command (R251). -/
def State.fate (s : State) (i : Nat) : Option Bool := match (s.thr.cmds.find? (·.id == i)).map (·.kind) with
  | some (CmdKind.cond rs _) => s.condRes rs
  | _ => some true

/-- A command counted toward the `sbar.cond` entries that cover it (R251). -/
def State.counted (s : State) : State := s.modSlot s.cur fun x => { x with cmds := x.cmds.map fun d => match d.kind with
  | CmdKind.cond rs left => { d with kind := .cond rs (left - 1) }
  | _ => d }

/-- No covering condition has failed, and all have decided. -/
theorem fates_true {f : Nat → Option Bool} {l : List Nat} (h : ∀ i ∈ l, f i = some true) :
    anyB (· == some false) (l.map f) = false ∧ anyB Option.isNone (l.map f) = false := by
  constructor <;> refine anyB_eq_false.2 fun x hx => ?_
  all_goals
    obtain ⟨i, hi, rfl⟩ := List.mem_map.1 hx
    rw [h i hi]
    rfl

/-- `cfgload` in its place: the image's checks, the wait for a region whose ACTIVE plane it names, then the planes written (R237). -/
def State.loadsImage (t : State) (ms : Masks) (va : W64) : Exe :=
  match t.readImage va.toNat with
  | .error e => .trap t e
  | .ok (.error tv, u) => exeTrap u 0x19 tv
  | .ok (.ok rs, u) => match u.imageBad t.thr.decl.feng ms rs with
    | some tv => exeTrap { u with freeCnt := u.freeCnt + 1 } (if tv = 0#64 then 0x0D else 0x19) tv
    | none =>
      if anyB u.planeActive (imageLoads ms rs) &&
          (anyB (fun c => match c.kind with | CmdKind.sbar 1 => true | _ => false) t.thr.cmds
            || !u.quiescent ms t.thr.decl.feng u.nextId) then .turn u
      else
        let p := (imageLoads ms rs).foldl (fun s l => s.writePlane rs l) (u.hold ms)
        .done ((State.counted { p with nextId := p.nextId + 1 }).modSlot p.cur fun x =>
          { x with cmds := x.cmds ++ [{ id := p.nextId, kind := .load va.toNat, masks := ms, feng := x.decl.feng, begun := true
                                        loads := imageLoads ms rs }] })

section Cfgload
variable {s : State} {va rv : W64}

theorem exeCfgload_misaligned (h : va.toNat % 64 ≠ 0) : exeCfgload s va rv = .trap s { cause := 0x06, tval := va } := by
  rw [exeCfgload]
  exact if_pos h

variable (ha : va.toNat % 64 = 0)
include ha

theorem exeCfgload_badRegion {t : Trap} (h : s.region rv = .error t) : exeCfgload s va rv = .trap s t := by
  rw [exeCfgload]
  refine (if_neg (not_not.2 ha)).trans ?_
  rw [h]

variable {ms : Masks} {r t : State} (hr : s.region rv = .ok (ms, r)) (ht : r.pump r.cur = t)
include hr ht

/-- Under an `sbar.cond` that failed it has no effect (R251). -/
theorem exeCfgload_discarded (h : ∃ i ∈ t.thr.covering, t.fate i = some false) :
    exeCfgload s va rv = .done (t.counted.pump t.cur) := by
  subst ht
  obtain ⟨i, hi, hf⟩ := h
  have hfates : anyB (· == some false) ((r.pump r.cur).thr.covering.map (r.pump r.cur).fate) = true :=
    anyB_eq_true.2 ⟨_, List.mem_map_of_mem hi, beq_iff_eq.2 hf⟩
  rw [exeCfgload]
  refine (if_neg (not_not.2 ha)).trans ?_
  rw [hr]
  exact if_pos hfates

variable (hf : ∀ i ∈ t.thr.covering, t.fate i = some true)
include hf

/-- Not all that its beginning waits for is there. -/
theorem exeCfgload_queued (h : 16 ≤ t.thr.cmdCount ∨ allBegun t.thr.cmds = false ∨ heldBack t.thr.cmds (.load 0) = true) :
    exeCfgload s va rv = .turn t := by
  subst ht
  rw [exeCfgload]
  refine (if_neg (not_not.2 ha)).trans ?_
  rw [hr]
  refine (if_neg (ne_true_of_eq_false (fates_true hf).1)).trans (if_pos ?_)
  simp only [Bool.or_eq_true, decide_eq_true_eq, Bool.not_eq_true']
  rcases h with h | h | h
  · exact .inl (.inl (.inr h))
  · exact .inl (.inr h)
  · exact .inr h

/-- With its place in the command stream it reads its image. -/
theorem exeCfgload_inPlace (hc : t.thr.cmdCount < 16) (hb : allBegun t.thr.cmds = true) (hh : heldBack t.thr.cmds (.load 0) = false) :
    exeCfgload s va rv = t.loadsImage ms va := by
  subst ht
  rw [exeCfgload]
  refine (if_neg (not_not.2 ha)).trans ?_
  rw [hr]
  have hq : (anyB Option.isNone ((r.pump r.cur).thr.covering.map (r.pump r.cur).fate) || decide ((r.pump r.cur).thr.cmdCount ≥ cmdCap)
      || !allBegun (r.pump r.cur).thr.cmds || heldBack (r.pump r.cur).thr.cmds (.load 0)) = false := by
    rw [(fates_true hf).2, hb, hh, decide_eq_false (p := (r.pump r.cur).thr.cmdCount ≥ cmdCap) (not_le.2 hc)]
    rfl
  exact (if_neg (ne_true_of_eq_false (fates_true hf).1)).trans ((if_neg (ne_true_of_eq_false hq)).trans rfl)

end Cfgload

section LoadsImage
variable {t u : State} {ms : Masks} {va : W64}

theorem loadsImage_unread {e : Trap} (h : t.readImage va.toNat = .error e) : t.loadsImage ms va = .trap t e := by
  simp only [State.loadsImage, h]

theorem loadsImage_malformed {tv : W64} (h : t.readImage va.toNat = .ok (.error tv, u)) :
    t.loadsImage ms va = .trap u { cause := 0x19, tval := tv } := by
  simp only [State.loadsImage, h, exeTrap]

variable {rs : List CfgRec} (h : t.readImage va.toNat = .ok (.ok rs, u))
include h

theorem loadsImage_rejected {tv : W64} (hb : u.imageBad t.thr.decl.feng ms rs = some tv) : t.loadsImage ms va =
    .trap { u with freeCnt := u.freeCnt + 1 } { cause := if tv = 0#64 then 0x0D else 0x19, tval := tv } := by
  simp only [State.loadsImage, h, hb, exeTrap]

variable (hb : u.imageBad t.thr.decl.feng ms rs = none)
include hb

/-- A region whose ACTIVE plane it names is not quiescent yet (R237). -/
theorem loadsImage_waits (ha : anyB u.planeActive (imageLoads ms rs) = true)
    (hq : u.quiescent ms t.thr.decl.feng u.nextId = false) : t.loadsImage ms va = .turn u := by
  simp only [State.loadsImage, h, hb]
  refine if_pos ?_
  rw [ha, hq, Bool.not_false, Bool.or_true]
  rfl

/-- The planes written, and the command under way (R224, R237). -/
theorem loadsImage_writes (hq : anyB u.planeActive (imageLoads ms rs) = true →
      u.quiescent ms t.thr.decl.feng u.nextId = true ∧ ∀ c ∈ t.thr.cmds, c.kind ≠ .sbar 1) :
    t.loadsImage ms va =
      let p := (imageLoads ms rs).foldl (fun s l => s.writePlane rs l) (u.hold ms)
      .done ((State.counted { p with nextId := p.nextId + 1 }).modSlot p.cur fun x =>
        { x with cmds := x.cmds ++ [{ id := p.nextId, kind := .load va.toNat, masks := ms, feng := x.decl.feng, begun := true
                                      loads := imageLoads ms rs }] }) := by
  simp only [State.loadsImage, h, hb]
  refine if_neg (ne_true_of_eq_false ?_)
  cases ha : anyB u.planeActive (imageLoads ms rs) with
  | false => rfl
  | true =>
    obtain ⟨hq, hs⟩ := hq ha
    rw [hq, Bool.true_and, Bool.not_true, Bool.or_false]
    refine anyB_eq_false.2 fun c hc => ?_
    split
    · next hk => exact absurd hk (hs c hc)
    · rfl

end LoadsImage

/-! ### `cfgsel` -/

section Cfgsel
variable {s : State} {rv : W64} {n : Nat} {drain : Bool}

theorem exeCfgsel_badRegion {t : Trap} (h : s.region rv = .error t) : exeCfgsel s rv n drain = .trap s t := by
  simp only [exeCfgsel, h]

variable {ms : Masks} {r : State} (hr : s.region rv = .ok (ms, r))
include hr

theorem exeCfgsel_empty {k : Nat} (h : (r.pump r.cur).emptyAt ms n = some k) :
    exeCfgsel s rv n drain = .trap (r.pump r.cur) { cause := 0x19, tval := cfgTval 0x0A 0 (k % 32) n } := by
  simp only [exeCfgsel, hr, h, exeTrap]

variable (he : (r.pump r.cur).emptyAt ms n = none)
include he

theorem exeCfgsel_frozen (hd : drain = false) (hf : (r.pump r.cur).regionFrozen ms = true) :
    exeCfgsel s rv n drain = .trap (r.pump r.cur) { cause := 0x19, tval := cfgTval 0x0B 0 0 n } := by
  simp only [exeCfgsel, hr, he, hd, hf, Bool.not_false, Bool.and_self, if_true, exeTrap]

variable (hd : drain = true ∨ (r.pump r.cur).regionFrozen ms = false)
include hd

omit he hr in
theorem notFrozen : (!drain && (r.pump r.cur).regionFrozen ms) = false := by
  rcases hd with h | h
  · rw [h]; rfl
  · rw [h, Bool.and_false]

theorem exeCfgsel_full (hc : 16 ≤ (r.pump r.cur).thr.cmdCount) : exeCfgsel s rv n drain = .turn (r.pump r.cur) := by
  simp only [exeCfgsel, hr, he, notFrozen hd, Bool.false_eq_true, if_false]
  exact if_pos hc

variable (hc : (r.pump r.cur).thr.cmdCount < 16) {w : State}
include hc

theorem exeCfgsel_ungranted
    (hw : (r.pump r.cur).wantAll (r.pump r.cur).cur false (if (r.pump r.cur).thr.decl.feng then (regionFes ms).map (·, n) else [])
      = (false, w)) : exeCfgsel s rv n drain = .turn w := by
  simp only [exeCfgsel, hr, he, notFrozen hd, Bool.false_eq_true, if_false, hw]
  exact if_neg (not_le.2 hc)

/-- With its grants and its room it is issued (R240). -/
theorem exeCfgsel_issued
    (hw : (r.pump r.cur).wantAll (r.pump r.cur).cur false (if (r.pump r.cur).thr.decl.feng then (regionFes ms).map (·, n) else [])
      = (true, w)) : exeCfgsel s rv n drain =
      .done ({ w.hold ms with nextId := (w.hold ms).nextId + 1 }.issueCmd (w.hold ms).nextId (.sel n drain) ms (r.pump r.cur).thr.decl.feng) := by
  simp only [exeCfgsel, hr, he, notFrozen hd, Bool.false_eq_true, if_false, hw]
  exact if_neg (not_le.2 hc)

end Cfgsel

/-! ### `cfgck` -/

section Cfgck
variable {s u : State} {va : W64} {d : BitVec 5}

theorem exeCfgck_misaligned (h : va.toNat % 64 ≠ 0) : exeCfgck s va d = .trap s { cause := 0x06, tval := va } := if_pos h

variable (ha : va.toNat % 64 = 0)
include ha

theorem exeCfgck_unread {t : Trap} (h : s.readImage va.toNat = .error t) : exeCfgck s va d = .trap s t := by
  rw [exeCfgck, h]
  exact if_neg (not_not.2 ha)

theorem exeCfgck_checks {rs : List CfgRec} (h : s.readImage va.toNat = .ok (.ok rs, u)) :
    exeCfgck s va d = exePut { u with freeCnt := u.freeCnt + 1 } d
      ((u.imageBad true [(courseOf u.cur, imageMask rs)] rs).getD 0#64) := by
  rw [exeCfgck, h]
  exact if_neg (not_not.2 ha)

theorem exeCfgck_malformed {tv : W64} (h : s.readImage va.toNat = .ok (.error tv, u)) : exeCfgck s va d = exePut u d tv := by
  rw [exeCfgck, h]
  exact if_neg (not_not.2 ha)

end Cfgck

end Sys2Proof.Machine
end

section
open Sys2Proof Sys2Proof.Machine

/-- Settles O37: `cfgload` up to its place and from there, `cfgsel` and `cfgck`, outcome by outcome. -/
theorem configurationCommands : Obligations.ConfigurationCommands := by
  intro st a b p e ms rs id r v w two one drain region at' aligned fate counted inPlace image loads ready written asked want put
  have hl : ∀ s, exec (.cfgload st a b) s = runInsn (.cfgload st a b) st (fun s => exeCfgload s (s.rs a) (s.rs b)) s := fun _ => rfl
  have hs : ∀ s, exec (.cfgsel st a p e) s = runInsn (.cfgsel st a p e) st (fun s => exeCfgsel s (s.rs a) p.toNat drain) s :=
    fun _ => rfl
  have hk : ∀ s, exec (.cfgck st a b) s = runInsn (.cfgck st a b) st (fun s => exeCfgck s (s.rs a) b) s := fun _ => rfl
  have hplace : ∀ s, aligned s → region b s → inPlace s → exeCfgload s (s.rs a) (s.rs b) = (at' s).loadsImage ms (s.rs a) :=
    fun s ha hr ⟨hf, hc, hb, hh⟩ => exeCfgload_inPlace ha hr rfl hf hc hb hh
  refine ⟨traps_of_body hl fun s h => exeCfgload_misaligned h,
    fun t => traps_of_body hl fun s ⟨ha, h⟩ => exeCfgload_badRegion ha h,
    fun t => traps_of_body hl fun s ⟨ha, hr, hp, h⟩ => (hplace s ha hr hp).trans (loadsImage_unread h),
    fun tv => traps_of_body hl fun s ⟨ha, hr, hp, h⟩ => (hplace s ha hr hp).trans (loadsImage_malformed h),
    fun tv => traps_of_body hl fun s ⟨ha, hr, hp, h, hb⟩ => (hplace s ha hr hp).trans (loadsImage_rejected h hb),
    waits_of_body hl fun s ⟨ha, hr, hf, h⟩ => exeCfgload_queued ha hr rfl hf h,
    does_of_body hl fun s ⟨ha, hr, h⟩ => exeCfgload_discarded ha hr rfl h,
    waits_of_body hl fun s ⟨⟨ha, hr, hp, h, hb⟩, hact, hq⟩ => (hplace s ha hr hp).trans (loadsImage_waits h hb hact hq),
    does_of_body hl fun s ⟨⟨ha, hr, hp, h, hb⟩, hq, hid⟩ => (hplace s ha hr hp).trans ((loadsImage_writes h hb hq).trans ?_),
    fun t => traps_of_body hs fun s h => exeCfgsel_badRegion h,
    fun k => traps_of_body hs fun s ⟨hr, h⟩ => exeCfgsel_empty hr h,
    fun hd => traps_of_body hs fun s ⟨hr, he, hf⟩ => exeCfgsel_frozen hr he hd hf,
    waits_of_body hs fun s ⟨hr, hd, he, hc⟩ => exeCfgsel_full hr he hd hc,
    waits_of_body hs fun s ⟨⟨hr, hd, he, hc⟩, hw⟩ => exeCfgsel_ungranted hr he hd hc hw,
    does_of_body hs fun s ⟨⟨hr, hd, he, hc⟩, hw, hid⟩ => (exeCfgsel_issued hr he hd hc hw).trans ?_,
    traps_of_body hk fun s h => exeCfgck_misaligned h,
    fun t => traps_of_body hk fun s ⟨ha, h⟩ => exeCfgck_unread ha h,
    does_of_body hk fun s ⟨ha, h⟩ => exeCfgck_checks ha h,
    fun tv => does_of_body hk fun s ⟨ha, h⟩ => exeCfgck_malformed ha h⟩
  · subst hid
    rfl
  · subst hid
    rfl

end

section
/-! SUPPORT. Streams, runs and control tokens (R241, R245, R249): each outcome of `strm`, `start` and `ctok`. -/

namespace Sys2Proof.Machine

/-! ### `strm` -/

/-- The stream that `strm` puts into a port's generator, as its thread stands (R236, R249). -/
def State.strmOf (t : State) (ws : List W64) (va off : W64) (scope : Nat) (acq rel : Bool) (n : Nat) : Stream :=
  { id := t.nextId, slot := t.cur, job := t.thr.job, ord := t.thr.ordinal, asid := t.thr.asid, sup := t.thr.sup,
    words := setNth ws 2 (nth 0#64 ws 2 + off), spec := va.toNat, off := off, scope := scope, acq := acq, rel := rel,
    gates := t.thr.gatesOf (courseOf t.cur) (portPos n), needStart := (t.port (courseOf t.cur * 8 + n)).resel }

/-- That stream in its generator, with its command issued. -/
def State.strmIssued (t : State) (n : Nat) (str : Stream) : State :=
  (({ t with nextId := t.nextId + 1 } : State).modPort (courseOf t.cur * 8 + n) fun q =>
    { q with inbox := q.inbox ++ [str], part := q.part || (q.started && str.gates.isEmpty && !str.needStart && t.thr.covering.isEmpty) }).issueCmd
    t.nextId (.strm (courseOf t.cur * 8 + n)) [] false

section Strm
variable {s v : State} {va off : W64} {scope n : Nat} {acq rel : Bool} {ws : List W64}

theorem exeStrm_misaligned (h : va.toNat % 64 ≠ 0) : exeStrm s va off scope acq rel n = .trap s { cause := 0x06, tval := va } := if_pos h

variable (ha : va.toNat % 64 = 0)
include ha

theorem exeStrm_unread {e : Trap} (h : s.imageFetch va.toNat 6 = .error e) : exeStrm s va off scope acq rel n = .trap s e := by
  rw [exeStrm]
  refine (if_neg (not_not.2 ha)).trans ?_
  rw [h]

variable (hf : s.imageFetch va.toNat 6 = .ok (ws, v))
include hf

theorem exeStrm_notMine (hp : v.thr.decl.posmask.testBit (portPos n) = false) :
    exeStrm s va off scope acq rel n = .trap v { cause := 0x0D, tval := BitVec.ofNat 64 (2 ^ portPos n) } := by
  rw [exeStrm]
  refine (if_neg (not_not.2 ha)).trans ?_
  rw [hf]
  exact if_pos (by rw [hp]; rfl)

variable (hp : v.thr.decl.posmask.testBit (portPos n) = true)
include hp

theorem exeStrm_full {t : State} (ht : v.pump v.cur = t)
    (hc : 8 ≤ (t.port (courseOf t.cur * 8 + n)).inbox.length ∨ 16 ≤ t.thr.cmdCount) : exeStrm s va off scope acq rel n = .turn t := by
  subst ht
  rw [exeStrm]
  refine (if_neg (not_not.2 ha)).trans ?_
  rw [hf]
  refine (if_neg (by rw [hp]; exact Bool.false_ne_true)).trans (if_pos ?_)
  rw [Bool.or_eq_true, decide_eq_true_eq, decide_eq_true_eq]
  exact hc

theorem exeStrm_issued {t : State} (ht : v.pump v.cur = t)
    (hl : (t.port (courseOf t.cur * 8 + n)).inbox.length < 8) (hc : t.thr.cmdCount < 16) :
    exeStrm s va off scope acq rel n = .done (t.strmIssued n (t.strmOf ws va off scope acq rel n)) := by
  subst ht
  rw [exeStrm]
  refine (if_neg (not_not.2 ha)).trans ?_
  rw [hf]
  refine (if_neg (by rw [hp]; exact Bool.false_ne_true)).trans ((if_neg ?_).trans rfl)
  rw [Bool.or_eq_true, decide_eq_true_eq, decide_eq_true_eq]
  exact fun h => h.elim (not_le.2 hl) (not_le.2 hc)

end Strm

/-! ### `start` -/

/-- The reserved bits of a barrier specification (R241). -/
theorem specBad_eq_false {v : W64} : specBad v = false ↔ v.toNat / 2 ^ 25 % 128 = 0 ∧ v.toNat / 2 ^ 12 % 16 = 0 := by
  rw [specBad, bitsAt_eq_div_mod, bitsAt_eq_div_mod, Bool.or_eq_false_iff, decide_eq_false_iff_not, decide_eq_false_iff_not, not_not, not_not]
  exact Iff.rfl

/-- The engines' planes that a `start` over a region asks for (R107). -/
def State.startPlanes (t : State) (ms : Masks) : List (Nat × Nat) :=
  if t.thr.decl.feng then (regionFes ms).filterMap fun c => (t.planeComing c).map (c, ·) else []

/-- A run made under the next identifier, with its barrier, and its command issued under the one after (R241). -/
def State.startIssued (t : State) (ms : Masks) (spec : W64) (k : Nat) (feng : Bool) : State :=
  let run : Run := { slot := t.cur, masks := ms, bar := k, spec := spec, feng := feng, asid := t.thr.asid, sup := t.thr.sup }
  (({ t with nextId := t.nextId + 2, runs := t.runs.set t.nextId run } : State).setThr
    { t.thr with bars := t.thr.bars.set k (t.nextId :: t.thr.bars.getD [] k) }).issueCmd (t.nextId + 1) (.start t.nextId) ms feng

section Start
variable {s r t : State} {rv spec : W64} {k : Nat} {ms : Masks}

theorem exeStart_badRegion {e : Trap} (h : s.region rv = .error e) : exeStart s rv spec k = .trap s e := by
  simp only [exeStart, h]

variable (hr : s.region rv = .ok (ms, r)) (ht : r.pump r.cur = t)
include hr ht

theorem exeStart_reserved (hs : specBad spec = true) : exeStart s rv spec k = .trap t { cause := 0x04, tval := spec } := by
  subst ht
  simp only [exeStart, hr, hs, if_true, exeTrap]

variable (hs : specBad spec = false)
include hs

theorem exeStart_frozen (hf : t.regionFrozen ms = true) :
    exeStart s rv spec k = .trap t { cause := 0x19, tval := cfgTval 0x0C 0 0 0 } := by
  subst ht
  simp only [exeStart, hr, hs, hf, Bool.false_eq_true, if_true, if_false, exeTrap]

variable (hf : t.regionFrozen ms = false)
include hf

theorem exeStart_full (hc : 16 ≤ t.thr.cmdCount) : exeStart s rv spec k = .turn t := by
  subst ht
  simp only [exeStart, hr, hs, hf, Bool.false_eq_true, if_false]
  exact if_pos hc

variable (hc : t.thr.cmdCount < 16) {w : State}
include hc

theorem exeStart_ungranted (hw : t.wantAll t.cur false (t.startPlanes ms) = (false, w)) : exeStart s rv spec k = .turn w := by
  subst ht
  rw [State.startPlanes] at hw
  simp only [exeStart, hr, hs, hf, Bool.false_eq_true, if_false, hw]
  exact if_neg (not_le.2 hc)

theorem exeStart_issued (hw : t.wantAll t.cur false (t.startPlanes ms) = (true, w)) :
    exeStart s rv spec k = .done ((w.hold ms).startIssued ms spec k t.thr.decl.feng) := by
  subst ht
  rw [State.startPlanes] at hw
  simp only [exeStart, hr, hs, hf, Bool.false_eq_true, if_false, hw]
  exact (if_neg (not_le.2 hc)).trans rfl

end Start

/-! ### `ctok` -/

section Ctok
variable {s : State} {t n : W64}

theorem exeCtok_badCount (h : n.toNat < 1 ∨ 64 < n.toNat) : exeCtok s t n = .trap s { cause := 0x04, tval := n } := if_pos h

variable (hn : 1 ≤ n.toNat ∧ n.toNat ≤ 64)
include hn

theorem exeCtok_badTarget (ht : 64 ≤ t.toNat) : exeCtok s t n = .trap s { cause := 0x04, tval := t } :=
  (if_neg (by omega)).trans (if_pos ht)

variable (ht : t.toNat < 64)
include ht

theorem exeCtok_notMine (h : t.toNat < 32) (hp : s.thr.decl.posmask.testBit t.toNat = false) :
    exeCtok s t n = .trap s { cause := 0x0D, tval := BitVec.ofNat 64 (2 ^ t.toNat) } := by
  refine (if_neg (by omega)).trans ((if_neg (by omega)).trans (if_pos ?_))
  rw [hp, decide_eq_true h]
  rfl

theorem exeCtok_noEngine (h : 32 ≤ t.toNat) (hf : s.thr.decl.feng = false) :
    exeCtok s t n = .trap s { cause := 0x0D, tval := 0#64 } := by
  refine (if_neg (by omega)).trans ((if_neg (by omega)).trans ((if_neg ?_).trans (if_pos ?_)))
  · rw [decide_eq_false (not_lt.2 h)]
    exact Bool.false_ne_true
  · rw [hf, decide_eq_true h]
    rfl

/-- A target of the thread's own: a position of its POSMASK, or its program's engine. -/
def State.ctokMine (s : State) (t : Nat) : Prop :=
  (t < 32 ∧ s.thr.decl.posmask.testBit t = true) ∨ (32 ≤ t ∧ s.thr.decl.feng = true)

variable (hm : s.ctokMine t.toNat)
include hm

omit hn ht in
theorem State.ctokMine.passes : (decide (t.toNat < 32) && !s.thr.decl.posmask.testBit t.toNat) = false
    ∧ (decide (32 ≤ t.toNat) && !s.thr.decl.feng) = false := by
  rcases hm with ⟨h, hp⟩ | ⟨h, hf⟩
  · exact ⟨by rw [hp, Bool.not_true, Bool.and_false], by rw [decide_eq_false (not_le.2 h), Bool.false_and]⟩
  · exact ⟨by rw [decide_eq_false (not_lt.2 h), Bool.false_and], by rw [hf, Bool.not_true, Bool.and_false]⟩

theorem exeCtok_full (hc : 16 ≤ (s.pump s.cur).thr.cmdCount) : exeCtok s t n = .turn (s.pump s.cur) :=
  (if_neg (by omega)).trans ((if_neg (by omega)).trans ((if_neg (ne_true_of_eq_false hm.passes.1)).trans
    ((if_neg (ne_true_of_eq_false hm.passes.2)).trans (if_pos hc))))

theorem exeCtok_issued (hc : (s.pump s.cur).thr.cmdCount < 16) : exeCtok s t n =
    .done ({ s.pump s.cur with nextId := (s.pump s.cur).nextId + 1 }.issueCmd (s.pump s.cur).nextId (.ctok t.toNat n.toNat) [] false) :=
  (if_neg (by omega)).trans ((if_neg (by omega)).trans ((if_neg (ne_true_of_eq_false hm.passes.1)).trans
    ((if_neg (ne_true_of_eq_false hm.passes.2)).trans ((if_neg (not_le.2 hc)).trans rfl))))

end Ctok

end Sys2Proof.Machine
end

section
open Sys2Proof Sys2Proof.Machine

/-- Settles O38: `strm`, `start` and `ctok`, outcome by outcome. -/
theorem streamsRunsControl : Obligations.StreamsRunsControl := by
  intro st c k p a b q l ms ws id r v w u si pos pu key aligned fetched ru regionOk spec specOk starts want t n cp inRange mine
  have hx : ∀ s, exec si s = runInsn si st (fun s => exeStrm s (s.rs a) (s.rs b) c.toNat (q == 1#1) (l == 1#1) p.toNat) s :=
    fun _ => rfl
  have hs : ∀ s, exec (.start st a b k) s = runInsn (.start st a b k) st (fun s => exeStart s (s.rs a) (s.rs b) k.toNat) s :=
    fun _ => rfl
  have hc : ∀ s, exec (.ctok st a b) s = runInsn (.ctok st a b) st (fun s => exeCtok s (s.rs a) (s.rs b)) s := fun _ => rfl
  refine ⟨traps_of_body hx fun s h => exeStrm_misaligned h,
    fun e => traps_of_body hx fun s ⟨ha, h⟩ => exeStrm_unread ha h,
    traps_of_body hx fun s ⟨⟨ha, hf⟩, hp⟩ => exeStrm_notMine ha hf hp,
    waits_of_body hx fun s ⟨⟨ha, hf⟩, hp, h⟩ => exeStrm_full ha hf hp rfl h,
    does_of_body hx fun s ⟨⟨ha, hf⟩, hp, hl, hc, hid⟩ => (exeStrm_issued ha hf hp rfl hl hc).trans ?_,
    fun e => traps_of_body hs fun s h => exeStart_badRegion h,
    traps_of_body hs fun s ⟨hr, h⟩ => exeStart_reserved hr rfl (by rw [← Bool.not_eq_false, specBad_eq_false]; exact h),
    traps_of_body hs fun s ⟨hr, h, hf⟩ => exeStart_frozen hr rfl (specBad_eq_false.2 h) hf,
    waits_of_body hs fun s ⟨hr, h, hf, hc⟩ => exeStart_full hr rfl (specBad_eq_false.2 h) hf hc,
    waits_of_body hs fun s ⟨⟨hr, h, hf, hc⟩, hw⟩ => exeStart_ungranted hr rfl (specBad_eq_false.2 h) hf hc hw,
    does_of_body hs fun s ⟨⟨hr, h, hf, hc⟩, hw, hid⟩ => (exeStart_issued hr rfl (specBad_eq_false.2 h) hf hc hw).trans ?_,
    traps_of_body hc fun s h => exeCtok_badCount h,
    traps_of_body hc fun s ⟨h1, h2, ht⟩ => exeCtok_badTarget ⟨h1, h2⟩ ht,
    traps_of_body hc fun s ⟨⟨ht, hn⟩, h, hp⟩ => exeCtok_notMine hn ht h hp,
    traps_of_body hc fun s ⟨⟨ht, hn⟩, h, hf⟩ => exeCtok_noEngine hn ht h hf,
    waits_of_body hc fun s ⟨⟨ht, hn⟩, hm, h⟩ => exeCtok_full hn ht hm h,
    does_of_body hc fun s ⟨⟨ht, hn⟩, hm, h, hid⟩ => (exeCtok_issued hn ht hm h).trans ?_⟩
  · subst hid
    rfl
  · subst hid
    rfl
  · subst hid
    rfl

end

section
/-! SUPPORT. Frozen regions, queries and barriers (R244, R251 to R254): each outcome of `gresume`, `gdrain`, `gquery`, `swait`. -/

namespace Sys2Proof.Machine

section Region
variable {s r : State} {v : W64} {d : BitVec 5} {sel : Nat} {ms : Masks}

theorem exeGresume_badRegion {t : Trap} (h : s.region v = .error t) : exeGresume s v = .trap s t := by
  simp only [exeGresume, h]

theorem exeGresume_resumes (h : s.region v = .ok (ms, r)) : exeGresume s v =
    .done ((r.runsIn ms).foldl (fun s x => if x.2.frozen then s.resumeRun x.1 x.2 else s) (r.hold ms)) := by
  simp only [exeGresume, h]

theorem exeGdrain_badRegion {t : Trap} (h : s.region v = .error t) : exeGdrain s v = .trap s t := by
  simp only [exeGdrain, h]

theorem exeGdrain_drains (h : s.region v = .ok (ms, r)) :
    exeGdrain s v = .done (((r.hold ms).drain ms r.thr.decl.feng none).pump r.cur) := by
  simp only [exeGdrain, h]

theorem exeGquery_badRegion {t : Trap} (hs : sel < 2) (h : (s.pump s.cur).region v = .error t) :
    exeGquery s v d sel = .trap (s.pump s.cur) t := by
  simp only [exeGquery, if_pos hs, h]

theorem exeGquery_region (hs : sel < 2) (h : (s.pump s.cur).region v = .ok (ms, r)) :
    exeGquery s v d sel = exePut (r.hold ms) d (if sel = 0 then r.regionStatus ms else r.regionFlags ms) := by
  simp only [exeGquery, if_pos hs, h]

theorem exeGquery_badNumber (hs : 2 ≤ sel) (h : 8 ≤ v.toNat) :
    exeGquery s v d sel = .trap (s.pump s.cur) { cause := 0x04, tval := v } :=
  (if_neg (not_lt.2 hs)).trans (if_pos h)

theorem exeGquery_port (h : v.toNat < 8) : exeGquery s v d 2 =
    exePut (s.pump s.cur) d ((s.pump s.cur).port (courseOf (s.pump s.cur).cur * 8 + v.toNat)).status :=
  if_neg (not_le.2 h)

theorem exeGquery_barrier (h : v.toNat < 8) : exeGquery s v d 3 =
    exePut (s.pump s.cur) d ((((s.pump s.cur).begunRun (s.pump s.cur).cur v.toNat).map Run.status).getD 0#64) :=
  if_neg (not_le.2 h)

end Region

section Swait
variable {s : State} {d : BitVec 5} {k : Nat} {x : Run}

/-- The latest run of a barrier, the command stream brought up to date. -/
def State.barRun (s : State) (k : Nat) : Option Run := (s.thr.bars.getD [] k).findSome? fun r => s.runs.get? r

theorem exeSwait_none (h : (s.pump s.cur).barRun k = none) : exeSwait s d k = exePut (s.pump s.cur) d 0#64 := by
  rw [State.barRun] at h
  simp only [exeSwait, h]

theorem exeSwait_waits (h : (s.pump s.cur).barRun k = some x) (hd : x.done = false) : exeSwait s d k = .turn (s.pump s.cur) := by
  rw [State.barRun] at h
  simp only [exeSwait, h, hd, Bool.false_eq_true, if_false]

theorem exeSwait_done (h : (s.pump s.cur).barRun k = some x) (hd : x.done = true) :
    exeSwait s d k = exePut ((s.pump s.cur).raise x.flags) d x.status := by
  rw [State.barRun] at h
  simp only [exeSwait, h, hd, if_true]

theorem Run.status_done (hd : x.done = true) :
    x.status = BitVec.ofNat 64 (512 + b2n x.drn * 256 + b2n x.res * 128 + x.flags.toNat) := by
  rw [Run.status, hd]
  rfl

end Swait

end Sys2Proof.Machine
end

section
open Sys2Proof Sys2Proof.Machine

/-- Settles O39: regions, queries, the entries of the command stream, and the wait for a run, outcome by outcome. -/
theorem regionsAndBarriers : Obligations.RegionsAndBarriers := by
  intro st c k a b n e ms r x no put p q qu ok okq held sbar wu wi run
  have hr : ∀ s, exec (.gresume st a) s = runInsn (.gresume st a) st (fun s => exeGresume s (s.rs a)) s := fun _ => rfl
  have hd : ∀ s, exec (.gdrain st a) s = runInsn (.gdrain st a) st (fun s => exeGdrain s (s.rs a)) s := fun _ => rfl
  have hq : ∀ s, exec q s = runInsn q st (fun s => exeGquery s (s.rs a) b e.toNat) s := fun _ => rfl
  have hw : ∀ s, exec wi s = runInsn wi st (fun s => exeSwait s b k.toNat) s := fun _ => rfl
  have hsbar : ∀ (i : Instr) (kind : State → CmdKind), (∀ s, exec i s = runInsn i st (fun s => .done (s.issueSbar (kind s))) s) →
      (∀ x, usesOf x i = usesGrid [] []) → sbar i kind := fun i kind hx hu => does_of_body hx (fun s hid => by subst hid; rfl) hu
  refine ⟨fun t => traps_of_body hr fun s h => exeGresume_badRegion h,
    does_of_body hr fun s h => exeGresume_resumes h,
    fun t => traps_of_body hd fun s h => exeGdrain_badRegion h,
    does_of_body hd fun s h => exeGdrain_drains h,
    fun he t => traps_of_body hq fun s h => exeGquery_badRegion he h,
    fun he => does_of_body hq fun s h => ?_, fun he => does_of_body hq fun s h => ?_,
    fun he => does_of_body hq fun s h => ?_, fun he => does_of_body hq fun s h => ?_,
    fun he => traps_of_body hq fun s h => exeGquery_badNumber he h,
    hsbar _ _ (fun _ => rfl) fun _ => rfl, hsbar _ _ (fun _ => rfl) fun _ => rfl, hsbar _ _ (fun _ => rfl) fun _ => rfl,
    hsbar _ _ (fun _ => rfl) fun _ => rfl,
    does_of_body hw fun s h => exeSwait_none h,
    waits_of_body hw fun s ⟨h, hd⟩ => exeSwait_waits h hd,
    does_of_body hw fun s ⟨h, hd⟩ => ?_⟩
  · rw [exeGquery_region (he ▸ by decide) h, if_pos he]
    rfl
  · rw [exeGquery_region (he ▸ by decide) h, if_neg (he ▸ by decide)]
    rfl
  · rw [he, exeGquery_port h]
    rfl
  · rw [he, exeGquery_barrier h]
    rfl
  · rw [exeSwait_done h hd, Run.status_done hd]
    rfl

end

section
/-! SUPPORT. Token queues (R82, R255 to R257): each outcome of `tokq`, `qarm` and `qdisarm`. -/

namespace Sys2Proof.Machine

section Tokq
variable {s : State} {q v : W64}

theorem exeTokq_far (h : 4096 ≤ q.toNat) : exeTokq s q v = .trap s { cause := 0x04, tval := q } := if_pos h

variable (h : q.toNat < 4096)
include h

theorem exeTokq_unowned (hp : s.partOfAsid s.thr.asid = none) : exeTokq s q v = .done (s.unownedToken s.cur) := by
  simp only [exeTokq, hp]
  exact if_neg (not_le.2 h)

variable {p : Nat} (hp : s.partOfAsid s.thr.asid = some p)
include hp

theorem exeTokq_full (hl : 64 ≤ (s.tokq p q.toNat).toks.length + (s.tokq p q.toNat).held.length) : exeTokq s q v = .turn s := by
  simp only [exeTokq, hp]
  exact (if_neg (not_le.2 h)).trans (if_pos hl)

theorem exeTokq_sends (hl : (s.tokq p q.toNat).toks.length + (s.tokq p q.toNat).held.length < 64) :
    exeTokq s q v = .done (s.sendToken p q.toNat (v.truncate 32) (some (dieOf (courseOf s.cur)))) := by
  simp only [exeTokq, hp]
  exact (if_neg (not_le.2 h)).trans (if_neg (not_le.2 hl))

end Tokq

section Qarm
variable {s u : State} {q t : W64}

theorem exeQarm_far (h : 4096 ≤ q.toNat) : exeQarm s q t = .trap s { cause := 0x04, tval := q } := if_pos h

variable (h : q.toNat < 4096)
include h

theorem exeQarm_beyond (ht : 2 ^ 48 ≤ t.toNat) : exeQarm s q t = .trap s { cause := 0x09, tval := t } :=
  (if_neg (not_le.2 h)).trans (if_pos ht)

variable (ht : t.toNat < 2 ^ 48)
include ht

theorem exeQarm_misaligned (ha : t.toNat % 128 ≠ 0) : exeQarm s q t = .trap s { cause := 0x06, tval := t } :=
  (if_neg (not_le.2 h)).trans ((if_neg (not_le.2 ht)).trans (if_pos ha))

variable (ha : t.toNat % 128 = 0)
include ha

theorem exeQarm_unread {e : Trap} (hl : s.threadLoad t.toNat 8 = .error e) : exeQarm s q t = .trap s e := by
  simp only [exeQarm, hl]
  exact (if_neg (not_le.2 h)).trans ((if_neg (not_le.2 ht)).trans (if_neg (not_not.2 ha)))

variable {ctl : W64} (hl : s.threadLoad t.toNat 8 = .ok (ctl, u))
include hl

/-- The template's kind and its queue, as its first word gives them (R75, R256). -/
theorem exeQarm_wrongKind (hk : ctl.toNat % 256 ≠ 2) : exeQarm s q t = .trap u { cause := 0x04, tval := t } := by
  simp only [exeQarm, hl]
  refine (if_neg (not_le.2 h)).trans ((if_neg (not_le.2 ht)).trans ((if_neg (not_not.2 ha)).trans (if_pos ?_)))
  rwa [bitsAt_eq_div_mod, pow_zero, Nat.div_one]

variable (hk : ctl.toNat % 256 = 2)
include hk

omit h ht ha hl in
theorem tokenKind : ¬ bitsAt ctl.toNat 7 0 ≠ 2 := by
  rw [not_not, bitsAt_eq_div_mod, pow_zero, Nat.div_one]
  exact hk

theorem exeQarm_unowned (hp : u.partOfAsid u.thr.asid = none) : exeQarm s q t = .trap u { cause := 0x0C, tval := t } := by
  simp only [exeQarm, hl, hp]
  exact (if_neg (not_le.2 h)).trans ((if_neg (not_le.2 ht)).trans ((if_neg (not_not.2 ha)).trans (if_neg (tokenKind hk))))

variable {p : Nat} (hp : u.partOfAsid u.thr.asid = some p)
include hp

theorem exeQarm_foreign (hq : (u.qctl p (ctl.toNat / 2 ^ 24 % 256)).asid ≠ u.thr.asid) :
    exeQarm s q t = .trap u { cause := 0x0C, tval := t } := by
  simp only [exeQarm, hl, hp]
  refine (if_neg (not_le.2 h)).trans ((if_neg (not_le.2 ht)).trans ((if_neg (not_not.2 ha)).trans ((if_neg (tokenKind hk)).trans
    (if_pos ?_))))
  rwa [bitsAt_eq_div_mod]

/-- The queue armed with its template, and its oldest token fires (R82, R256). -/
theorem exeQarm_arms (hq : (u.qctl p (ctl.toNat / 2 ^ 24 % 256)).asid = u.thr.asid) : exeQarm s q t =
    .done (((u.unfire p q.toNat).modTokq p q.toNat fun x =>
      { x with tmpl := t.toNat, asid := u.thr.asid, armed := true, err := false, rerr := false, epay := 0, erst := 0 }).fireTokq p q.toNat) := by
  simp only [exeQarm, hl, hp]
  refine (if_neg (not_le.2 h)).trans ((if_neg (not_le.2 ht)).trans ((if_neg (not_not.2 ha)).trans ((if_neg (tokenKind hk)).trans
    (if_neg ?_))))
  rw [not_not, bitsAt_eq_div_mod]
  exact hq

end Qarm

section Qdisarm
variable {s : State} {q : W64} {d : BitVec 5}

theorem exeQdisarm_far (h : 4096 ≤ q.toNat) : exeQdisarm s q d = .trap s { cause := 0x04, tval := q } := if_pos h

variable (h : q.toNat < 4096)
include h

theorem exeQdisarm_unowned (hp : s.partOfAsid s.thr.asid = none) : exeQdisarm s q d = exePut s d 0#64 := by
  simp only [exeQdisarm, hp]
  exact if_neg (not_le.2 h)

theorem exeQdisarm_disarms {p : Nat} (hp : s.partOfAsid s.thr.asid = some p) : exeQdisarm s q d =
    exePut ((s.unfire p q.toNat).setTokq p q.toNat (if (s.tokq p q.toNat).armed then (s.tokq p q.toNat).disarm else s.tokq p q.toNat)) d
      (if (s.tokq p q.toNat).armed then BitVec.ofNat 64 (s.tokq p q.toNat).tmpl else 0#64) := by
  simp only [exeQdisarm, hp]
  exact if_neg (not_le.2 h)

end Qdisarm

end Sys2Proof.Machine
end

section
open Sys2Proof Sys2Proof.Machine

/-- Settles O40: `tokq`, `qarm` and `qdisarm`, outcome by outcome. -/
theorem tokenQueues : Obligations.TokenQueues := by
  intro st c a b l p nid ctl v tu no tq held part far tmpl named loads read kind q armed
  have ht : ∀ s, exec (.tokq st a b c l) s = runInsn (.tokq st a b c l) st (fun s => exeTokq s (s.rs a) (s.rs b)) s := fun _ => rfl
  have hq : ∀ s, exec (.qarm st a b) s = runInsn (.qarm st a b) st (fun s => exeQarm s (s.rs a) (s.rs b)) s := fun _ => rfl
  have hd : ∀ s, exec (.qdisarm st a b) s = runInsn (.qdisarm st a b) st (fun s => exeQdisarm s (s.rs a) b) s := fun _ => rfl
  exact ⟨traps_of_body ht fun s h => exeTokq_far h, traps_of_body hq fun s h => exeQarm_far h,
    traps_of_body hd fun s h => exeQdisarm_far h,
    waits_of_body ht fun s ⟨h, hp, hl⟩ => exeTokq_full h hp hl,
    does_of_body ht fun s ⟨h, hp, hl⟩ => exeTokq_sends h hp hl,
    does_of_body ht fun s ⟨h, hp, hid⟩ => (exeTokq_unowned h hp).trans (by subst hid; rfl),
    traps_of_body hq fun s ⟨h, ht⟩ => exeQarm_beyond h ht,
    traps_of_body hq fun s ⟨h, ht, ha⟩ => exeQarm_misaligned h ht ha,
    fun t => traps_of_body hq fun s ⟨⟨h, ht, ha⟩, hl⟩ => exeQarm_unread h ht ha hl,
    traps_of_body hq fun s ⟨⟨⟨h, ht, ha⟩, hl⟩, hk⟩ => exeQarm_wrongKind h ht ha hl hk,
    traps_of_body hq fun s ⟨⟨⟨h, ht, ha⟩, hl⟩, hk, hp⟩ => exeQarm_unowned h ht ha hl hk hp,
    traps_of_body hq fun s ⟨⟨⟨⟨h, ht, ha⟩, hl⟩, hp⟩, hk, hf⟩ => exeQarm_foreign h ht ha hl hk hp hf,
    does_of_body hq fun s ⟨⟨⟨⟨h, ht, ha⟩, hl⟩, hp⟩, hk, hf⟩ => exeQarm_arms h ht ha hl hk hp hf,
    does_of_body hd fun s ⟨h, hp⟩ => exeQdisarm_disarms h hp,
    does_of_body hd fun s ⟨h, hp⟩ => exeQdisarm_unowned h hp⟩

end

section
/-! SUPPORT. `copy` and `drain` (R327, R337): each outcome. -/

namespace Sys2Proof.Machine

/-! ### `copy` -/

/-- A copy's message as its thread sends it (R327). -/
def State.copyMsg (s : State) (va : W64) (scope : Nat) (acq rel : Bool) (n : Nat) : Copy :=
  { slot := some s.cur, job := s.thr.job, ord := s.thr.ordinal, chan := n, asid := s.thr.asid, sup := s.thr.sup, scope := scope,
    acq := acq, rel := rel, pd := dieOf (courseOf s.cur), desc := va.toNat }

section Copy
variable {s : State} {va : W64} {scope n : Nat} {acq rel : Bool}

theorem exeCopy_beyond (h : 2 ^ 48 ≤ va.toNat) : exeCopy s va scope acq rel n = .trap s { cause := 0x09, tval := va } := if_pos h

variable (h : va.toNat < 2 ^ 48)
include h

theorem exeCopy_misaligned (ha : va.toNat % 64 ≠ 0) : exeCopy s va scope acq rel n = .trap s { cause := 0x06, tval := va } :=
  (if_neg (not_le.2 h)).trans (if_pos ha)

variable (ha : va.toNat % 64 = 0)
include ha

theorem exeCopy_full (hr : s.copyRoom (dieOf (courseOf s.cur)) = false) : exeCopy s va scope acq rel n = .turn s :=
  (if_neg (not_le.2 h)).trans ((if_neg (not_not.2 ha)).trans (if_pos (by rw [hr]; rfl)))

theorem exeCopy_sends (hr : s.copyRoom (dieOf (courseOf s.cur)) = true) :
    exeCopy s va scope acq rel n = .done (s.sendCopy (s.copyMsg va scope acq rel n)) :=
  (if_neg (not_le.2 h)).trans ((if_neg (not_not.2 ha)).trans (if_neg (by rw [hr]; exact Bool.false_ne_true)))

end Copy

/-- The message in its inbox, or, where the port die is being reset, ended (R411). -/
theorem State.sendCopy_up {s : State} {c : Copy} (h : s.dieDown (8 + c.pd) = false) :
    s.sendCopy c = { s with nextId := s.nextId + 1, copies := s.copies.set s.nextId c } := by
  have hd : State.dieDown { s with nextId := s.nextId + 1 } (8 + c.pd) = false := h
  simp only [sendCopy, fresh, hd, Bool.false_eq_true, if_false]

theorem State.sendCopy_down {s : State} {c : Copy} (h : s.dieDown (8 + c.pd) = true) : s.sendCopy c =
    { s with nextId := s.nextId + 1
             copies := s.copies.set s.nextId { c with accepted := true, res := some (8, 0), completed := true } } := by
  have hd : State.dieDown { s with nextId := s.nextId + 1 } (8 + c.pd) = true := h
  simp only [sendCopy, fresh, hd, if_true]

/-! ### `drain` -/

/-- The status a copy's reply brought, 0 where it brought none. -/
def Copy.status (y : Copy) : Nat := (y.res.getD (0, 0)).1

/-- A copy whose error its thread has not been told of. -/
def Copy.failed (y : Copy) : Bool := !y.reported && y.status != 0

/-- A thread whose channel has been waited for: the flags its copies gathered raised, once (R337). -/
def State.drained (s : State) (cs : List (Nat × Copy)) : State :=
  cs.foldl (fun s k => s.modCopy k.1 fun x => { x with flags := 0#7 }) (s.raise (cs.foldl (fun f k => f ||| k.2.flags) flNone))

section Drain
variable {s : State} {d : BitVec 5} {n : Nat}

theorem exeDrain_waits (h : ¬ ∀ k ∈ s.channel s.cur n, k.2.replied = true) : exeDrain s d n = .turn s := by
  refine if_pos (anyB_eq_true.2 ?_)
  push Not at h
  obtain ⟨k, hk, hr⟩ := h
  exact ⟨k, hk, by rw [Bool.eq_false_of_not_eq_true hr]; rfl⟩

variable (h : ∀ k ∈ s.channel s.cur n, k.2.replied = true)
include h

theorem noneOut : anyB (fun c : Nat × Copy => !c.2.replied) (s.channel s.cur n) = false :=
  anyB_eq_false.2 fun k hk => by rw [h k hk]; rfl

omit h in
/-- The model's test of a copy's reply is on its status. -/
theorem find_failed {f : Nat × Copy → Bool} (hf : ∀ k, f k = k.2.failed) (cs : List (Nat × Copy)) :
    cs.find? f = cs.find? fun k => k.2.failed := by rw [funext hf]

theorem exeDrain_returns (hf : (s.channel s.cur n).find? (fun k => k.2.failed) = none) : exeDrain s d n =
    exePut { s.drained (s.channel s.cur n) with
      copies := (s.drained (s.channel s.cur n)).copies.filter fun c => !anyB (fun k => k.1 == c.1) (s.channel s.cur n) } d 0#64 := by
  unfold exeDrain
  refine (if_neg (ne_true_of_eq_false (noneOut h))).trans ?_
  rw [find_failed, hf]
  · rfl
  · intro k
    rw [Copy.failed, Copy.status]
    cases k.2.res <;> rfl

theorem exeDrain_reports {id : Nat} {x : Copy} (hf : (s.channel s.cur n).find? (fun k => k.2.failed) = some (id, x)) : exeDrain s d n =
    let t := (s.drained (s.channel s.cur n)).modCopy id fun x => { x with reported := true }
    .trap (t.setThr (t.thr.putS d.toNat (replyWord x.status x.next)))
      { cause := 0x10, rsts := x.status
        tval := BitVec.ofNat 64 (if (x.res.getD (0, 0)).2 ≠ 0 then (x.res.getD (0, 0)).2 else x.desc) } := by
  unfold exeDrain
  refine (if_neg (ne_true_of_eq_false (noneOut h))).trans ?_
  rw [find_failed, hf]
  · rfl
  · intro k
    rw [Copy.failed, Copy.status]
    cases k.2.res <;> rfl

end Drain

end Sys2Proof.Machine
end

section
open Sys2Proof Sys2Proof.Machine

/-- Settles O41: `copy` by its checks and its port die, `drain` by what its channel's copies brought. -/
theorem copiesAndDrains : Obligations.CopiesAndDrains := by
  intro st c a b q l n nid k x i u va pd msg ok sent di du cs all' status failed raised
  have hc : ∀ s, exec i s = runInsn i st (fun s => exeCopy s (s.rs a) c.toNat (q == 1#1) (l == 1#1) n.toNat) s := fun _ => rfl
  have hd : ∀ s, exec di s = runInsn di st (fun s => exeDrain s b n.toNat) s := fun _ => rfl
  refine ⟨traps_of_body hc fun s h => exeCopy_beyond h, traps_of_body hc fun s ⟨h, ha⟩ => exeCopy_misaligned h ha,
    waits_of_body hc fun s ⟨⟨h, ha⟩, hr⟩ => exeCopy_full h ha hr,
    does_of_body hc fun s ⟨⟨h, ha⟩, hr, hd, hid⟩ => (exeCopy_sends h ha hr).trans ?_,
    does_of_body hc fun s ⟨⟨h, ha⟩, hr, hd, hid⟩ => (exeCopy_sends h ha hr).trans ?_,
    waits_of_body hd fun s h => exeDrain_waits h,
    does_of_body hd fun s ⟨h, hf⟩ => exeDrain_returns h hf,
    traps_of_body hd fun s ⟨h, hf⟩ => exeDrain_reports h hf⟩
  · subst hid
    rw [State.sendCopy_up hd]
    rfl
  · subst hid
    rw [State.sendCopy_down hd]
    rfl

end

section
/-! SUPPORT. Remote operations that return a value (R375, R378, R379): their message sent, the wait, and the reply landed. -/

namespace Sys2Proof.Machine

/-! ### The address and the turns -/

theorem bitsAt_top {n hi lo : Nat} (h : n < 2 ^ (hi + 1)) (hl : lo ≤ hi) : bitsAt n hi lo = n / 2 ^ lo := by
  rw [bitsAt_eq_div_mod]
  refine Nat.mod_eq_of_lt (Nat.div_lt_of_lt_mul ?_)
  rwa [← pow_add, show lo + (hi + 1 - lo) = hi + 1 by omega]

section Address
variable {a : W64} {size : Nat}

theorem bitsAt_63_eq_zero (a : W64) {lo : Nat} (h : lo ≤ 63) : bitsAt a.toNat 63 lo = 0 ↔ a.toNat < 2 ^ lo := by
  rw [bitsAt_top a.isLt h, Nat.div_eq_zero_iff_lt (Nat.two_pow_pos _)]

theorem addrTrap_beyond (h : 2 ^ 60 ≤ a.toNat) : addrTrap a size = some { cause := 0x04, tval := a } :=
  if_pos fun h0 => absurd ((bitsAt_63_eq_zero a (by decide)).1 h0) (not_lt.2 h)

variable (h : a.toNat < 2 ^ 60)
include h

theorem addrTrap_misaligned (ha : a.toNat % size ≠ 0) : addrTrap a size = some { cause := 0x06, tval := a } :=
  (if_neg (not_not.2 ((bitsAt_63_eq_zero a (by decide)).2 h))).trans (if_pos ha)

theorem addrTrap_none (ha : a.toNat % size = 0) : addrTrap a size = none :=
  (if_neg (not_not.2 ((bitsAt_63_eq_zero a (by decide)).2 h))).trans (if_neg (not_not.2 ha))

end Address

/-- A thread whose message has been put into its inbox (R375). -/
def State.ropSent (s : State) (r : Rop) : State :=
  ({ s with nextId := s.nextId + 1, rops := s.rops.set s.nextId r } : State).setThr { s.thr with rop := some s.nextId }

/-- A thread whose operation has been replied to. -/
def State.ropGone (s : State) (id : Nat) : State := ({ s with rops := s.rops.erase id } : State).setThr { s.thr with rop := none }

section Interlocked
variable {s : State} {check : State → Except Exe Rop} {fin : State → Rop → Exe} {r : Rop} {id : Nat}

theorem exeInterlocked_refused {e : Exe} (h : s.thr.rop = none) (hc : check s = .error e) : exeInterlocked s check fin = e := by
  simp only [exeInterlocked, h, hc]

theorem exeInterlocked_full (h : s.thr.rop = none) (hc : check s = .ok r) (hr : s.ropRoom r = false) :
    exeInterlocked s check fin = .turn s := by
  simp only [exeInterlocked, h, hc, hr, Bool.not_false, if_true]

theorem exeInterlocked_sends (h : s.thr.rop = none) (hc : check s = .ok r) (hr : s.ropRoom r = true) :
    exeInterlocked s check fin = .turn (s.ropSent r) := by
  simp only [exeInterlocked, h, hc, hr, Bool.not_true, Bool.false_eq_true, if_false]
  rfl

theorem exeInterlocked_waits (h : s.thr.rop = some id) (hg : s.rops.get? id = some r) (hr : r.replied = false) :
    exeInterlocked s check fin = .turn s := by
  simp only [exeInterlocked, h, hg, hr, Bool.false_eq_true, if_false]

theorem exeInterlocked_replied (h : s.thr.rop = some id) (hg : s.rops.get? id = some r) (hr : r.replied = true) :
    exeInterlocked s check fin = fin (s.ropGone id) r := by
  simp only [exeInterlocked, h, hg, hr, if_true]
  rfl

end Interlocked

theorem finRemote_value {b : BitVec 5} {ext : W64 → W64} {s : State} {r : Rop} {v : W64} (h : r.res = some (0, v)) :
    finRemote b ext s r = exePut s b (ext v) := by
  simp only [finRemote, h, Option.getD_some, if_true]

theorem finRemote_error {b : BitVec 5} {ext : W64 → W64} {s : State} {r : Rop} {stat : Nat} {v : W64} (h : r.res = some (stat, v))
    (hs : stat ≠ 0) : finRemote b ext s r =
      .trap (s.setThr (s.thr.putS b.toNat (replyWord stat 0))) { cause := 0x15, tval := r.addr, rsts := stat } := by
  simp only [finRemote, h, Option.getD_some, if_neg hs]

/-! ### What an interlocked operation claims -/

section Claims
variable {i : Instr} {st : BitVec 3} {u : Uses} {check : State → State → Except Exe Rop} {fin : State → Rop → Exe}
  (hx : ∀ s, exec i s = runInsn i st (fun s => exeInterlocked s (check s) fin) s) (hu : ∀ x, usesOf x i = u := by intro x; rfl)
include hx hu

/-- The address checked, and the message sent where its inbox has room. -/
theorem claims_of_sends {size id : Nat} {addr : State → W64} {ok : State → Prop} {msg : State → Rop}
    (hbad : ∀ s t, ok s → addrTrap (addr s) size = some t → check s s = .error (.trap s t))
    (hok : ∀ s, ok s → addrTrap (addr s) size = none → check s s = .ok (msg s)) :
    Traps i u (fun s => s.thr.rop = none ∧ ok s ∧ 2 ^ 60 ≤ (addr s).toNat) (fun s => s) (fun s => { cause := 0x04, tval := addr s })
      ∧ Traps i u (fun s => s.thr.rop = none ∧ ok s ∧ (addr s).toNat < 2 ^ 60 ∧ (addr s).toNat % size ≠ 0) (fun s => s)
          (fun s => { cause := 0x06, tval := addr s })
      ∧ Waits i u (fun s => (s.thr.rop = none ∧ ok s ∧ (addr s).toNat < 2 ^ 60 ∧ (addr s).toNat % size = 0)
          ∧ s.ropRoom (msg s) = false) (fun s => s)
      ∧ Waits i u (fun s => (s.thr.rop = none ∧ ok s ∧ (addr s).toNat < 2 ^ 60 ∧ (addr s).toNat % size = 0)
          ∧ s.ropRoom (msg s) = true ∧ s.nextId = id)
          (fun s => ({ s with nextId := id + 1, rops := s.rops.set id (msg s) } : State).setThr { s.thr with rop := some id }) :=
  ⟨traps_of_body hx (fun s ⟨h, ho, hb⟩ => exeInterlocked_refused h (hbad s _ ho (addrTrap_beyond hb))) hu,
    traps_of_body hx (fun s ⟨h, ho, hl, ha⟩ => exeInterlocked_refused h (hbad s _ ho (addrTrap_misaligned hl ha))) hu,
    waits_of_body hx (fun s ⟨⟨h, ho, hl, ha⟩, hr⟩ => exeInterlocked_full h (hok s ho (addrTrap_none hl ha)) hr) hu,
    waits_of_body hx (fun s ⟨⟨h, ho, hl, ha⟩, hr, hid⟩ =>
      (exeInterlocked_sends h (hok s ho (addrTrap_none hl ha)) hr).trans (by subst hid; rfl)) hu⟩

/-- The wait for the reply, its value landed, or its error taken. -/
theorem claims_of_ends {b : BitVec 5} {ext : W64 → W64} {id stat : Nat} {m : Rop} {v : W64} (hf : fin = finRemote b ext) :
    Waits i u (fun s => (s.thr.rop = some id ∧ s.rops.get? id = some m) ∧ m.replied = false) (fun s => s)
      ∧ Does i u st (fun s => (s.thr.rop = some id ∧ s.rops.get? id = some m) ∧ m.replied = true ∧ m.res = some (0, v))
          (fun s => (s.ropGone id).setThr ((s.ropGone id).thr.putS b.toNat (ext v)))
      ∧ (stat ≠ 0 → Traps i u (fun s => (s.thr.rop = some id ∧ s.rops.get? id = some m) ∧ m.replied = true ∧ m.res = some (stat, v))
          (fun s => (s.ropGone id).setThr ((s.ropGone id).thr.putS b.toNat (BitVec.ofNat 64 (stat % 256))))
          fun _ => { cause := 0x15, tval := m.addr, rsts := stat }) := by
  subst hf
  exact ⟨waits_of_body hx (fun s ⟨⟨h, hg⟩, hr⟩ => exeInterlocked_waits h hg hr) hu,
    does_of_body hx (fun s ⟨⟨h, hg⟩, hr, hv⟩ => (exeInterlocked_replied h hg hr).trans (finRemote_value hv)) hu,
    fun hs => traps_of_body hx (fun s ⟨⟨h, hg⟩, hr, hv⟩ => (exeInterlocked_replied h hg hr).trans (finRemote_error hv hs)) hu⟩

end Claims

/-! ### `rld` and `rfadd` (R375, R379) -/

section Remote
variable {a b : BitVec 5} {c z : BitVec 3} {q l : BitVec 1} {s : State}

/-- Their messages, and the check of their address. -/
def State.rldMsg (s : State) (a : BitVec 5) (c : BitVec 3) (q : BitVec 1) (z : BitVec 3) : Rop :=
  { s.newRop .load (s.rs a) (sizeOf' z.toNat) c (q == 1#1) false with code := z.toNat }
def State.rfaddMsg (s : State) (a b : BitVec 5) (c : BitVec 3) (q l : BitVec 1) : Rop :=
  { s.newRop .fadd (s.rs a) 8 c (q == 1#1) (l == 1#1) with x := s.rs b }
def rldCheck (a : BitVec 5) (c : BitVec 3) (q : BitVec 1) (z : BitVec 3) (s : State) : Except Exe Rop :=
  match addrTrap (s.rs a) (sizeOf' z.toNat) with
  | some t => .error (.trap s t)
  | none => .ok { s.newRop .load (s.rs a) (sizeOf' z.toNat) c (q == 1#1) false with code := z.toNat }
def rfaddCheck (a b : BitVec 5) (c : BitVec 3) (q l : BitVec 1) (s : State) : Except Exe Rop :=
  match addrTrap (s.rs a) 8 with
  | some t => .error (.trap s t)
  | none => .ok { s.newRop .fadd (s.rs a) 8 c (q == 1#1) (l == 1#1) with x := s.rs b }

theorem rldCheck_bad {t : Trap} (h : addrTrap (s.rs a) (sizeOf' z.toNat) = some t) : rldCheck a c q z s = .error (.trap s t) := by
  rw [rldCheck, h]
theorem rldCheck_ok (h : addrTrap (s.rs a) (sizeOf' z.toNat) = none) : rldCheck a c q z s = .ok (s.rldMsg a c q z) := by
  rw [rldCheck, h]
  rfl
theorem rfaddCheck_bad {t : Trap} (h : addrTrap (s.rs a) 8 = some t) : rfaddCheck a b c q l s = .error (.trap s t) := by
  rw [rfaddCheck, h]
theorem rfaddCheck_ok (h : addrTrap (s.rs a) 8 = none) : rfaddCheck a b c q l s = .ok (s.rfaddMsg a b c q l) := by
  rw [rfaddCheck, h]
  rfl

end Remote

/-! ### `ramo` (R378) -/

section Ramo
variable {fn : Nat} {a : BitVec 5} {c : BitVec 3} {q l : BitVec 1}

/-- The operands that a handler invocation reads. -/
def State.ramoReg (s : State) (a : BitVec 5) (k : Nat) : W64 := s.thr.readS (a.toNat + k)

/-- A handler invocation's message (R378). -/
def State.ramoMsg (s : State) (fn : Nat) (a : BitVec 5) (c : BitVec 3) (q l : BitVec 1) : Rop :=
  { s.newRop (.handler fn) (s.ramoReg a 0) 8 c (q == 1#1) (l == 1#1) with
    x := s.ramoReg a 1, y := s.ramoReg a 2, entry := (s.ramoReg a 3).toNat }

/-- The checks of a handler invocation, on operands read as `s` stands. -/
def ramoCheck (fn : Nat) (a : BitVec 5) (c : BitVec 3) (q l : BitVec 1) (s t : State) : Except Exe Rop :=
  if a.toNat % 4 ≠ 0 || a.toNat = 0 then .error (exeBadRegs t)
  else if bitsAt (s.ramoReg a 3).toNat 63 8 ≠ 0 then .error (exeBadRegs t)
  else match addrTrap (s.ramoReg a 0) 8 with
  | some e => .error (.trap t e)
  | none =>
    if fn ≠ 0 && !t.thr.sup then .error (exeTrap t 0x0C (s.ramoReg a 0))
    else .ok { t.newRop (.handler fn) (s.ramoReg a 0) 8 c (q == 1#1) (l == 1#1) with
      x := s.ramoReg a 1, y := s.ramoReg a 2, entry := (s.ramoReg a 3).toNat }

theorem exeRamo_eq (b : BitVec 5) (s : State) :
    exeRamo fn a b c q l s = exeInterlocked s (ramoCheck fn a c q l s) (finRemote b id) := rfl

variable {s : State}

theorem ramoCheck_badRegs (h : a.toNat % 4 ≠ 0 ∨ a = 0#5 ∨ 256 ≤ (s.ramoReg a 3).toNat) :
    ramoCheck fn a c q l s s = .error (exeBadRegs s) := by
  by_cases hc : (decide (a.toNat % 4 ≠ 0) || decide (a.toNat = 0)) = true
  · exact if_pos hc
  · refine (if_neg hc).trans (if_pos fun h0 => ?_)
    have h8 := (bitsAt_63_eq_zero _ (by decide)).1 h0
    rw [Bool.or_eq_true, decide_eq_true_eq, decide_eq_true_eq, not_or] at hc
    rcases h with h | h | h
    · exact hc.1 h
    · exact hc.2 (by rw [h]; rfl)
    · omega

variable (ha : a.toNat % 4 = 0) (h0 : a ≠ 0#5) (he : (s.ramoReg a 3).toNat < 256)
include ha h0 he

theorem ramoRegs_ok : ¬ (decide (a.toNat % 4 ≠ 0) || decide (a.toNat = 0)) = true ∧ ¬ bitsAt (s.ramoReg a 3).toNat 63 8 ≠ 0 := by
  refine ⟨?_, not_not.2 ((bitsAt_63_eq_zero _ (by decide)).2 he)⟩
  rw [Bool.or_eq_true, decide_eq_true_eq, decide_eq_true_eq, not_or, not_not]
  exact ⟨ha, fun h => h0 (BitVec.eq_of_toNat_eq h)⟩

theorem ramoCheck_badAddress {t : Trap} (h : addrTrap (s.ramoReg a 0) 8 = some t) :
    ramoCheck fn a c q l s s = .error (.trap s t) := by
  obtain ⟨h1, h2⟩ := ramoRegs_ok ha h0 he
  rw [ramoCheck, if_neg h1, if_neg h2, h]

variable (h : addrTrap (s.ramoReg a 0) 8 = none)
include h

theorem ramoCheck_barred (hf : fn ≠ 0) (hs : s.thr.sup = false) :
    ramoCheck fn a c q l s s = .error (.trap s { cause := 0x0C, tval := s.ramoReg a 0 }) := by
  obtain ⟨h1, h2⟩ := ramoRegs_ok ha h0 he
  rw [ramoCheck, if_neg h1, if_neg h2, h]
  refine if_pos ?_
  rw [hs, decide_eq_true hf]
  rfl

theorem ramoCheck_ok (hs : fn ≠ 0 → s.thr.sup = true) : ramoCheck fn a c q l s s = .ok (s.ramoMsg fn a c q l) := by
  obtain ⟨h1, h2⟩ := ramoRegs_ok ha h0 he
  rw [ramoCheck, if_neg h1, if_neg h2, h]
  refine if_neg ?_
  rw [Bool.and_eq_true, decide_eq_true_eq]
  rintro ⟨hf, hn⟩
  rw [hs hf] at hn
  exact Bool.false_ne_true hn

end Ramo

end Sys2Proof.Machine
end

section
open Sys2Proof Sys2Proof.Machine

/-- Settles O42: the turns of an interlocked operation, once for each kind of message. -/
theorem remoteOperationsReturn : Obligations.RemoteOperationsReturn := by
  intro st c z a b q l id stat m v ru fu mu gone sends ends reg odd' barred ramo
  have hramo : ∀ (i : Instr) (fn : Nat), (∀ s, exec i s = runInsn i st (exeRamo fn a b c q l) s) → (∀ x, usesOf x i = mu) →
      ramo i fn := fun i fn hx hu => by
    have hx' : ∀ s, exec i s = runInsn i st (fun s => exeInterlocked s (ramoCheck fn a c q l s) (finRemote b fun v => v)) s := hx
    refine ⟨traps_of_body hx' (fun s ⟨h, hb⟩ => exeInterlocked_refused h (ramoCheck_badRegs hb)) hu,
      traps_of_body hx' (fun s ⟨h, ha, h0, he, hl, h8, hf, hs⟩ =>
        exeInterlocked_refused h (ramoCheck_barred ha h0 he (addrTrap_none hl h8) hf hs)) hu, ?_, ?_⟩
    · exact claims_of_sends (size := 8) (addr := fun s => s.ramoReg a 0) (msg := fun s => s.ramoMsg fn a c q l) hx' hu
        (fun s t ⟨ha, h0, he, hs⟩ h => ramoCheck_badAddress ha h0 he h) fun s ⟨ha, h0, he, hs⟩ h => ramoCheck_ok ha h0 he h hs
    · exact claims_of_ends (b := b) (ext := fun v => v) (id := id) (m := m) (v := v) hx' hu rfl
  refine ⟨?_, ?_, ?_, ?_, hramo _ 0 (fun _ => rfl) fun _ => rfl, hramo _ 1 (fun _ => rfl) fun _ => rfl,
    hramo _ 2 (fun _ => rfl) fun _ => rfl, hramo _ 3 (fun _ => rfl) fun _ => rfl, hramo _ 4 (fun _ => rfl) fun _ => rfl⟩
  · exact claims_of_sends (size := 2 ^ (z.toNat % 4)) (addr := fun s => s.rs a) (ok := fun _ => True)
      (msg := fun s => s.rldMsg a c q z) (check := fun _ => rldCheck a c q z) (fun _ => rfl) (fun _ => rfl)
      (fun s t _ h => rldCheck_bad h) fun s _ h => rldCheck_ok h
  · exact claims_of_ends (b := b) (ext := loadExt z.toNat) (id := id) (m := m) (v := v) (check := fun _ => rldCheck a c q z)
      (fun _ => rfl) (fun _ => rfl) rfl
  · exact claims_of_sends (size := 8) (addr := fun s => s.rs a) (ok := fun _ => True) (msg := fun s => s.rfaddMsg a b c q l)
      (check := fun _ => rfaddCheck a b c q l) (fun _ => rfl) (fun _ => rfl) (fun s t _ h => rfaddCheck_bad h) fun s _ h => rfaddCheck_ok h
  · exact claims_of_ends (b := b) (ext := fun v => v) (id := id) (m := m) (v := v) (check := fun _ => rfaddCheck a b c q l)
      (fun _ => rfl) (fun _ => rfl) rfl

end

section
/-! SUPPORT. `rst` (R376, R387): each outcome of its first turn, and of the wait for its token. -/

namespace Sys2Proof.Machine

theorem depBad_iff {d : W64} : depBad d = true ↔ 2 ^ 44 ≤ d.toNat := by
  rw [depBad, decide_eq_true_eq, ne_eq, bitsAt_63_eq_zero d (by decide), not_lt]

/-- The serial of a dependency word's token (R387). -/
theorem tokSerial_depTok (d : W64) : tokSerial (depTok d) = d.toNat % 2 ^ 20 := by
  rw [tokSerial, depTok, bitsAt_eq_div_mod, bitsAt_eq_div_mod, pow_zero, Nat.div_one, Nat.div_one]
  exact Nat.mod_mod_of_dvd _ (Dvd.intro_left _ (by norm_num : 4096 * 2 ^ 20 = 2 ^ 32))

theorem Rop.dpkg_eq (r : Rop) : r.dpkg = r.addr.toNat / 2 ^ 48 % 4096 := by
  rw [dpkg, bitsAt_eq_div_mod]
  rfl

/-- A store's message as its thread sends it (R376). -/
def State.rstMsg (s : State) (a b : BitVec 5) (c : BitVec 3) (rel dep tok : Bool) (z : BitVec 2) : Rop :=
  { s.newRop .store (s.rs a) (2 ^ z.toNat) c false rel with
    x := BitVec.ofNat 64 ((s.rs b).toNat % 2 ^ (8 * 2 ^ z.toNat))
    dep := if dep && tokSerial (depTok (s.thr.readS (a.toNat + 1))) ≠ 0 then some (s.thr.readS (a.toNat + 1)) else none
    tok := if tok then some 0 else none }

section Rst
variable {s : State} {a b : BitVec 5} {c : BitVec 3} {rel dep tok : Bool} {z : BitVec 2}

section First
variable (h : s.thr.rop = none)
include h

theorem exeRst_badAddress {t : Trap} (ha : addrTrap (s.rs a) (2 ^ z.toNat) = some t) : exeRst s a b c rel dep tok z = .trap s t := by
  simp only [exeRst, h, ha]

variable (ha : addrTrap (s.rs a) (2 ^ z.toNat) = none)
include ha

theorem exeRst_badRegs (hr : (tok || dep) = true ∧ (a.toNat = 0 ∨ a.toNat = 31)) :
    exeRst s a b c rel dep tok z = .trap { s with freeCnt := s.freeCnt + 1 } { cause := 0x04, tval := Config.freeWord s.freeCnt } := by
  have hc : ((tok || dep) && (decide (a.toNat = 0) || decide (a.toNat = 31))) = true := by
    rw [Bool.and_eq_true, Bool.or_eq_true (decide _), decide_eq_true_eq, decide_eq_true_eq]
    exact hr
  simp only [exeRst, h, ha, if_pos hc]
  rfl

variable (hr : (tok || dep) = true → a.toNat ≠ 0 ∧ a.toNat ≠ 31)
include hr

omit h ha in
theorem rstRegs : ((tok || dep) && (decide (a.toNat = 0) || decide (a.toNat = 31))) = false := by
  cases ht : tok || dep with
  | false => rfl
  | true => rw [decide_eq_false (hr ht).1, decide_eq_false (hr ht).2]; rfl

theorem exeRst_badDep (hd : dep = true) (hb : depBad (s.thr.readS (a.toNat + 1)) = true) :
    exeRst s a b c rel dep tok z = .trap s { cause := 0x04, tval := s.thr.readS (a.toNat + 1) } := by
  have hbad : (dep && depBad (s.thr.readS (a.toNat + 1))) = true := by rw [hd, hb]; rfl
  simp only [exeRst, h, ha, rstRegs hr, hbad, Bool.false_eq_true, if_true, if_false, exeTrap]

variable (hd : dep = true → depBad (s.thr.readS (a.toNat + 1)) = false)
include hd

omit h ha hr in
theorem rstDep : (dep && depBad (s.thr.readS (a.toNat + 1))) = false := by
  cases h : dep with
  | false => rfl
  | true => exact hd h

theorem exeRst_full (hroom : s.ropRoom (s.rstMsg a b c rel dep tok z) = false) : exeRst s a b c rel dep tok z = .turn s := by
  rw [State.rstMsg] at hroom
  simp only [exeRst, h, ha, rstRegs hr, rstDep hd, Bool.false_eq_true, if_false]
  exact if_pos (by rw [hroom]; rfl)

/-- Posted, or with the wait for its token begun. -/
theorem exeRst_sends (hroom : s.ropRoom (s.rstMsg a b c rel dep tok z) = true) : exeRst s a b c rel dep tok z =
    if tok then .turn (s.ropSent (s.rstMsg a b c rel dep tok z))
    else .done { s with nextId := s.nextId + 1, rops := s.rops.set s.nextId (s.rstMsg a b c rel dep tok z) } := by
  rw [State.rstMsg] at hroom
  simp only [exeRst, h, ha, rstRegs hr, rstDep hd, Bool.false_eq_true, if_false]
  exact (if_neg (by rw [hroom]; exact Bool.false_ne_true)).trans rfl

end First

variable {id : Nat} {m : Rop} (h : s.thr.rop = some id) (hg : s.rops.get? id = some m)
include h hg

theorem exeRst_waits (ht : m.tok.getD 0 = 0) : exeRst s a b c rel dep tok z = .turn s := by
  simp only [exeRst, h, hg, if_pos ht]

/-- Its token allocated: s(a + 1) holds its dependency word, and a store that has completed is gone (R387). -/
theorem exeRst_allocated {t : Nat} (ht : m.tok = some t) (h0 : t ≠ 0) : exeRst s a b c rel dep tok z =
    .done (({ s with rops := if m.replied = true ∧ (m.res.getD (0, 0#64)).1 = 0 then s.rops.erase id else s.rops } : State).setThr
      { s.thr.putS (a.toNat + 1) (depWord m.dpkg t) with rop := none }) := by
  have hend : (m.replied && (m.res.getD (0, 0#64)).1 == 0) = decide (m.replied = true ∧ (m.res.getD (0, 0#64)).1 = 0) := by
    rw [Bool.eq_iff_iff, Bool.and_eq_true, beq_iff_eq, decide_eq_true_eq]
  simp only [exeRst, h, hg, ht, Option.getD_some, if_neg h0, hend, decide_eq_true_eq]
  by_cases hc : m.replied = true ∧ (m.res.getD (0, 0#64)).1 = 0
  · rw [if_pos hc, if_pos hc]
    rfl
  · rw [if_neg hc, if_neg hc]

end Rst

end Sys2Proof.Machine
end

section
open Sys2Proof Sys2Proof.Machine

/-- Settles O43: the first turn by its checks in order, the next ones by whether the token has been allocated. -/
theorem remoteStores : Obligations.RemoteStores := by
  intro st c a b l e hbit z id tok m i two u size A D regsOk first fine msg sent
  have hx : ∀ s, exec i s = runInsn i st (fun s => exeRst s a b c (l == 1#1) (e == 1#1) (hbit == 1#1) z) s := fun _ => rfl
  have hu : ∀ x, usesOf x i = u := fun x => by
    have h0 : ∀ k, (a.toNat != k) = decide (a.toNat ≠ k) := bne_eq_decide _
    show usesRst a b (e == 1#1) (hbit == 1#1) = _
    simp only [u, two, usesRst, h0]
  have hregs : regsOk ↔ (((hbit == 1#1) || (e == 1#1)) = true → a.toNat ≠ 0 ∧ a.toNat ≠ 31) := by
    have h0 : ∀ k : BitVec 5, a ≠ k ↔ a.toNat ≠ k.toNat := fun k => (BitVec.toNat_inj).symm.not
    have hz : ∀ x : BitVec 1, x = 0#1 ↔ ¬ x = 1#1 := by decide
    simp only [regsOk, h0, hz, Bool.or_eq_true, beq_iff_eq]
    exact ⟨fun h hor => h.resolve_left fun ⟨he, hh⟩ => hor.elim hh he, fun h => by
      by_cases hor : hbit = 1#1 ∨ e = 1#1
      · exact .inr (h hor)
      · exact .inl ⟨fun he => hor (.inr he), fun hh => hor (.inl hh)⟩⟩
  have hdep : ∀ s, (e = 1#1 → (D s).toNat < 2 ^ 44) → (e == 1#1) = true → depBad (s.thr.readS (a.toNat + 1)) = false :=
    fun s hd he => by
      rw [← Bool.not_eq_true, depBad_iff, not_le]
      exact hd (beq_iff_eq.1 he)
  have hmsg : ∀ s, s.rstMsg a b c (l == 1#1) (e == 1#1) (hbit == 1#1) z = msg s := fun s => by
    have hd : ((e == 1#1) && decide (tokSerial (depTok (D s)) ≠ 0)) = decide (e = 1#1 ∧ (D s).toNat % 2 ^ 20 ≠ 0) := by
      rw [tokSerial_depTok]
      by_cases he : e = 1#1 <;> simp [he]
    simp only [State.rstMsg, msg]
    rw [show tokSerial (depTok (s.thr.readS (a.toNat + 1))) = tokSerial (depTok (D s)) from rfl, hd]
    simp only [decide_eq_true_eq, beq_iff_eq]
    rfl
  refine ⟨traps_of_body hx (fun s ⟨hn, hb⟩ => exeRst_badAddress hn (addrTrap_beyond hb)) hu,
    traps_of_body hx (fun s ⟨hn, hl, ha⟩ => exeRst_badAddress hn (addrTrap_misaligned hl ha)) hu,
    traps_of_body hx (fun s ⟨⟨hn, hr⟩, hl, ha, he, hd⟩ => exeRst_badDep hn (addrTrap_none hl ha) (hregs.1 hr) (beq_iff_eq.2 he)
      (depBad_iff.2 hd)) hu,
    waits_of_body hx (fun s ⟨⟨⟨hn, hr⟩, hl, ha, hd⟩, hroom⟩ => exeRst_full hn (addrTrap_none hl ha) (hregs.1 hr) (hdep s hd)
      (by rw [hmsg]; exact hroom)) hu,
    fun hh => does_of_body hx (fun s ⟨⟨⟨hn, hr⟩, hl, ha, hd⟩, hroom, hid⟩ => ?_) hu,
    fun hh => waits_of_body hx (fun s ⟨⟨⟨hn, hr⟩, hl, ha, hd⟩, hroom, hid⟩ => ?_) hu,
    waits_of_body hx (fun s ⟨hn, hg, ht⟩ => exeRst_waits hn hg ht) hu,
    traps_of_body hx (fun s ⟨hn, hl, ha, hr⟩ => exeRst_badRegs hn (addrTrap_none hl ha) ?_) hu,
    fun h0 => does_of_body hx (fun s ⟨hn, hg, ht⟩ => (exeRst_allocated hn hg ht h0).trans ?_) hu⟩
  · rw [exeRst_sends hn (addrTrap_none hl ha) (hregs.1 hr) (hdep s hd) (by rw [hmsg]; exact hroom), hmsg]
    subst hid
    exact if_neg (by rw [hh]; decide)
  · rw [exeRst_sends hn (addrTrap_none hl ha) (hregs.1 hr) (hdep s hd) (by rw [hmsg]; exact hroom), hmsg]
    subst hid
    exact if_pos (by rw [hh]; decide)
  · rw [hregs, Classical.not_imp, not_and_or, not_not, not_not] at hr
    exact hr
  · rw [depWord, Rop.dpkg_eq, Nat.mod_mod]

end

section
/-! SUPPORT. `tokwait` (R84, R372, R393), `tlbinv` and `tlbsync` (R312, R315): each outcome. -/

namespace Sys2Proof.Machine

/-! ### `tokwait` of no token -/

section NoToken
variable {s : State} {b : BitVec 5}

theorem exeTokwait_ropsOut (h : s.ropsOut s.cur = true) : exeTokwait s 0#64 b = .turn s := if_pos h

variable (h : s.ropsOut s.cur = false)
include h

theorem exeTokwait_noError (he : s.firstError = none) : exeTokwait s 0#64 b = exePut s b 0#64 := by
  rw [exeTokwait, if_pos rfl, if_neg (ne_true_of_eq_false h), he]

theorem exeTokwait_reports {n : Nat} {r : Rop} (he : s.firstError = some (n, r)) : exeTokwait s 0#64 b =
    let t := ({ s with rops := s.rops.erase n } : State).freeTok n r
    .trap (t.setThr (t.thr.putS b.toNat (replyWord (r.res.getD (0, 0#64)).1 0)))
      { cause := ropCause (r.res.getD (0, 0#64)).1, tval := r.addr, rsts := (r.res.getD (0, 0#64)).1, again := true } := by
  rw [exeTokwait, if_pos rfl, if_neg (ne_true_of_eq_false h), he]

end NoToken

/-! ### `tokwait` of a token -/

theorem depTok_eq (d : W64) : depTok d = d.toNat % 2 ^ 32 := by rw [depTok, bitsAt_eq_div_mod, pow_zero, Nat.div_one]

theorem depBad_below {d : W64} (h : d.toNat < 2 ^ 44) : ¬ depBad d = true := fun hb => absurd (depBad_iff.1 hb) (not_le.2 h)

section Token
variable {s : State} {d : W64} {b : BitVec 5}

theorem exeTokwait_bad (h : 2 ^ 44 ≤ d.toNat) : exeTokwait s d b = .trap s { cause := 0x04, tval := d } := by
  have h0 : d ≠ 0#64 := fun h0 => by rw [h0] at h; exact absurd h (by decide)
  rw [exeTokwait, if_neg h0, if_pos (depBad_iff.2 h)]
  rfl

variable (h0 : d ≠ 0#64) (h : d.toNat < 2 ^ 44)
include h0 h

/-- A word of serial 0 names no token (log 41). -/
theorem exeTokwait_unnamed (hs : d.toNat % 2 ^ 20 = 0) : exeTokwait s d b = exePut s b 0#64 := by
  rw [exeTokwait, if_neg h0, if_neg (depBad_below h), if_pos ((tokSerial_depTok d).trans hs)]

variable (hs : d.toNat % 2 ^ 20 ≠ 0)
include hs

theorem exeTokwait_held {e : TokEnt} {n : Nat} {v : State} (he : s.heldTok (d.toNat % 2 ^ 32) = some e)
    (ho : s.tokOutcome e = some (n, v)) : exeTokwait s d b = exePut v b (BitVec.ofNat 64 n) := by
  rw [exeTokwait, if_neg h0, if_neg (depBad_below h), if_neg (by rwa [tokSerial_depTok]), depTok_eq, he]
  simp only [ho]

theorem exeTokwait_inFlight {e : TokEnt} (he : s.heldTok (d.toNat % 2 ^ 32) = some e)
    (ho : s.tokOutcome e = none) : exeTokwait s d b = .turn s := by
  rw [exeTokwait, if_neg h0, if_neg (depBad_below h), if_neg (by rwa [tokSerial_depTok]), depTok_eq, he]
  simp only [ho]

theorem exeTokwait_far (he : s.heldTok (d.toNat % 2 ^ 32) = none) : exeTokwait s d b = exeTokwaitWatch s d b := by
  rw [exeTokwait, if_neg h0, if_neg (depBad_below h), if_neg (by rwa [tokSerial_depTok]), depTok_eq, he]

end Token

section Watching
variable {s : State} {d : W64} {b : BitVec 5} {n : Nat}

section Sends
variable (h : s.thr.rop = none) (hw : s.thr.watch = none)
include h hw

theorem exeTokwaitWatch_full (hr : s.ropRoom (s.newRop .token d 8 0#3 false false) = false) : exeTokwaitWatch s d b = .turn s := by
  simp only [exeTokwaitWatch, h, hw, hr, Bool.not_false, if_true]

theorem exeTokwaitWatch_sends (hr : s.ropRoom (s.newRop .token d 8 0#3 false false) = true) :
    exeTokwaitWatch s d b = .turn (s.ropSent (s.newRop .token d 8 0#3 false false)) := by
  simp only [exeTokwaitWatch, h, hw, hr, Bool.not_true, Bool.false_eq_true, if_false]
  rfl

end Sends

section Message
variable {r : Rop} (h : s.thr.rop = some n) (hg : s.rops.get? n = some r)
include h hg

theorem exeTokwaitWatch_waits (hr : r.replied = false) : exeTokwaitWatch s d b = .turn s := by
  simp only [exeTokwaitWatch, h, hg, hr, Bool.false_eq_true, if_false]

/-- A message that was refused (log 37). -/
theorem exeTokwaitWatch_refused {outc : Nat} (hr : r.replied = true) (hv : r.res = some (outc, 0#64)) (ho : outc ≠ 0) :
    exeTokwaitWatch s d b = .trap ((s.ropGone n).setThr ((s.ropGone n).thr.putS b.toNat (replyWord outc 0)))
      { cause := 0x15, tval := r.addr, rsts := outc } := by
  rw [← finRemote_error (b := b) (ext := id) hv ho]
  simp only [exeTokwaitWatch, h, hg, hr, if_true]
  rfl

end Message

section Answer
variable {w : Watch} (h : s.thr.rop = none) (hw : s.thr.watch = some n) (hg : s.watches.get? n = some w)
include h hw hg

theorem exeTokwaitWatch_unanswered (h1 : w.st ≠ .answered true) (h2 : w.st ≠ .answered false) : exeTokwaitWatch s d b = .turn s := by
  simp only [exeTokwaitWatch, h, hw, hg]
  split
  · next ok ha =>
    cases ok
    · exact absurd ha h2
    · exact absurd ha h1
  · rfl

theorem exeTokwaitWatch_answered {ok : Bool} (ha : w.st = .answered ok) : exeTokwaitWatch s d b =
    exePut (({ s with watches := s.watches.erase n } : State).setThr { s.thr with watch := none }) b
      (BitVec.ofNat 64 (if ok then 0 else 0x0A)) := by
  simp only [exeTokwaitWatch, h, hw, hg, ha]

end Answer

end Watching

/-! ### `tlbinv` and `tlbsync` -/

theorem inRange_iff {r : W64} {a : Nat} : inRange r a = true ↔
    r.toNat % 2 ^ 12 ≤ a ∧ a < r.toNat % 2 ^ 12 + r.toNat / 2 ^ 16 % 2 ^ 13 := by
  simp only [inRange, bitsAt_eq_div_mod, pow_zero, Nat.div_one, Bool.and_eq_true, decide_eq_true_eq]

/-- An invalidation as its thread asks for it (R312). -/
def State.invalOf (s : State) (pg cnt : W64) (scope : Nat) (all : Bool) : Inval :=
  let range := (s.part s.threadPart).pasid
  let lo := if cnt = 0#64 then 0 else bitsAt pg.toNat 47 12 * 4096
  { slot := s.cur, asidLo := if all then bitsAt range.toNat 11 0 else bitsAt pg.toNat 11 0
    asidN := if all then bitsAt range.toNat 28 16 else 1, lo := lo
    hi := if cnt = 0#64 then 2 ^ 48 else min (2 ^ 48) (lo + cnt.toNat * 4096), scope := scope
    waiting := holdersIn scope (courseOf s.cur) }

/-- What `tlbinv` checks of its first operand: the page in 48 bits, and the address space in the partition's range, or 0 for all. -/
def State.invalOk (s : State) (pg : W64) (all : Bool) : Prop :=
  pg.toNat < 2 ^ 48 ∧ (all = true → bitsAt pg.toNat 11 0 = 0)
    ∧ (all = false → inRange (s.part s.threadPart).pasid (bitsAt pg.toNat 11 0) = true)

section Tlb
variable {s : State} {pg cnt : W64} {scope : Nat} {all : Bool}

theorem invalBad_iff : (bitsAt pg.toNat 63 48 ≠ 0 ∨ (all = true ∧ bitsAt pg.toNat 11 0 ≠ 0)
    ∨ (!all) = true ∧ (!inRange (s.part s.threadPart).pasid (bitsAt pg.toNat 11 0)) = true) ↔ ¬ s.invalOk pg all := by
  rw [State.invalOk, ne_eq, bitsAt_63_eq_zero pg (by decide)]
  simp only [Bool.not_eq_true', not_and_or, Classical.not_imp, Bool.not_eq_true]

theorem exeTlbinv_bad (h : ¬ s.invalOk pg all) : exeTlbinv s pg cnt scope all = .trap s { cause := 0x04, tval := pg } :=
  if_pos (invalBad_iff.2 h)

theorem exeTlbinv_asks (h : s.invalOk pg all) : exeTlbinv s pg cnt scope all =
    .done (({ s with nextId := s.nextId + 1, invals := s.invals.set s.nextId (s.invalOf pg cnt scope all) } : State).setThr
      { s.thr with invs := s.thr.invs ++ [s.nextId], invScope := max s.thr.invScope scope }) :=
  (if_neg (fun hb => invalBad_iff.1 hb h)).trans rfl

theorem invDone_iff (s : State) (n : Nat) : s.invDone n = true ↔ s.invals.get? n = none := Option.isNone_iff_eq_none

end Tlb

end Sys2Proof.Machine
end

section
open Sys2Proof Sys2Proof.Machine

/-- Settles O44: `tokwait` by the word it names, and by what its table or its watch knows. -/
theorem tokenWaits : Obligations.TokenWaits := by
  intro st a b n id outc r w e ok v i u D put named mine far msg
  have hx : ∀ s, exec i s = runInsn i st (fun s => exeTokwait s (s.rs a) b) s := fun _ => rfl
  have hzero : ∀ s, D s = 0 ↔ s.rs a = 0#64 := fun s => BitVec.toNat_inj (y := 0#64)
  have hne : ∀ s, D s ≠ 0 → s.rs a ≠ 0#64 := fun s h => (hzero s).not.1 h
  have hfar : ∀ s, far s → exeTokwait s (s.rs a) b = exeTokwaitWatch s (s.rs a) b := fun s ⟨⟨h0, h, hs⟩, hm⟩ =>
    exeTokwait_far (hne s h0) h hs hm
  refine ⟨waits_of_body hx fun s ⟨h0, h⟩ => ?_, does_of_body hx fun s ⟨h0, h, he⟩ => ?_,
    traps_of_body hx fun s ⟨h0, h, he⟩ => ?_,
    traps_of_body hx fun s h => exeTokwait_bad h,
    does_of_body hx fun s ⟨h0, h, hs⟩ => exeTokwait_unnamed (hne s h0) h hs,
    does_of_body hx fun s ⟨⟨h0, h, hs⟩, hm, ho⟩ => exeTokwait_held (hne s h0) h hs hm ho,
    waits_of_body hx fun s ⟨⟨h0, h, hs⟩, hm, ho⟩ => exeTokwait_inFlight (hne s h0) h hs hm ho,
    waits_of_body hx fun s ⟨hf, h, hw, hr⟩ => (hfar s hf).trans (exeTokwaitWatch_full h hw hr),
    waits_of_body hx fun s ⟨hf, h, hw, hr, hid⟩ => (hfar s hf).trans ((exeTokwaitWatch_sends h hw hr).trans (by subst hid; rfl)),
    waits_of_body hx fun s ⟨hf, h, hg, hr⟩ => (hfar s hf).trans (exeTokwaitWatch_waits h hg hr),
    fun hv ho => traps_of_body hx fun s ⟨hf, h, hg, hr⟩ => (hfar s hf).trans (exeTokwaitWatch_refused h hg hr hv ho),
    fun h1 h2 => waits_of_body hx fun s ⟨hf, h, hw, hg⟩ => (hfar s hf).trans (exeTokwaitWatch_unanswered h hw hg h1 h2),
    does_of_body hx fun s ⟨hf, h, hw, hg, ha⟩ => (hfar s hf).trans (exeTokwaitWatch_answered h hw hg ha)⟩
  · rw [(hzero s).1 h0]
    exact exeTokwait_ropsOut h
  · rw [(hzero s).1 h0]
    exact exeTokwait_noError h he
  · rw [(hzero s).1 h0]
    exact exeTokwait_reports h he

/-- Settles O45: `tlbinv` by its check, `tlbsync` by whether each of the thread's invalidations is over. -/
theorem translationInvalidation : Obligations.TranslationInvalidation := by
  intro st c a b g id i u pg range base count asid inside ok su
  have hx : ∀ s, exec i s = runInsn i st (fun s => exeTlbinv s (s.rs a) (s.rs b) c.toNat (g == 1#1)) s := fun _ => rfl
  have hy : ∀ s, exec (.tlbsync st) s = runInsn (.tlbsync st) st
      (fun s => if allB s.invDone s.thr.invs then .done (s.setThr { s.thr with invs := [], invScope := 0 }) else .turn s) s := fun _ => rfl
  have hlow : ∀ x : W64, bitsAt x.toNat 11 0 = x.toNat % 4096 := fun x => by
    rw [bitsAt_eq_div_mod, pow_zero, Nat.div_one]
    rfl
  have hone : ∀ x : BitVec 1, ((x == 1#1) = true ↔ x = 1#1) ∧ ((x == 1#1) = false ↔ x = 0#1) := by decide
  have hok : ∀ s, ok s ↔ s.invalOk (s.rs a) (g == 1#1) := fun s => by
    rw [State.invalOk, inRange_iff, (hone g).1, (hone g).2, hlow]
  refine ⟨traps_of_body hx fun s h => exeTlbinv_bad ((hok s).not.1 h),
    does_of_body hx fun s ⟨h, hid⟩ => (exeTlbinv_asks ((hok s).1 h)).trans ?_,
    does_of_body hy fun s h => if_pos (allB_eq_true.2 fun n hn => (invDone_iff s n).2 (h n hn)),
    waits_of_body hy fun s ⟨n, hn, h⟩ => if_neg fun ha => h ((invDone_iff s n).1 (allB_eq_true.1 ha n hn))⟩
  subst hid
  have hpage : bitsAt (s.rs a).toNat 47 12 = pg s / 4096 := bitsAt_top h.1 (by decide)
  have hnone : (s.rs b).toNat = 0 ↔ s.rs b = 0#64 := BitVec.toNat_inj (y := 0#64)
  simp only [State.invalOf, hpage, hlow, beq_iff_eq, hnone, bitsAt_eq_div_mod]
  rfl

end

section
/-! SUPPORT. A step as its parts (R108 to R115): a word read for the thread, its header, its instruction, and the turn. -/

namespace Sys2Proof.Machine

/-- The thread's word at an address: in 48 bits, translated to memory outside the windows, and there a code word (R113, R114). -/
def State.readsWord (s : State) (x : Slot) (va : Nat) (w : W32) : Prop := va < 2 ^ 48 ∧ ∃ pa e,
  s.translate (holdCp (courseOf s.cur)) x.asid x.sup .fetch va = .ok pa e ∧ pa < windowBase ∧ s.placeOf pa ≠ .spill
    ∧ s.codeUnder (courseOf s.cur) x.asid pa e = some w

/-- The word at the thread's place: the one under way, else the one read there. -/
def State.standsAt (s : State) (x : Slot) (w : W32) : Prop := x.doing = some w ∨ (x.doing = none ∧ s.readsWord x x.pc.toNat w)

section Fetch
variable {s : State} {x : Slot} {w h : W32} {i : Instr}

theorem State.readsWord.fetch {va : Nat} (hr : s.readsWord x va w) : s.fetchWord x va = .ok w := by
  obtain ⟨hv, pa, e, ht, hp, hs, hc⟩ := hr
  exact State.fetchWord_ok hv ht hp hs hc

theorem State.readsWord.header {va : Nat} (hr : s.readsWord x va h) (ht : headerTrap x.decl h = none) :
    s.fetchHeader x va = .ok h := by
  simp only [fetchHeader, hr.fetch, ht]

theorem State.standsAt.word (hw : s.standsAt x w) : s.wordHere x = .ok w := by
  rcases hw with hd | ⟨hd, hr⟩
  · simp only [wordHere, hd]
  · simp only [wordHere, hd, hr.fetch]

theorem State.standsAt.fetches (hw : s.standsAt x w) (hr : x.resumeNext = false) (hd : decode w = some i) :
    s.fetchInsn x = .insn i (s.setThr x) := State.fetchInsn_ok hr hw.word hd

section Turn
variable (hready : s.ready = true) (hrec : s.thr.reclaimDue = none) (hres : s.thr.resumeNext = false)
include hready hrec

/-- Inside a block the instruction at the thread's place is its turn's. -/
theorem State.fetchIssue_inside (ha : s.thr.atHdr = false) (hre : s.thr.reHdr = false) : s.fetchIssue = s.fetchInsn s.thr := by
  simp only [fetchIssue, hready, hrec, ha, hre, Bool.not_true, Bool.false_eq_true, if_false]

theorem State.fetchIssue_atHeader (ha : s.thr.atHdr = true) (hh : s.fetchHeader s.thr s.thr.pc.toNat = .ok h) :
    s.fetchIssue = s.fetchInsn { s.thr with hdr := h, atHdr := false, bpos := 0, pc := s.thr.pc + 4#64, firstHdr := none } := by
  simp only [fetchIssue, hready, hrec, ha, hh, Bool.not_true, Bool.false_eq_true, if_false, if_true]

/-- After a return into its block the header is read again (R115). -/
theorem State.fetchIssue_again (ha : s.thr.atHdr = false) (hre : s.thr.reHdr = true)
    (hh : s.fetchHeader s.thr (s.thr.pc - BitVec.ofNat 64 (4 * (s.thr.bpos + 1))).toNat = .ok h)
    (hf : s.thr.forced = true → ({ s.thr with hdr := h, reHdr := false } : Slot).shielded = true) :
    s.fetchIssue = s.fetchInsn { s.thr with hdr := h, reHdr := false } := by
  simp only [fetchIssue, hready, hrec, ha, hre, hh, Bool.not_true, Bool.false_eq_true, if_false, if_true]
  refine if_neg fun hb => ?_
  rw [Bool.and_eq_true, Bool.not_eq_true'] at hb
  exact ne_true_of_eq_false hb.2 (hf hb.1)

end Turn

end Fetch

/-! ### The step -/

section Step
variable {s t u : State} {n dt : Nat} {i : Instr}

theorem step_issue_insn (h : s.nextAction = (.issue n dt, t)) (hf : ({ t with cur := n } : State).fetchIssue = .insn i u) :
    step s = s.closeOut (exec i u) := by
  simp only [step, h, hf]

theorem step_begin_insn (h : s.nextAction = (.begin n dt, t)) (hf : ({ t with cur := n } : State).fetchIssue = .insn i u) :
    step s = .next (s.close (u.beginInsn i)) := by
  simp only [step, h, hf]

theorem step_notReady (h : s.nextAction = (.issue n dt, t)) (hr : ({ t with cur := n } : State).ready = false) :
    step s = .next (s.close { t with cur := n }) := by
  have hf : ({ t with cur := n } : State).fetchIssue = .took { t with cur := n } := by
    simp only [State.fetchIssue, hr, Bool.not_false, if_true]
  simp only [step, h, hf]

theorem step_event (h : s.nextAction = (.event i dt, t)) (he : encode i = none) : step s = s.closeOut (exec i t) := by
  simp only [step, h, he, Option.isSome_none, Bool.false_eq_true, if_false]

end Step

theorem State.nextAction_agenda {s : State} {a : Action} {r : List Action} (h : s.agenda = a :: r) :
    s.nextAction = (a, { s with agenda := r, now := s.now + actionTime a }) := by
  simp only [nextAction, h]

/-! ### Code words (R114, R310) -/

section Code
variable {s : State} {c asid pa e : Nat}

theorem State.codeUnder_cached {w : W32} (he : syncBeyondCourse e = false) (h : codeFind asid pa (s.icaches.getD [] c) = some w) :
    s.codeUnder c asid pa e = some w := by
  simp only [codeUnder, he, Bool.false_eq_true, if_false, codeAt, h]

theorem State.codeUnder_memory (h : syncBeyondCourse e = true ∨ codeFind asid pa (s.icaches.getD [] c) = none)
    (hg : s.goodPhys pa 4 = true) : s.codeUnder c asid pa e = some (BitVec.ofNat 32 (s.readPhys pa 4)) := by
  cases he : syncBeyondCourse e with
  | true => simp only [codeUnder, he, if_true, hg]
  | false =>
    have hn := h.resolve_left (ne_true_of_eq_false he)
    simp only [codeUnder, he, Bool.false_eq_true, if_false, codeAt, hn, hg, if_true]

/-- No word of an address space is left where all its words are dropped. -/
theorem codeFind_filter (asid pa : Nat) : ∀ l : List CodeWord, codeFind asid pa (l.filter fun e => e.asid != asid) = none
  | [] => rfl
  | e :: r => by
    rw [List.filter_cons]
    split
    · next h => exact (if_neg fun ⟨ha, _⟩ => bne_iff_ne.1 h ha).trans (codeFind_filter asid pa r)
    · exact codeFind_filter asid pa r

theorem State.codeInvalidate_none (s : State) (c asid pa : Nat) :
    codeFind asid pa ((s.codeInvalidate asid).icaches.getD [] c) = none := by
  rw [codeInvalidate, Map.getD_map rfl]
  exact codeFind_filter asid pa _

end Code

end Sys2Proof.Machine
end

section
open Sys2Proof Sys2Proof.Machine

/-- Settles O56: the turn by where the thread stands, the agenda's moves, and the code words. -/
theorem stepRunsTheDecodedInstruction : Obligations.StepRunsTheDecodedInstruction := by
  intro s t n dt c asid pa e h w i u x reads here turn begins past back
  refine ⟨fun ⟨ha, hr, hc, hn⟩ h0 h1 hw hd => step_issue_insn ha ?_, fun ⟨ha, hr, hc, hn⟩ h0 hh ht hw hd => step_issue_insn ha ?_,
    fun ⟨ha, hr, hc, hn⟩ h0 h1 hh ht hf hw hd => step_issue_insn ha ?_, fun ⟨ha, hr, hc, hn⟩ h0 h1 hw hd => step_begin_insn ha ?_,
    fun ha hr => step_notReady ha hr, fun ha he => step_event ha he, fun r hr => State.nextAction_agenda hr,
    fun r hr => State.nextAction_agenda hr, fun he hf => State.codeUnder_cached he hf, fun h hg => State.codeUnder_memory h hg,
    s.codeInvalidate_none c asid pa⟩
  · exact (State.fetchIssue_inside hr hc h0 h1).trans (State.standsAt.fetches hw hn hd)
  · exact (State.fetchIssue_atHeader hr hc h0 (State.readsWord.header hh ht)).trans (State.standsAt.fetches (x := past) hw hn hd)
  · exact (State.fetchIssue_again hr hc h0 h1 (State.readsWord.header hh ht) hf).trans (State.standsAt.fetches (x := back) hw hn hd)
  · exact (State.fetchIssue_inside hr hc h0 h1).trans (State.standsAt.fetches hw hn hd)

end

section
/-! SUPPORT. What a write or an access of the host or of another agent comes to, outcome by outcome (R68, R69, R87, R92, R288, R298,
R424 to R426). -/

namespace Sys2Proof.Machine

theorem State.booted_iff (s : State) : s.booted = true ↔ s.boot.phase = .running := by
  unfold State.booted
  cases s.boot.phase <;> decide

/-- Before the package runs, no device register is written (R425). -/
theorem not_booted {s : State} (h : ¬ s.boot.phase = .running) : s.booted = false :=
  Bool.eq_false_iff.mpr fun hb => h (s.booted_iff.mp hb)

section
variable {s t : State} {p q : Nat} {v : W64}

theorem State.tailpWr_accepted {n : Nat} {host : Bool} (h : s.append p q none host v = .accepted n t) :
    s.tailpWr p q host v = t.seenWrite (tailpAddr p q) 8 := by
  simp only [State.tailpWr, h]

theorem State.tailpWr_refused {host : Bool} (h : s.append p q none host v = .refused t ∨ s.append p q none host v = .full t) :
    s.tailpWr p q host v = t.seenWrite (tailpAddr p q) 8 := by
  rcases h with h | h <;> simp only [State.tailpWr, h]

theorem State.tailpWr_staged {host : Bool} (h : s.append p q none host v = .staged t) :
    s.tailpWr p q host v
      = if (s.queue p q).heldWrites.length < (t.queue p q).heldWrites.length then t else t.seenWrite (tailpAddr p q) 8 := by
  simp only [State.tailpWr, h, gt_iff_lt]

theorem State.pasidWr_accepted
    (hw : (v &&& rangeMask).toNat % 2 ^ 12 + (v &&& rangeMask).toNat / 2 ^ 16 % 2 ^ 13 ≤ 4096)
    (hm : ∀ a ∈ s.otherParts p, rangesMeet a.pasid (v &&& rangeMask) = false) :
    s.pasidWr p v = s.modPart p fun a => { a with pasid := v &&& rangeMask } := by
  refine if_neg ?_
  simp only [bitsAt_eq_div_mod, Bool.or_eq_true, decide_eq_true_eq, anyB_eq_true, not_or, not_exists, not_and, Nat.pow_zero, Nat.div_one]
  exact ⟨Nat.not_lt.mpr hw, fun a ha => ne_true_of_eq_false (hm a ha)⟩

theorem State.pasidWr_refused
    (h : 4096 < (v &&& rangeMask).toNat % 2 ^ 12 + (v &&& rangeMask).toNat / 2 ^ 16 % 2 ^ 13
      ∨ ∃ a ∈ s.otherParts p, rangesMeet a.pasid (v &&& rangeMask) = true) :
    s.pasidWr p v = s.setConf p := by
  refine if_pos ?_
  simpa only [bitsAt_eq_div_mod, Bool.or_eq_true, decide_eq_true_eq, anyB_eq_true, Nat.pow_zero, Nat.div_one] using h

end

/-- Which agents write an address space's root: those of the partition that holds it (R288). -/
theorem State.artbWrite_ours {s : State} {a n r : Nat} (v : W64) (hr : s.partOfAsid a = some r)
    (hn : inRange (s.part r).pasid n = true) :
    s.artbWrite a (some n) v = { s with artb := s.artb.set a (v &&& csrMask csrPTBASE) } := by
  simp only [State.artbWrite, hr, hn, if_true]

theorem State.artbWrite_others {s : State} {a n : Nat} (v : W64)
    (h : ¬ ∃ r, s.partOfAsid a = some r ∧ inRange (s.part r).pasid n = true) : s.artbWrite a (some n) v = s := by
  cases hr : s.partOfAsid a with
  | none => simp [State.artbWrite, hr]
  | some r =>
    have hn : inRange (s.part r).pasid n = false := Bool.eq_false_iff.mpr fun hn => h ⟨r, hr, hn⟩
    simp [State.artbWrite, hr, hn]

/-! ### Vector register images -/

/-- The address of a byte of a slot's vector register image (R292). -/
def regImageAddr (slot off : Nat) : Nat := (Place.win (slot / 4) (0x300000 + slot % 4 * 0x2000 + off)).addr

section
variable {s : State} {slot off size : Nat} {v : W64}

theorem State.vregHome_thread (hb : (s.slot slot).back = false) (hu : (s.slot slot).use = .thread) :
    s.vregHome slot = (slot, 0) := by
  simp [State.vregHome, hb, hu]

/-- A register that its window does not open is not written (R293). -/
theorem State.vregWrite_closed (hb : (s.slot slot).back = false) (hu : (s.slot slot).use = .thread)
    (hv : (((s.slot slot).landNow s.now).csrv csrVOPEN).getLsbD (off / 256) = false) : s.vregWrite slot off size v = none := by
  simp [State.vregWrite, s.vregHome_thread hb hu, hb, hu, hv]

/-- In a lane quarter that the thread has given up the write reaches no register (log 34). -/
theorem State.vregWrite_given (hb : (s.slot slot).back = false) (hu : (s.slot slot).use = .thread)
    (hw : ((s.slot slot).landNow s.now).switched = false)
    (hv : (((s.slot slot).landNow s.now).csrv csrVOPEN).getLsbD (off / 256) = true)
    (hq : ((s.slot slot).landNow s.now).holdsQuarter 0 (off % 256) = false) : s.vregWrite slot off size v = some s := by
  simp [State.vregWrite, s.vregHome_thread hb hu, hb, hu, hw, hv, hq]

theorem Slot.landedBits_none {x : Slot} (h : x.vm = none) (key : Nat) : x.landedBits key = 0#2048 := by
  simp only [Slot.landedBits, h]

/-- An open register takes the bytes of the write (R293). -/
theorem State.vregWrite_open (hb : (s.slot slot).back = false) (hu : (s.slot slot).use = .thread)
    (hw : ((s.slot slot).landNow s.now).switched = false)
    (hv : (((s.slot slot).landNow s.now).csrv csrVOPEN).getLsbD (off / 256) = true)
    (hm : ((s.slot slot).landNow s.now).vm = none)
    (hq : ((s.slot slot).landNow s.now).holdsQuarter 0 (off % 256) = true) :
    s.vregWrite slot off size v = some (s.setSlot slot (((s.slot slot).landNow s.now).writeOver 0 (off / 256)
      (BitVec.ofNat 2048 (2 ^ (8 * size) - 1) <<< (8 * (off % 256))) (v.zeroExtend 2048 <<< (8 * (off % 256))))) := by
  have hl : ∀ m : BitVec 2048, m &&& ~~~((s.slot slot).landNow s.now).landedBits (off / 256) = m := fun m => by
    rw [Slot.landedBits_none hm, BitVec.not_zero, BitVec.and_allOnes]
  have hc : (((s.slot slot).landNow s.now).switched || !(((s.slot slot).landNow s.now).csrv csrVOPEN).getLsbD (off / 256)) = false := by
    rw [hw, hv]; rfl
  unfold State.vregWrite
  rw [s.vregHome_thread hb hu, hb, hu]
  dsimp only
  rw [if_neg Bool.false_ne_true, hc, if_neg Bool.false_ne_true, hq, Nat.zero_mul, Nat.zero_add, hl]
  rfl

section
variable (hb : s.booted = true) (ho : off < 0x2000) (hs : off % 8 + size ≤ 8)
include hb ho hs

/-- A write of a vector register image that is taken is seen by what watches the address (R293, R403). -/
theorem execVregImageWrite_some {t : State} {pa : Nat} (ha : regImageAddr slot off = pa)
    (h : (s.awakeAt pa).vregWrite slot off size v = some t) :
    execVregImageWrite slot off size v s = .next (t.seenWrite pa size) := by
  rw [regImageAddr] at ha
  simp only [execVregImageWrite, hb, ho, hs, and_self, if_true, ha, h, Option.map_some, Option.getD_some]

theorem execVregImageWrite_none {pa : Nat} (ha : regImageAddr slot off = pa)
    (h : (s.awakeAt pa).vregWrite slot off size v = none) :
    execVregImageWrite slot off size v s = .next (s.awakeAt pa) := by
  rw [regImageAddr] at ha
  simp only [execVregImageWrite, hb, ho, hs, and_self, if_true, ha, h, Option.map_none, Option.getD_none]

/-- A register that VOPEN opens takes the bytes of the write (R293). -/
theorem execVregImageWrite_open (hk : (s.slot slot).back = false) (hu : (s.slot slot).use = .thread)
    (hw : ((s.slot slot).landNow s.now).switched = false)
    (hv : (((s.slot slot).landNow s.now).csrv csrVOPEN).getLsbD (off / 256) = true)
    (hm : ((s.slot slot).landNow s.now).vm = none)
    (hq : ((s.slot slot).landNow s.now).holdsQuarter 0 (off % 256) = true) :
    execVregImageWrite slot off size v s
      = .next (((s.awakeAt (regImageAddr slot off)).setSlot slot (((s.slot slot).landNow s.now).writeOver 0 (off / 256)
          (BitVec.ofNat 2048 (2 ^ (8 * size) - 1) <<< (8 * (off % 256))) (v.zeroExtend 2048 <<< (8 * (off % 256))))).seenWrite
          (regImageAddr slot off) size) := by
  have h := State.vregWrite_open (s := s.awakeAt (regImageAddr slot off)) (slot := slot) (off := off) (size := size) (v := v)
    (by simpa) (by simpa) (by simpa) (by simpa) (by simpa) (by simpa)
  rw [State.awakeAt_slot, State.awakeAt_now] at h
  exact execVregImageWrite_some hb ho hs rfl h

end
end

/-! ### Device registers, the mailbox and the boot ROM -/

/-- A device register of a package that does not run is not written (R425). -/
theorem execRegisterWrite_off {s : State} {pa : Nat} (v : W64) (hb : s.booted = false) :
    execRegisterWrite pa v s = .next s := by
  unfold execRegisterWrite
  split
  next => exact congrArg Host.Outcome.next (if_neg (by simp [hb]))
  next => rfl

/-- RGO written with another word than 1 is kept, and the device stays in recovery (R426). -/
theorem State.rgoWr_other {s : State} {v : W64} (h : s.boot.phase = .recovery) (hv : v ≠ 1#64) :
    s.rgoWr v = { s with boot := { s.boot with rgo := v } } := by
  refine (if_neg (not_not.mpr h)).trans ?_
  rw [if_neg hv, ← h]

/-- A staged image that fails its checks leaves its reason; one that passes is stored and booted from (R426). -/
theorem State.verifyStaged_failed {s : State} {w : Nat} (h : imageWhy s.boot.staged = some w) :
    s.verifyStaged = { s with boot := { s.boot with phase := .recovery, why := w, chunks := [] } } := by
  simp only [State.verifyStaged, h]

theorem State.verifyStaged_passed {s : State} (h : imageWhy s.boot.staged = none) :
    s.verifyStaged = { s with boot := { s.boot with store := some s.boot.staged } }.bootFrom s.boot.staged := by
  simp only [State.verifyStaged, h]

/-! ### Accesses of the host link -/

/-- The state in which a host access is served: its free words drawn, and the package awake (R424). -/
def State.hostUp (s : State) (pa : Nat) : State := { s with freeCnt := s.freeCnt + 2 }.awakeAt pa

/-- A host read that answers a value the spec leaves open (log 8). -/
def State.hostFree (s : State) (pa : Nat) : State := { s.hostUp pa with hostRead := Config.freeWord s.freeCnt }

theorem hostUp_def (s : State) (pa : Nat) : s.hostUp pa = { s with freeCnt := s.freeCnt + 2 }.awakeAt pa := rfl
@[simp] theorem State.hostUp_hostHeld (s : State) (pa : Nat) : (s.hostUp pa).hostHeld = s.hostHeld :=
  State.awakeAt_hostHeld _ _
@[simp] theorem State.hostUp_boot (s : State) (pa : Nat) : (s.hostUp pa).boot = s.boot := by simp [State.hostUp]
@[simp] theorem State.hostUp_freeCnt (s : State) (pa : Nat) : (s.hostUp pa).freeCnt = s.freeCnt + 2 := by simp [State.hostUp]

/-- The accesses the host link carries: 1, 2, 4 or 8 bytes, naturally aligned (R87). -/
def HostFits (pa size : Nat) : Prop := (size = 1 ∨ size = 2 ∨ size = 4 ∨ size = 8) ∧ pa % size = 0

section
variable {s : State} {wr : Bool} {pa size : Nat} {v : W64}

theorem hostFits_iff : ((size == 1 || size == 2 || size == 4 || size == 8) = true ∧ pa % size = 0) ↔ HostFits pa size := by
  simp only [HostFits, Bool.or_eq_true, beq_iff_eq, or_assoc]

/-- Outside the mailbox nothing answers a package that does not run (R426). -/
theorem not_mailbox (ho : pa < mgmtBase ∨ mgmtBase + 0x100000 ≤ pa) :
    (!(decide (mgmtBase ≤ pa) && decide (pa < mgmtBase + 0x100000))) = true := by
  rcases ho with ho | ho
  · simp only [decide_eq_false (Nat.not_le.mpr ho), Bool.false_and, Bool.not_false]
  · simp only [decide_eq_false (Nat.not_lt.mpr ho), Bool.and_false, Bool.not_false]

theorem hostAccess_dropped (h : s.hostHeld = true ∨ ¬ HostFits pa size) :
    execLintelHostAccess wr pa size v s = .next (s.hostUp pa) := by
  rw [← hostFits_iff, not_and_or] at h
  refine congrArg Host.Outcome.next (if_pos ?_)
  rw [← hostUp_def, State.hostUp_hostHeld]
  simpa [or_assoc, and_assoc] using h

section
variable (hh : s.hostHeld = false) (hf : HostFits pa size)
include hh hf

/-- An access that the link carries goes past its first checks, and meets the package as it is. -/
theorem host_carried :
    ¬ ((s.hostHeld = true ∨ ((¬ size = 1 ∧ ¬ size = 2) ∧ ¬ size = 4) ∧ ¬ size = 8) ∨ ¬ pa % size = 0) := by
  obtain ⟨hs, ha⟩ := hf
  simp only [hh, ha, Bool.false_eq_true, not_true, or_false, false_or]
  omega

section
variable (hr : s.boot.phase = .running)
include hr

theorem hostAccess_ram_write (hp : ∃ loc, (s.hostUp pa).placeOf pa = .ram loc) :
    execLintelHostAccess true pa size v s = .next ((s.hostUp pa).writePhys pa v.toNat size) := by
  obtain ⟨loc, hp⟩ := hp
  simp [execLintelHostAccess, ← hostUp_def, host_carried hh hf, hr, hp]

theorem hostAccess_ram_read (hp : ∃ loc, (s.hostUp pa).placeOf pa = .ram loc) (hg : (s.hostUp pa).goodPhys pa size = true) :
    execLintelHostAccess false pa size v s
      = .next { s.hostUp pa with hostRead := BitVec.ofNat 64 ((s.hostUp pa).readPhys pa size) } := by
  obtain ⟨loc, hp⟩ := hp
  simp [execLintelHostAccess, ← hostUp_def, host_carried hh hf, hr, hp, hg]

theorem hostAccess_ram_bad (hp : ∃ loc, (s.hostUp pa).placeOf pa = .ram loc) (hg : (s.hostUp pa).goodPhys pa size = false) :
    execLintelHostAccess false pa size v s = .next (s.hostFree pa) := by
  obtain ⟨loc, hp⟩ := hp
  simp [execLintelHostAccess, ← hostUp_def, host_carried hh hf, hr, hp, hg, State.hostFree]

theorem hostAccess_hole_write (hp : (s.hostUp pa).placeOf pa = .hole) :
    execLintelHostAccess true pa size v s = .next (s.hostUp pa) := by
  simp [execLintelHostAccess, ← hostUp_def, host_carried hh hf, hr, hp]

theorem hostAccess_hole_read (hp : (s.hostUp pa).placeOf pa = .hole) :
    execLintelHostAccess false pa size v s = .next (s.hostFree pa) := by
  simp [execLintelHostAccess, ← hostUp_def, host_carried hh hf, hr, hp, State.hostFree]

theorem hostAccess_spill (hp : (s.hostUp pa).placeOf pa = .spill) :
    execLintelHostAccess wr pa size v s = .next (s.hostUp pa) := by
  simp [execLintelHostAccess, ← hostUp_def, host_carried hh hf, hr, hp, placeAllows]

section
variable (hm : ∀ loc, (s.hostUp pa).placeOf pa ≠ .ram loc) (hn : (s.hostUp pa).placeOf pa ≠ .hole)
  (hp : (s.hostUp pa).placeOf pa ≠ .spill)
include hm hn hp

theorem hostAccess_device_write : execLintelHostAccess true pa size v s
    = .next (((s.hostUp pa).devWrite none ((s.hostUp pa).placeOf pa) v size).getD (s.hostUp pa)) := by
  cases hc : (s.hostUp pa).placeOf pa with
  | ram loc => exact absurd hc (hm loc)
  | hole => exact absurd hc hn
  | spill => exact absurd hc hp
  | win c off => simp [execLintelHostAccess, ← hostUp_def, host_carried hh hf, hr, hc, placeAllows]
  | ctl p off => simp [execLintelHostAccess, ← hostUp_def, host_carried hh hf, hr, hc, placeAllows]
  | mgmt off => simp [execLintelHostAccess, ← hostUp_def, host_carried hh hf, hr, hc, placeAllows]

theorem hostAccess_device_read : execLintelHostAccess false pa size v s
    = .next { s.hostUp pa with hostRead := (s.hostUp pa).devRead ((s.hostUp pa).placeOf pa) size } := by
  cases hc : (s.hostUp pa).placeOf pa with
  | ram loc => exact absurd hc (hm loc)
  | hole => exact absurd hc hn
  | spill => exact absurd hc hp
  | win c off => simp [execLintelHostAccess, ← hostUp_def, host_carried hh hf, hr, hc, placeAllows]
  | ctl p off => simp [execLintelHostAccess, ← hostUp_def, host_carried hh hf, hr, hc, placeAllows]
  | mgmt off => simp [execLintelHostAccess, ← hostUp_def, host_carried hh hf, hr, hc, placeAllows]

end
end

section
variable (hr : s.boot.phase ≠ .running)
include hr

theorem hostAccess_mailbox_write (hl : mgmtBase ≤ pa) (hu : pa < mgmtBase + 0x100000) :
    execLintelHostAccess true pa size v s
      = .next (((s.hostUp pa).devWrite none (.mgmt (pa - mgmtBase)) v size).getD (s.hostUp pa)) := by
  simp [execLintelHostAccess, ← hostUp_def, host_carried hh hf, hr, hl, hu]

theorem hostAccess_mailbox_read (hl : mgmtBase ≤ pa) (hu : pa < mgmtBase + 0x100000) :
    execLintelHostAccess false pa size v s
      = .next { s.hostUp pa with hostRead := (s.hostUp pa).devRead (.mgmt (pa - mgmtBase)) size } := by
  simp [execLintelHostAccess, ← hostUp_def, host_carried hh hf, hr, hl, hu]

theorem hostAccess_silent_write (ho : pa < mgmtBase ∨ mgmtBase + 0x100000 ≤ pa) :
    execLintelHostAccess true pa size v s = .next (s.hostUp pa) := by
  simp only [execLintelHostAccess, ← hostUp_def, not_mailbox ho, if_true]
  simp [host_carried hh hf, hr]

theorem hostAccess_silent_read (ho : pa < mgmtBase ∨ mgmtBase + 0x100000 ≤ pa) :
    execLintelHostAccess false pa size v s = .next (s.hostFree pa) := by
  simp only [execLintelHostAccess, ← hostUp_def, not_mailbox ho, if_true]
  simp [host_carried hh hf, hr, State.hostFree]

end
end
end

end Sys2Proof.Machine
end

section
open Sys2Proof Sys2Proof.Machine

/-- Settles O46: each write and each access of the host, by the state of the package and the place it meets. -/
theorem hostWritesAndAccess : Obligations.HostWritesAndAccess := by
  intro wr p q k pa asid g slot off size die n v t i up on fits goes free seen tailp appends ours root recovers image num fails
    booted regAt inside x opened bits mask device
  have nx : ∀ {a b : State}, a = b → (Host.Outcome.next a : Out) = .next b := fun h => congrArg _ h
  have sw : ∀ {a b : State} {pl : Place}, a = b → seen a pl = seen b pl := fun h => congrArg (fun t => seen t _) h
  have hrun : ∀ s, on s → s.booted = true := fun s h => s.booted_iff.mpr h
  have hnot : ∀ s, ¬ on s → ¬ s.booted = true := fun s h hb => h (s.booted_iff.mp hb)
  have htail : ∀ s, on s ∧ s.hostHeld = false → ¬ (s.hostHeld || !s.booted) = true := fun s ⟨h, hh⟩ => by
    simp [hh, hrun s h]
  refine ⟨fun s h => nx (if_pos ?_), ?_, fun n s ⟨h, hh, ha⟩ => nx ((if_neg (htail s ⟨h, hh⟩)).trans (State.tailpWr_accepted ha)),
    fun s ⟨h, hh, ha⟩ => nx ((if_neg (htail s ⟨h, hh⟩)).trans (State.tailpWr_refused ha)),
    fun s ⟨h, hh, ha⟩ => nx ((if_neg (htail s ⟨h, hh⟩)).trans (State.tailpWr_staged ha)),
    fun s h => nx (if_pos (hrun s h)), fun s ⟨h, hk⟩ => nx (if_pos ⟨hrun s h, hk⟩),
    fun s hk => nx (if_neg fun h => Nat.not_lt.mpr hk h.2),
    fun s ⟨h, hw, hm⟩ => nx ((if_pos (hrun s h)).trans (sw (State.pasidWr_accepted hw hm))),
    fun s ⟨h, hb⟩ => nx ((if_pos (hrun s h)).trans (sw (State.pasidWr_refused hb))),
    ?_, ?_,
    fun s ⟨h, ha, r, hr, hn⟩ => nx ((if_pos ⟨hrun s h, ha⟩).trans (sw (State.artbWrite_ours v hr hn))),
    fun s ⟨h, ha, hn⟩ => nx ((if_pos ⟨hrun s h, ha⟩).trans (sw (State.artbWrite_others (s := s.awake) v hn))),
    fun s ⟨h, ha⟩ => nx (if_pos ⟨hrun s h, ha⟩),
    fun who s ha => nx (if_neg fun h => Nat.not_lt.mpr ha h.2),
    fun s ⟨h, hg⟩ => nx (if_pos ⟨hrun s h, hg⟩),
    fun s hg => nx (if_neg fun h => Nat.not_lt.mpr hg h.2),
    ?_, ?_, ?_, ?_, ?_, ?_, ?_, ?_, ?_, ?_, ?_, fun s h => nx (if_pos h), fun s h => nx (if_neg (Nat.not_lt.mpr h)),
    fun s h => hostAccess_dropped h,
    fun s ⟨⟨hh, hf, hr⟩, hp, hw⟩ => ?_, fun s ⟨⟨hh, hf, hr⟩, hp, hw, hg⟩ => ?_, fun s ⟨⟨hh, hf, hr⟩, hp, hw, hg⟩ => ?_,
    fun s ⟨⟨hh, hf, hr⟩, hp, hw⟩ => ?_, fun s ⟨⟨hh, hf, hr⟩, hp, hw⟩ => ?_, fun s ⟨⟨hh, hf, hr⟩, ⟨hm, hn⟩, hp, hw⟩ => ?_,
    fun s ⟨⟨hh, hf, hr⟩, ⟨hm, hn⟩, hp, hw⟩ => ?_, fun s ⟨hh, hf, hr, hw, hl, hu⟩ => ?_, fun s ⟨hh, hf, hr, hw, hl, hu⟩ => ?_,
    fun s ⟨hh, hf, hr, hw, ho⟩ => ?_, fun s ⟨hh, hf, hr, hw, ho⟩ => ?_,
    fun s ⟨⟨hh, hf, hr⟩, hp⟩ => hostAccess_spill hh hf hr hp⟩
  · rcases h with h | h
    · simp [h]
    · simp [not_booted h]
  · simp only [List.forall_mem_cons]
    exact ⟨fun s h => nx (if_neg (hnot s h)), fun s h => nx (if_neg fun hc => hnot s h hc.1), fun s h => nx (if_neg (hnot s h)),
      fun s h => execRegisterWrite_off v (not_booted h), fun s h => nx (if_neg fun hc => hnot s h hc.1),
      fun s h => nx (if_neg fun hc => hnot s h hc.1), fun s h => nx (if_neg fun hc => hnot s h hc.1),
      fun s h => nx (if_neg fun hc => hnot s h hc.1), fun _ h => absurd h List.not_mem_nil⟩
  · intro s ⟨h, hp, hlo, hhi⟩
    change execRegisterWrite pa v s = _
    simp [execRegisterWrite, hp, hrun s h, hlo, hhi, seen]
  · intro s h
    change execRegisterWrite pa v s = _
    unfold execRegisterWrite
    split
    next r o hp => exact nx (if_neg fun hc => (h r o hp).elim (by omega) (by omega))
    next => rfl
  · exact fun s h => nx (sw (if_pos h))
  · exact fun s ⟨h, hv⟩ => nx (sw ((if_neg (not_not.mpr h)).trans (if_pos hv)))
  · exact fun s ⟨h, hv⟩ => nx (sw ((if_neg (not_not.mpr h)).trans (if_neg hv)))
  · exact fun s h => nx (sw (if_pos h))
  · intro s ⟨h, hv⟩
    exact nx (sw (State.rgoWr_other h hv))
  · exact fun s h => nx (sw (if_neg (not_not.mpr h)))
  · intro s h
    refine nx ((if_pos h).trans ?_)
    dsimp only [image]
    cases hw : imageWhy s.boot.staged with
    | some w => exact State.verifyStaged_failed hw
    | none => exact State.verifyStaged_passed hw
  · exact fun s ⟨⟨⟨h, ho, hs, hb, hu⟩, hw, hv, hm⟩, hq⟩ =>
      execVregImageWrite_open (hrun s h) ho hs hb hu hw hv hm hq
  · exact fun s ⟨⟨⟨h, ho, hs, hb, hu⟩, hw, hv, hm⟩, hq⟩ =>
      execVregImageWrite_some (hrun s h) ho hs rfl (State.vregWrite_given (s := s.awakeAt _) (by simpa) (by simpa) (by simpa) (by simpa)
        (by simpa))
  · exact fun s ⟨⟨h, ho, hs, hb, hu⟩, hv⟩ =>
      execVregImageWrite_none (hrun s h) ho hs rfl (State.vregWrite_closed (s := s.awakeAt _) (by simpa) (by simpa) (by simpa))
  · exact fun s h => nx (if_neg fun hc => h hc.2)
  · subst hw; exact hostAccess_ram_write hh hf hr hp
  · subst hw; exact hostAccess_ram_read hh hf hr hp hg
  · subst hw; exact hostAccess_ram_bad hh hf hr hp hg
  · subst hw; exact hostAccess_hole_write hh hf hr hp
  · subst hw; exact hostAccess_hole_read hh hf hr hp
  · subst hw; exact hostAccess_device_write hh hf hr hm hn hp
  · subst hw; exact hostAccess_device_read hh hf hr hm hn hp
  · subst hw; exact hostAccess_mailbox_write hh hf hr hl hu
  · subst hw; exact hostAccess_mailbox_read hh hf hr hl hu
  · subst hw; exact hostAccess_silent_write hh hf hr ho
  · subst hw; exact hostAccess_silent_read hh hf hr ho

end

section
/-! SUPPORT. What moves a queue's jobs on, outcome by outcome (R69 to R74, R96 to R98, R417, R419). -/

namespace Sys2Proof.Machine

section
variable {s : State} {p q die job : Nat}

/-- The record at HEADC becomes active where the job before it lets it (R70, R71): the job of a record that was read. -/
theorem execJobActivate_checked {a : State} {cfg : QCtl} {ref : W64} {ws : List W64} (hw : s.partWorks p = true)
    (hq : s.readQctl p q = (cfg, a)) (he : cfg.en = true) (hn : countGap (a.qword p q qTAILC) (a.qword p q qHEADC) ≠ 0)
    (hr : a.readRecord p q cfg (a.qword p q qHEADC) = (ref, ws, none))
    (ho : ∀ j, a.jobAt p q (countGap (a.qword p q qHEADC) 1) = some j → j.trigDone = true ∧ recOvl ws = true) :
    execJobActivate p q s = .next (
      let h := a.qword p q qHEADC
      let b := a.setQword p q qHEADC ((h + 1) % 2 ^ 64)
      let j := b.checkJob { p := p, q := q, pos := some h, ref := ref, asid := cfg.asid, words := ws }
      let t := { b with nextId := b.nextId + 1, jobs := b.jobs.set b.nextId j }
      (t.modQueue p q fun x => { x with st := .run }).codeInvalidate cfg.asid) := by
  cases hj : a.jobAt p q (countGap (a.qword p q qHEADC) 1) with
  | none => simp [execJobActivate, hw, hq, he, hn, hr, hj, State.fresh]
  | some j =>
    obtain ⟨ht, hv⟩ := ho j hj
    simp [execJobActivate, hw, hq, he, hn, hr, hj, ht, hv, State.fresh]

/-- The job of a record that could not be read is malformed at its failing word (log 17). -/
theorem execJobActivate_unreadable {a : State} {cfg : QCtl} {ref : W64} {ws : List W64} {n : Nat} (hw : s.partWorks p = true)
    (hq : s.readQctl p q = (cfg, a)) (he : cfg.en = true) (hn : countGap (a.qword p q qTAILC) (a.qword p q qHEADC) ≠ 0)
    (hr : a.readRecord p q cfg (a.qword p q qHEADC) = (ref, ws, some n))
    (ho : ∀ j, a.jobAt p q (countGap (a.qword p q qHEADC) 1) = some j → j.trigDone = true ∧ recOvl ws = true) :
    execJobActivate p q s = .next (
      let h := a.qword p q qHEADC
      let b := a.setQword p q qHEADC ((h + 1) % 2 ^ 64)
      let j : Job := { p := p, q := q, pos := some h, ref := ref, asid := cfg.asid, words := ws,
                       preset := some (statusWord 3 0 ((recMalformed ws).getD n) 0) }
      let t := { b with nextId := b.nextId + 1, jobs := b.jobs.set b.nextId j }
      (t.modQueue p q fun x => { x with st := .run }).codeInvalidate cfg.asid) := by
  cases hj : a.jobAt p q (countGap (a.qword p q qHEADC) 1) with
  | none => simp [execJobActivate, hw, hq, he, hn, hr, hj, State.fresh]
  | some j =>
    obtain ⟨ht, hv⟩ := ho j hj
    simp [execJobActivate, hw, hq, he, hn, hr, hj, ht, hv, State.fresh]

theorem execJobActivate_none (hw : s.partWorks p = true) (h : (s.readQctl p q).1.en = false
      ∨ countGap ((s.readQctl p q).2.qword p q qTAILC) ((s.readQctl p q).2.qword p q qHEADC) = 0) :
    execJobActivate p q s = .next (s.readQctl p q).2 := by
  rcases h with h | h <;> simp [execJobActivate, hw, h]

/-- The dispatch of the job whose turn it is (R72, R96). -/
theorem execIterationDispatch_next {lvl n c : Nat} {j : Job} {ch : Chunk} (hd : die < 8) (hw : s.partWorks p = true)
    (hu : s.dieDown die = false)
    (hl : ((s.readQctls p).queuesWithWork die p).foldl (fun m q => max m ((s.readQctls p).effPri p q)) 0 = lvl)
    (ht : nextTurn (((s.readQctls p).part p).turns.get? (die * 16 + lvl))
      (((s.readQctls p).queuesWithWork die p).filter fun q => (s.readQctls p).effPri p q == lvl) = some q)
    (hj : (s.readQctls p).jobToRun die p q = some (n, j)) (hc : j.chunks.get? die = some ch)
    (hp : (s.readQctls p).pickCourse j die = some c) :
    execIterationDispatch die p s = .next (
      let t := ((s.readQctls p).place n j ch.lo c).modJob n fun j => j.dispatch die ch
      let t := t.modPart p fun a => { a with turns := a.turns.set (die * 16 + lvl) q }
      let t := t.bumpQword p q qITERC
      let t := if (t.queue p q).lifted then t.bumpQword p q qAGEC else t
      t.modQueue p q fun x => { x with lifted := false, aged := 0, ageSince := none }) := by
  have h : (!s.partWorks p || decide (8 ≤ die) || s.dieDown die) = false := by simp [hw, hu, hd]
  simp only [execIterationDispatch, h, Bool.false_eq_true, if_false, hl, ht, hj, hc, hp]

theorem State.queueHasWork_iff : s.queueHasWork p q = true ↔ ∃ d < 8, (s.jobToRun d p q).isSome = true := by
  simp only [State.queueHasWork, anyB_eq_true, mem_rangeFrom, Nat.zero_le, true_and, Nat.zero_add]

/-! ### Stealing -/

/-- Whether a die's slice of a job is DRY (R97). -/
def Job.isDry (j : Job) (d : Nat) : Bool := match j.chunks.get? d with | some c => c.st == .dry | none => false

theorem Job.isDry_iff {j : Job} {d : Nat} : j.isDry d = true ↔ ∃ c, j.chunks.get? d = some c ∧ c.st = .dry := by
  unfold Job.isDry
  cases j.chunks.get? d <;> simp

/-- Whether a course is free for what a die would steal (R98). -/
def State.stealCourse (s : State) (j : Job) (d : Nat) : Bool := s.stealsIn j d && (s.pickCourse j d).isSome

theorem execSteal_eq {j : Job} (hj : s.jobs.get? job = some j) :
    execSteal die job s = .next (
      if j.isDry die && !anyB (fun d => j.isDry d && s.stealCourse j d) (rangeFrom 0 die) then
        s.modJob job (·.steal die (s.stealCourse j die) (s.stealsIn j))
      else s) := by
  simp only [execSteal, hj] <;> rfl

/-- A DRY slice that no die before it keeps from stealing. -/
theorem Job.steals_iff {j : Job} {free : Nat → Bool} :
    (j.isDry die && !anyB (fun d => j.isDry d && free d) (rangeFrom 0 die)) = true
      ↔ j.isDry die = true ∧ ∀ k < die, j.isDry k = true → free k = false := by
  simp only [Bool.and_eq_true, Bool.not_eq_true', anyB_eq_false, mem_rangeFrom, Nat.zero_le, true_and, Nat.zero_add]
  refine and_congr_right fun _ => forall₂_congr fun k _ => ?_
  cases j.isDry k <;> simp

/-! ### Retirement -/

/-- What a job's retirement leaves of its queue, before its successors are counted (R417, R419). -/
def State.retireFrom (s : State) (j : Job) : State :=
  let t := s.modQueue j.p j.q fun x =>
    { x with
      retired := match j.pos with | some n => x.retired ++ [n] | none => x.retired
      st := if x.st = .run && !anyB (fun k => k.p == j.p && k.q == j.q && k.pos.isSome) s.jobs.vals then
          (if s.qword j.p j.q qTAILC = s.qword j.p j.q qHEADC then .off else .held)
        else x.st }
  t.progress j.p j.q

theorem execJobRetire_idle {j : Job} (hj : s.jobs.get? job = some j)
    (h : s.jobDone job j = false ∨ (s.part j.p).swout = true) : execJobRetire job s = .next s := by
  rcases h with h | h <;> simp [execJobRetire, hj, h]

/-- The retirement of a job that has ended, with the words its successors stand in (R417). -/
theorem execJobRetire_ended {j : Job} {ws : List W64} (hj : s.jobs.get? job = some j) (hd : s.jobDone job j = true)
    (hs : (s.part j.p).swout = false) (hr : j.ref ≠ 0#64)
    (hw : (if j.pos.isSome then j.words else ({ s with jobs := s.jobs.erase job }.recordWords holdWalker j.asid j.ref.toNat).1)
      = ws) :
    execJobRetire job s = .next (
      let t := (({ s with jobs := s.jobs.erase job }.putStatus j.p j.asid j.ref.toNat j.status).retireFrom j).decSuccessors
        j.p j.asid ws (j.status.toNat % 256 ≠ 1)
      if recCte ws && j.status.toNat % 256 = 1 then t.sendToken j.p (recCtq ws) (BitVec.ofNat 32 (recCtpay ws)) else t) := by
  unfold execJobRetire State.retireFrom
  simp only [hj, hd, hs, Bool.not_true, Bool.or_false, Bool.false_eq_true, if_false, if_neg hr, hw] <;> rfl

end

end Sys2Proof.Machine
end

section
open Sys2Proof Sys2Proof.Machine

/-- Settles O47: each event of a queue and of its jobs, by the state it meets. -/
theorem jobsMoveOn : Obligations.JobsMoveOn := by
  intro p q die job n c lvl j ch ws idle rq ready out course retired ends after token
  have nx : ∀ {a b : State}, a = b → (Host.Outcome.next a : Out) = .next b := fun h => congrArg _ h
  have hact : ∀ s, exec (.jobActivate p q) s = execJobActivate p q s := fun _ => rfl
  have hdis : ∀ s, exec (.iterationDispatch die p) s = execIterationDispatch die p s := fun _ => rfl
  have hage : ∀ s, exec (.agingTimerExpiry p q) s = execAgingTimerExpiry p q s := fun _ => rfl
  have hste : ∀ s, exec (.steal die job) s = execSteal die job s := fun _ => rfl
  have hret : ∀ s, exec (.jobRetire job) s = execJobRetire job s := fun _ => rfl
  have hout : ∀ k, j.isDry k = true ↔ out k := fun k => Job.isDry_iff
  refine ⟨fun s _ => rfl, ?_, fun s ⟨hw, h⟩ => (hact s).trans (execJobActivate_none hw h),
    fun cfg ref a s ⟨hw, hq, he, hn, hr, ho⟩ => (hact s).trans (execJobActivate_checked hw hq he hn hr ho),
    fun cfg ref a s ⟨hw, hq, he, hn, hr, ho⟩ => (hact s).trans (execJobActivate_unreadable hw hq he hn hr ho), ?_,
    fun hd s ⟨hw, hu, hl, ht, hj, hc, hp⟩ => (hdis s).trans (execIterationDispatch_next hd hw hu hl ht hj hc hp),
    ?_, ?_, ?_, ?_, ?_, fun s _ => rfl, ?_, ?_, ?_, ?_, fun s h => nx (if_neg (ne_true_of_eq_false h)), fun s h => nx (if_pos h),
    fun s ⟨h, hq⟩ => nx ((if_neg (ne_true_of_eq_false h)).trans (if_pos hq)),
    fun s ⟨h, hq⟩ => nx ((if_neg (ne_true_of_eq_false h)).trans (if_neg (ne_true_of_eq_false hq))), fun s h => nx (if_pos h),
    fun s h => nx (if_neg ?_), fun s h => nx (if_pos ?_)⟩
  · intro s h
    rw [hact, execJobActivate, h]
    rfl
  · intro s h
    rw [hdis]
    exact nx (if_pos (by simpa [or_assoc] using h))
  · intro s ⟨hw, he, ha, hp, hl, hq, hd⟩
    rw [hage]
    exact nx (if_pos (by simp [hw, he, ha, hp, hl, hq, State.queueHasWork_iff.mpr hd]))
  · intro s h
    rw [hage]
    refine nx (if_neg ?_)
    rcases h with h | h | h
    · simp [Nat.not_le.mpr h]
    · simp [h]
    · simp [Nat.not_lt.mpr h]
  · intro s ⟨hj, hd, hk⟩
    rw [hste, execSteal_eq hj]
    exact nx (if_pos (Job.steals_iff.mpr ⟨(hout _).mpr hd, fun k h ho => hk k h ((hout _).mp ho)⟩))
  · intro s ⟨hj, h⟩
    rw [hste, execSteal_eq hj]
    refine nx (if_neg fun hs => ?_)
    obtain ⟨hd, hk⟩ := Job.steals_iff.mp hs
    rcases h with h | ⟨k, hlt, ho, hc⟩
    · exact h ((hout _).mp hd)
    · exact ne_true_of_eq_false (hk k hlt ((hout _).mpr ho)) hc
  · intro s hj
    rw [hste, execSteal, hj]
  · intro s ⟨hj, h⟩
    rw [hret]
    exact execJobRetire_idle hj h
  · intro hp hc s ⟨hj, hd, hs, hr⟩
    rw [hret, execJobRetire_ended hj hd hs hr (if_pos (by simp [hp]))]
    exact nx (if_neg (by simp [hc]))
  · intro hp hc s ⟨hj, hd, hs, hr⟩
    rw [hret, execJobRetire_ended hj hd hs hr (if_pos (by simp [hp]))]
    simp only [hc, Bool.true_and, decide_eq_true_eq]
    rfl
  · intro hp s ⟨⟨hj, hd, hs, hr⟩, hw⟩
    rw [hret, execJobRetire_ended hj hd hs hr ((if_neg (by simp [hp])).trans hw)]
    simp only [Bool.and_eq_true, decide_eq_true_eq]
    rfl
  · simp [h]
  · simp [h]

end

section
/-! SUPPORT. The firings of templates and the tokens of queues, outcome by outcome (R77 to R83). -/

namespace Sys2Proof.Machine

theorem State.fired_of {s : State} {f : Nat} {x : Firing} (h : s.firings.get? f = some x) (g : Firing → Firing) :
    s.fired f g = { s with firings := s.firings.set f (g x) } := by
  simp only [State.fired, h]

/-! ### TEMPLATE_FIRE -/

/-- The message that a template of words `ws` describes, its addresses adjusted by its firing's payload (R78). -/
def State.firingMsg (s : State) (f : Nat) (x : Firing) (ws : List W64) : Copy :=
  { slot := none, firing := some f, asid := (s.qctl x.p (recQnum ws)).asid, sup := false, pd := recW ws 6 % 8,
    desc := recW ws 2, sadj := x.payload * recW ws 3 % 2 ^ 64, dadj := x.payload * recW ws 4 % 2 ^ 64,
    xadj := x.payload * recW ws 5 % 2 ^ 64 }

section
variable {s : State} {f : Nat} {x : Firing} {ws : List W64} (hx : s.firings.get? f = some x) (hs : x.sent = false)
include hx hs

theorem execTemplateFire_unreadable {e : Nat} (hw : s.recordWords holdWalker x.asid x.ref.toNat = (ws, some e)) :
    execTemplateFire f s = .next (s.issueFiring f x fun x => { x with words := ws, result := some 1 }) := by
  simp [execTemplateFire, hx, hs, hw]

variable (hw : s.recordWords holdWalker x.asid x.ref.toNat = (ws, none))
include hw

theorem execTemplateFire_malformed (hm : (tmplMalformed ws).isSome = true) :
    execTemplateFire f s = .next (s.issueFiring f x fun x => { x with words := ws, result := some 1 }) := by
  simp [execTemplateFire, hx, hs, hw, hm]

variable (hm : tmplMalformed ws = none)
include hm

theorem execTemplateFire_tainted (ht : x.tq = none ∧ recTaint ws = true ∧ recRunerr ws = false) :
    execTemplateFire f s = .next (s.issueFiring f x fun x => { x with words := ws, result := some 0 }) := by
  obtain ⟨hq, ht, hr⟩ := ht
  simp [execTemplateFire, hx, hs, hw, hm, hq, ht, hr]

variable (ht : ¬ (x.tq = none ∧ recTaint ws = true ∧ recRunerr ws = false))
include ht

omit hx hs hw hm in
theorem not_tainted : (x.tq.isNone && recTaint ws && !recRunerr ws) = false := by
  rw [← Bool.not_eq_true]
  simpa [Option.isNone_iff_eq_none, and_assoc] using ht

theorem execTemplateFire_full (hr : s.copyRoom (recW ws 6 % 8) = false) : execTemplateFire f s = .next s := by
  have hb : bitsAt (recW ws 6) 2 0 = recW ws 6 % 8 := by simp [bitsAt_eq_div_mod]
  simp only [execTemplateFire, hx, hs, hw, hm, not_tainted ht, hb, hr, Option.isSome_none, Bool.or_self, Bool.false_eq_true,
    if_false, Bool.not_false, if_true]

theorem execTemplateFire_sent (hr : s.copyRoom (recW ws 6 % 8) = true) :
    execTemplateFire f s
      = .next ((s.sendCopy (s.firingMsg f x ws)).issueFiring f x fun x => { x with words := ws }) := by
  have hb : bitsAt (recW ws 6) 2 0 = recW ws 6 % 8 := by simp [bitsAt_eq_div_mod]
  simp only [execTemplateFire, hx, hs, hw, hm, not_tainted ht, hb, hr, Option.isSome_none, Bool.or_self, Bool.false_eq_true,
    if_false, Bool.not_true, State.firingMsg]

end

/-! ### The end of a firing -/

section
variable {s : State} {f r t : Nat} {x : Firing} (hx : s.firings.get? f = some x)
include hx

theorem execTemplateGraphComplete_ended (hq : x.tq = none) (hr : x.result = some r) :
    execTemplateGraphComplete f s = .next (
      let t := ({ s with firings := s.firings.erase f }.putStatus x.p x.asid x.ref.toNat x.status).decSuccessors x.p x.asid x.words
        (x.status.toNat % 256 ≠ 1)
      if recCte x.words = true ∧ x.status.toNat % 256 ≠ 4 then
        t.sendToken x.p (recCtq x.words) (BitVec.ofNat 32 (recCtpay x.words))
      else t) := by
  simp [execTemplateGraphComplete, hx, hq, hr]

theorem execTokenFiringComplete_ok (hq : x.tq = some t) (hr : x.result = some 0) :
    execTokenFiringComplete f s = .next (if recCte x.words = true then
      { s with firings := s.firings.erase f }.sendToken x.p (recCtq x.words) (BitVec.ofNat 32 (recCtpay x.words + x.payload))
      else { s with firings := s.firings.erase f }) := by
  simp [execTokenFiringComplete, hx, hq, hr]

theorem execTokenFiringComplete_failed (hq : x.tq = some t) (hr : x.result = some r) (h0 : r ≠ 0) :
    execTokenFiringComplete f s = .next (
      if (s.tokq x.p t).armed = true ∧ (s.tokq x.p t).gen = x.gen then
        ({ s with firings := s.firings.erase f }.unfire x.p t).setTokq x.p t
          { (s.tokq x.p t).disarm with err := true, epay := x.payload, erst := r }
      else { s with firings := s.firings.erase f }.bumpPeerr x.p) := by
  have ht : { s with firings := s.firings.erase f }.tokq x.p t = s.tokq x.p t := rfl
  simp only [execTokenFiringComplete, hx, hq, hr, if_neg h0, ht, Bool.and_eq_true, beq_iff_eq]

theorem execTokenFiringComplete_idle (h : x.tq = none ∨ x.result = none) : execTokenFiringComplete f s = .next s := by
  unfold execTokenFiringComplete
  simp only [hx]
  split
  next hq hr => rcases h with h | h <;> simp_all
  next => rfl

end

/-! ### TOKEN_ARRIVAL -/

theorem execTokenArrival_room {s : State} {p t : Nat} {v : BitVec 32 × Option Nat} {rest : List (BitVec 32 × Option Nat)}
    (hh : (s.tokq p t).held = v :: rest) (hl : (s.tokq p t).toks.length < 64) :
    execTokenArrival p t s = .next (
      let u := s.setTokq p t { s.tokq p t with held := rest, toks := (s.tokq p t).toks ++ [v.1] }
      (if (s.tokq p t).armed then u.awake else u).fireTokq p t) := by
  simp only [execTokenArrival, hh, tokqDepth, ge_iff_le, Nat.not_le.mpr hl, if_false]

theorem execTokenArrival_idle {s : State} {p t : Nat} (h : (s.tokq p t).held = [] ∨ 64 ≤ (s.tokq p t).toks.length) :
    execTokenArrival p t s = .next s := by
  cases hh : (s.tokq p t).held with
  | nil => simp only [execTokenArrival, hh]
  | cons v r =>
    have hl := h.resolve_left (by simp [hh])
    simp only [execTokenArrival, hh, tokqDepth, ge_iff_le, hl, if_true]

end Sys2Proof.Machine
end

section
open Sys2Proof Sys2Proof.Machine

/-- Settles O48: each event of a firing and of a token, by the template read and the state it meets. -/
theorem templatesAndTokens : Obligations.TemplatesAndTokens := by
  intro f p t r n x ws v die rest idle due words read pd tainted fires issued msg sent gone after
  have hfire : ∀ s, exec (.templateFire f) s = execTemplateFire f s := fun _ => rfl
  have hend : ∀ s, exec (.tokenFiringComplete f) s = execTokenFiringComplete f s := fun _ => rfl
  have hgraph : ∀ s, exec (.templateGraphComplete f) s = execTemplateGraphComplete f s := fun _ => rfl
  have harr : ∀ s, exec (.tokenArrival p t) s = execTokenArrival p t s := fun _ => rfl
  have hissue : ∀ s (g : Firing → Firing), s.firings.get? f = some x → s.issueFiring f x g = issued s (g x) := fun s g h => by
    cases htq : x.tq with
    | none => simp only [State.issueFiring, State.fired_of h, htq, issued]
    | some t => simp only [State.issueFiring, State.fired_of h, htq, issued]
  refine ⟨?_, fun e s ⟨⟨hx, hs⟩, hw⟩ => ?_, fun s ⟨⟨hx, hs⟩, hw, hm⟩ => ?_, fun s ⟨⟨hx, hs⟩, hw, hm, ht⟩ => ?_,
    fun s ⟨⟨⟨hx, hs⟩, hw, hm, ht⟩, hr⟩ => (hfire s).trans (execTemplateFire_full hx hs hw hm ht hr),
    fun s ⟨⟨⟨hx, hs⟩, hw, hm, ht⟩, hr, hn, hd⟩ => ?_, fun s ⟨⟨⟨hx, hs⟩, hw, hm, ht⟩, hr, hn, hd⟩ => ?_, ?_,
    fun hq hr s hx => (hgraph s).trans (execTemplateGraphComplete_ended hx hq hr),
    fun hq hr s hx => (hend s).trans (execTokenFiringComplete_ok hx hq hr),
    fun hq hr h0 s hx => (hend s).trans (execTokenFiringComplete_failed hx hq hr h0),
    fun s ⟨hx, h⟩ => (hend s).trans (execTokenFiringComplete_idle hx h), fun s h => (harr s).trans (execTokenArrival_idle h),
    fun s ⟨hh, hl⟩ => ?_⟩
  · intro s h
    rw [hfire]
    rcases h with hx | ⟨hx, hs⟩
    · simp only [execTemplateFire, hx]
    · simp only [execTemplateFire, hx, hs, if_true]
  · rw [hfire, execTemplateFire_unreadable hx hs hw, hissue s _ hx]
  · rw [hfire, execTemplateFire_malformed hx hs hw hm, hissue s _ hx]
  · rw [hfire, execTemplateFire_tainted hx hs hw hm ht, hissue s _ hx]
  · subst hn
    rw [hfire, execTemplateFire_sent hx hs hw hm ht hr, State.sendCopy_up hd]
    exact congrArg Host.Outcome.next (hissue _ _ hx)
  · subst hn
    rw [hfire, execTemplateFire_sent hx hs hw hm ht hr, State.sendCopy_down hd]
    exact congrArg Host.Outcome.next (hissue _ _ hx)
  · intro s ⟨hx, h⟩
    rw [hgraph]
    rcases h with h | h <;> simp [execTemplateGraphComplete, hx, h]
  · rw [harr, execTokenArrival_room hh hl]

end

section
/-! SUPPORT. Tokens between positions, outcome by outcome: hops into an input FIFO or its spill ring, and a ring's return (R198,
R222, R223). -/

namespace Sys2Proof.Machine

section
variable {s s' : State} {c pos d k' f o r : Nat} {t : Tok} {ring : Spill}

/-- A FIFO of a position whose clocks run takes a token while it has room and no ring stands before it (R198). -/
theorem State.enterFifo_room (hc : s.courseTakes (k' / 32) = true) (hf : s.runFrozen (s.pos k').run = false)
    (hg : s.posGated k' = false) (hi : (s.pos k').ingress.getD [] f = []) (hl : ((s.pos k').fifo.getD [] f).length < 8)
    (hr : s.ringEmpty k' f = true) :
    s.enterFifo k' f t
      = some ((s.modPos k' fun x => { x with fifo := x.fifo.set f ((s.pos k').fifo.getD [] f ++ [t]) }).movedAt k') := by
  simp [State.enterFifo, hc, hf, hg, hi, hl, hr]

/-- The ring behind a FIFO that is full, or that tokens wait behind, takes a token in its first tier (R223). -/
theorem State.spillInto_near (hk : s.spillKey k' f = some r) (hr : s.spills.getD {} r = ring)
    (hb : 8 ≤ ((s.pos k').fifo.getD [] f).length ∨ ring.recs ≠ []) (hf : s.runFrozen (s.pos k').run = false)
    (hg : s.posGated k' = false) (hi : (s.pos k').ingress.getD [] f = []) (hc : s.courseTakes (k' / 32) = true)
    (hn : (ring.recs.filter fun e => e.2.isNone).length < spillNear) :
    s.spillInto k' f t
      = .moved (State.movedAt { s with spills := s.spills.set r { ring with recs := ring.recs ++ [(t, none)] } } k') := by
  have hbehind : (decide (((s.pos k').fifo.getD [] f).length < 8) && ring.recs.isEmpty) = false := by
    rcases hb with h | h
    · rw [decide_eq_false (Nat.not_lt.mpr h), Bool.false_and]
    · rw [List.isEmpty_eq_false_iff.mpr h, Bool.and_false]
  simp only [State.spillInto, hk, hr, hbehind, hf, hg, hi, hc, hn, List.isEmpty_nil, Bool.not_true, Bool.or_self, Bool.false_eq_true,
    if_false, if_true]

theorem State.deliver_fifo (hl : s.leadOf c pos d = .fifo k' f) (hg : s.gateOn (posKey c pos / 32) (k' / 32) = false) (b : Bool) :
    s.deliver c pos d t b = if b then s.spillInto k' f t else .ofOption (s.enterFifo k' f t) := by
  simp only [State.deliver, hl, State.sendTok, hg, Bool.not_false, if_true]

theorem State.hopOut_moved {b : Bool} (hl : s.leadOf c pos d = .fifo k' f) (he : s.gates.getD [] (k' * 8 + f) = [])
    (hf : s.runFrozen (s.pos (posKey c pos)).run = false) (hg : s.posGated (posKey c pos) = false)
    (ho : swOut (s.pos (posKey c pos)).sw d = o) (h1 : 1 ≤ o) (h7 : o ≤ 7)
    (ht : (s.pos (posKey c pos)).headFor o (outConsumer d) = some t) (hs : s.deliver c pos d t b = .moved s') :
    s.hopOut c pos d b = (s'.modPos (posKey c pos) fun x => x.take pos o (outConsumer d)).movedAt (posKey c pos) := by
  have h89 : ¬ (o = 8 ∨ o = 9) := by omega
  have h0 : ¬ o = 0 := by omega
  simp only [State.hopOut, hl, State.drainGate, he, State.hopData, hf, hg, ho, h89, h0, ht, hs, Bool.or_self, Bool.false_eq_true,
    if_false]

end

/-! ### SPILL_RETURN -/

section
variable {s : State} {c pos fifo r n : Nat} {t : Tok} {ring : Spill} {rest : List (Tok × Option Nat)}

/-- A token of a ring back in its FIFO, the others left behind it (R223). -/
def State.spillBack (s : State) (k fifo r : Nat) (ring : Spill) (rest : List (Tok × Option Nat)) (t : Tok) : State :=
  ({ s with spills := s.spills.set r { ring with recs := rest } }.modPos k fun x =>
    { x with fifo := x.fifo.set fifo ((s.pos k).fifo.getD [] fifo ++ [t]) }).movedAt k

variable (hk : s.spillKey (posKey c pos) fifo = some r) (hr : s.spills.getD {} r = ring)
  (hl : ((s.pos (posKey c pos)).fifo.getD [] fifo).length < 8) (hf : s.runFrozen (s.pos (posKey c pos)).run = false)
  (hg : s.posGated (posKey c pos) = false)
include hk hr hl hf hg

theorem execSpillReturn_near (hq : ring.recs = (t, none) :: rest) :
    execSpillReturn c pos fifo s = .next (s.spillBack (posKey c pos) fifo r ring rest t) := by
  simp only [execSpillReturn, hk, hr, hf, hg, hq, ge_iff_le, decide_eq_false (Nat.not_le.mpr hl), Bool.or_self, Bool.false_eq_true,
    if_false, State.spillBack]

theorem execSpillReturn_far {ws : List W64} (hq : ring.recs = (t, some n) :: rest)
    (hw : s.engWords (s.spillCtx (posKey c pos)) (spillAddr (s.ringTile r) n) 16 = .ok ws) :
    execSpillReturn c pos fifo s = .next (s.spillBack (posKey c pos) fifo r ring rest (spillTok ws)) := by
  simp only [execSpillReturn, hk, hr, hf, hg, hq, hw, ge_iff_le, decide_eq_false (Nat.not_le.mpr hl), Bool.or_self,
    Bool.false_eq_true, if_false, State.spillBack]

theorem execSpillReturn_fault {e : EngErr} (hq : ring.recs = (t, some n) :: rest)
    (hw : s.engWords (s.spillCtx (posKey c pos)) (spillAddr (s.ringTile r) n) 16 = .error e) :
    execSpillReturn c pos fifo s = .next (s.freezeAt (posKey c pos) 3 0x10 e.status (BitVec.ofNat 64 e.addr)) := by
  simp only [execSpillReturn, hk, hr, hf, hg, hq, hw, ge_iff_le, decide_eq_false (Nat.not_le.mpr hl), Bool.or_self,
    Bool.false_eq_true, if_false, State.spillFault]

end

end Sys2Proof.Machine
end

section
/-! SUPPORT. What the nodes of a grid do, outcome by outcome: bricks (R202, R212, R213), tiles (R220, R221), the ends of nodes
(R194), and gated positions (R228). -/

namespace Sys2Proof.Machine

theorem State.modRun_pos (s : State) (r : Nat) (f : Run → Run) (k : Nat) : (s.modRun r f).pos k = s.pos k := by
  unfold State.modRun
  split <;> rfl

theorem State.runFlags_pos (s : State) (r : Option Nat) (f : Flags) (k : Nat) : (s.runFlags r f).pos k = s.pos k := by
  cases r with
  | none => rfl
  | some r => exact s.modRun_pos r _ k

/-- What moves at a position leaves its time there, and nothing else. -/
theorem State.movedAt_pos (s : State) (k : Nat) : (s.movedAt k).pos k = { s.pos k with lastMove := s.now } := by
  have h : ∀ (u : State) (r : Option Nat), (u.runMoved r).pos k = u.pos k := fun u r => by
    cases r with
    | none => rfl
    | some r => exact u.modRun_pos r _ k
  rw [State.movedAt, h, State.modPos_eq, State.pos_setPos_same]

/-! ### Bricks -/

/-- A firing sends one entry into the pipeline, or two, all ready at one time. -/
theorem pipeEnts_ready {ready : Nat} {t0 t1 : List Tok} : ∀ e ∈ pipeEnts ready t0 t1, e.ready = ready := by
  unfold pipeEnts
  split <;> simp

theorem pipeEnts_ne_nil {ready : Nat} {t0 t1 : List Tok} : pipeEnts ready t0 t1 ≠ [] := by
  unfold pipeEnts
  split <;> simp

theorem pipeEnts_length_le {ready : Nat} {t0 t1 : List Tok} : (pipeEnts ready t0 t1).length ≤ 2 := by
  unfold pipeEnts
  split <;> simp

/-- The last token of output 0 leaves on it. -/
theorem pipeEnts_last {ready : Nat} {t : Tok} {ts t1 : List Tok} :
    ∃ e ∈ pipeEnts ready (ts ++ [t]) t1, e.o0 = some t ∧ e.ready = ready := by
  unfold pipeEnts
  split
  next h =>
    have hts : ts = [] := List.length_eq_zero_iff.mp (by
      have hl := h.1
      rw [List.length_append, List.length_singleton] at hl
      omega)
    subst hts
    exact ⟨_, List.mem_singleton_self _, rfl, rfl⟩
  next => exact ⟨_, List.mem_cons_of_mem _ (List.mem_singleton_self _), List.getLast?_concat, rfl⟩

section
variable {s : State} {k : Nat} {heads : Map Tok}

/-- A firing that may enter a pipeline enters it: one ordinal more, the next mode, and results on their way (R202, R212). -/
theorem State.brickEnter_fires (hp : (s.pos k).pipe = []) (h0 : (s.pos k).outs.getD [] 0 = [])
    (h1 : (s.pos k).outs.getD [] 1 = []) (hc : brTchk (s.pos k).node = false)
    (hh : (s.pos k).portHeads (s.pos k).mode = some heads) (hn : heads ≠ []) (he : ∀ h ∈ heads, h.2.eos = false) :
    ∃ y n r f, s.brickEnter k = (({ s.setPos k y with freeCnt := n } : State).runFlags r f).movedAt k
      ∧ y.ordinal = (s.pos k).ordinal + 1
      ∧ y.mode = (if brMadv (s.pos k).node then nextMode (s.pos k).node (s.pos k).mode else (s.pos k).mode)
      ∧ y.pipe ≠ [] ∧ ∀ e ∈ y.pipe, e.ready = s.now + 12 := by
  have hany : anyB (fun h => h.2.eos) heads = false := anyB_eq_false.mpr he
  have hemp : heads.isEmpty = false := List.isEmpty_eq_false_iff.mpr hn
  have hlen : ∀ {t0 t1 : List Tok}, decide (0 + (pipeEnts (s.now + 12) t0 t1).length > pipeDepth) = false := fun {t0 t1} =>
    decide_eq_false (by have := pipeEnts_length_le (ready := s.now + 12) (t0 := t0) (t1 := t1); unfold pipeDepth; omega)
  simp only [State.brickEnter, hh, hany, hemp, hp, h0, h1, hc, hlen, List.length_nil, List.isEmpty_nil, Bool.not_true, Bool.and_false,
    Bool.false_and, Bool.or_self, Bool.false_eq_true, if_false, List.nil_append]
  exact ⟨_, _, _, _, rfl, rfl, rfl, pipeEnts_ne_nil, pipeEnts_ready⟩

theorem State.pos_moved (y : Pos) (n : Nat) (r : Option Nat) (f : Flags) :
    ((({ s.setPos k y with freeCnt := n } : State).runFlags r f).movedAt k).pos k = { y with lastMove := s.now } := by
  have hnow : (({ s.setPos k y with freeCnt := n } : State).runFlags r f).now = s.now := by
    cases r with
    | none => rfl
    | some r =>
      unfold State.runFlags State.modRun
      dsimp only
      split <;> rfl
  rw [State.movedAt_pos, State.runFlags_pos, hnow]
  exact congrArg (fun x : Pos => { x with lastMove := s.now }) (s.pos_setPos_same k y)

theorem execBrickFiring_quiet {c pos : Nat} (hb : isBrick pos = true) (hf : s.runFrozen (s.pos (posKey c pos)).run = false)
    (hg : s.posGated (posKey c pos) = false) (ha : s.nodeActs (posKey c pos) = true)
    (hs : ((s.pos (posKey c pos)).emitInit.retire fun t => decide (t ≤ s.now)) = s.pos (posKey c pos)) :
    execBrickFiring c pos s = .next (s.brickEnter (posKey c pos)) := by
  simp only [execBrickFiring, hb, hf, hg, hs, ha, Bool.not_true, Bool.or_self, Bool.false_eq_true, if_false, if_true]

/-- A brick with no initial token due and nothing in its pipeline has nothing to send. -/
theorem Pos.settled_of_empty {x : Pos} {due : Nat → Bool} (hp : x.pipe = []) (hi : x.iniDue = 0) :
    x.emitInit.retire due = x := by
  have he : x.emitInit = x := by simp [Pos.emitInit, hi]
  rw [he]
  simp only [Pos.retire, hp]

/-- A brick whose inputs have all ended sends its marker on each output it drives, and ends (R194). -/
theorem State.brickEnd_ends (hp : (s.pos k).pipe = []) (h0 : (s.pos k).outs.getD [] 0 = [])
    (h1 : (s.pos k).outs.getD [] 1 = []) (hh : (s.pos k).portHeads (s.pos k).mode = some heads) (hn : heads ≠ [])
    (he : ∀ h ∈ heads, h.2.eos = true) :
    ∃ y, s.brickEnd k = (s.setPos k y).movedAt k ∧ y.ended = true ∧ y.comp = []
      ∧ (brDrives (s.pos k).node 0 = true → ∃ e ∈ y.pipe, e.o0 = some eosTok ∧ e.ready = s.now + 12) := by
  have hall : allB (fun h => h.2.eos) heads = true := allB_eq_true.mpr he
  have hemp : heads.isEmpty = false := List.isEmpty_eq_false_iff.mpr hn
  have hfull : anyB (fun o => brDrives (s.pos k).node o && !((s.pos k).outs.getD [] o).isEmpty) (rangeFrom 0 2) = false := by
    simp [rangeFrom, anyB, h0, h1]
  have hlen : ∀ {t0 t1 : List Tok}, decide (0 + (pipeEnts (s.now + 12) t0 t1).length > pipeDepth) = false := fun {t0 t1} =>
    decide_eq_false (by have := pipeEnts_length_le (ready := s.now + 12) (t0 := t0) (t1 := t1); unfold pipeDepth; omega)
  simp only [State.brickEnd, hh, hall, hemp, hp, hfull, hlen, List.length_nil, Bool.not_true, Bool.or_self, Bool.false_eq_true, if_false]
  refine ⟨_, rfl, rfl, rfl, fun hd => ?_⟩
  obtain ⟨e, hm, ho⟩ := pipeEnts_last (ready := s.now + 12) (t := eosTok) (ts := ((s.pos k).comp.get? 0).toList)
    (t1 := if brDrives (s.pos k).node 1 then ((s.pos k).comp.get? 1).toList ++ [eosTok] else [])
  refine ⟨e, List.mem_append_right _ ?_, ho⟩
  simp only [hd, if_true]
  exact hm

end

/-! ### Tiles -/

section
variable {s : State} {k : Nat} {t : Tok}

/-- A token written at a tile's first generator, plainly or combined (R220). -/
def State.tileWrites (s : State) (k : Nat) (t : Tok) (acc : Bool) : State :=
  let p := s.tilePut k 0 ((s.pos k).gen.getD 0 0) t acc 16
  ((p.1.modPos k fun y =>
    let y := y.tileTake (k % 32) 0
    { y with gen := y.gen.set 0 ((s.pos k).gen.getD 0 0 + 1), wroteLast := true }).runFlags (s.pos k).run p.2).movedAt k

/-- A token read at a tile's second generator (R220). -/
def State.tileReads (s : State) (k : Nat) : State :=
  (s.modPos k fun y =>
    { y with outs := y.outs.set 0 [s.tileGet k 1 ((s.pos k).gen.getD 0 1)], gen := y.gen.set 1 ((s.pos k).gen.getD 0 1 + 1),
             wroteLast := false }).movedAt k

theorem State.tileStep_scratch_write (hm : tiMode (s.pos k).node = 1) (ht : (s.pos k).tileHead 0 = some t) (he : t.eos = false)
    (hi : (s.pos k).inEos = false) (hr : (s.pos k).readDue = false ∨ (s.pos k).wroteLast = false) :
    s.tileStep k = s.tileWrites k t false := by
  rcases hr with hr | hr
  · simp [State.tileStep, hm, ht, he, hi, hr, State.tileWrites]
  · simp [State.tileStep, hm, ht, he, hi, hr, State.tileWrites]

theorem State.tileStep_scratch_read (hm : tiMode (s.pos k).node = 1) (hr : (s.pos k).readDue = true)
    (h : (s.pos k).tileHead 0 = none ∨ (s.pos k).wroteLast = true) : s.tileStep k = s.tileReads k := by
  cases ht : (s.pos k).tileHead 0 with
  | none => simp [State.tileStep, hm, ht, hr, State.tileReads]
  | some t =>
    have hw := h.resolve_left (by simp [ht])
    simp only [State.tileStep, hm, ht, hr, hw, State.tileReads, Bool.and_true, if_true]
    exact (ite_congr rfl (fun _ => rfl) fun hn => if_neg hn).trans (ite_self _)

theorem State.tileStep_queue_out {rest : List Tok} (hm : tiMode (s.pos k).node = 2) (hq : (s.pos k).queue = t :: rest)
    (ho : (s.pos k).outs.getD [] 0 = []) :
    s.tileStep k = (s.modPos k fun y => { y with queue := rest, outs := y.outs.set 0 [t], ended := y.ended || t.eos }).movedAt k := by
  simp [State.tileStep, hm, hq, ho]

theorem State.tileStep_queue_in (hm : tiMode (s.pos k).node = 2)
    (hq : (s.pos k).queue = [] ∨ ¬ (s.pos k).outs.getD [] 0 = []) (hi : (s.pos k).inEos = false)
    (ht : (s.pos k).tileHead 0 = some t) (hl : (s.pos k).queue.length < tiCap (s.pos k).node) :
    s.tileStep k
      = (s.modPos k fun y => { y.tileTake (k % 32) 0 with queue := y.queue ++ [t], inEos := t.eos }).movedAt k := by
  rcases hq with hq | ho
  · have hc : tiCap (s.pos k).node ≠ 0 := Nat.ne_of_gt (Nat.lt_of_le_of_lt (Nat.zero_le _) hl)
    simp [State.tileStep, hm, hq, hi, ht, hc]
  · have hf : ((s.pos k).outs.getD [] 0).isEmpty = false := List.isEmpty_eq_false_iff.mpr ho
    simp [State.tileStep, hm, hf, hi, ht, hl]

theorem State.tileStep_accum_write (hm : tiMode (s.pos k).node = 3) (ht : (s.pos k).tileHead 0 = some t) (he : t.eos = false)
    (hi : (s.pos k).inEos = false) : s.tileStep k = s.tileWrites k t true := by
  simp [State.tileStep, hm, ht, he, hi, State.tileWrites]

theorem State.tileEnd_scratch (hm : tiMode (s.pos k).node = 1) (hi : (s.pos k).inEos = true)
    (hr : tiRound (s.pos k).node 1 ≤ (s.pos k).gen.getD 0 1) (ho : (s.pos k).outs.getD [] 0 = []) :
    s.tileEnd k = (s.modPos k fun y => { y with outs := y.outs.set 0 [eosTok], ended := true }).movedAt k := by
  simp [State.tileEnd, hm, hi, hr, ho]

end

/-- What an RMW firing combines: a key and a value that are no markers (R221). -/
theorem execTileRmwFiring_fires {s : State} {c pos : Nat} {key val : Tok} (hb : isBrick pos = false)
    (hm : tiMode (s.pos (posKey c pos)).node = 4) (ha : s.nodeActs (posKey c pos) = true)
    (hk : (s.pos (posKey c pos)).tileHead 0 = some key) (hv : (s.pos (posKey c pos)).tileHead 1 = some val)
    (hke : key.eos = false) (hve : val.eos = false)
    (ho : tiFetch (s.pos (posKey c pos)).node = false ∨ (s.pos (posKey c pos)).outs.getD [] 0 = []) :
    execTileRmwFiring c pos s = .next (
      let k := posKey c pos
      let p := s.rmwLanes k key val 0 16
      ((p.1.modPos k fun y =>
        let y := (y.tileTake pos 0).tileTake pos 1
        if tiFetch (s.pos k).node then
          { y with outs := y.outs.set 0 [{ lanes := payload p.2.1, vm := key.vm &&& val.vm, tag := key.tag }] }
        else y).runFlags (s.pos k).run p.2.2).movedAt k) := by
  have hf : (tiFetch (s.pos (posKey c pos)).node && !((s.pos (posKey c pos)).outs.getD [] 0).isEmpty) = false := by
    rcases ho with ho | ho <;> simp [ho]
  simp only [execTileRmwFiring, hb, hm, ha, hk, hv, hke, hve, hf, ne_eq, not_true, decide_false, Bool.not_true, Bool.or_self,
    Bool.false_eq_true, if_false]

end Sys2Proof.Machine
end

section
/-! SUPPORT. Control tokens of `ctok` (R245), and what an engine does, outcome by outcome (R267 to R272). -/

namespace Sys2Proof.Machine

/-! ### CONTROL_TOKEN_DELIVER -/

/-- Whether a command of a command stream is a `ctok` that has begun. -/
def Cmd.deliversCtok (c : Cmd) : Bool := c.begun && (match c.kind with | .ctok _ _ => true | _ => false)

section
variable {s u : State} {slot w left code : Nat} {cmd : Cmd}

theorem execControlTokenDeliver_switched (h : ((s.pump slot).slot slot).switched = true) :
    execControlTokenDeliver slot s = .next (s.pump slot) := by
  simp only [execControlTokenDeliver, h, if_true]

/-- A `ctok` with tokens left delivers one, and leaves the command stream with its last (R245). -/
theorem execControlTokenDeliver_sent (hs : ((s.pump slot).slot slot).switched = false) (hk : cmd.kind = .ctok w left)
    (hc : ((s.pump slot).slot slot).cmds.find? Cmd.deliversCtok = some cmd)
    (hu : (s.pump slot).ctokInto (courseOf slot) w = some u) :
    execControlTokenDeliver slot s
      = .next (if left ≤ 1 then (u.dropCmd slot cmd.id).pump slot else u.setCmd slot { cmd with kind := .ctok w (left - 1) }) := by
  refine congrArg Host.Outcome.next ((if_neg (ne_true_of_eq_false hs)).trans ?_)
  split
  next c hf =>
    obtain rfl : c = cmd := Option.some.inj (hf.symm.trans hc)
    simp only [hk, hu]
  next hf => exact absurd (hf.symm.trans hc) (Option.some_ne_none _).symm

theorem State.ctokInto_engine {c : Nat} (hw : w / 32 = 1) (hl : (s.fe c).ctlIn < ctlCap) :
    s.ctokInto c w = some (s.modFe c fun f => { f with ctlIn := f.ctlIn + 1 }) := by
  rw [State.ctokInto, if_pos hw, if_pos hl]

theorem State.ctokInto_brick {c : Nat} (hw : w / 32 ≠ 1) (hb : isBrick (w % 32) = true)
    (hc : brCin (s.pos (posKey c (w % 32))).node = code + 1) (hu : s.enterCtl (posKey c (w % 32)) code = some u) :
    s.ctokInto c w = some (u.movedAt (posKey c (w % 32))) := by
  simp only [State.ctokInto, if_neg hw, hb, if_true, hc, Nat.add_one_ne_zero, if_false, Nat.add_sub_cancel, hu, Option.map_some]

end

/-! ### Frames of an engine -/

section
variable {s : State} {c : Nat} {x y : Fe} {ts : List Tok}

theorem State.frameStep_block (hm : feMode x.words = 1) (hn : s.nextFrame c x = some (ts, y)) (hr : x.roomC = true)
    (hb : feRows ≤ (x.bufs.getD {} x.bufNo).next) :
    s.frameStep c x = s.emitFrame c y (s.blockFrame c x.words (fePass x.words x.pass) x.frames (x.bufs.getD {} x.bufNo).rows ts) := by
  simp [State.frameStep, hn, hr, hm, hb]

theorem State.frameStep_transform (hm : feMode x.words = 3) (hn : s.nextFrame c x = some (ts, y)) (hr : x.roomC = true)
    (h : x.rangeCheck.1 = false ∨ feMrtrap x.words = false ∨ x.checked = true ∨ paMr (fePass x.words x.pass) ≠ 3) :
    s.frameStep c x = s.emitFrame c y (s.transformFrame c x.words (fePass x.words x.pass) x.frames ts) := by
  rcases h with h | h | h | h <;> simp [State.frameStep, hn, hr, hm, h]

/-- A frame whose range check fails traps, where the plane asks for it (R280). -/
theorem State.frameStep_range {r : Nat} (hm : feMode x.words = 3) (hn : s.nextFrame c x = some (ts, y)) (hr : x.roomC = true)
    (hc : x.rangeCheck.1 = true) (ht : feMrtrap x.words = true) (hk : x.checked = false)
    (hp : paMr (fePass x.words x.pass) = 3) (hx : x.run = some r) :
    s.frameStep c x = (s.modFe c fun y => { y with overRange := true }).freeze r 6 0x13 0 x.rangeCheck.2 := by
  simp [State.frameStep, hn, hr, hm, hc, ht, hk, hp, hx]

/-- A pair at the ports joins the frame that is gathered (R276). -/
theorem State.gatherStep_joins {t val : Tok} {rest ts : List Tok} (ha : x.inA = t :: rest) (he : t.eos = false)
    (hg : x.frameTag = none ∨ x.frameTag = some t.tag) (hb : x.inB = val :: ts) (hv : val.eos = false) :
    s.gatherStep c x = (s.setFe c { x with
      inA := rest, inB := ts, gathered := x.gathered ++ pairEntries t val, frameTag := some t.tag,
      rowp := if x.frameTag.isSome then x.rowp else 0
      bufs := x.bufs.set x.bufNo { x.bufs.getD {} x.bufNo with loading := true } }).feMoved c := by
  rcases hg with hg | hg <;> simp [State.gatherStep, ha, he, hg, hb, hv]

/-- A frame that another tag or an EOS marker ends is computed, once its rows are loaded (R271, R276). -/
theorem State.gatherStep_ends {t : Tok} {rest : List Tok} (ha : x.inA = t :: rest) (hf : x.frameTag.isSome = true)
    (he : t.eos = true ∨ x.frameTag ≠ some t.tag) (hl : x.gathered.length ≤ (x.bufs.getD {} x.bufNo).next) (hr : x.roomC = true) :
    s.gatherStep c x = s.emitFrame c
      { x with gathered := [], frameTag := none, bufs := x.bufs.set x.bufNo { loading := true, step := (x.bufs.getD {} x.bufNo).step } }
      (s.gatherFrame c x.words (fePass x.words x.pass) x.frames (x.bufs.getD {} x.bufNo).rows x.gathered) := by
  have hd : (decide ((x.bufs.getD {} x.bufNo).next < x.gathered.length) || !x.roomC) = false := by
    simp [Nat.not_lt.mpr hl, hr]
  by_cases ht : t.eos = true
  · simp only [State.gatherStep, ha, ht, hf, hd, if_true, Bool.false_eq_true, if_false]
  · have hn := he.resolve_left ht
    simp only [State.gatherStep, ha, ht, hf, hn, hd, if_true, Bool.false_eq_true, if_false, ne_eq, not_false_iff, decide_true,
      Bool.and_self]

theorem execEngineFrame_frame (ha : s.feActs c = true) (hx : s.fe c = x) (ho : x.passOpen = true)
    (hm : feMode x.words = 1 ∨ feMode x.words = 3) : execEngineFrame c s = .next (s.frameStep c x) := by
  subst hx
  rcases hm with hm | hm <;> simp [execEngineFrame, ha, ho, hm]

theorem execEngineFrame_gather (ha : s.feActs c = true) (hx : s.fe c = x) (ho : x.passOpen = true) (hm : feMode x.words = 2) :
    execEngineFrame c s = .next (s.gatherStep c x) := by
  subst hx
  simp [execEngineFrame, ha, ho, hm]

end

/-! ### PASS_END -/

/-- An engine that discards the control tokens of a pass that none ends (R268). -/
def Fe.ctlCleared (x : Fe) : Fe := if feCtla x.words then x else { x with ctlIn := 0 }

/-- An engine of plane words `f` at the end of a pass: the next pass, or the engine's end with its marker (R268). -/
def Fe.passDone (f : List W64) (x : Fe) : Fe :=
  let fin := x.mayEnd
  let next := x.nextPass (x.pass + 1) 8
  let turn := { x with pass := next }.bufNo
  { x with
    pass := if fin then x.pass else next
    rowp := if fin || turn = x.bufNo then x.rowp else (x.bufs.getD { next := 0 } turn).next
    maxa := if !fin && paMr (fePass f next) = 1 then 0 else x.maxa
    maxb := if !fin && paMr (fePass f next) = 2 then 0 else x.maxb
    ended := fin
    ctlAfter := if fePcto f && !x.outC.isEmpty then x.ctlAfter ++ [x.outC.length] else x.ctlAfter
    outC := if fin && feEmits f then x.outC ++ [eosTok] else x.outC }

section
variable {s : State} {c : Nat} {x : Fe}

theorem Fe.ctlCleared_words (x : Fe) : x.ctlCleared.words = x.words := by
  unfold Fe.ctlCleared
  split <;> rfl

theorem Fe.ctlCleared_pass (x : Fe) : x.ctlCleared.pass = x.pass := by
  unfold Fe.ctlCleared
  split <;> rfl

theorem Fe.ctlCleared_frames (x : Fe) : x.ctlCleared.frames = x.frames := by
  unfold Fe.ctlCleared
  split <;> rfl

theorem Fe.ctlCleared_passesDone (x : Fe) : x.ctlCleared.passesDone = x.passesDone := by
  unfold Fe.ctlCleared
  split <;> rfl

theorem Fe.ctlCleared_outC (x : Fe) : x.ctlCleared.outC = x.outC := by
  unfold Fe.ctlCleared
  split <;> rfl

theorem Fe.ctlCleared_eos (x : Fe) : x.ctlCleared.eosA = x.eosA ∧ x.ctlCleared.eosB = x.eosB := by
  unfold Fe.ctlCleared
  split <;> exact ⟨rfl, rfl⟩

theorem Fe.passOver_of_frames (h0 : paFrm (fePass x.words x.pass) ≠ 0) (hf : paFrm (fePass x.words x.pass) ≤ x.frames) :
    x.passOver = true := by
  simp [Fe.passOver, h0, hf]

/-- A pass whose frames are done ends (R268). -/
theorem execPassEnd_frames (ha : s.feActs c = true) (hx : s.fe c = x) (hm : feMode x.words ≠ 0)
    (hg : feMode x.words = 2 → x.eosA = true → x.eosB = true) (h0 : paFrm (fePass x.words x.pass) ≠ 0)
    (hf : paFrm (fePass x.words x.pass) ≤ x.frames) (hl : x.outC.length < fePortCap) :
    execPassEnd c s = .next (
      let y := { x.ctlCleared with passesDone := x.ctlCleared.passesDone + 1, frames := 0 }
      let t := ((s.setFe c x.ctlCleared).setFe c (Fe.passDone x.words y)).feMoved c
      if fePcto x.words && !(fePcto x.words && !y.outC.isEmpty) then t.feCtlOut c else t) := by
  subst hx
  have hgo : (decide (feMode (s.fe c).words = 2) && (s.fe c).ctlCleared.eosA && !(s.fe c).ctlCleared.eosB) = false := by
    obtain ⟨hea, heb⟩ := (s.fe c).ctlCleared_eos
    rw [hea, heb]
    by_cases h2 : feMode (s.fe c).words = 2
    · cases he : (s.fe c).eosA with
      | true => simp [hg h2 he]
      | false => simp
    · simp [h2]
  have hov : (s.fe c).ctlCleared.passOver = true :=
    Fe.passOver_of_frames (by rwa [Fe.ctlCleared_words, Fe.ctlCleared_pass])
      (by rwa [Fe.ctlCleared_words, Fe.ctlCleared_pass, Fe.ctlCleared_frames])
  have hby : (decide (paFrm (fePass (s.fe c).words (s.fe c).ctlCleared.pass) ≠ 0)
      && decide (paFrm (fePass (s.fe c).words (s.fe c).ctlCleared.pass) ≤ (s.fe c).ctlCleared.frames)) = true := by
    rw [Fe.ctlCleared_pass, Fe.ctlCleared_frames]
    simp [h0, hf]
  have hcl : ∀ x : Fe, (if feCtla x.words = true then x else { x with ctlIn := 0 }) = x.ctlCleared := fun _ => rfl
  have hfull : ∀ b : Bool, (b && decide (fePortCap ≤ (s.fe c).ctlCleared.outC.length)) = false := fun b => by
    rw [Fe.ctlCleared_outC, decide_eq_false (Nat.not_le.mpr hl), Bool.and_false]
  simp only [execPassEnd, ha, hm, hcl, hgo, hov, hby, hfull, Bool.not_true, decide_false, Bool.or_self, Bool.false_eq_true, if_false,
    if_true, Bool.false_and]
  rfl

/-- Without a control token that ends passes, or frames enough, a pass that is not over goes on (R268). -/
theorem execPassEnd_goes (ha : s.feActs c = true) (hx : s.fe c = x) (hm : feMode x.words ≠ 0) (h2 : feMode x.words ≠ 2)
    (hc : feCtla x.words = true) (ho : x.passOver = false) : execPassEnd c s = .next (s.setFe c x) := by
  subst hx
  simp [execPassEnd, ha, hm, h2, hc, ho]

theorem execPassEnd_idle (h : s.feActs c = false ∨ feMode (s.fe c).words = 0) : execPassEnd c s = .next s := by
  rcases h with h | h <;> simp [execPassEnd, h]

end

/-! ### Weights -/

/-- A row of a weight buffer loaded, or one that a gathered entry leaves empty (R271, R276). -/
def State.rowLoaded (s : State) (c buf : Nat) (x : Fe) (row : Option (BitVec 4096)) : State :=
  let b := x.bufs.getD {} buf
  s.modFe c fun y => { y with
    bufs := y.bufs.set buf { b with next := b.next + 1, rows := match row with | some r => b.rows.set b.next r | none => b.rows }
    rowp := if buf = x.bufNo then max y.rowp (b.next + 1) else y.rowp }

section
variable {s : State} {c buf : Nat} {x : Fe} (ha : s.feActs c = true) (hx : s.fe c = x)
  (hl : (x.bufs.getD {} buf).loading = true) (hn : (x.bufs.getD {} buf).fault = none)
  (hr : (x.bufs.getD {} buf).next < x.rowsDue)
include ha hx hl hn hr

theorem execWeightRowLoad_block {rs : List Nat} (hm : feMode x.words = 1)
    (hw : s.weightRow (s.pipeCtx c x) x.words (x.bufs.getD {} buf).step ((x.bufs.getD {} buf).next * feRowLen x.words)
      (feRowLen x.words) = .ok rs) :
    execWeightRowLoad c buf s = .next (s.rowLoaded c buf x (some (packRow rs))) := by
  subst hx
  simp [execWeightRowLoad, ha, hm, hl, hn, Nat.not_le.mpr hr, hw, State.rowLoaded]

theorem execWeightRowLoad_fault {e : EngErr} (hm : feMode x.words = 1)
    (hw : s.weightRow (s.pipeCtx c x) x.words (x.bufs.getD {} buf).step ((x.bufs.getD {} buf).next * feRowLen x.words)
      (feRowLen x.words) = .error e) :
    execWeightRowLoad c buf s = .next (s.modFe c fun y =>
      { y with bufs := y.bufs.set buf { x.bufs.getD {} buf with fault := some (e.status, e.addr) } }) := by
  subst hx
  simp [execWeightRowLoad, ha, hm, hl, hn, Nat.not_le.mpr hr, hw]

theorem execWeightRowLoad_empty (hm : feMode x.words = 2) (hb : buf = x.bufNo)
    (hz : feSz x.words 1 ≤ (nth (0, 0) x.gathered (x.bufs.getD {} buf).next).1) :
    execWeightRowLoad c buf s = .next (s.rowLoaded c buf x none) := by
  subst hx hb
  simp [execWeightRowLoad, ha, hm, hl, hn, Nat.not_le.mpr hr, hz, State.rowLoaded]

end

section
variable {s : State} {c buf : Nat} {x : Fe}

theorem execWeightRowLoad_idle (h : s.feActs c = false ∨ feMode (s.fe c).words = 0 ∨ feMode (s.fe c).words = 3
    ∨ ((s.fe c).bufs.getD {} buf).loading = false) : execWeightRowLoad c buf s = .next s := by
  rcases h with h | h | h | h <;> simp [execWeightRowLoad, h]

/-- A fault at the row that a frame needs freezes the region (R272). -/
theorem execWeightFault_needed {e a r : Nat} (ha : s.feActs c = true) (hx : s.fe c = x)
    (hm : feMode x.words = 1 ∨ feMode x.words = 2) (hr : x.run = some r) (hf : (x.bufs.getD {} x.bufNo).fault = some (e, a))
    (hn : s.rowNeeded c x = true) :
    execWeightFault c s = .next ((s.modFe c fun y =>
      { y with rowp := (x.bufs.getD {} x.bufNo).next, fva := a % 2 ^ 48 }).freeze r 7 0x14 0 (BitVec.ofNat 64 a)) := by
  subst hx
  rcases hm with hm | hm <;> simp [execWeightFault, ha, hm, hr, hf, hn]

theorem execWeightFault_idle (h : ((s.fe c).bufs.getD {} (s.fe c).bufNo).fault = none ∨ s.rowNeeded c (s.fe c) = false) :
    execWeightFault c s = .next s := by
  unfold execWeightFault
  dsimp only
  split
  next e a r hf hr =>
    have hn := h.resolve_left (by rw [hf]; exact Option.some_ne_none _)
    simp [hn]
  next => rfl

end

end Sys2Proof.Machine
end

section
/-! SUPPORT. When nodes, positions and commands have nothing to do (R198, R202, R220, R228). -/

namespace Sys2Proof.Machine

section
variable {s : State} {c pos : Nat}

theorem execBrickFiring_idle (h : isBrick pos = false ∨ s.runFrozen (s.pos (posKey c pos)).run = true
    ∨ s.posGated (posKey c pos) = true) : execBrickFiring c pos s = .next s := by
  rcases h with h | h | h <;> simp [execBrickFiring, h]

/-- A brick whose results are due sends them, whether or not a firing may enter (R202). -/
theorem execBrickFiring_settles (hb : isBrick pos = true) (hf : s.runFrozen (s.pos (posKey c pos)).run = false)
    (hg : s.posGated (posKey c pos) = false) {y : Pos}
    (hy : ((s.pos (posKey c pos)).emitInit.retire fun t => decide (t ≤ s.now)) = y) (hn : y ≠ s.pos (posKey c pos))
    (ha : ((s.setPos (posKey c pos) y).movedAt (posKey c pos)).nodeActs (posKey c pos) = false) :
    execBrickFiring c pos s = .next ((s.setPos (posKey c pos) y).movedAt (posKey c pos)) := by
  simp only [execBrickFiring, hb, hf, hg, hy, if_neg hn, ha, Bool.not_true, Bool.or_self, Bool.false_eq_true, if_false]

theorem execBrickFiring_rests (hs : ((s.pos (posKey c pos)).emitInit.retire fun t => decide (t ≤ s.now)) = s.pos (posKey c pos))
    (ha : s.nodeActs (posKey c pos) = false) : execBrickFiring c pos s = .next s := by
  simp only [execBrickFiring, hs, ha, if_true, Bool.false_eq_true, if_false, ite_self]

theorem execTileAccess_acts (hb : isBrick pos = false) (ha : s.nodeActs (posKey c pos) = true) :
    execTileAccess c pos s = .next (s.tileStep (posKey c pos)) := by
  simp [execTileAccess, hb, ha]

theorem execNodeEnd_acts (ha : s.nodeActs (posKey c pos) = true) :
    execNodeEnd c pos s = .next (if isBrick pos then s.brickEnd (posKey c pos) else s.tileEnd (posKey c pos)) := by
  simp [execNodeEnd, ha]

theorem execPositionWake_waits (hi : (s.pos (posKey c pos)).ingressWaits = true) :
    execPositionWake c pos s
      = .next (if (s.course c).power = .gated then s.wakeCourse c else s.wakePos (posKey c pos)) := by
  simp [execPositionWake, hi]

/-- A position awake takes what waits in its ingress buffers, where its region is not frozen (R228, R232). -/
theorem State.wakePos_admits {k : Nat} (hf : s.runFrozen (s.pos k).run = false) (hi : (s.pos k).ingressWaits = true) :
    s.wakePos k
      = ((s.modPos k fun x => { x with gated := false }).setPos k ((s.pos k).admitIngress (s.ringEmpty k))).movedAt k := by
  simp [State.wakePos, hf, hi]

end

end Sys2Proof.Machine
end

section
open Sys2Proof Sys2Proof.Machine

/-- Settles O49: each event of a position and of an engine, by the state it meets. -/
theorem positionsAndEngines : Obligations.PositionsAndEngines := by
  intro c pos out fifo slot buf r a k' f o left w code t key val rest ring cmd rs ts x y heads back ws k idle leaves taken there
    returns returned far settled runs tile free writes reads rmw combined sends sent tk works fw ps b over' clears lb loads loaded
  have nx : ∀ {a b : State}, a = b → (Host.Outcome.next a : Out) = .next b := fun h => congrArg _ h
  have hhop : ∀ o s, exec (.tokenHop c pos o) s = execTokenHop c pos o s := fun _ _ => rfl
  have hspill : ∀ s, exec (.spillOut c pos out) s = execSpillOut c pos out s := fun _ => rfl
  have hback : ∀ s, exec (.spillReturn c pos fifo) s = execSpillReturn c pos fifo s := fun _ => rfl
  have hbrick : ∀ s, exec (.brickFiring c pos) s = execBrickFiring c pos s := fun _ => rfl
  have hctl : ∀ s, exec (.controlTokenArrival c pos) s = execControlTokenArrival c pos s := fun _ => rfl
  have hend : ∀ s, exec (.nodeEnd c pos) s = execNodeEnd c pos s := fun _ => rfl
  have htile : ∀ s, exec (.tileAccess c pos) s = execTileAccess c pos s := fun _ => rfl
  have hrmw : ∀ s, exec (.tileRmwFiring c pos) s = execTileRmwFiring c pos s := fun _ => rfl
  have hgate : ∀ s, exec (.positionClockGate c pos) s = execPositionClockGate c pos s := fun _ => rfl
  have hwake : ∀ s, exec (.positionWake c pos) s = execPositionWake c pos s := fun _ => rfl
  have hctok : ∀ s, exec (.controlTokenDeliver slot) s = execControlTokenDeliver slot s := fun _ => rfl
  have hframe : ∀ s, exec (.engineFrame c) s = execEngineFrame c s := fun _ => rfl
  have hpass : ∀ s, exec (.passEnd c) s = execPassEnd c s := fun _ => rfl
  have hrow : ∀ s, exec (.weightRowLoad c buf) s = execWeightRowLoad c buf s := fun _ => rfl
  have hfault : ∀ s, exec (.weightFault c) s = execWeightFault c s := fun _ => rfl
  have hswap : ∀ s, exec (.weightStepSwap c) s = execWeightStepSwap c s := fun _ => rfl
  refine ⟨?_, fun s h => nx (if_pos h), ?_, fun s _ => rfl, fun s _ => rfl, ?_, ?_, ?_, fun s h => nx (if_pos h),
    fun s h => nx (if_neg (Nat.not_lt.mpr h)), ?_, ?_, ?_, ?_, ?_, ?_, ?_, ?_, ?_, ?_, ?_, ?_, ?_, ?_, ?_, ?_, ?_, ?_, ?_, ?_,
    ?_, ?_, ?_, ?_, ?_, ?_, ?_, ?_, ?_, ?_, ?_, ?_, ?_, ?_, ?_, ?_, ?_, ?_, ?_, ?_, ?_, ?_, ?_, ?_, ?_, ?_, ?_, ?_, ?_, ?_⟩
  · intro s ⟨⟨ho, hsw, h1, h7, ht, hf, hg, hl, hn, he, hc, hf', hg', hi⟩, hlen, hr⟩
    have hd := (State.deliver_fifo (t := t) hl hn false).trans
      (congrArg Sent.ofOption (State.enterFifo_room hc hf' hg' hi hlen hr))
    rw [hhop]
    exact nx ((if_pos ho).trans (State.hopOut_moved hl he hf hg hsw h1 h7 ht hd))
  · intro s h
    rw [hhop]
    exact nx ((if_neg (by omega)).trans ((if_neg (by omega)).trans (if_pos h)))
  · intro hp s _
    rw [hhop]
    refine nx ?_
    simp only [hp, if_true, Nat.lt_irrefl, if_false]
  · intro s h
    rw [hhop]
    exact nx ((if_neg (by omega)).trans ((if_neg (by omega)).trans ((if_neg (by omega)).trans ((if_neg (by omega)).trans
      (if_neg (by omega))))))
  · intro s ⟨⟨ho, hsw, h1, h7, ht, hf, hg, hl, hn, he, hc, hf', hg', hi⟩, hk, hr, hb, hnear⟩
    have hd := (State.deliver_fifo (t := t) hl hn true).trans (State.spillInto_near hk hr hb hf' hg' hi hc hnear)
    rw [hspill]
    exact nx ((if_pos ho).trans (State.hopOut_moved hl he hf hg hsw h1 h7 ht hd))
  · intro s ⟨⟨hk, hr, hl, hf, hg⟩, hq⟩
    exact (hback s).trans (execSpillReturn_near hk hr hl hf hg hq)
  · intro n s ⟨⟨hk, hr, hl, hf, hg⟩, hq, hw⟩
    exact (hback s).trans (execSpillReturn_far hk hr hl hf hg hq hw)
  · intro n e s ⟨⟨hk, hr, hl, hf, hg⟩, hq, hw⟩
    exact (hback s).trans (execSpillReturn_fault hk hr hl hf hg hq hw)
  · intro s h
    rw [hback]
    simp only [execSpillReturn, show s.spillKey (posKey c pos) fifo = none from h]
  · intro s hb ha ⟨hf, hg⟩ hp hi h0 h1 hc hh hn he
    obtain ⟨z, n, q, fl, hz, hord, hmode, hne, hrd⟩ := State.brickEnter_fires hp h0 h1 hc hh hn he
    refine ⟨_, (hbrick s).trans (execBrickFiring_quiet hb hf hg ha (Pos.settled_of_empty hp hi)), ?_⟩
    rw [hz, State.pos_moved]
    exact ⟨hord, hmode, hne, hrd⟩
  · intro s ⟨hb, ⟨hf, hg⟩, hs, ha⟩
    exact (hbrick s).trans (execBrickFiring_quiet hb hf hg ha hs)
  · intro s ⟨hb, hs, ha⟩
    exact (hbrick s).trans (execBrickFiring_rests hs ha)
  · intro s ⟨hb, ⟨hf, hg⟩, hs, ha⟩
    exact (hbrick s).trans (execBrickFiring_settles hb hf hg rfl hs ha)
  · intro s h
    exact (hbrick s).trans (execBrickFiring_idle h)
  · intro s ⟨hb, hc, ha, hr⟩
    rw [hctl]
    exact nx (if_neg (by simp [hb, hc, show s.nodeActs (posKey c pos) = true from ha, hr, k]))
  · intro s h
    rw [hctl]
    refine nx (if_pos ?_)
    rcases h with h | h | h
    · simp [h]
    · simp [show brCin (s.pos (posKey c pos)).node = 0 from h]
    · simp [show s.nodeActs (posKey c pos) = false from h]
  · intro s hb ha hp h0 h1 hh hn he
    obtain ⟨z, hz, hended, hcomp, hlast⟩ := State.brickEnd_ends hp h0 h1 hh hn he
    refine ⟨_, (hend s).trans ((execNodeEnd_acts ha).trans (nx (if_pos hb))), ?_⟩
    rw [hz, State.movedAt_pos, State.pos_setPos_same]
    exact ⟨hended, hcomp, hlast⟩
  · intro s ⟨⟨hb, ha, hm⟩, hi, hr, ho⟩
    exact (hend s).trans ((execNodeEnd_acts ha).trans (nx ((if_neg (ne_true_of_eq_false hb)).trans
      (State.tileEnd_scratch hm hi hr ho))))
  · intro s ha
    exact (hend s).trans (execNodeEnd_acts ha)
  · intro s ha
    rw [hend]
    exact nx (if_pos (by rw [show s.nodeActs (posKey c pos) = false from ha]; rfl))
  · intro s ⟨⟨hb, ha, hm⟩, ht, he, hi, hr⟩
    exact (htile s).trans ((execTileAccess_acts hb ha).trans (nx (State.tileStep_scratch_write hm ht he hi hr)))
  · intro s ⟨⟨hb, ha, hm⟩, hr, h⟩
    exact (htile s).trans ((execTileAccess_acts hb ha).trans (nx (State.tileStep_scratch_read hm hr h)))
  · intro s ⟨⟨hb, ha, hm⟩, hq, ho⟩
    exact (htile s).trans ((execTileAccess_acts hb ha).trans (nx (State.tileStep_queue_out hm hq ho)))
  · intro s ⟨⟨hb, ha, hm⟩, hq, hi, ht, hl⟩
    exact (htile s).trans ((execTileAccess_acts hb ha).trans (nx (State.tileStep_queue_in hm hq hi ht hl)))
  · intro s ⟨⟨hb, ha, hm⟩, ht, he, hi⟩
    exact (htile s).trans ((execTileAccess_acts hb ha).trans (nx (State.tileStep_accum_write hm ht he hi)))
  · intro s ⟨hb, ha⟩
    exact (htile s).trans (execTileAccess_acts hb ha)
  · intro s h
    rw [htile]
    refine nx (if_pos ?_)
    rcases h with h | h
    · simp [h]
    · simp [show s.nodeActs (posKey c pos) = false from h]
  · intro s ⟨⟨hb, hm, ha, hk, hv, hke, hve⟩, hf⟩
    refine (hrmw s).trans ((execTileRmwFiring_fires hb hm ha hk hv hke hve (.inl hf)).trans (nx ?_))
    simp only [show tiFetch (s.pos (posKey c pos)).node = false from hf, Bool.false_eq_true, if_false]
    rfl
  · intro s ⟨⟨hb, hm, ha, hk, hv, hke, hve⟩, hf, ho⟩
    refine (hrmw s).trans ((execTileRmwFiring_fires hb hm ha hk hv hke hve (.inr ho)).trans (nx ?_))
    simp only [show tiFetch (s.pos (posKey c pos)).node = true from hf, if_true]
    rfl
  · intro s h
    rw [hrmw]
    refine nx (if_pos ?_)
    rcases h with h | h | h
    · simp [h]
    · simp [show tiMode (s.pos (posKey c pos)).node ≠ 4 from h]
    · simp [show s.nodeActs (posKey c pos) = false from h]
  · intro hp s ⟨hc, hi⟩
    rw [hgate]
    exact nx (if_pos (by simp [hc, show s.posIdle (posKey c pos) = true from hi, hp]))
  · intro s h
    rw [hgate]
    refine nx (if_neg ?_)
    rcases h with h | h | h
    · simp [Nat.not_lt.mpr h]
    · simp [h]
    · simp [show s.posIdle (posKey c pos) = false from h]
  · intro s ⟨hi, hc, hf⟩
    exact (hwake s).trans ((execPositionWake_waits hi).trans (nx ((if_neg hc).trans (State.wakePos_admits hf hi))))
  · intro s hi
    exact (hwake s).trans (execPositionWake_waits hi)
  · intro s hi
    rw [hwake]
    exact nx (if_pos (by rw [show (s.pos (posKey c pos)).ingressWaits = false from hi]; rfl))
  · intro s h
    exact (hctok s).trans (execControlTokenDeliver_switched h)
  · intro s ⟨⟨hs, hk, hc⟩, hw, hl⟩
    exact (hctok s).trans (execControlTokenDeliver_sent hs hk hc (State.ctokInto_engine hw hl))
  · intro v s ⟨⟨hs, hk, hc⟩, hw, hb, hi, hv⟩
    exact (hctok s).trans (execControlTokenDeliver_sent hs hk hc (State.ctokInto_brick hw hb hi hv))
  · intro s ⟨⟨ha, hx⟩, ho, hm, hn, hr, hb⟩
    exact (hframe s).trans ((execEngineFrame_frame ha hx ho (.inl hm)).trans (nx (State.frameStep_block hm hn hr hb)))
  · intro s ⟨⟨ha, hx⟩, ho, hm, hn, hr, h⟩
    exact (hframe s).trans ((execEngineFrame_frame ha hx ho (.inr hm)).trans (nx (State.frameStep_transform hm hn hr h)))
  · intro s ⟨⟨ha, hx⟩, ho, hm, hn, hr, hc, ht, hk, hp, hrun⟩
    exact (hframe s).trans ((execEngineFrame_frame ha hx ho (.inr hm)).trans
      (nx (State.frameStep_range hm hn hr hc ht hk hp hrun)))
  · intro s ⟨⟨ha, hx⟩, ho, hm, hin, he, hg, hb, hv⟩
    exact (hframe s).trans ((execEngineFrame_gather ha hx ho hm).trans (nx (State.gatherStep_joins hin he hg hb hv)))
  · intro s ⟨⟨ha, hx⟩, ho, hm, hin, hf, he, hl, hr⟩
    exact (hframe s).trans ((execEngineFrame_gather ha hx ho hm).trans (nx (State.gatherStep_ends hin hf he hl hr)))
  · intro s h
    rw [hframe]
    refine nx (if_pos ?_)
    rcases h with h | h <;> simp [h]
  · intro s ⟨⟨ha, hx⟩, hm, hg, h0, hf, hl⟩
    refine (hpass s).trans ((execPassEnd_frames ha hx hm hg h0 hf hl).trans (nx ?_))
    rw [Fe.ctlCleared_passesDone]
    exact rfl
  · intro s ⟨⟨ha, hx⟩, hm, h2, hc, ho⟩
    exact (hpass s).trans (execPassEnd_goes ha hx hm h2 hc ho)
  · intro s h
    exact (hpass s).trans (execPassEnd_idle h)
  · intro s ⟨⟨⟨ha, hx⟩, hl, hn, hr⟩, hm, hw⟩
    exact (hrow s).trans (execWeightRowLoad_block ha hx hl hn hr hm hw)
  · intro e s ⟨⟨⟨ha, hx⟩, hl, hn, hr⟩, hm, hw⟩
    exact (hrow s).trans (execWeightRowLoad_fault ha hx hl hn hr hm hw)
  · intro s ⟨⟨⟨ha, hx⟩, hl, hn, hr⟩, hm, hb, hz⟩
    exact (hrow s).trans (execWeightRowLoad_empty ha hx hl hn hr hm hb hz)
  · intro s h
    exact (hrow s).trans (execWeightRowLoad_idle h)
  · intro e s ⟨⟨ha, hx⟩, hm, hr, hf, hn⟩
    exact (hfault s).trans (execWeightFault_needed ha hx hm hr hf hn)
  · intro s h
    exact (hfault s).trans (execWeightFault_idle h)
  · intro s ⟨ha, hw, hm, hr⟩
    rw [hswap]
    exact nx (if_neg (by simp [ha, hw, hm, Nat.not_lt.mpr hr]))
  · intro s h
    rw [hswap]
    exact nx (if_pos (by simp [h]))

end

section
/-! SUPPORT. Streams at their ports, outcome by outcome: acceptance (R249), input beats (R247), output tokens (R248) and the
gateway of a port die (R93). -/

namespace Sys2Proof.Machine

/-! ### STREAM_ACCEPT -/

section
variable {s : State} {c port : Nat} {st y : Stream} {rest : List Stream}

theorem State.setUp_ok {k : Nat} (h : s.streamSetup k st = .ok y) :
    s.setUp k st = s.modPort k fun p => { p with cur := some y, out := bitAt (wordAt y.words 0) 61 } := by
  simp only [State.setUp, h]

/-- A port's stream whose setup could not be done yet is set up (R249). -/
theorem execStreamAccept_again (hp : port < 8) (hf : s.runFrozen (s.port (c * 8 + port)).run = false)
    (hc : (s.port (c * 8 + port)).cur = some st) (hd : st.desc = []) (hs : st.stopped = false) :
    execStreamAccept c port s = .next (s.setUp (c * 8 + port) st) := by
  simp [execStreamAccept, Nat.not_le.mpr hp, hf, hc, hd, hs]

/-- A stream whose iteration has ended, which no run takes up, ends there (R415). -/
theorem execStreamAccept_orphan (hp : port < 8) (hf : s.runFrozen (s.port (c * 8 + port)).run = false)
    (hc : (s.port (c * 8 + port)).cur = some st) (hd : st.desc ≠ [] ∨ st.stopped = true) (ho : st.slot = noSlot) :
    execStreamAccept c port s = .next (s.streamGone (c * 8 + port) st false 0 0) := by
  rcases hd with hd | hd <;> simp [execStreamAccept, Nat.not_le.mpr hp, hf, hc, hd, Stream.orphan, ho]

/-- A port's next stream on the port, its command gone from the command stream (R249). -/
def State.streamTaken (s : State) (k : Nat) (st : Stream) (rest : List Stream) : State :=
  ((s.pump st.slot).modPort k fun p => { p with inbox := rest, cur := some st, out := bitAt (wordAt st.words 0) 61 }).dropCmd st.slot
    st.id

/-- The generator takes the next stream of its inbox (R249). -/
theorem execStreamAccept_next (hp : port < 8) (hf : s.runFrozen (s.port (c * 8 + port)).run = false)
    (hc : (s.port (c * 8 + port)).cur = none) (hi : (s.port (c * 8 + port)).inbox = st :: rest)
    (hs : ((s.pump st.slot).slot st.slot).switched = false)
    (hb : ∀ d, ((s.pump st.slot).slot st.slot).cmds.find? (·.id == st.id) = some d → d.begun = true)
    (hh : ((s.pump st.slot).port (c * 8 + port)).inbox.head? = some st) :
    execStreamAccept c port s
      = .next ((((s.streamTaken (c * 8 + port) st rest).setUp (c * 8 + port) st).movedAt (portKey (c * 8 + port))).pump st.slot) := by
  have hpd : decide (8 ≤ port) = false := decide_eq_false (Nat.not_le.mpr hp)
  cases hd : ((s.pump st.slot).slot st.slot).cmds.find? (·.id == st.id) with
  | none =>
    simp only [execStreamAccept, hpd, hf, hc, hi, hs, hh, hd, ne_eq, not_true, decide_false, Bool.not_true, Bool.or_self,
      Bool.false_eq_true, if_false, State.streamTaken]
  | some d =>
    simp only [execStreamAccept, hpd, hf, hc, hi, hs, hh, hd, hb d hd, ne_eq, not_true, decide_false, Bool.not_true, Bool.or_self,
      Bool.false_eq_true, if_false, State.streamTaken]

theorem execStreamAccept_empty (hc : (s.port (c * 8 + port)).cur = none) (hi : (s.port (c * 8 + port)).inbox = []) :
    execStreamAccept c port s = .next s := by
  simp [execStreamAccept, hc, hi]

end

/-! ### STREAM_BEAT_IN -/

section
variable {s u : State} {c port : Nat} {st : Stream} {us : List Nat} (hp : port < 8)
  (hc : (s.port (c * 8 + port)).cur = some st) (hr : s.streamRuns (c * 8 + port) st = true) (ho : st.out = false)
include hp hc hr ho

/-- A stream whose traversals are done sends its marker, or ends without one (R247). -/
theorem execStreamBeatIn_eos (hf : st.full = true) (he : st.eosm = 0)
    (ha : s.arrive (portKey (c * 8 + port)) 4 eosTok = .moved u) :
    execStreamBeatIn c port s = .next ((u.streamEnd (c * 8 + port) st true).pump st.slot) := by
  simp [execStreamBeatIn, Nat.not_le.mpr hp, hc, hr, ho, hf, he, ha]

theorem execStreamBeatIn_end (hf : st.full = true) (he : st.eosm ≠ 0) :
    execStreamBeatIn c port s = .next ((s.streamEnd (c * 8 + port) st false).pump st.slot) := by
  simp [execStreamBeatIn, Nat.not_le.mpr hp, hc, hr, ho, hf, he]

variable (hf : st.full = false)
include hf

theorem execStreamBeatIn_refused (ha : s.dieAdmits (portDie (c * 8 + port)) st.asid = false) :
    execStreamBeatIn c port s = .next (s.beatFault (c * 8 + port) st ⟨0x0B, dieEntrance⟩) := by
  simp [execStreamBeatIn, Nat.not_le.mpr hp, hc, hr, ho, hf, ha]

variable (ha : s.dieAdmits (portDie (c * 8 + port)) st.asid = true)
  (hu : s.unitsIn (st.ctx (c * 8 + port)) st st.idx st.beat = .ok us)
include ha hu

theorem execStreamBeatIn_moved (ht : s.arrive (portKey (c * 8 + port)) 4 (st.token us) = .moved u) :
    execStreamBeatIn c port s = .next ((u.countBeats (portDie (c * 8 + port)) st.asid 1).modPort (c * 8 + port) fun p =>
      { p with cur := some { st.move st.beat with toks := st.toks + 1 } }) := by
  simp [execStreamBeatIn, Nat.not_le.mpr hp, hc, hr, ho, hf, ha, hu, ht]

theorem execStreamBeatIn_blocked (ht : s.arrive (portKey (c * 8 + port)) 4 (st.token us) = .blocked) :
    execStreamBeatIn c port s = .next s := by
  simp [execStreamBeatIn, Nat.not_le.mpr hp, hc, hr, ho, hf, ha, hu, ht]

end

theorem State.arrive_room {s : State} {k f : Nat} {t : Tok} (hc : s.courseTakes (k / 32) = true)
    (hf : s.runFrozen (s.pos k).run = false) (hg : s.posGated k = false) (hi : (s.pos k).ingress.getD [] f = [])
    (hl : ((s.pos k).fifo.getD [] f).length < 8) (hr : s.ringEmpty k f = true) :
    s.arrive k f t = .moved ((s.modPos k fun x => { x with fifo := x.fifo.set f ((s.pos k).fifo.getD [] f ++ [t]) }).movedAt k) := by
  rw [State.arrive, State.enterFifo_room hc hf hg hi hl hr]
  rfl

/-- An input stream that runs is one of a run that goes on (R247). -/
theorem State.streamRuns_live {s : State} {k : Nat} {st : Stream} (h : s.streamRuns k st = true) (ho : st.out = false) :
    s.runLive (s.pos (portKey k)).run = true := by
  simp only [State.streamRuns, ho, Bool.false_or, Bool.and_eq_true] at h
  obtain ⟨-, -, hl⟩ := h
  exact hl

theorem State.countAtDie_grid (s : State) (a : Nat) : (s.countAtDie a).runs = s.runs ∧ (s.countAtDie a).poss = s.poss := by
  unfold State.countAtDie
  split <;> exact ⟨rfl, rfl⟩

/-- A beat that a port die turns away is counted there, and freezes the run at the port (R93, R250). -/
theorem State.beatFault_refused {s : State} {k : Nat} {st : Stream} (hl : s.runLive (s.pos (portKey k)).run = true) :
    s.beatFault k st ⟨0x0B, dieEntrance⟩ = (s.countAtDie st.asid).streamFault k 5 0x0B (BitVec.ofNat 64 st.asid) := by
  have hg : (s.countAtDie st.asid).runLive ((s.countAtDie st.asid).pos (portKey k)).run = true := by
    obtain ⟨hr, hp⟩ := s.countAtDie_grid st.asid
    simpa only [State.runLive, State.pos, hr, hp] using hl
  simp only [State.beatFault, State.countRefusal, Stream.ctx, beq_self_eq_true, if_true, hg]

/-! ### Output tokens -/

theorem posPort_portPos {n : Nat} (h : n < 8) : posPort (portPos n) = some n := by
  unfold portPos posPort
  split
  · rw [if_pos (by omega)]
    exact congrArg some (by omega)
  · rw [if_neg (by omega), if_pos (by omega)]
    exact congrArg some (by omega)

section
variable {s u : State} {c port : Nat} {st : Stream} {t : Tok} (hp : port < 8)
include hp

theorem portKey_div : (c * 8 + port) / 8 = c ∧ (c * 8 + port) % 8 = port := by omega

theorem execTokenHop_port : execTokenHop c (portPos port) 4 s = .next (s.portGate (c * 8 + port)) := by
  refine congrArg Host.Outcome.next ?_
  simp only [Nat.lt_irrefl, if_false, if_true, posPort_portPos hp]

/-- A token enters the gateway of its port die, while that holds fewer than eight (R93, R248). -/
theorem State.portGate_enters (hc : (s.port (c * 8 + port)).cur = some st) (hr : s.streamRuns (c * 8 + port) st = true)
    (ho : st.out = true) (ha : s.dieAdmits (portDie (c * 8 + port)) st.asid = true)
    (hl : (s.port (c * 8 + port)).gate.length < 8) :
    s.portGate (c * 8 + port) = s.hopData c (portPos port) 4 fun s t =>
      .moved (s.modPort (c * 8 + port) fun q => { q with gate := q.gate ++ [t] }) := by
  obtain ⟨hd, hm⟩ := portKey_div (c := c) hp
  have hg : decide ((s.port (c * 8 + port)).gate.length < gateCap) = true := decide_eq_true hl
  simp only [State.portGate, hc, hr, ho, ha, hg, hd, hm, Bool.and_self, if_true]

omit hp in
theorem State.portGate_idle (h : (s.port (c * 8 + port)).cur = none
    ∨ ((s.port (c * 8 + port)).cur = some st ∧ st.out = false) ∨ 8 ≤ (s.port (c * 8 + port)).gate.length) :
    s.portGate (c * 8 + port) = s := by
  rcases h with h | ⟨h, ho⟩ | h
  · simp [State.portGate, h]
  · simp [State.portGate, h, ho]
  · have hg : decide ((s.port (c * 8 + port)).gate.length < gateCap) = false := decide_eq_false (Nat.not_lt.mpr h)
    unfold State.portGate
    split
    · simp [hg]
    · rfl

/-- The token on its way out of a port taken: from the port die's gateway, or from the X output (R248). -/
theorem State.portTake_eq : s.portTake (c * 8 + port)
    = if (s.port (c * 8 + port)).gate = [] then s.hopData c (portPos port) 4 fun s _ => .moved s
      else s.modPort (c * 8 + port) fun q => { q with gate := q.gate.drop 1 } := by
  obtain ⟨hd, hm⟩ := portKey_div (c := c) hp
  cases hg : (s.port (c * 8 + port)).gate with
  | nil => simp only [State.portTake, hg, hd, hm, if_true]
  | cons t r => simp only [State.portTake, hg, reduceCtorEq, if_false]

omit hp in
theorem State.portHead_of {k : Nat} (h : ((s.port k).gate = [] ∧ (s.pos (portKey k)).offered 4 = some t)
    ∨ (s.port k).gate.head? = some t) : s.portHead k = some t := by
  rcases h with ⟨hg, ho⟩ | h
  · simp only [State.portHead, hg, ho]
  · obtain ⟨r, hr⟩ := List.head?_eq_some_iff.mp h
    simp only [State.portHead, hr]

section
variable (hc : (s.port (c * 8 + port)).cur = some st) (hr : s.streamRuns (c * 8 + port) st = true) (ho : st.out = true)
  (hf : s.runFrozen (s.pos (portKey (c * 8 + port))).run = false) (hg : s.posGated (portKey (c * 8 + port)) = false)
  (ht : s.portHead (c * 8 + port) = some t) (ha : s.dieAdmits (portDie (c * 8 + port)) st.asid = true)
include hc hr ho hf hg ht ha

/-- An output stream that takes an EOS marker writes its count and ends with it (R248). -/
theorem execStreamTokenOut_eos (he : t.eos = true) (hw : s.cntaWrite (c * 8 + port) st = .ok u) :
    execStreamTokenOut c port s = .next ((((u.portTake (c * 8 + port)).streamEnd (c * 8 + port) st true).modPort (c * 8 + port)
      fun q => { q with taken := 0 }).pump st.slot) := by
  simp only [execStreamTokenOut, decide_eq_false (Nat.not_le.mpr hp), hf, hg, ht, hc, ho, hr, ha, he, hw, Bool.not_true, Bool.or_self,
    Bool.false_eq_true, if_false, if_true]

/-- An output stream that takes a whole token writes its valid lanes (R248). -/
theorem execStreamTokenOut_all (he : t.eos = false) (hm : st.eosm = 1 → st.full = false)
    (hw : s.putUnits (c * 8 + port) st (s.port (c * 8 + port)).taken ((tokUnits st.raw t).drop (s.port (c * 8 + port)).taken)
      = .all u) :
    execStreamTokenOut c port s = .next (((u.portTake (c * 8 + port)).countBeats (portDie (c * 8 + port)) st.asid 1).modPort
      (c * 8 + port) fun q => { q with taken := 0 }) := by
  have hn : (decide (st.eosm = 1) && st.full) = false := by
    by_cases h1 : st.eosm = 1
    · simp [hm h1]
    · simp [h1]
  simp only [execStreamTokenOut, decide_eq_false (Nat.not_le.mpr hp), hf, hg, ht, hc, ho, hr, ha, he, hn, hw, Bool.not_true,
    Bool.or_self, Bool.false_eq_true, if_false]

end
end

end Sys2Proof.Machine
end

section
/-! SUPPORT. Commands of a command stream that take effect, and runs and their barriers, outcome by outcome (R224 to R226, R240 to
R242, R232). -/

namespace Sys2Proof.Machine

section
variable {s u : State} {slot n run : Nat} {cmd : Cmd}

theorem execCfgloadComplete_loaded {va : Nat} (hc : ((s.pump slot).slot slot).cmds.find? (·.id == n) = some cmd)
    (hk : cmd.kind = .load va) :
    execCfgloadComplete slot n s = .next (((cmd.loads.foldl State.planeLoaded (s.pump slot)).dropCmd slot n).pump slot) := by
  simp only [execCfgloadComplete, hc, hk]

/-- A region that has been quiescent long enough for its plane to become active (R225). -/
def State.selQuiet (s : State) (cmd : Cmd) (n : Nat) : Prop :=
  s.quiescent cmd.masks cmd.feng n = true ∧ s.lastMoveIn cmd.masks cmd.feng + 16 ≤ s.now

section
variable {p : Nat} {dr : Bool} (hs : ((s.pump slot).slot slot).switched = false)
  (hc : ((s.pump slot).slot slot).cmds.find? (·.id == n) = some cmd) (hb : cmd.begun = true) (hk : cmd.kind = .sel p dr)
  (hq : (s.pump slot).selQuiet cmd n)
include hs hc hb hk hq

theorem execCfgselTakeEffect_granted
    (hw : (s.pump slot).wantAll slot true (if cmd.feng then (regionFes cmd.masks).map (·, p) else []) = (true, u)) :
    execCfgselTakeEffect slot n s = .next (((u.selectPlane n cmd.masks cmd.feng p slot).dropCmd slot n).pump slot) := by
  obtain ⟨hqu, hl⟩ := hq
  simp only [execCfgselTakeEffect, hs, hc, hk, hb, hqu, decide_eq_true hl, hw, Bool.and_self, Bool.false_eq_true, if_false, if_true]

theorem execCfgselTakeEffect_waits
    (hw : (s.pump slot).wantAll slot true (if cmd.feng then (regionFes cmd.masks).map (·, p) else []) = (false, u)) :
    execCfgselTakeEffect slot n s = .next u := by
  obtain ⟨hqu, hl⟩ := hq
  simp only [execCfgselTakeEffect, hs, hc, hk, hb, hqu, decide_eq_true hl, hw, Bool.and_self, Bool.false_eq_true, if_false, if_true]

end

theorem execCfgselTakeEffect_busy {p : Nat} {dr : Bool} (hc : ((s.pump slot).slot slot).cmds.find? (·.id == n) = some cmd)
    (hk : cmd.kind = .sel p dr) (hq : (s.pump slot).quiescent cmd.masks cmd.feng n = false) :
    execCfgselTakeEffect slot n s = .next (s.pump slot) := by
  simp [execCfgselTakeEffect, hc, hk, hq]

/-! ### RUN_BEGIN -/

/-- A run of a region begun: its barrier, its nodes, its engines and its ports at their start (R213, R241). -/
def State.runBegun (u : State) (slot run : Nat) (cmd : Cmd) : State :=
  let t := u.modRun run fun x =>
    { x with begun := true, flags := 0#7, done := false, drn := false, res := false, frozen := false, fcause := 0,
             lastMove := u.now, waitSince := none, win := ((u.slot slot).csrv csrQWIN).toNat }
  let t := cmd.masks.foldl (fun s m => if (s.course m.1).power = .active then s else s.wakeCourse m.1) t
  let t := (regionKeys cmd.masks).foldl (fun s k => (s.wakePos k).modPos k fun x => x.begin (k % 32) run s.now) t
  let t := if cmd.feng then (regionFes cmd.masks).foldl (fun s f => s.modFe f fun x => x.begin run s.now) t else t
  (regionPorts cmd.masks).foldl (fun s k => s.beginPort run k) t

theorem execRunBegin_none (h : ((s.pump slot).slot slot).cmds.find? (·.id == n) = none
    ∨ ((s.pump slot).slot slot).switched = true) : execRunBegin slot n s = .next (s.pump slot) := by
  rcases h with h | h <;> simp [execRunBegin, h]

theorem execRunBegin_waits (hc : ((s.pump slot).slot slot).cmds.find? (·.id == n) = some cmd) (hk : cmd.kind = .start run)
    (h : cmd.begun = false ∨ (s.pump slot).regionFree cmd.masks cmd.feng = false) :
    execRunBegin slot n s = .next (s.pump slot) := by
  rcases h with h | h <;> simp [execRunBegin, hc, hk, h]

section
variable (hs : ((s.pump slot).slot slot).switched = false) (hc : ((s.pump slot).slot slot).cmds.find? (·.id == n) = some cmd)
  (hb : cmd.begun = true) (hk : cmd.kind = .start run) (hf : (s.pump slot).regionFree cmd.masks cmd.feng = true)
include hs hc hb hk hf

theorem execRunBegin_asks
    (hw : (s.pump slot).wantAll slot true (if cmd.feng then (s.pump slot).activePlanes cmd.masks else []) = (false, u)) :
    execRunBegin slot n s = .next u := by
  simp only [execRunBegin, hs, hc, hk, hb, hf, hw, Bool.not_true, Bool.or_self, Bool.false_eq_true, if_false]

theorem execRunBegin_begins
    (hw : (s.pump slot).wantAll slot true (if cmd.feng then (s.pump slot).activePlanes cmd.masks else []) = (true, u)) :
    execRunBegin slot n s = .next (((u.runBegun slot run cmd).dropCmd slot n).pump slot) := by
  simp only [execRunBegin, hs, hc, hk, hb, hf, hw, Bool.not_true, Bool.or_self, Bool.false_eq_true, if_false, State.runBegun]

end
end

/-! ### BARRIER_COMPLETE and the backstop -/

section
variable {s : State} {run : Nat} {r : Run} (hr : s.runs.get? run = some r)
include hr

theorem execBarrierComplete_idle (h : r.begun = false ∨ r.done = true ∨ r.frozen = true ∨ s.runEnded run r = false) :
    execBarrierComplete run s = .next s := by
  rcases h with h | h | h | h <;> simp [execBarrierComplete, hr, h]

/-- A run whose nodes have ended: RES and DONE, and its ports released (R242). -/
def State.runClosed (s : State) (run : Nat) (r : Run) : State :=
  let t := s.modRun run fun x => { x with res := barRes x.spec x.flags, done := true }
  (regionPorts r.masks).foldl (fun s k => s.modPort k fun p =>
    if p.run = some run then { p with started := false, part := false } else p) t

/-- The thread of a run told of its end (R242, R403). -/
def State.runTold (s : State) (r : Run) : State := ((s.modSlot r.slot (·.woken 2)).releaseGrant r.masks r.slot).pump r.slot

variable (hb : r.begun = true) (hd : r.done = false) (hf : r.frozen = false)
include hb hd hf

theorem execBarrierComplete_silent (he : s.runEnded run r = true) (ht : r.spec.getLsbD 24 = false) :
    execBarrierComplete run s = .next ((s.runClosed run r).runTold r) := by
  have hn : bitAt r.spec.toNat 24 = false := ht
  unfold execBarrierComplete State.runTold State.runClosed
  simp only [hr, hb, hd, hf, he, hn, Bool.not_true, Bool.or_self, Bool.false_eq_true, if_false]
  split <;> rfl

theorem execBarrierComplete_token {p : Nat} (he : s.runEnded run r = true) (ht : r.spec.getLsbD 24 = true)
    (hp : (s.runClosed run r).partOfAsid r.asid = some p) :
    execBarrierComplete run s = .next (((s.runClosed run r).sendToken p (bitsAt r.spec.toNat 11 0) (r.spec.extractLsb' 32 32)
      (some (dieOf (r.masks.headD (0, 0)).1))).runTold r) := by
  have hn : bitAt r.spec.toNat 24 = true := ht
  unfold State.runClosed at hp
  unfold execBarrierComplete State.runTold State.runClosed
  simp only [hr, hb, hd, hf, he, hn, hp, Bool.not_true, Bool.or_self, Bool.false_eq_true, if_false, if_true]

/-- A silent region with a starved sink freezes (R232). -/
theorem execBackstopStall_freezes (hl : r.lastMove + 2 * r.win ≤ s.now) (hs : s.sourceShort r = true)
    (hk : s.sinkShort r = true) (hw : s.runWaits r = false) :
    execBackstopStall run s = .next (s.freeze run 1 0x11 0
      (BitVec.ofNat 64 (((r.masks.find? fun m => m.1 == courseOf r.slot).map (·.2)).getD 0))) := by
  simp [execBackstopStall, hr, hb, hd, hf, hl, hs, hk, hw]

omit hb hd hf in
theorem execBackstopStall_idle (h : s.now < r.lastMove + 2 * r.win ∨ s.sinkShort r = false ∨ s.sourceShort r = false) :
    execBackstopStall run s = .next s := by
  rcases h with h | h | h
  · simp [execBackstopStall, hr, Nat.not_le.mpr h]
  · simp [execBackstopStall, hr, h]
  · simp [execBackstopStall, hr, h]

end

end Sys2Proof.Machine
end

section
open Sys2Proof Sys2Proof.Machine

/-- Settles O50: each event of a stream, of a command, of a run and of a grant, by the state it meets. -/
theorem streamsAndRuns : Obligations.StreamsAndRuns := by
  intro c port slot n run pd st us cmd r g va p dr t rest v y k pk idle ask here next accepted room enters runs offers passed gates
    over' starts quiet selWants runWants ends closed told
  have nx : ∀ {a b : State}, a = b → (Host.Outcome.next a : Out) = .next b := fun h => congrArg _ h
  have hacc : ∀ s, exec (.streamAccept c port) s = execStreamAccept c port s := fun _ => rfl
  have hin : ∀ s, exec (.streamBeatIn c port) s = execStreamBeatIn c port s := fun _ => rfl
  have hhop : ∀ s, exec (.tokenHop c (portPos port) 4) s = execTokenHop c (portPos port) 4 s := fun _ => rfl
  have hout : ∀ s, exec (.streamTokenOut c port) s = execStreamTokenOut c port s := fun _ => rfl
  have hmet : ∀ s, exec (.gatewayMeterWindow pd) s = execGatewayMeterWindow pd s := fun _ => rfl
  have hload : ∀ s, exec (.cfgloadComplete slot n) s = execCfgloadComplete slot n s := fun _ => rfl
  have hsel : ∀ s, exec (.cfgselTakeEffect slot n) s = execCfgselTakeEffect slot n s := fun _ => rfl
  have hrun : ∀ s, exec (.runBegin slot n) s = execRunBegin slot n s := fun _ => rfl
  have hbar : ∀ s, exec (.barrierComplete run) s = execBarrierComplete run s := fun _ => rfl
  have hstop : ∀ s, exec (.backstopStall run) s = execBackstopStall run s := fun _ => rfl
  have hgr : ∀ s, exec (.powerGrant n) s = execPowerGrant n s := fun _ => rfl
  have hlow : ∀ s, exec (.grantOfferLower n) s = execGrantOfferLower n s := fun _ => rfl
  have harr : ∀ s t, room s → s.arrive pk 4 t = .moved (enters s t) := fun s t ⟨hc, hf, hg, hi, hl, hr⟩ =>
    State.arrive_room hc hf hg hi hl hr
  refine ⟨?_, fun s ⟨hc, hi⟩ => (hacc s).trans (execStreamAccept_empty hc hi), ?_, ?_, ?_, ?_, ?_, ?_, ?_, ?_, ?_, ?_, ?_, ?_, ?_, ?_,
    ?_, ?_, ?_, ?_, ?_, ?_, ?_, ?_, ?_, ?_, ?_, ?_, ?_, ?_, ?_, ?_, ?_, ?_, ?_, ?_, ?_, ?_, ?_, ?_⟩
  · intro s h
    rw [hacc]
    refine nx (if_pos ?_)
    rcases h with h | h
    · simp [h]
    · simp [show s.runFrozen (s.port (c * 8 + port)).run = true from h]
  · intro s ⟨⟨hp, hc⟩, hf, hd, hs, hy⟩
    exact (hacc s).trans ((execStreamAccept_again hp hf hc hd hs).trans (nx (State.setUp_ok hy)))
  · intro s ⟨⟨hp, hc⟩, hf, hd, hs⟩
    exact (hacc s).trans (execStreamAccept_again hp hf hc hd hs)
  · intro s ⟨⟨hp, hc⟩, hf, hd, ho⟩
    exact (hacc s).trans (execStreamAccept_orphan hp hf hc hd ho)
  · intro s ⟨⟨hp, hf, hc, hi, hs, hb, hh⟩, hy⟩
    exact (hacc s).trans ((execStreamAccept_next hp hf hc hi hs hb hh).trans
      (nx (congrArg (fun t : State => (t.movedAt pk).pump st.slot) (State.setUp_ok hy))))
  · intro s ⟨hp, hf, hc, hi, hs, hb, hh⟩
    exact (hacc s).trans (execStreamAccept_next hp hf hc hi hs hb hh)
  · intro s hc
    rw [hin]
    simp only [execStreamBeatIn, show (s.port (c * 8 + port)).cur = none from hc]
  · intro s ⟨⟨⟨hp, hc⟩, hr⟩, ho, hf, ha, hu, hm⟩
    exact (hin s).trans (execStreamBeatIn_moved hp hc hr ho hf ha hu (harr s _ hm))
  · intro s ⟨⟨⟨hp, hc⟩, hr⟩, ho, hf, ha, hu, hm⟩
    exact (hin s).trans (execStreamBeatIn_blocked hp hc hr ho hf ha hu hm)
  · intro s ⟨⟨⟨hp, hc⟩, hr⟩, ho, hf, he, hm⟩
    exact (hin s).trans (execStreamBeatIn_eos hp hc hr ho hf he (harr s _ hm))
  · intro s ⟨⟨⟨hp, hc⟩, hr⟩, ho, hf, he⟩
    exact (hin s).trans (execStreamBeatIn_end hp hc hr ho hf he)
  · intro s ⟨⟨⟨hp, hc⟩, hr⟩, ho, hf, ha⟩
    exact (hin s).trans ((execStreamBeatIn_refused hp hc hr ho hf ha).trans
      (nx (State.beatFault_refused (State.streamRuns_live hr ho))))
  · intro s ⟨⟨⟨⟨hp, hc⟩, hr⟩, ho, ha⟩, hl⟩
    exact (hhop s).trans ((execTokenHop_port hp).trans (nx (State.portGate_enters hp hc hr ho ha hl)))
  · intro s ⟨hp, h⟩
    exact (hhop s).trans ((execTokenHop_port hp).trans (nx (State.portGate_idle (st := st)
      (h.imp_right (Or.imp_left fun ⟨⟨_, hc⟩, ho⟩ => ⟨hc, ho⟩)))))
  · intro s h
    rw [hout]
    refine nx (if_pos ?_)
    rcases h with h | h
    · simp [h]
    · simp [show s.runFrozen (s.pos (portKey (c * 8 + port))).run = true from h]
  · intro s ⟨⟨⟨⟨hp, hc⟩, hr⟩, ho, hf, hg, ht, ha⟩, he, h0⟩
    refine (hout s).trans ((execStreamTokenOut_eos hp hc hr ho hf hg (State.portHead_of ht) ha he (if_pos h0)).trans (nx ?_))
    rw [State.portTake_eq hp]
  · intro s ⟨⟨⟨⟨hp, hc⟩, hr⟩, ho, hf, hg, ht, ha⟩, he, hw⟩
    refine (hout s).trans ((execStreamTokenOut_eos hp hc hr ho hf hg (State.portHead_of ht) ha he hw).trans (nx ?_))
    rw [State.portTake_eq hp]
  · intro s ⟨⟨⟨⟨hp, hc⟩, hr⟩, ho, hf, hg, ht, ha⟩, he, hm, hw⟩
    refine (hout s).trans ((execStreamTokenOut_all hp hc hr ho hf hg (State.portHead_of ht) ha he hm hw).trans (nx ?_))
    rw [State.portTake_eq hp]
  · intro s h
    exact (hmet s).trans (nx (if_pos h))
  · intro s h
    exact (hmet s).trans (nx (if_neg fun hc => h.elim (Nat.not_le.mpr hc.1) fun hl => Nat.not_le.mpr hl hc.2))
  · intro s ⟨hc, hk⟩
    exact (hload s).trans (execCfgloadComplete_loaded hc hk)
  · intro s hc
    rw [hload]
    simp only [execCfgloadComplete, show ((s.pump slot).slot slot).cmds.find? (·.id == n) = none from hc]
  · intro s ⟨⟨hs, hc, hb⟩, hk, hq, hw⟩
    exact (hsel s).trans (execCfgselTakeEffect_granted hs hc hb hk hq hw)
  · intro s ⟨⟨hs, hc, hb⟩, hk, hq, hw⟩
    exact (hsel s).trans (execCfgselTakeEffect_waits hs hc hb hk hq hw)
  · intro s ⟨hk, hc, hq⟩
    exact (hsel s).trans (execCfgselTakeEffect_busy hc hk hq)
  · intro s h
    exact (hrun s).trans (execRunBegin_none h)
  · intro s ⟨hk, hc, h⟩
    exact (hrun s).trans (execRunBegin_waits hc hk h)
  · intro s ⟨⟨hs, hc, hb⟩, hk, hf, hw⟩
    exact (hrun s).trans (execRunBegin_asks hs hc hb hk hf hw)
  · intro s ⟨⟨hs, hc, hb⟩, hk, hf, hw⟩
    exact (hrun s).trans (execRunBegin_begins hs hc hb hk hf hw)
  · intro s hr
    rw [hbar]
    simp only [execBarrierComplete, show s.runs.get? run = none from hr]
  · intro s ⟨hr, h⟩
    exact (hbar s).trans (execBarrierComplete_idle hr h)
  · intro s ⟨⟨hr, hb, hd, hf, he⟩, ht⟩
    exact (hbar s).trans (execBarrierComplete_silent hr hb hd hf he ht)
  · intro s ⟨⟨hr, hb, hd, hf, he⟩, ht, hp⟩
    exact (hbar s).trans (execBarrierComplete_token hr hb hd hf he ht hp)
  · intro s ⟨hb, hd, hf, hr, hl, hs, hk, hw⟩
    exact (hstop s).trans (execBackstopStall_freezes hr hb hd hf hl hs hk hw)
  · intro s ⟨hr, h⟩
    exact (hstop s).trans (execBackstopStall_idle hr h)
  · intro s ⟨hg, hn, hb⟩
    rw [hgr]
    simp [execPowerGrant, hg, hn, hb]
  · intro s hg
    rw [hgr]
    simp only [execPowerGrant, show s.grants.get? n = none from hg]
  · intro s ⟨hg, hn, ht, hc⟩
    rw [hlow]
    simp [execGrantOfferLower, hg, hn, ht, hc]
  · intro s ⟨hg, h⟩
    rw [hlow]
    rcases h with h | h
    · simp [execGrantOfferLower, hg, h]
    · simp [execGrantOfferLower, hg, Nat.not_lt.mpr h]

end

section
/-! SUPPORT. Messages, copies and memory, outcome by outcome: copies and their replies (R85, R86, R327 to R336), remote stores (R377,
R388), refresh (R299 to R301) and withdrawn translations (R312 to R315, R386). -/

namespace Sys2Proof.Machine

/-! ### Copies -/

section
variable {s t : State} {e id st a n : Nat} {c d : Copy}

theorem execCopyAccept_ok (hn : (s.copies.find? fun k => k.2.eng == some e && !k.2.accepted && !k.2.parked) = some (id, c))
    (hr : s.readCopy c = .ok d) : execCopyAccept e s = .next (s.modCopy id fun _ => { d with accepted := true }) := by
  simp only [execCopyAccept, hn, hr]

theorem execCopyAccept_error (hn : (s.copies.find? fun k => k.2.eng == some e && !k.2.accepted && !k.2.parked) = some (id, c))
    (hr : s.readCopy c = .error (st, a)) : execCopyAccept e s = .next (s.endCopy id st a) := by
  simp only [execCopyAccept, hn, hr]

theorem execCopyAccept_none (hn : (s.copies.find? fun k => k.2.eng == some e && !k.2.accepted && !k.2.parked) = none) :
    execCopyAccept e s = .next s := by
  simp only [execCopyAccept, hn]

/-- A copy under way, whose next piece nothing holds back (R94, R334). -/
def State.copyMoves (s : State) (id : Nat) (c : Copy) : Prop :=
  s.copies.get? id = some c ∧ c.accepted = true ∧ c.res = none ∧ c.parked = false ∧ c.next < c.total
    ∧ s.parkedCopy id = false ∧ s.beatFits c.pd c.asid = true

/-- A copy under way passes the checks of its next piece. -/
theorem State.copyMoves.passes (h : s.copyMoves id c) :
    (!c.accepted || c.res.isSome || c.parked || decide (c.next ≥ c.total) || s.parkedCopy id || !s.beatFits c.pd c.asid) = false := by
  obtain ⟨-, ha, hr, hp, hl, hk, hb⟩ := h
  simp [ha, hr, hp, hk, hb, hl]

theorem execCopyPiece_down (h : s.copyMoves id c) (hd : s.dieDown (8 + c.pd) = true) :
    execCopyPiece id s = .next (s.endCopy id 8 0) := by
  simp only [execCopyPiece, h.1, h.passes, hd, Bool.false_eq_true, if_false, if_true]

section
variable (h : s.copyMoves id c) (hd : s.dieDown (8 + c.pd) = false)
include h hd

theorem execCopyPiece_refused (ha : s.dieAdmits c.pd c.asid = false) :
    execCopyPiece id s = .next (s.endCopy id 0x0B dieEntrance) := by
  simp only [execCopyPiece, h.1, h.passes, hd, ha, Bool.not_false, Bool.false_eq_true, if_false, if_true]

variable (ha : s.dieAdmits c.pd c.asid = true)
include ha

theorem execCopyPiece_super (hf : c.dest.fmt = 14) : execCopyPiece id s = .next (s.superPiece id c) := by
  simp only [execCopyPiece, h.1, h.passes, hd, ha, hf, Bool.not_true, Bool.false_eq_true, if_false, if_true]

variable {hi : Nat} (hf : c.dest.fmt ≠ 14) (hp : s.pieceEnd c (s.pieceKey c c.next) (c.next + 1) 255 = hi)
include hf hp

/-- A piece read in full is delivered (R333, R334). -/
theorem execCopyPiece_done {es : List CopyElem} {fl : Flags} (he : s.copyElems c c.next (hi - c.next) = .ok es)
    (ht : s.copyDeliver c es = (t, fl)) :
    execCopyPiece id s = .next ((t.modCopy id fun c => { c with next := hi, flags := c.flags ||| fl }).countBeats c.pd c.asid
      (c.beats (hi - c.next))) := by
  subst hp
  simp only [execCopyPiece, h.1, h.passes, hd, ha, hf, he, ht, Bool.not_true, Bool.false_eq_true, if_false]

theorem execCopyPiece_fault {k : EngErr} (he : s.copyElems c c.next (hi - c.next) = .error k) :
    execCopyPiece id s = .next (s.endCopy id k.status k.addr) := by
  subst hp
  simp only [execCopyPiece, h.1, h.passes, hd, ha, hf, he, Bool.not_true, Bool.false_eq_true, if_false]

end

theorem execCopyPiece_idle (hc : s.copies.get? id = some c) (h : c.accepted = false ∨ c.res.isSome = true ∨ c.total ≤ c.next) :
    execCopyPiece id s = .next s := by
  rcases h with h | h | h <;> simp [execCopyPiece, hc, h]

theorem execCopyPiece_parked (h : s.parkedCopy id = true) : execCopyPiece id s = .next s := by
  unfold execCopyPiece
  split
  next => rfl
  next => simp [h]

/-! ### Completion and replies of copies -/

/-- A copy whose pieces are all done ends without an error (R336). -/
def State.copyEnded (s : State) (id : Nat) : State := s.modCopy id fun c => { c with res := some (0, 0), completed := true }

section
variable (hc : s.copies.get? id = some c) (ha : c.accepted = true) (hd : c.completed = false) (hp : c.parked = false)
  (hk : s.parkedCopy id = false) (hr : c.res = none) (hl : c.total ≤ c.next)
include hc ha hd hp hk hr hl

theorem execCopyComplete_silent (ht : (wordAt c.words 7).testBit 12 = false) :
    execCopyComplete id s = .next (s.copyEnded id) := by
  have hb : bitAt (wordAt c.words 7) 12 = false := ht
  simp only [execCopyComplete, hc, ha, hd, hp, hk, hr, hb, decide_eq_false (Nat.not_lt.mpr hl), Option.getD_none, Bool.not_true,
    Bool.or_self, Bool.and_false, Bool.false_eq_true, if_false, State.copyEnded]
  split <;> rfl

theorem execCopyComplete_token {p : Nat} (ht : (wordAt c.words 7).testBit 12 = true)
    (hq : (s.copyEnded id).partOfAsid c.asid = some p) :
    execCopyComplete id s = .next ((s.copyEnded id).sendToken p (wordAt c.words 7 % 2 ^ 12)
      (BitVec.ofNat 32 (wordAt c.words 7 / 2 ^ 32 % 2 ^ 32)) (some (8 + c.pd))) := by
  have hb : bitAt (wordAt c.words 7) 12 = true := ht
  unfold State.copyEnded at hq ⊢
  simp only [execCopyComplete, hc, ha, hd, hp, hk, hr, hb, hq, decide_eq_false (Nat.not_lt.mpr hl), Option.getD_none, Bool.not_true,
    Bool.or_self, Bool.and_false, Bool.false_eq_true, if_false, decide_true, Bool.and_true, if_true, bitsAt_eq_div_mod,
    Nat.pow_zero, Nat.div_one, Nat.sub_zero]

end

theorem execCopyComplete_idle (h : s.copies.get? id = none ∨ s.parkedCopy id = true) : execCopyComplete id s = .next s := by
  unfold execCopyComplete
  split
  next => rfl
  next c hc =>
    have hk := h.resolve_left (by rw [hc]; exact Option.some_ne_none _)
    simp [hk]

/-- An engine's inbox takes a message that no later one of its sender has passed (R85). -/
theorem State.copyInbox_takes (hc : s.copies.get? n = some c) (hg : c.eng = none) (ha : c.accepted = false) (hp : c.parked = false)
    (he : e / 8 = c.pd)
    (hl : ((s.copies.filter fun k => k.2.eng == some e).filter fun k => !k.2.accepted).length < engineInbox)
    (ho : ∀ k ∈ s.copies.filter fun k => k.2.eng == some e,
      n < k.1 → k.2.slot = c.slot → k.2.firing.isSome = c.firing.isSome → False) :
    s.copyInbox n e = s.modCopy n fun c => { c with eng := some e } := by
  have hpass : anyB (fun k : Nat × Copy => decide (n < k.1) && k.2.slot == c.slot && k.2.firing.isSome == c.firing.isSome)
      (s.copies.filter fun k => k.2.eng == some e) = false := anyB_eq_false.mpr fun k hk => by
    rw [← Bool.not_eq_true]
    simp only [Bool.and_eq_true, decide_eq_true_eq, beq_iff_eq]
    exact fun ⟨⟨h1, h2⟩, h3⟩ => ho k hk h1 h2 h3
  simp only [State.copyInbox, hc, hg, ha, hp, he, hpass, decide_eq_false (Nat.not_le.mpr hl), Option.isSome_none, ne_eq, not_true,
    decide_false, Bool.or_self, Bool.false_eq_true, if_false]

/-- A copy's reply reaches the thread that sent it (R86). -/
theorem State.copyReply_thread {b : Nat} (hd : c.completed = true) (hr : c.replied = false) (hf : c.firing = none)
    (hs : c.slot = some b) (ho : c.orphan = false) :
    s.copyReply n c = (s.modCopy n fun c => { c with replied := true }).modSlot b (·.woken 2) := by
  simp [State.copyReply, hd, hr, hf, hs, ho]

/-- A copy's reply reaches the walker whose firing sent it (R78, R86). -/
theorem State.copyReply_firing {f : Nat} {x : Firing} (hd : c.completed = true) (hr : c.replied = false) (hf : c.firing = some f)
    (hx : s.firings.get? f = some x) :
    s.copyReply n c = { s with
      copies := s.copies.erase n, firings := s.firings.set f { x with result := some (c.res.getD (0, 0)).1 } } := by
  simp [State.copyReply, hd, hr, hf, hx]

end

/-! ### Remote operations -/

section
variable {s : State} {n b e : Nat} {r : Rop} (hr : s.rops.get? n = some r)

theorem State.ropReplied_thread (hk : r.kind ≠ .store) (ho : r.orphan = false) (hs : r.slot = some b) :
    s.ropReplied n r = (s.modRop n fun r => { r with replied := true }).modSlot b (·.woken 2) := by
  simp [State.ropReplied, hk, ho, hs]

/-- A store that succeeded, and that no thread stands in, is gone with its reply (R377). -/
theorem State.ropReplied_store (hk : r.kind = .store) (ho : r.orphan = false) (hs : r.slot = some b)
    (h0 : (r.res.getD (0, 0#64)).1 = 0) (hn : (s.slot b).rop ≠ some n) :
    s.ropReplied n r = { s with rops := s.rops.erase n }.modSlot b (·.woken 2) := by
  simp [State.ropReplied, hk, ho, hs, h0, hn]

include hr

theorem execEngineMessageAccept_takes (ho : r.own = true) (hs : r.res = none) (ht : r.taken = false) :
    execEngineMessageAccept n e s = .next (s.takeRop n r) := by
  simp [execEngineMessageAccept, hr, ho, hs, ht]

theorem execEngineMessageAccept_sends (ho : r.own = true) (hs : r.res = none) (ht : r.taken = true) (hx : r.xl = none) :
    execEngineMessageAccept n e s = .next (s.sendRop n r) := by
  simp [execEngineMessageAccept, hr, ho, hs, ht, hx]

variable (ho : r.own = true) (hp : r.replied = false) (hs : s.settled r = true)
include ho hp hs

theorem execReply_rop (hc : s.copies.get? n = none) (hk : r.kind ≠ .store) (hx : r.kind ≠ .xlat) :
    execReply n s = .next (s.ropReplied n r) := by
  simp [execReply, hc, hr, ho, hp, hs, hk, hx]

theorem execRemoteStoreCompletion_done (hk : r.kind = .store) (ht : r.taken = true) :
    execRemoteStoreCompletion n s = .next ((s.settleTok n r ((r.res.getD (0, 0#64)).1 == 0)).ropReplied n r) := by
  simp [execRemoteStoreCompletion, hr, ho, hp, hs, hk, ht]

end

end Sys2Proof.Machine
end

section
/-! SUPPORT. Refresh and its takeover (R299 to R301), and withdrawn translations (R312 to R315, R386), outcome by outcome. -/

namespace Sys2Proof.Machine

/-! ### Refresh -/

/-- A row group at the beginning of a new window: refreshed, or its refresh skipped (R299). -/
def State.rowRefreshed (s : State) (stack rg : Nat) : RowGroup :=
  { since := s.now, bits := 0#16, skipped := s.skips stack && (s.rowGroup stack rg).bits == BitVec.allOnes 16 }

section
variable {s : State} {stack rg a : Nat} (hs : stack < 8) (hg : rg < 2 ^ 22)
include hs hg

/-- One row group is refreshed by its stack manager, or by a port die in its first pass (R299, R300). -/
theorem execRefreshRowGroup_one (hn : s.nextDeadline stack rg = true) (hr : s.refreshed stack rg = [rg]) :
    execRefreshRowGroup stack rg s
      = .next { s with rowGroups := s.rowGroups.set (rowKey stack rg) (s.rowRefreshed stack rg) } := by
  refine congrArg Host.Outcome.next ((if_pos ⟨hs, hg, hn⟩).trans ?_)
  rw [hr]
  rfl

theorem execRefreshRowGroup_banks (hn : s.nextDeadline stack rg = true) :
    execRefreshRowGroup stack rg s = .next ((s.refreshed stack rg).foldl
      (fun t g => { t with rowGroups := t.rowGroups.set (rowKey stack g) (s.rowRefreshed stack g) }) s) :=
  congrArg Host.Outcome.next (if_pos ⟨hs, hg, hn⟩)

omit hs hg in
theorem State.nextDeadline_manager (h : (s.stackMgrs.getD {} stack).tookAt = none) : s.nextDeadline stack rg = true := by
  simp only [State.nextDeadline, h]

omit hs hg in
theorem State.nextDeadline_after (h : (s.stackMgrs.getD {} stack).tookAt = some a) (hp : s.firstPass stack a = false) :
    s.nextDeadline stack rg = true := by
  simp only [State.nextDeadline, h, hp, Bool.not_false, Bool.true_or]

omit hs hg in
theorem State.refreshed_manager (h : (s.stackMgrs.getD {} stack).tookAt = none) : s.refreshed stack rg = [rg] := by
  simp only [State.refreshed, h]

omit hs hg in
theorem State.refreshed_first (h : (s.stackMgrs.getD {} stack).tookAt = some a) (hp : s.firstPass stack a = true) :
    s.refreshed stack rg = [rg] := by
  simp only [State.refreshed, h, hp, if_true]

omit hs hg in
/-- After a port die's first pass one refresh reaches the same rows of every bank (R300). -/
theorem State.refreshed_after (h : (s.stackMgrs.getD {} stack).tookAt = some a) (hp : s.firstPass stack a = false) :
    s.refreshed stack rg = (rangeFrom 0 16).map fun b => rg / 2 ^ 16 * 2 ^ 16 + b * 2 ^ 12 + rg % 2 ^ 12 := by
  simp only [State.refreshed, h, hp, Bool.false_eq_true, if_false]

end

theorem bitsAt_high (n : Nat) : bitsAt n 63 32 = n / 2 ^ 32 % 2 ^ 32 := by simp [bitsAt_eq_div_mod]

/-! ### Withdrawn translations -/

section
variable {s t : State} {inv holder : Nat} {v : Inval} (hv : s.invals.get? inv = some v)
include hv

/-- A holder that an invalidation waits for drops what it withdraws, and acknowledges (R314). -/
theorem execInvalidationReceive_holds (hs : v.src = none) (hw : v.waiting.contains holder = true) (hr : holder ≠ holdRemote)
    (hl : holder < 0x10000) :
    execInvalidationReceive inv holder s
      = .next { (s.withdraw v holder).acknowledge inv holder with parked := s.parked.filter fun k => !v.cancels holder k } := by
  have hc : (decide (holder = holdRemote) || decide (0x10000 ≤ holder) || v.src.isSome || !v.waiting.contains holder) = false := by
    rw [decide_eq_false hr, decide_eq_false (Nat.not_le.mpr hl), hs, hw]
    rfl
  simp only [execInvalidationReceive, hv, hc, Bool.false_eq_true, if_false]

/-- An acknowledgement that is not the last leaves the invalidation outstanding (R315). -/
theorem State.acknowledge_more (h : ∃ k ∈ v.waiting, k ≠ holder) :
    s.acknowledge inv holder
      = { s with invals := s.invals.set inv { v with waiting := v.waiting.filter (· ≠ holder) } } := by
  have hf : (v.waiting.filter (· ≠ holder)).isEmpty = false := by
    obtain ⟨k, hk, hn⟩ := h
    exact List.isEmpty_eq_false_iff_exists_mem.mpr ⟨k, List.mem_filter.mpr ⟨hk, decide_eq_true hn⟩⟩
  simp only [State.acknowledge, hv, hf, Bool.false_eq_true, if_false]

/-- The last acknowledgement ends an invalidation (R315). -/
theorem State.acknowledge_last (h : ∀ k ∈ v.waiting, k = holder) (hs : v.scope ≠ 4) :
    s.acknowledge inv holder = { s with invals := s.invals.erase inv } := by
  have hf : (v.waiting.filter (· ≠ holder)).isEmpty = true := by
    simpa [List.filter_eq_nil_iff] using h
  have hc : (v.src.isNone && v.scope == 4) = false := by rw [beq_eq_false_iff_ne.mpr hs, Bool.and_false]
  simp only [State.acknowledge, hv, hf, if_true, State.clearHolders, hc, Bool.false_eq_true, if_false]

/-! ### TARGET_INVALIDATION -/

section
variable {pkg xtag : Nat} (hs : v.src = some (pkg, xtag))
include hs

/-- Another package's invalidation acknowledged once no operation uses what it withdraws (R386). -/
theorem execTargetInvalidation_answers (hu : (s.dropRemote pkg v).usesWithdrawn pkg v = false)
    (ht : (s.dropRemote pkg v).sendOn v.plane
      { kind := 0x0E, dpkg := pkg, spkg := (s.dropRemote pkg v).pkg, xtag := xtag, asid := v.asidLo, port := 0,
        words := [BitVec.ofNat 64 (v.waiting.headD 0 - remoteHolder 0)] } = some t) :
    execTargetInvalidation inv s = .next { t with invals := t.invals.erase inv } := by
  simp only [execTargetInvalidation, hv, hs, hu, ht, Bool.false_eq_true, if_false]

theorem execTargetInvalidation_uses (hu : (s.dropRemote pkg v).usesWithdrawn pkg v = true) :
    execTargetInvalidation inv s = .next (s.dropRemote pkg v) := by
  simp only [execTargetInvalidation, hv, hs, hu, if_true]

end

section
variable (hs : v.src = none) (hw : v.waiting.contains holdRemote = true)
include hs hw

theorem execTargetInvalidation_tells (ht : v.told = false) : execTargetInvalidation inv s = .next (s.tellRemote inv v) := by
  simp only [execTargetInvalidation, hv, hs, hw, ht, Bool.not_true, Bool.not_false, Bool.false_eq_true, if_false, if_true]

theorem execTargetInvalidation_own (ht : v.told = true) (hu : s.usesWithdrawn s.pkg v = false)
    (hl : ∀ h ∈ v.waiting, h < remoteHolder 0) : execTargetInvalidation inv s = .next (s.acknowledge inv holdRemote) := by
  have ha : anyB (fun h => decide (remoteHolder 0 ≤ h)) v.waiting = false :=
    anyB_eq_false.mpr fun h hm => decide_eq_false (Nat.not_le.mpr (hl h hm))
  simp only [execTargetInvalidation, hv, hs, hw, ht, hu, ha, Bool.not_true, Bool.or_self, Bool.false_eq_true, if_false]

theorem execTargetInvalidation_waits (ht : v.told = true)
    (h : s.usesWithdrawn s.pkg v = true ∨ ∃ h ∈ v.waiting, remoteHolder 0 ≤ h) : execTargetInvalidation inv s = .next s := by
  have hor : (s.usesWithdrawn s.pkg v || anyB (fun h => decide (remoteHolder 0 ≤ h)) v.waiting) = true := by
    rcases h with h | ⟨k, hk, hl⟩
    · rw [h, Bool.true_or]
    · rw [anyB_eq_true.mpr ⟨k, hk, decide_eq_true hl⟩, Bool.or_true]
  simp only [execTargetInvalidation, hv, hs, hw, ht, hor, Bool.not_true, Bool.false_eq_true, if_false, if_true]

end
end

end Sys2Proof.Machine
end

section
open Sys2Proof Sys2Proof.Machine

/-- Settles O51: each event of a message, a copy, a reply, a row group and an invalidation, by the state it meets. -/
theorem copiesRepliesAndStacks : Obligations.CopiesRepliesAndStacks := by
  intro n e id stack rg port inv holder asid st a hi b f p pkg xtag va c d r v fl es t x idle next hrs moves flows done' completes
    mine group row mgr own holds dropped
  have nx : ∀ {a b : State}, a = b → (Host.Outcome.next a : Out) = .next b := fun h => congrArg _ h
  have hacc : ∀ s, exec (.copyAccept e) s = execCopyAccept e s := fun _ => rfl
  have hpiece : ∀ s, exec (.copyPiece id) s = execCopyPiece id s := fun _ => rfl
  have hdone : ∀ s, exec (.copyComplete id) s = execCopyComplete id s := fun _ => rfl
  have hmsg : ∀ s, exec (.engineMessageAccept n e) s = execEngineMessageAccept n e s := fun _ => rfl
  have hrep : ∀ s, exec (.reply n) s = execReply n s := fun _ => rfl
  have hst : ∀ s, exec (.remoteStoreCompletion n) s = execRemoteStoreCompletion n s := fun _ => rfl
  have hrow : ∀ s, exec (.refreshRowGroup stack rg) s = execRefreshRowGroup stack rg s := fun _ => rfl
  have hbeat : ∀ s, exec (.stackHeartbeat stack) s = execStackHeartbeat stack s := fun _ => rfl
  have htake : ∀ s, exec (.refreshTakeover stack) s = execRefreshTakeover stack s := fun _ => rfl
  have hreset : ∀ s, exec (.stackManagerReset stack) s = execStackManagerReset stack s := fun _ => rfl
  have hcxl : ∀ o s, exec (.cxlEnumeration port o) s = execCxlEnumeration port o s := fun _ _ => rfl
  have hinv : ∀ s, exec (.invalidationReceive inv holder) s = execInvalidationReceive inv holder s := fun _ => rfl
  have htgt : ∀ s, exec (.targetInvalidation inv) s = execTargetInvalidation inv s := fun _ => rfl
  have hinbox : ∀ s, s.rops.get? n = none → execEngineMessageAccept n e s = .next (s.copyInbox n e) := fun s h => by
    simp only [execEngineMessageAccept, h]
  have hcopy : ∀ s, s.copies.get? n = some c → execReply n s = .next (s.copyReply n c) := fun s h => by
    simp only [execReply, h]
  refine ⟨?_, ?_, ?_, ?_, ?_, ?_, ?_, ?_, ?_, ?_, ?_, ?_, ?_, ?_, ?_, ?_, ?_, ?_, ?_, ?_, ?_, ?_, ?_, ?_, ?_, ?_, ?_, ?_, ?_, ?_, ?_,
    ?_, ?_, ?_, ?_, ?_, ?_, ?_, ?_, ?_, ?_, ?_, ?_, fun s _ => rfl, ?_, ?_, ?_, ?_, ?_, ?_⟩
  · exact fun s h => (hacc s).trans (execCopyAccept_none h)
  · exact fun s ⟨hn, hr⟩ => (hacc s).trans (execCopyAccept_ok hn hr)
  · exact fun s ⟨hn, hr⟩ => (hacc s).trans (execCopyAccept_error hn hr)
  · exact fun s ⟨hc, h⟩ => (hpiece s).trans (execCopyPiece_idle hc h)
  · exact fun s h => (hpiece s).trans (execCopyPiece_parked h)
  · exact fun s ⟨⟨hm, hd, ha⟩, hf, hp, he, ht⟩ => (hpiece s).trans (execCopyPiece_done hm hd ha hf hp he ht)
  · exact fun k s ⟨⟨hm, hd, ha⟩, hf, hp, he⟩ => (hpiece s).trans (execCopyPiece_fault hm hd ha hf hp he)
  · exact fun s ⟨⟨hm, hd, ha⟩, hf⟩ => (hpiece s).trans (execCopyPiece_super hm hd ha hf)
  · exact fun s ⟨hm, hd⟩ => (hpiece s).trans (execCopyPiece_down hm hd)
  · exact fun s ⟨hm, hd, ha⟩ => (hpiece s).trans (execCopyPiece_refused hm hd ha)
  · exact fun s ⟨⟨hc, ha, hd, hp, hk, hr, hl⟩, ht⟩ => (hdone s).trans (execCopyComplete_silent hc ha hd hp hk hr hl ht)
  · exact fun s ⟨⟨hc, ha, hd, hp, hk, hr, hl⟩, ht, hq⟩ => (hdone s).trans (execCopyComplete_token hc ha hd hp hk hr hl ht hq)
  · exact fun s h => (hdone s).trans (execCopyComplete_idle h)
  · exact fun s ⟨hn, hc, hg, ha, hp, he, hl, ho⟩ => (hmsg s).trans ((hinbox s hn).trans
      (nx (State.copyInbox_takes hc hg ha hp he hl ho)))
  · exact fun s hn => (hmsg s).trans (hinbox s hn)
  · exact fun ho hs ht s hr => (hmsg s).trans (execEngineMessageAccept_takes hr ho hs ht)
  · exact fun ho hs ht hx s hr => (hmsg s).trans (execEngineMessageAccept_sends hr ho hs ht hx)
  · exact fun s ⟨hc, hd, hr, hf, hs, ho⟩ => (hrep s).trans ((hcopy s hc).trans (nx (State.copyReply_thread hd hr hf hs ho)))
  · exact fun s ⟨hc, hd, hr, hf, hx⟩ => (hrep s).trans ((hcopy s hc).trans (nx (State.copyReply_firing hd hr hf hx)))
  · exact fun s hc => (hrep s).trans (hcopy s hc)
  · intro s ⟨hc, hn⟩
    rw [hrep]
    simp only [execReply, hc, hn]
  · exact fun s ⟨hc, ⟨hr, ho, hp, hs⟩, hk, hx, hor, hb⟩ => (hrep s).trans ((execReply_rop hr ho hp hs hc hk hx).trans
      (nx (State.ropReplied_thread hk hor hb)))
  · exact fun s ⟨hc, ⟨hr, ho, hp, hs⟩, hk, hx⟩ => (hrep s).trans (execReply_rop hr ho hp hs hc hk hx)
  · intro s ⟨⟨hr, ho, hp, hs⟩, hk, ht, hn, hor, hb, h0, hw⟩
    have htok : ∀ ok, s.settleTok n r ok = s := fun ok => by simp only [State.settleTok, hn]
    refine (hst s).trans ((execRemoteStoreCompletion_done hr ho hp hs hk ht).trans (nx ?_))
    rw [htok, State.ropReplied_store hk hor hb h0 hw]
  · exact fun s ⟨⟨hr, ho, hp, hs⟩, hk, ht⟩ => (hst s).trans (execRemoteStoreCompletion_done hr ho hp hs hk ht)
  · intro s hn
    rw [hst]
    simp only [execRemoteStoreCompletion, show s.rops.get? n = none from hn]
  · exact fun s ⟨hs, hg, ht⟩ => (hrow s).trans (execRefreshRowGroup_one hs hg (State.nextDeadline_manager ht)
      (State.refreshed_manager ht))
  · exact fun s ⟨hs, hg, ht, hp, hn⟩ => (hrow s).trans (execRefreshRowGroup_one hs hg hn (State.refreshed_first ht hp))
  · intro s ⟨hs, hg, ht, hp⟩
    refine (hrow s).trans ((execRefreshRowGroup_banks hs hg (State.nextDeadline_after ht hp)).trans (nx ?_))
    rw [State.refreshed_after ht hp]
    exact rfl
  · intro s h
    refine (hrow s).trans (nx (if_neg fun ⟨hs, hg, hn⟩ => ?_))
    rcases h with h | h
    · exact h ⟨hs, hg⟩
    · exact ne_true_of_eq_false h hn
  · exact fun s h => (hbeat s).trans (nx (if_pos h))
  · exact fun s h => (hbeat s).trans (nx (if_neg fun ⟨hs, hl⟩ => h.elim (Nat.not_le.mpr hs) fun hn => Nat.not_le.mpr hn hl))
  · intro s ⟨hs, hb, hl⟩
    refine (htake s).trans (nx ((if_pos ⟨hs, (Bool.not_eq_true' _).mpr hb, hl⟩).trans ?_))
    rw [bitsAt_high]
  · intro s h
    refine (htake s).trans (nx (if_neg fun ⟨hs, hb, hl⟩ => ?_))
    rcases h with h | h | h
    · exact Nat.not_le.mpr hs h
    · exact ne_true_of_eq_false (Bool.not_eq_true' _ |>.mp hb) h
    · exact Nat.not_le.mpr h hl
  · intro s hs
    refine (hreset s).trans (nx ((if_pos hs).trans ?_))
    rw [bitsAt_high]
  · exact fun s hs => (hreset s).trans (nx (if_neg (Nat.not_lt.mpr hs)))
  · exact fun s hp => (hcxl _ s).trans (nx (if_pos hp))
  · exact fun s hp => (hcxl _ s).trans (nx (if_pos hp))
  · exact fun s hp => (hcxl _ s).trans (nx (if_neg (Nat.not_lt.mpr hp)))
  · intro s ⟨⟨hv, hs, hw, hr, hl⟩, hm⟩
    refine (hinv s).trans ((execInvalidationReceive_holds hv hs hw hr hl).trans (nx ?_))
    rw [State.acknowledge_more (s := s.withdraw v holder) hv hm]
    exact rfl
  · intro s ⟨⟨hv, hs, hw, hr, hl⟩, hm, hsc⟩
    refine (hinv s).trans ((execInvalidationReceive_holds hv hs hw hr hl).trans (nx ?_))
    rw [State.acknowledge_last (s := s.withdraw v holder) hv hm hsc]
    exact rfl
  · exact fun s ⟨hv, hs, hw, hr, hl⟩ => (hinv s).trans (execInvalidationReceive_holds hv hs hw hr hl)
  · intro s hn
    rw [hinv]
    simp only [execInvalidationReceive, show s.invals.get? inv = none from hn]
  · exact fun s ⟨hv, hs, hu, ht⟩ => (htgt s).trans (execTargetInvalidation_answers hv hs hu ht)
  · exact fun s ⟨hv, hs, hu⟩ => (htgt s).trans (execTargetInvalidation_uses hv hs hu)
  · exact fun hs s ⟨hv, hw, ht, hu, hl⟩ => (htgt s).trans (execTargetInvalidation_own hv hs hw ht hu hl)
  · exact fun hs s ⟨hv, hw, ht, h⟩ => (htgt s).trans (execTargetInvalidation_waits hv hs hw ht h)
  · exact fun hs s ⟨hv, hw, ht⟩ => (htgt s).trans (execTargetInvalidation_tells hv hs hw ht)
  · intro s hn
    rw [htgt]
    simp only [execTargetInvalidation, show s.invals.get? inv = none from hn]

end

section
/-! SUPPORT. Threads between instructions, resets and power, outcome by outcome (R102, R399, R403 to R413, R423 to R427). -/

namespace Sys2Proof.Machine

/-! ### TRAP_ENTRY -/

/-- A slot made current, its due results landed. -/
def State.atSlot (s : State) (slot : Nat) : State := { s with cur := slot }.landDue

section
variable {s u : State} {slot : Nat} {i : Instr}

theorem execTrapEntry_none (h : (s.atSlot slot).thr.hold = true ∨ asyncCause (s.atSlot slot) (s.atSlot slot).thr {} 0#32 = none) :
    execTrapEntry slot s = .next (s.atSlot slot) := by
  have hb : ((s.atSlot slot).thr.hold || (asyncCause (s.atSlot slot) (s.atSlot slot).thr {} 0#32).isNone) = true := by
    rcases h with h | h <;> simp [h]
  unfold State.atSlot at hb ⊢
  simp only [execTrapEntry, hb]

section
variable (hh : (s.atSlot slot).thr.hold = false) (hc : asyncCause (s.atSlot slot) (s.atSlot slot).thr {} 0#32 ≠ none)
include hh hc

/-- A slot at which a cause is pending, outside a handler that holds it back. -/
theorem State.atSlot_pending :
    ((s.atSlot slot).thr.hold || (asyncCause (s.atSlot slot) (s.atSlot slot).thr {} 0#32).isNone) = false := by
  rw [hh, Bool.false_or, Option.isNone_eq_false_iff, Option.isSome_iff_ne_none]
  exact hc

/-- The fetch of the instruction at the boundary takes a trap of its own first (R399). -/
theorem execTrapEntry_fetch (hf : (s.atSlot slot).fetchIssue = .took u) : execTrapEntry slot s = .next u := by
  have hb := State.atSlot_pending hh hc
  unfold State.atSlot at hb hf
  simp only [execTrapEntry, hb, hf]

theorem execTrapEntry_early {k : Trap} (hf : (s.atSlot slot).fetchIssue = .insn i u)
    (he : earlyTrap u.thr (usesOf u.thr i) (wordOf i) = some k) : execTrapEntry slot s = .next (u.trapHere k) := by
  have hb := State.atSlot_pending hh hc
  unfold State.atSlot at hb hf
  simp only [execTrapEntry, hb, hf, he]

/-- The first asynchronous cause present is taken (R399). -/
theorem execTrapEntry_async {y : Slot} {k : Trap} (hf : (s.atSlot slot).fetchIssue = .insn i u)
    (he : earlyTrap u.thr (usesOf u.thr i) (wordOf i) = none)
    (ha : asyncCause u u.thr (usesOf u.thr i) (wordOf i) = some (y, k)) :
    execTrapEntry slot s = .next ((u.dropRequests.setThr { y with rop := none }).trapHere k) := by
  have hb := State.atSlot_pending hh hc
  unfold State.atSlot at hb hf
  simp only [execTrapEntry, hb, hf, he, ha]

end
end

/-! ### Pre-emption -/

section
variable {s u : State} {slot num : Nat}

theorem execPreemptionRequest_idle (h : (s.slot slot).use ≠ .thread ∨ num = 0 ∨ 5 ≤ num) :
    execPreemptionRequest slot num s = .next s := by
  rcases h with h | h | h
  · simp [execPreemptionRequest, h]
  · subst h
    simp [execPreemptionRequest]
  · obtain ⟨n, rfl⟩ := Nat.exists_eq_add_of_le h
    rw [Nat.add_comm]
    exact congrArg Host.Outcome.next (if_neg (by simp))

theorem execPreemptionRequest_swout {p : Job} (hu : (s.slot slot).use = .thread) (hj : s.jobs.get? (s.slot slot).job = some p)
    (hp : (s.part p.p).swout = true) : execPreemptionRequest slot 2 s = .next (s.request slot 2) := by
  simp [execPreemptionRequest, hu, hj, hp]

/-- A switch is forced 24,000 C-cycles after its trap, or after a request that IE has held back (R404). -/
theorem execForcedSwitchTimeout_late {r : Preq} (hr : (s.slot slot).preq = some r)
    (h : (∃ t, r.trapAt = some t ∧ t + 24000 ≤ s.now) ∨ (r.trapAt = none ∧ r.ieSeen = false ∧ r.since + 24000 ≤ s.now)) :
    execForcedSwitchTimeout slot s = .next (s.modSlot slot fun x => { x with forced := true }) := by
  rcases h with ⟨t, ht, hl⟩ | ⟨ht, hi, hl⟩
  · simp [execForcedSwitchTimeout, hr, ht, hl]
  · simp [execForcedSwitchTimeout, hr, ht, hi, hl]

theorem execFullSwitch_switches (hu : (s.slot slot).use = .thread) (hf : (s.slot slot).forced = true)
    (hs : s.stoppable slot = true) : execFullSwitch slot s = .next (s.fullSwitch slot) := by
  simp [execFullSwitch, hu, hf, hs]

theorem State.fullSwitch_ok (hw : (s.stopThread slot).writeRecord slot ((s.stopThread slot).recordAreas slot) = .ok u) :
    s.fullSwitch slot = State.reserve { u with freeCnt := u.freeCnt + 0x4000 } slot := by
  rw [State.fullSwitch, hw, State.afterRecord]

theorem State.fullSwitch_fault {c : Nat}
    (hw : (s.stopThread slot).writeRecord slot ((s.stopThread slot).recordAreas slot) = .error (c, u)) :
    s.fullSwitch slot = u.endIteration slot (some c) := by
  rw [State.fullSwitch, hw, State.afterRecord]

end

/-! ### SLICE_DETACH -/

/-- Whether a slot holds slice `num` of the thread of slot `lead`, attached or reserved. -/
def State.isSlice (s : State) (lead num m : Nat) : Bool := (s.slot m).use = .slice lead num || (s.slot m).use = .resSlice lead num

section
variable {s : State} {slot num m : Nat} {y : Slot}

theorem execSliceDetach_guarded (hu : (s.slot slot).use = .thread) (hm : (s.slot slot).mayShield = true) :
    execSliceDetach slot num s = .next s := by
  simp [execSliceDetach, hu, hm]

theorem State.no_slice (h : ∀ m ∈ s.sliceSlots slot, ¬ ((s.slot m).use = .slice slot num ∨ (s.slot m).use = .resSlice slot num)) :
    (s.sliceSlots slot).find? (s.isSlice slot num) = none := by
  refine List.find?_eq_none.mpr fun m hm => ?_
  simp only [State.isSlice, Bool.or_eq_true, decide_eq_true_eq]
  exact h m hm

theorem not_guarded (hg : ¬ ((s.slot slot).use = .thread ∧ (s.slot slot).mayShield = true)) :
    ((s.slot slot).use == .thread && (s.slot slot).mayShield) = false := by
  rw [← Bool.not_eq_true, Bool.and_eq_true, beq_iff_eq]
  exact hg

/-- An attached or reserved slice detaches: its slot is free, and its thread has lost it (R102). -/
theorem execSliceDetach_slice (hg : ¬ ((s.slot slot).use = .thread ∧ (s.slot slot).mayShield = true))
    (hf : (s.sliceSlots slot).find? (s.isSlice slot num) = some m)
    (ho : (s.slot m).use = .slice slot num ∨ (s.slot m).use = .resSlice slot num) :
    execSliceDetach slot num s = .next ((s.modSlot m Slot.fresh).modSlot slot fun x => x.loseSlice num) := by
  unfold State.isSlice at hf
  have hd : s.detach m = (s.modSlot m Slot.fresh).modSlot slot fun x => x.loseSlice num := by
    rcases ho with ho | ho <;> simp only [State.detach, ho]
  simp only [execSliceDetach, not_guarded hg, hf, hd, Bool.false_eq_true, if_false]

/-- A lent slice detaches: its slot is the thread's place no more (R102, R405). -/
theorem execSliceDetach_lent (hg : ¬ ((s.slot slot).use = .thread ∧ (s.slot slot).mayShield = true))
    (hn : (s.sliceSlots slot).find? (s.isSlice slot num) = none)
    (hf : s.slots.find? (fun kx => kx.2.back && kx.2.lentFrom == some (slot, num)) = some (m, y))
    (hl : (s.slot m).lentFrom = some (slot, num)) :
    execSliceDetach slot num s
      = .next ((s.modSlot m fun y => { y with lentFrom := none, back := false }).modSlot slot fun x => x.loseSlice num) := by
  unfold State.isSlice at hn
  simp only [execSliceDetach, not_guarded hg, hn, hf, State.detachLent, hl, Bool.false_eq_true, if_false]

theorem execSliceDetach_none (hn : (s.sliceSlots slot).find? (s.isSlice slot num) = none)
    (hf : s.slots.find? (fun kx => kx.2.back && kx.2.lentFrom == some (slot, num)) = none) :
    execSliceDetach slot num s = .next s := by
  unfold State.isSlice at hn
  simp only [execSliceDetach, hn, hf, ite_self]

end

/-! ### Die resets -/

/-- A die whose reset begins: its linked dies are to drain, and what it held of tokens is lost (R411). -/
def State.dieFalls (s : State) (die : Nat) (ports : List Nat) : State :=
  let d : Die := { resetting := true, quiesce := linkedDies die, since := s.now, enumerating := ports }
  State.loseTokens { s with dies := s.dies.set die d } die

section
variable {s : State} {die : Nat}

theorem execDieReset_compute (h : die < 8) (hd : s.dieDown die = false) :
    execDieReset die s = .next ((((s.dieFalls die []).resetCompute die).restrandAll s).awake) := by
  have h16 : ¬ die = 16 := by omega
  have hb : (decide (16 ≤ die) || s.dieDown die) = false := by
    rw [hd, Bool.or_false]
    exact decide_eq_false (by omega)
  simp only [execDieReset, if_neg h16, hb, Bool.false_eq_true, if_false, if_pos h, State.dieFalls]

theorem execDieReset_port (hl : 8 ≤ die) (hu : die < 16) (hd : s.dieDown die = false) :
    execDieReset die s = .next ((((s.dieFalls die [0, 1]).resetPort (die - 8)).restrandAll s).awake) := by
  have h16 : ¬ die = 16 := by omega
  have hb : (decide (16 ≤ die) || s.dieDown die) = false := by
    rw [hd, Bool.or_false]
    exact decide_eq_false (by omega)
  simp only [execDieReset, if_neg h16, hb, Bool.false_eq_true, if_false, if_neg (Nat.not_lt.mpr hl), State.dieFalls]

theorem execDieReset_idle (h : 17 ≤ die ∨ die < 16 ∧ s.dieDown die = true) : execDieReset die s = .next s := by
  have h16 : ¬ die = 16 := by omega
  have hb : (decide (16 ≤ die) || s.dieDown die) = true := by
    rcases h with h | ⟨-, h⟩
    · rw [decide_eq_true (by omega : 16 ≤ die), Bool.true_or]
    · rw [h, Bool.or_true]
  simp only [execDieReset, if_neg h16, hb, if_true]

end

/-! ### The boot ROM -/

theorem execPowerOnBoot_idle {s : State} (h : s.boot.phase = .recovery ∨ s.boot.phase = .running) :
    execPowerOnBoot s = .next s := by
  rcases h with h | h <;> simp [execPowerOnBoot, h]

theorem execPowerOnBoot_boots {s : State} (h : s.boot.phase = .powerOn)
    (hi : imageWhy (s.boot.store.getD Config.factoryImage) = none) :
    execPowerOnBoot s = .next (s.bootFrom (s.boot.store.getD Config.factoryImage)) := by
  simp [execPowerOnBoot, h, hi]

theorem execPowerOnBoot_recovers {s : State} {w : Nat} (h : s.boot.phase = .powerOn)
    (hi : imageWhy (s.boot.store.getD Config.factoryImage) = some w) :
    execPowerOnBoot s = .next { s with boot := { s.boot with phase := .recovery, why := w } } := by
  simp [execPowerOnBoot, h, hi]

end Sys2Proof.Machine
end

section
open Sys2Proof Sys2Proof.Machine

/-- Settles O52: each event of a thread between instructions, of a die, and of power and boot, by the state it meets. -/
theorem threadsResetsAndPower : Obligations.ThreadsResetsAndPower := by
  intro slot num die peer c m w r nonce u i k y p idle at' pending switches record own loses guarded down
  have nx : ∀ {a b : State}, a = b → (Host.Outcome.next a : Out) = .next b := fun h => congrArg _ h
  have hwfe : ∀ s, exec (.wfeLimitExpiry slot) s = execWfeLimitExpiry slot s := fun _ => rfl
  have htrap : ∀ s, exec (.trapEntry slot) s = execTrapEntry slot s := fun _ => rfl
  have hpre : ∀ n s, exec (.preemptionRequest slot n) s = execPreemptionRequest slot n s := fun _ _ => rfl
  have hscap : ∀ s, exec (.scapTimeout slot) s = execScapTimeout slot s := fun _ => rfl
  have hforce : ∀ s, exec (.forcedSwitchTimeout slot) s = execForcedSwitchTimeout slot s := fun _ => rfl
  have hfull : ∀ s, exec (.fullSwitch slot) s = execFullSwitch slot s := fun _ => rfl
  have hctx : ∀ s, exec (.contextRestore slot) s = execContextRestore slot s := fun _ => rfl
  have hdet : ∀ s, exec (.sliceDetach slot num) s = execSliceDetach slot num s := fun _ => rfl
  have hdie : ∀ s, exec (.dieReset die) s = execDieReset die s := fun _ => rfl
  have hack : ∀ s, exec (.quiesceAck die peer) s = execQuiesceAck die peer s := fun _ => rfl
  have hret : ∀ s, exec (.dieReturn die) s = execDieReturn die s := fun _ => rfl
  have hgate : ∀ d s, exec (.courseGate c d) s = execCourseGate c d s := fun _ _ => rfl
  have hstand : ∀ s, exec .packageStandby s = execPackageStandby s := fun _ => rfl
  have hpark : ∀ s, exec .packageParked s = execPackageParked s := fun _ => rfl
  have hwake : ∀ s, exec (.wake (some c)) s = execWake (some c) s := fun _ => rfl
  have hboot : ∀ s, exec .powerOnBoot s = execPowerOnBoot s := fun _ => rfl
  have hatt : ∀ s, exec (.attestationRequest nonce) s = execAttestationRequest nonce s := fun _ => rfl
  refine ⟨?_, ?_, ?_, ?_, ?_, ?_, ?_, ?_, ?_, ?_, ?_, ?_, ?_, ?_, ?_, ?_, ?_, ?_, ?_, ?_, ?_, ?_, ?_, ?_, ?_, ?_, ?_, ?_, ?_,
    ?_, ?_, ?_, ?_, ?_, ?_, ?_, ?_, ?_, ?_, ?_, fun s _ => rfl, ?_, ?_, ?_, ?_, ?_, ?_⟩
  · intro s ⟨hw, hl⟩
    rw [hwfe]
    simp only [execWfeLimitExpiry, hw, wfeLimit, hl, if_true]
  · intro s h
    rw [hwfe]
    rcases h with h | ⟨w, hw, hl⟩
    · simp only [execWfeLimitExpiry, h]
    · simp only [execWfeLimitExpiry, hw, wfeLimit, Nat.not_le.mpr hl, if_false]
  · exact fun s h => (htrap s).trans (execTrapEntry_none h)
  · exact fun s ⟨⟨hh, hc⟩, hf⟩ => (htrap s).trans (execTrapEntry_fetch hh hc hf)
  · exact fun s ⟨⟨hh, hc⟩, hf, he⟩ => (htrap s).trans (execTrapEntry_early hh hc hf he)
  · exact fun s ⟨⟨hh, hc⟩, hf, he, ha⟩ => (htrap s).trans (execTrapEntry_async hh hc hf he ha)
  · intro s ⟨hu, ho⟩
    rw [hpre]
    simp [execPreemptionRequest, hu, ho]
  · exact fun s ⟨hu, hj, hp⟩ => (hpre 2 s).trans (execPreemptionRequest_swout hu hj hp)
  · intro s hu
    rw [hpre]
    simp [execPreemptionRequest, show (s.slot slot).use = .thread from hu]
  · intro s ⟨hu, hl⟩
    rw [hpre]
    simp [execPreemptionRequest, hu, hl]
  · exact fun s h => (hpre num s).trans (execPreemptionRequest_idle h)
  · intro s ⟨hu, hl⟩
    rw [hscap]
    simp [execScapTimeout, hu, hl]
  · intro s h
    rw [hscap]
    rcases h with h | h <;> simp [execScapTimeout, h]
  · exact fun s ⟨hr, h⟩ => (hforce s).trans (execForcedSwitchTimeout_late hr h)
  · intro s h
    rw [hforce]
    simp only [execForcedSwitchTimeout, show (s.slot slot).preq = none from h]
  · exact fun s ⟨⟨hu, hf, hs⟩, hw⟩ => (hfull s).trans ((execFullSwitch_switches hu hf hs).trans (nx (State.fullSwitch_ok hw)))
  · exact fun s ⟨⟨hu, hf, hs⟩, hw⟩ => (hfull s).trans ((execFullSwitch_switches hu hf hs).trans (nx (State.fullSwitch_fault hw)))
  · intro s h
    rw [hfull]
    rcases h with h | h <;> simp [execFullSwitch, h]
  · intro s h
    rw [hctx]
    exact nx (if_pos (by rw [show s.mayRestore slot = false from h]; rfl))
  · intro s ⟨hm, hb⟩
    rw [hctx]
    simp only [execContextRestore, hm, hb, Bool.not_true, Bool.false_eq_true, if_false, if_true]
  · intro s ⟨hm, hb⟩
    rw [hctx]
    simp only [execContextRestore, hm, hb, Bool.not_true, Bool.false_eq_true, if_false]
  · exact fun s ⟨hu, hm⟩ => (hdet s).trans (execSliceDetach_guarded hu hm)
  · exact fun s ⟨hg, hf, ho⟩ => (hdet s).trans (execSliceDetach_slice hg hf ho)
  · exact fun s ⟨hg, ho, hf, hl⟩ => (hdet s).trans (execSliceDetach_lent hg (State.no_slice ho) hf hl)
  · exact fun s ⟨ho, hf⟩ => (hdet s).trans (execSliceDetach_none (State.no_slice ho) hf)
  · exact fun s _ => nx (if_pos rfl)
  · exact fun s ⟨h, hd⟩ => (hdie s).trans (execDieReset_compute h hd)
  · exact fun s ⟨hl, hu, hd⟩ => (hdie s).trans (execDieReset_port hl hu hd)
  · exact fun s h => (hdie s).trans (execDieReset_idle h)
  · exact fun s h => (hack s).trans (nx (if_pos h))
  · exact fun s h => (hack s).trans (nx (if_neg (ne_true_of_eq_false h)))
  · intro s ⟨hd, hq⟩
    rw [hret]
    simp [execDieReturn, hd, hq]
  · intro s h
    rw [hret]
    rcases h with h | h <;> simp [execDieReturn, h]
  · intro s ⟨hc, hi, hp, hf, ht⟩
    rw [hgate]
    simp [execCourseGate, Nat.not_le.mpr hc, hi, hp, hf, ht]
  · intro s ⟨hc, hi, hp, hf, ht⟩
    rw [hgate]
    simp [execCourseGate, Nat.not_le.mpr hc, hi, hp, hf, ht]
  · intro d s h
    rw [hgate]
    rcases h with h | h <;> simp [execCourseGate, h]
  · intro s ⟨hp, hi, hf, ht⟩
    rw [hstand]
    simp [execPackageStandby, hp, hi, hf, ht]
  · intro s h
    rw [hstand]
    rcases h with h | h <;> simp [execPackageStandby, h]
  · intro s ⟨hp, hi, hf, ht⟩
    rw [hpark]
    simp [execPackageParked, hp, hi, hf, ht]
  · intro s h
    rw [hpark]
    rcases h with h | h <;> simp [execPackageParked, h]
  · intro s ⟨hc, hp⟩
    rw [hwake]
    simp [execWake, hc, hp]
  · intro s h
    rw [hwake]
    rcases h with h | h
    · simp [execWake, Nat.not_lt.mpr h]
    · simp [execWake, h]
  · exact fun s h => (hboot s).trans (execPowerOnBoot_idle h)
  · intro s h
    rw [hboot]
    cases hi : imageWhy (s.boot.store.getD Config.factoryImage) with
    | none => exact (execPowerOnBoot_boots h hi).trans (by simp only [hi])
    | some w => exact (execPowerOnBoot_recovers h hi).trans (by simp only [hi])
  · intro s h
    rw [hatt]
    exact nx (if_pos h)
  · intro s h
    rw [hatt]
    exact nx (if_neg (not_not.mpr h))

end

section
/-! SUPPORT. Links and the flits that arrive on them, outcome by outcome (R366 to R370, R394, R395). -/

namespace Sys2Proof.Machine

/-! ### The flits of an exchange (R369) -/

/-- A link after its own key and then its signature have gone out. -/
def Link.offers (l : Link) (port : Nat) (f g : Flit) : Link := (l.sendExchange port f).sendExchange port g

section
variable {l : Link} {port : Nat} {f g : Flit}

theorem Link.sendExchange_clear (h : l.up = false) : l.sendExchange port f =
    { l with wire := BitVec.ofNat 1024 ((f.header false 0).toNat + f.payload.toNat * 2 ^ 128) :: l.wire } := by
  simp [Link.sendExchange, h]

@[simp] theorem Link.sendExchange_up : (l.sendExchange port f).up = l.up := by
  unfold Link.sendExchange
  split <;> rfl

@[simp] theorem Link.sendExchange_tries : (l.sendExchange port f).tries = l.tries := by
  unfold Link.sendExchange
  split <;> rfl

/-- A link that is up counts the flit while its counter has room. -/
theorem Link.sendExchange_txCtr (hu : l.up = true) (hc : l.txCtr < stopAt) : (l.sendExchange port f).txCtr = l.txCtr + 1 := by
  simp [Link.sendExchange, hu, hc]

/-- A flit of link control is not among those that wait for an acknowledgement. -/
theorem Link.sendExchange_unacked (hk : f.kind = 0x22) : (l.sendExchange port f).unacked = l.unacked := by
  unfold Link.sendExchange
  split
  · simp [Link.unacked, hk]
  · rfl

theorem Link.offers_clear_wire (h : l.up = false) : (l.offers port f g).wire =
    BitVec.ofNat 1024 ((g.header false 0).toNat + g.payload.toNat * 2 ^ 128)
      :: BitVec.ofNat 1024 ((f.header false 0).toNat + f.payload.toNat * 2 ^ 128) :: l.wire := by
  rw [Link.offers, Link.sendExchange_clear (l := l.sendExchange port f) (by simpa using h), Link.sendExchange_clear h]

theorem Link.offers_txCtr (hu : l.up = true) (hc : l.txCtr + 1 < stopAt) : (l.offers port f g).txCtr = l.txCtr + 2 := by
  have h₁ : (l.sendExchange port f).txCtr = l.txCtr + 1 := Link.sendExchange_txCtr hu (by omega)
  rw [Link.offers, Link.sendExchange_txCtr (by simpa using hu) (by omega), h₁]

theorem Link.offers_unacked (hf : f.kind = 0x22) (hg : g.kind = 0x22) : (l.offers port f g).unacked = l.unacked := by
  rw [Link.offers, Link.sendExchange_unacked hg, Link.sendExchange_unacked hf]

theorem Link.offers_tries : (l.offers port f g).tries = l.tries := by simp [Link.offers]

end

/-! ### The exchange (R366, R369) -/

section
variable {s : State} {port : Nat} {peerKey sig : BitVec 512}

/-- Whether a port may make an exchange now (R369, R411). -/
def State.mayExchange (s : State) (port : Nat) : Prop :=
  port < 16 ∧ (s.link port).down = false ∧ s.dieDown (8 + port / 2) = false
    ∧ ((s.link port).up = false ∨ (s.link port).unacked = [])

/-- The link with this end's signed key on its way. -/
def State.exchanging (s : State) (port : Nat) : Link :=
  let own := Config.ephemeralKey port ((s.link port).tries + 1)
  { (s.link port).offers port (exchangeFlit s.pkg port 0 own)
      (exchangeFlit s.pkg port 1 (Config.identitySign (Config.sha256 (keyBytes own)))) with tries := (s.link port).tries + 1 }

theorem State.mayExchange_iff :
    (16 ≤ port || (s.link port).down || s.dieDown (8 + port / 2) || ((s.link port).up && !(s.link port).unacked.isEmpty)) = false
      ↔ s.mayExchange port := by
  simp [State.mayExchange, and_assoc, Decidable.imp_iff_not_or]

theorem State.exchangeKeys_idle (h : ¬ s.mayExchange port) : s.exchangeKeys port peerKey sig = s :=
  if_pos (Bool.not_eq_false _ ▸ mt State.mayExchange_iff.1 h)

/-- The link under its new key. -/
theorem State.exchangeKeys_raised (h : s.mayExchange port)
    (hv : Config.ecdsaVerify (Config.peerIdentity port) (Config.sha256 (keyBytes peerKey)) sig = true) :
    s.exchangeKeys port peerKey sig =
      (s.exchanging port).unacked.foldl (fun s e => (s.sendFlit port e.flit e.dep).getD s)
        { s.setLink port { s.exchanging port with
            up := true, epoch := (s.exchanging port).tries, peer := peerKey, rekeying := false, txCtr := 0, rxCtr := 0,
            failures := 0, replay := [] } with pkg := Config.packageNumber % 4096 } := by
  have hg := State.mayExchange_iff.2 h
  simp only [State.exchangeKeys, hg, hv, Link.sendExchange_tries, Bool.false_eq_true, if_false, if_true]
  rfl

/-- The link left down, the failure recorded. -/
theorem State.exchangeKeys_left (h : s.mayExchange port)
    (hv : ¬ Config.ecdsaVerify (Config.peerIdentity port) (Config.sha256 (keyBytes peerKey)) sig = true) :
    s.exchangeKeys port peerKey sig =
      { (s.leavePlane port).setLink port { s.exchanging port with up := false, rekeying := false, replay := [] } with
        mgmt := { s.mgmt with badSigs := s.mgmt.badSigs + 1 } } := by
  have hg := State.mayExchange_iff.2 h
  simp only [State.exchangeKeys, hg, hv, Link.sendExchange_tries, Bool.false_eq_true, if_false]
  rfl

end

/-! ### Arrival, replay and retraining (R367, R370, R395) -/

section
variable {s : State} {port ctr : Nat} {flit : BitVec 1024} {hd : BitVec 128} {pl : BitVec 768} {f : Flit}

/-- The link has opened a flit under its key and counter. -/
def State.openedAt (s : State) (port : Nat) : State :=
  s.awake.setLink port { s.link port with rxCtr := (s.link port).rxCtr + 1, failures := 0 }

theorem execFlitReceive_idle (h : 16 ≤ port ∨ (s.link port).up = false) : execFlitReceive port flit s = .next s := by
  rcases h with h | h <;> simp [execFlitReceive, h]

theorem execFlitReceive_live (hp : port < 16) (hu : (s.link port).up = true) :
    (decide (16 ≤ port) || !(s.link port).up) = false := by
  simp [hu, hp]

theorem execFlitReceive_failed (hp : port < 16) (hu : (s.link port).up = true) (ho : (s.link port).unseal port flit = none) :
    execFlitReceive port flit s = .next ((s.awake.setLink port { s.link port with failures := (s.link port).failures + 1 }).control
      port 0x21 (s.link port).rxCtr) := by
  simp only [execFlitReceive, execFlitReceive_live hp hu, ho, Bool.false_eq_true, if_false]

theorem execFlitReceive_malformed (hp : port < 16) (hu : (s.link port).up = true)
    (ho : (s.link port).unseal port flit = some (hd, pl)) (hr : readFlit hd pl = none) :
    execFlitReceive port flit s = .next (s.openedAt port).dropFlit := by
  simp only [execFlitReceive, execFlitReceive_live hp hu, ho, hr, Bool.false_eq_true, if_false]
  rfl

theorem execFlitReceive_control (hp : port < 16) (hu : (s.link port).up = true)
    (ho : (s.link port).unseal port flit = some (hd, pl)) (hr : readFlit hd pl = some f) (hk : 0x20 ≤ f.kind) :
    execFlitReceive port flit s = .next ((s.openedAt port).linkControl port f) := by
  simp only [execFlitReceive, execFlitReceive_live hp hu, ho, hr, hk, Bool.false_eq_true, if_false, if_true]
  rfl

/-- A flit that is no link control is acknowledged, and taken where it is for this package. -/
theorem execFlitReceive_accepted (hp : port < 16) (hu : (s.link port).up = true)
    (ho : (s.link port).unseal port flit = some (hd, pl)) (hr : readFlit hd pl = some f) (hk : f.kind < 0x20) :
    execFlitReceive port flit s = .next (
      let s' := (s.openedAt port).control port 0x20 (s.link port).rxCtr
      if f.dpkg ≠ s'.pkg then s'.dropFlit else s'.takeFlit port f) := by
  simp only [execFlitReceive, execFlitReceive_live hp hu, ho, hr, Nat.not_le.2 hk, Bool.false_eq_true, if_false]
  rfl

theorem State.linkControl_acknowledged (hk : f.kind = 0x20) :
    s.linkControl port f = s.modLink port fun l => { l with replay := l.replay.filter fun e => decide (f.w 0 < e.ctr) } := by
  simp only [State.linkControl, hk]

theorem State.linkControl_key (hk : f.kind = 0x22) (hx : f.xtag = 0) :
    s.linkControl port f = s.modLink port fun l =>
      { l with offered := some (BitVec.ofNat 512 (Flit.payload.ofWords (f.words.take 8))) } := by
  simp only [State.linkControl, hk, hx, if_true]

theorem State.linkControl_signature {k : BitVec 512} (hk : f.kind = 0x22) (hx : f.xtag ≠ 0)
    (ho : (s.link port).offered = some k) :
    s.linkControl port f = (s.modLink port fun l => { l with offered := none }).exchangeKeys port k
      (BitVec.ofNat 512 (Flit.payload.ofWords (f.words.take 8))) := by
  simp only [State.linkControl, hk, hx, ho, if_false]

theorem execFlitReplay_sent {ent : ReplayEnt} (hf : (s.link port).replay.find? (fun f => f.ctr == ctr) = some ent)
    (hu : (s.link port).up = true) :
    execFlitReplay port ctr s = .next (s.setLink port { s.link port with wire := ent.sent :: (s.link port).wire }) := by
  simp only [execFlitReplay, hf, hu, if_true]

theorem execFlitReplay_none (hf : (s.link port).replay.find? (fun f => f.ctr == ctr) = none) :
    execFlitReplay port ctr s = .next s := by
  simp only [execFlitReplay, hf]

end

/-! ### A package that resets (R391, R394) -/

/-- A watch once the package it was sent to has reset: lost, unless it has been answered. -/
def Watch.afterReset (w : Watch) (pkg : Nat) : Watch :=
  match w.st with
  | .answered _ => w
  | _ => if w.landing = pkg then { w with st := .dropped } else w

theorem Watch.afterReset_eq (w : Watch) (pkg : Nat) [Decidable (w.landing = pkg ∧ ∀ ok, w.st ≠ .answered ok)] :
    w.afterReset pkg = if w.landing = pkg ∧ ∀ ok, w.st ≠ .answered ok then { w with st := .dropped } else w := by
  obtain ⟨tok, landing, by', st, made, plane⟩ := w
  cases st <;> simp [Watch.afterReset]

/-- An operation outstanding to a package that resets. -/
def Rop.outstandingTo (r : Rop) (pkg : Nat) : Bool :=
  r.own && r.dpkg = pkg && r.taken && r.res.isNone && (r.xl.isSome || r.asked)

theorem Rop.outstandingTo_iff (r : Rop) (pkg : Nat) : r.outstandingTo pkg = true ↔
    r.own = true ∧ r.dpkg = pkg ∧ r.taken = true ∧ r.res = none ∧ (r.xl.isSome = true ∨ r.asked = true) := by
  simp [Rop.outstandingTo, and_assoc]

/-- An operation once its target package has reset: an outstanding one ends with status 0x08. -/
def Rop.afterReset (r : Rop) (pkg : Nat) : Rop :=
  if r.outstandingTo pkg then { r with res := some (8, 0#64), asked := false, inside := false, comb := [] } else r

/-- The state that forgets a package's pages and no longer awaits its acknowledgements, with given operations and watches. -/
def State.forgetPackage (s : State) (pkg : Nat) (rops : Map Rop) (watches : Map Watch) : State :=
  let acks := s.invals.flatMap fun k => (k.2.waiting.filter fun h =>
    decide (remoteHolder 0 ≤ h) && (h - remoteHolder 0) / 8 == pkg && k.2.src.isNone).map fun h => (k.1, h)
  acks.foldl (fun s ih => s.acknowledge ih.1 ih.2) { s with
    rops := rops, watches := watches
    rtcs := s.rtcs.map fun (k : Nat × List RXlat) => (k.1, k.2.filter fun e => e.pkg ≠ pkg)
    forwarded := s.forwarded.filter fun k => k.2.dpkg ≠ pkg }

theorem execTargetPackageReset_own {s : State} {pkg : Nat} (h : pkg = s.pkg) : execTargetPackageReset pkg s = .next s := by
  simp only [execTargetPackageReset, h, if_true]

theorem execTargetPackageReset_other {s : State} {pkg : Nat} (h : pkg ≠ s.pkg) :
    execTargetPackageReset pkg s = .next (s.forgetPackage pkg
      (s.rops.map fun k => (k.1, k.2.afterReset pkg)) (s.watches.map fun k => (k.1, k.2.afterReset pkg))) := by
  simp only [execTargetPackageReset, h, if_false]
  rfl

end Sys2Proof.Machine
end

section
/-! SUPPORT. Remote operations at their home, outcome by outcome (R374, R379 to R386): arrivals, translations, combining, handlers. -/

namespace Sys2Proof.Machine

/-! ### Operations at their home (R374, R385) -/

section
variable {s t : State} {n pa loc st : Nat} {r : Rop}

/-- An operation that has come to its home and waits for nothing there. -/
def State.homeReady (s : State) (n : Nat) (r : Rop) : Prop :=
  s.rops.get? n = some r ∧ s.here r = true ∧ r.xl.isSome = true ∧ r.res = none ∧ r.ready = false ∧ s.homeWaits n r = false

theorem State.homeReady.passes (h : s.homeReady n r) :
    (!s.here r || r.xl.isNone || r.res.isSome || r.ready || s.homeWaits n r) = false := by
  obtain ⟨-, hh, hx, hr, hd, hw⟩ := h
  have hx' : r.xl.isNone = false := by simpa using hx
  simp [hh, hx', hr, hd, hw]

theorem State.letIn_passed (h : r.own = true ∨ r.taken = true) : s.letIn n r = some s := by
  rcases h with h | h <;> simp [State.letIn, h]

theorem State.letIn_counted (ho : r.own = false) (ht : r.taken = false) (hb : s.beatFits r.atDie r.asid = true) :
    s.letIn n r = some ((s.modRop n fun r => { r with taken := true }).countBeats r.atDie r.asid 1) := by
  simp [State.letIn, ho, ht, hb]

theorem State.letIn_full (ho : r.own = false) (ht : r.taken = false) (hb : s.beatFits r.atDie r.asid = false) :
    s.letIn n r = none := by
  simp [State.letIn, ho, ht, hb]

theorem execRemoteOpAtTarget_idle (hg : s.rops.get? n = some r)
    (h : s.here r = false ∨ r.res.isSome = true ∨ s.homeWaits n r = true) : execRemoteOpAtTarget n s = .next s := by
  have hc : (!s.here r || r.xl.isNone || r.res.isSome || r.ready || s.homeWaits n r) = true := by
    rcases h with h | h | h <;> simp [h]
  simp only [execRemoteOpAtTarget, hg, hc, if_true]

theorem execRemoteOpAtTarget_held (h : s.homeReady n r) (hl : s.letIn n r = none) : execRemoteOpAtTarget n s = .next s := by
  simp only [execRemoteOpAtTarget, h.1, h.passes, hl, Bool.false_eq_true, if_false]

theorem execRemoteOpAtTarget_ok (h : s.homeReady n r) (hl : s.letIn n r = some t) (hc : t.homeCheck r = .ok pa) :
    execRemoteOpAtTarget n s = .next (t.performRop n r pa) := by
  simp only [execRemoteOpAtTarget, h.1, h.passes, hl, hc, Bool.false_eq_true, if_false]

theorem execRemoteOpAtTarget_error (h : s.homeReady n r) (hl : s.letIn n r = some t) (hc : t.homeCheck r = .error st) :
    execRemoteOpAtTarget n s = .next (t.refuseRop n r st) := by
  simp only [execRemoteOpAtTarget, h.1, h.passes, hl, hc, Bool.false_eq_true, if_false]

theorem State.performRop_load (hk : r.kind = .load) (hp : s.placeOf pa = .ram loc) : s.performRop n r pa =
    s.modRop n fun x => { x with res := some (0, BitVec.ofNat 64 (s.readPhys pa r.size)) } := by
  simp only [State.performRop, hk, hp, if_true]

theorem State.performRop_store (hk : r.kind = .store) (ht : r.tok = none) (hp : s.placeOf pa = .ram loc) : s.performRop n r pa =
    (s.writePhys pa r.x.toNat r.size).modRop n fun x => { x with res := some (0, 0#64) } := by
  simp only [State.performRop, hk, ht, hp, Option.isSome_none, Bool.false_eq_true, if_false, if_true]

theorem State.performRop_fadd (hk : r.kind = .fadd) : s.performRop n r pa =
    (s.writePhys pa ((s.readPhys pa 8 + r.x.toNat) % 2 ^ 64) 8).modRop n fun x =>
      { x with res := some (0, BitVec.ofNat 64 (s.readPhys pa 8)) } := by
  simp only [State.performRop, hk]

/-- `begin` waits for the invocations that run (R384). -/
theorem State.performRop_begin_waits (hk : r.kind = .handler 1) (hw : s.runningOn r.entry = true) : s.performRop n r pa = s := by
  simp only [State.performRop, hk, hw, decide_true, Bool.true_and, if_true]

end

/-! ### Translation requests (R385) -/

section
variable {s t : State} {n port : Nat} {r : Rop} {k : AKind} {pte : W64 × Nat}

/-- An own operation whose page is to be asked for. -/
def State.wantsPage (s : State) (n : Nat) (r : Rop) (k : AKind) : Prop :=
  s.rops.get? n = some r ∧ r.kind ≠ .xlat ∧ r.own = true ∧ r.taken = true ∧ r.xl = none ∧ r.res = none
    ∧ s.asksXlat r = true ∧ r.need = some k

/-- The request for an operation's page (log 21). -/
def State.pageRequest (s : State) (n port : Nat) (r : Rop) (k : AKind) : Flit :=
  { kind := 0x0B, dpkg := r.dpkg, spkg := s.pkg, xtag := n, asid := r.asid, port := port,
    words := [r.addr, BitVec.ofNat 64 ((match k with | .load => 0 | .store => 1 | _ => 2) + 4 * b2n r.sup),
      BitVec.ofNat 64 (r.tok.getD 0)] }

theorem State.wantsPage.passes (h : s.wantsPage n r k) :
    (!r.own || !r.taken || r.xl.isSome || r.res.isSome || !s.asksXlat r) = false := by
  obtain ⟨-, -, ho, ht, hx, hr, ha, -⟩ := h
  simp [ho, ht, hx, hr, ha]

theorem execTranslationRequest_none (hg : s.rops.get? n = none) : execTranslationRequest n s = .next s := by
  simp only [execTranslationRequest, hg]

theorem execTranslationRequest_abroad (hg : s.rops.get? n = some r) (hk : r.kind = .xlat) :
    execTranslationRequest n s = .next (s.xlatAbroad n r) := by
  simp only [execTranslationRequest, hg, hk, if_true]

theorem execTranslationRequest_here (h : s.wantsPage n r k) (hd : r.dpkg = s.pkg) :
    execTranslationRequest n s = .next (s.xlatHere n r k) := by
  have hp := h.passes
  obtain ⟨hg, hk, -, -, -, -, -, hn⟩ := h
  simp only [execTranslationRequest, hg, hk, hp, hn, hd, Bool.false_eq_true, if_false, if_true]

theorem execTranslationRequest_noPlane (h : s.wantsPage n r k) (hd : r.dpkg ≠ s.pkg) (ha : r.asked = false)
    (hl : s.liveFrom r.homePlane = none) : execTranslationRequest n s = .next (s.endRop n 0x0C) := by
  have hp := h.passes
  obtain ⟨hg, hk, -, -, -, -, -, hn⟩ := h
  simp only [execTranslationRequest, hg, hk, hp, hn, hd, ha, hl, Bool.false_eq_true, if_false]

theorem execTranslationRequest_asks (h : s.wantsPage n r k) (hd : r.dpkg ≠ s.pkg) (ha : r.asked = false)
    (hl : s.liveFrom r.homePlane = some port) (hs : s.sendFlit port (s.pageRequest n port r k) false = some t) :
    execTranslationRequest n s = .next (t.modRop n fun r => { r with asked := true, plane := some port }) := by
  have hp := h.passes
  obtain ⟨hg, hk, -, -, -, -, -, hn⟩ := h
  cases k <;> simp only [State.pageRequest] at hs <;>
    simp only [execTranslationRequest, hg, hk, hp, hn, hd, ha, hl, hs, Bool.false_eq_true, if_false]

theorem State.xlatHere_found (hw : s.pageWithdrawn r.asid r.va = false) (ha : s.remoteAdmits r.pd r.asid = true)
    (hf : s.remoteWalk r.asid r.va r.sup k = .ok pte) :
    s.xlatHere n r k =
      let size := leafSize pte.1.toNat pte.2
      (s.rtcKeep r.pd { pkg := s.pkg, asid := r.asid, va := r.va - r.va % size, size := size, pte := pte.1, lvl := pte.2 }).recordHolder
        r.pd r.asid r.va size (s.pkg * 8 + r.pd) := by
  simp only [State.xlatHere, hw, ha, hf, Bool.not_true, Bool.false_eq_true, if_false]

end

/-! ### Combining (R380) -/

section
variable {s : State} {plane i j st : Nat} {a c : Rop} {v : W64}

/-- An own fetch-and-add on its way on a plane, in no switch's wait buffer. -/
def Rop.combines (r : Rop) (plane : Nat) : Prop :=
  r.own = true ∧ r.kind = .fadd ∧ r.plane = some plane ∧ r.xl.isSome = true ∧ r.res = none ∧ r.inside = false

/-- Two requests to one location within the window combine where the wait buffer has room. -/
theorem execSwitchCombine_combined (hi : s.rops.get? i = some a) (hj : s.rops.get? j = some c) (ha : a.combines plane)
    (hc : c.combines plane) (hij : i ≠ j) (haddr : a.addr = c.addr) (hasid : a.asid = c.asid) (hle : a.sentAt ≤ c.sentAt)
    (hwin : c.sentAt ≤ a.sentAt + 76) (hroom : (s.rops.filter fun k => k.2.inside && k.2.plane == some plane).length < 512) :
    execSwitchCombine plane i j s = .next (
      let one : Flit :=
        { kind := 5, dpkg := a.dpkg, spkg := s.pkg, xtag := i, asid := a.asid, port := plane,
          words := Rop.payload { a with x := s.carried i a + s.carried j c } (a.xl.getD (0, 0)).1 }
      (State.modRop { s with forwarded := (s.forwarded.erase j).set i one } j fun r =>
        { r with inside := true, comb := [] }).modRop i fun r => { r with comb := r.comb ++ j :: c.comb }) := by
  obtain ⟨hao, hak, hap, hax, har, hai⟩ := ha
  obtain ⟨hco, hck, hcp, hcx, hcr, hci⟩ := hc
  simp [execSwitchCombine, hi, hj, hao, hak, hap, hax, har, hai, hco, hck, hcp, hcx, hcr, hci, hij, haddr, hasid, hle, hwin, hroom,
    combineWindow, waitBuffer]

theorem execSwitchCombine_apart (hi : s.rops.get? i = some a) (hj : s.rops.get? j = some c) (h : a.addr ≠ c.addr) :
    execSwitchCombine plane i j s = .next s := by
  simp [execSwitchCombine, hi, hj, h]

theorem execCombinedReplySplit_split (hi : s.rops.get? i = some a) (hr : a.res = some (st, v)) (hp : a.plane = some plane)
    (hn : a.inside = false) : execCombinedReplySplit plane i s = .next
      ((State.splitReply { s with forwarded := s.forwarded.erase i } st (v + a.x) a.comb).modRop i fun r => { r with comb := [] }) := by
  simp [execCombinedReplySplit, hi, hr, hp, hn]

theorem execCombinedReplySplit_unanswered (hi : s.rops.get? i = some a) (hr : a.res = none) :
    execCombinedReplySplit plane i s = .next s := by
  simp only [execCombinedReplySplit, hi, hr]

end

/-! ### Handlers (R384) -/

section
variable {s : State} {n st : Nat} {r : Rop} {h : Handler}

/-- An invocation that has found its entry and has not fired. -/
def State.invokes (s : State) (n : Nat) (r : Rop) (h : Handler) : Prop :=
  s.rops.get? n = some r ∧ s.handler r.entry = h ∧ r.kind = .handler 0 ∧ r.ready = true ∧ r.res = none

/-- The body stands at the home, and its partition serves the invoking ASID. -/
def State.serves (s : State) (r : Rop) (h : Handler) : Prop :=
  h.lost.contains ((s.homeDie (r.xl.getD (0, 0)).1).getD 16) = false
    ∧ (inRange (s.part h.part).pasid r.asid = true ∨ inRange (s.part h.part).padmit r.asid = true)

theorem execHandlerInvocation_empty (hi : s.invokes n r h) (hs : h.st = .empty) :
    execHandlerInvocation n s = .next (s.endRop n 6) := by
  obtain ⟨hg, he, hk, hr, hn⟩ := hi
  simp [execHandlerInvocation, hg, he, hk, hr, hn, hs]

theorem execHandlerInvocation_updating (hi : s.invokes n r h) (hs : h.st = .updating) :
    execHandlerInvocation n s = .next (s.modRop n fun r => { r with ready := false, held := some s.now }) := by
  obtain ⟨hg, he, hk, hr, hn⟩ := hi
  simp [execHandlerInvocation, hg, he, hk, hr, hn, hs]

theorem State.serves.admits (hv : s.serves r h) :
    (!(inRange (s.part h.part).pasid r.asid || inRange (s.part h.part).padmit r.asid)) = false := by
  rcases hv.2 with h | h <;> simp [h]

theorem execHandlerInvocation_bad (hi : s.invokes n r h) (hs : h.st = .valid) (hv : s.serves r h)
    (hp : s.goodPhys (r.xl.getD (0, 0)).1 8 = false) : execHandlerInvocation n s = .next (s.endRop n 5) := by
  obtain ⟨hg, he, hk, hr, hn⟩ := hi
  have ha := hv.admits
  simp only [execHandlerInvocation, hg, he, hk, hr, hn, hs, hv.1, ha, hp, ne_eq, not_true_eq_false, decide_false, Bool.not_true,
    Bool.not_false, Bool.false_or, Option.isSome_none, Bool.false_eq_true, if_false, if_true]

theorem execHandlerInvocation_fires (hi : s.invokes n r h) (hs : h.st = .valid) (hv : s.serves r h)
    (hp : s.goodPhys (r.xl.getD (0, 0)).1 8 = true) : execHandlerInvocation n s = .next (
      let pa := (r.xl.getD (0, 0)).1
      let ctl := (nth 0#64 h.words 16).toNat
      let old := s.readPhys pa 8
      let fired := fireHandler (h.words.take 16) s.freeCnt old r.x r.y
      let u := { s with freeCnt := s.freeCnt + 96 }
      let u := if ctl.testBit 1 = true then u.writePhys pa fired.1 8 else u
      u.modRop n fun r => { r with res := some (0, BitVec.ofNat 64 (if ctl.testBit 2 = true then fired.2 else old)) }) := by
  obtain ⟨hg, he, hk, hr, hn⟩ := hi
  have ha := hv.admits
  simp only [execHandlerInvocation, hg, he, hk, hr, hn, hs, hv.1, ha, hp, ne_eq, not_true_eq_false, decide_false, Bool.not_true,
    Bool.false_or, Option.isSome_none, Bool.false_eq_true, if_false, bitAt]

theorem execHandlerHoldExpiry_expired (hg : s.rops.get? n = some r) (hk : r.kind = .handler 0) (hn : r.res = none)
    (hr : r.ready = false) (hh : r.held = some st) (ht : st + 8192 ≤ s.now) (hu : (s.handler r.entry).st = .updating) :
    execHandlerHoldExpiry n s = .next (s.endRop n 7) := by
  simp [execHandlerHoldExpiry, hg, hk, hn, hr, hh, ht, hu, handlerHold]

theorem execHandlerHoldExpiry_notHeld (hg : s.rops.get? n = some r) (hh : r.held = none) :
    execHandlerHoldExpiry n s = .next s := by
  simp only [execHandlerHoldExpiry, hg, hh]

end

end Sys2Proof.Machine
end

section
/-! SUPPORT. Dependent stores at their destination, the landed table and the watches, outcome by outcome (R389 to R393). -/

namespace Sys2Proof.Machine

theorem nth_map_some {α : Type} (l : List α) (n : Nat) : nth none (l.map some) n = l[n]? := by
  rw [nth_eq_getD, List.getD_eq_getElem?_getD, List.getElem?_map]
  cases l[n]? <;> rfl

/-! ### Dependent stores and landed tokens (R389, R390) -/

section
variable {s t : State} {n pa loc st : Nat} {r : Rop} {d v : W64}

/-- A store at its destination whose dependency is not settled and which the gateway has let in. -/
def State.awaitsToken (s : State) (n : Nat) (r : Rop) (d : W64) : Prop :=
  s.rops.get? n = some r ∧ r.dep = some d ∧ r.held = none ∧ s.depWaits r = true ∧ (r.own = true ∨ r.taken = true)

theorem State.awaitsToken.passes (h : s.awaitsToken n r d) : (!s.depWaits r || r.held.isSome) = false := by
  obtain ⟨-, -, hh, hw, -⟩ := h
  simp [hh, hw]

theorem execDependentStoreArrival_held (h : s.awaitsToken n r d)
    (hl : (if depLanding d = s.pkg then s.landedAs (depTok d) else none) = none) (hc : s.holdCount < 8192) :
    execDependentStoreArrival n s =
      .next ((s.modRop n fun r => { r with held := some s.now }).sendWatch (depTok d) (depLanding d) (.op n)).2 := by
  have hp := h.passes
  obtain ⟨hg, hd, -, -, ho⟩ := h
  simp only [execDependentStoreArrival, hg, hd, hp, State.letIn_passed ho, hl, holdQueue, Nat.not_le.2 hc, Bool.false_eq_true, if_false]

theorem execDependentStoreArrival_landed (h : s.awaitsToken n r d) (he : depLanding d = s.pkg)
    (hl : s.landedAs (depTok d) = some true) :
    execDependentStoreArrival n s = .next (s.modRop n fun r => { r with clear := true }) := by
  have hp := h.passes
  obtain ⟨hg, hd, -, -, ho⟩ := h
  simp only [execDependentStoreArrival, hg, hd, hp, State.letIn_passed ho, he, hl, Bool.false_eq_true, if_false, if_true]

theorem execDependentStoreArrival_failed (h : s.awaitsToken n r d) (he : depLanding d = s.pkg)
    (hl : s.landedAs (depTok d) = some false) : execDependentStoreArrival n s = .next (s.endRop n 0x0A) := by
  have hp := h.passes
  obtain ⟨hg, hd, -, -, ho⟩ := h
  simp only [execDependentStoreArrival, hg, hd, hp, State.letIn_passed ho, he, hl, Bool.false_eq_true, if_false, if_true]

theorem execLandedRecord_performed (ht : r.tok.getD 0 ≠ 0) (hr : r.recorded = false) (hn : r.res = none) (hd : r.ready = true)
    (hg : s.rops.get? n = some r) (hh : s.here r = true) (hc : s.homeCheck r = .ok pa) :
    execLandedRecord n s = .next (s.recordStore n (r.tok.getD 0) r pa) := by
  simp only [execLandedRecord, hg, hh, ht, hr, hn, hd, hc, Bool.not_true, decide_false, Bool.or_self, Bool.false_eq_true, if_false]

theorem execLandedRecord_failed (ht : r.tok.getD 0 ≠ 0) (hr : r.recorded = false) (hn : r.res = some (st, v)) (hs : st ≠ 0)
    (hg : s.rops.get? n = some r) (hh : s.here r = true) (hl : s.land? (r.tok.getD 0) false = some t) :
    execLandedRecord n s = .next (t.modRop n fun r => { r with recorded := true }) := by
  cases st with
  | zero => exact absurd rfl hs
  | succ m =>
    simp only [execLandedRecord, hg, hh, ht, hr, hn, hl, Bool.not_true, decide_false, Bool.or_self, Bool.false_eq_true, if_false]

theorem State.recordStore_ram {tok : Nat} (hp : s.placeOf pa = .ram loc) (hl : s.land? tok true = some t) :
    s.recordStore n tok r pa =
      (t.writePhys pa r.x.toNat r.size).modRop n fun r => { r with res := some (0, 0#64), recorded := true } := by
  simp only [State.recordStore, hp, hl]

theorem execHeldStoreExpiry_expired (hh : r.held = some st) (hd : r.dep.isSome = true) (hg : s.rops.get? n = some r)
    (hw : s.depWaits r = true) (ht : st + 480000 ≤ s.now) (ha : s.answerWaits n = false) :
    execHeldStoreExpiry n s = .next (s.endRop n 0x0A) := by
  simp [execHeldStoreExpiry, hg, hh, hw, hd, ht, ha, holdLimit]

theorem execHeldStoreExpiry_idle (hh : r.held = some st) (hg : s.rops.get? n = some r)
    (h : s.now < st + 480000 ∨ s.answerWaits n = true ∧ s.now / 2 ≤ r.lastAnswer) : execHeldStoreExpiry n s = .next s := by
  rcases h with h | ⟨ha, hl⟩
  · simp [execHeldStoreExpiry, hg, hh, holdLimit, Nat.not_le.2 h]
  · simp [execHeldStoreExpiry, hg, hh, ha, Nat.not_lt.2 hl]

theorem execLandedEntryAging_removed {e : Landed} (he : s.landed[n]? = some e) (hl : 262144 ≤ s.landed.length)
    (hs : e.since + 240000 < s.now) (ho : ∀ f ∈ s.landed, e.since ≤ f.since) :
    execLandedEntryAging n s = .next { s with landed := s.landed.eraseIdx n } := by
  have ha : allB (fun f => decide (e.since ≤ f.since)) s.landed = true := by simpa [allB_eq_true] using ho
  simp [execLandedEntryAging, nth_map_some, he, landedTable, hl, hs, ha]

theorem execLandedEntryAging_room (hl : s.landed.length < 262144) : execLandedEntryAging n s = .next s := by
  unfold execLandedEntryAging
  split
  · rfl
  · simp [landedTable, Nat.not_le.2 hl]

theorem execLandedEntryAging_none (hl : s.landed.length ≤ n) : execLandedEntryAging n s = .next s := by
  simp only [execLandedEntryAging, nth_map_some, List.getElem?_eq_none hl]

end

/-! ### Watches (R390, R391, R393) -/

section
variable {s t : State} {n m x i pkg st : Nat} {ok : Bool} {w : Watch}

theorem execWatchArrival_answered (hg : s.watches.get? n = some w) (hl : w.landing = s.pkg) (hs : w.st = .sent)
    (ha : s.landedAs w.tok = some ok) : execWatchArrival n s = .next (s.setWatch n w (w.fate s.now ok)) := by
  simp [execWatchArrival, hg, hl, hs, ha]

theorem execWatchArrival_refused (hg : s.watches.get? n = some w) (hl : w.landing = s.pkg) (hs : w.st = .sent)
    (ha : s.landedAs w.tok = none) (hc : 16384 ≤ s.watchCount) :
    execWatchArrival n s = .next (s.setWatch n w (.refused s.now)) := by
  simp [execWatchArrival, hg, hl, hs, ha, watchTable, hc]

theorem execWatchArrival_entered (hg : s.watches.get? n = some w) (hl : w.landing = s.pkg) (hs : w.st = .sent)
    (ha : s.landedAs w.tok = none) (hc : s.watchCount < 16384) :
    execWatchArrival n s = .next (s.setWatch n w (.entered s.now)) := by
  simp [execWatchArrival, hg, hl, hs, ha, watchTable, Nat.not_le.2 hc]

theorem execWatchArrival_idle (hg : s.watches.get? n = some w) (h : w.landing ≠ s.pkg ∨ w.st ≠ .sent) :
    execWatchArrival n s = .next s := by
  rcases h with h | h <;> simp [execWatchArrival, hg, h]

theorem execWatchAnswer_store (hb : w.by' = .op m) (hs : w.st = .answered ok) (hg : s.watches.get? n = some w) :
    execWatchAnswer n s = .next ({ s with watches := s.watches.erase n }.answerStore m ok) := by
  simp only [execWatchAnswer, hg, hb, hs]

theorem execWatchAnswer_thread (hb : w.by' = .thread m) (hs : w.st = .answered ok) (hg : s.watches.get? n = some w) :
    execWatchAnswer n s = .next (s.modSlot m (·.woken 2)) := by
  simp only [execWatchAnswer, hg, hb, hs]

theorem execWatchAnswer_abroad (hb : w.by' = .pkg pkg x) (hs : w.st = .answered ok) (hg : s.watches.get? n = some w) :
    execWatchAnswer n s = .next (s.answerAbroad n w.plane pkg x w.tok (if ok = true then 1 else 2)) := by
  simp only [execWatchAnswer, hg, hb, hs]

theorem execWatchAnswer_refusal (hb : w.by' = .pkg pkg x) (hs : w.st = .refused st) (hg : s.watches.get? n = some w) :
    execWatchAnswer n s = .next (s.answerAbroad n w.plane pkg x w.tok 3) := by
  simp only [execWatchAnswer, hg, hb, hs]

/-- An answer that its plane takes leaves, and its watch with it. -/
theorem State.answerAbroad_sent {plane tok code : Nat}
    (h : s.sendOn plane { kind := 0x0A, dpkg := pkg, spkg := s.pkg, xtag := x, asid := 0, port := 0,
                          words := [BitVec.ofNat 64 tok, BitVec.ofNat 64 code] } = some t) :
    s.answerAbroad n plane pkg x tok code = { t with watches := t.watches.erase n } := by
  simp only [State.answerAbroad, h]

theorem execWatchResend_again (hb : w.by' = .thread m) (hs : w.st = .refused st) (hg : s.watches.get? n = some w)
    (ht : st + 1200 ≤ s.now) : execWatchResend n s = .next (s.watchAgain n w) := by
  simp only [execWatchResend, hg, hb, hs, resendDelay, ht, if_true]

theorem execWatchResend_idle (hb : w.by' = .pkg pkg x) (hg : s.watches.get? n = some w) : execWatchResend n s = .next s := by
  simp only [execWatchResend, hg, hb]

theorem State.watchAgain_here (hl : w.landing = s.pkg) : s.watchAgain n w = s.setWatch n w .sent := if_pos hl

theorem execWatchEntryDrop_abroad (hb : w.by' = .pkg pkg x) (hs : w.st = .entered st) (hg : s.watches.get? n = some w)
    (ht : st + 480000 ≤ s.now) : execWatchEntryDrop n s = .next { s with watches := s.watches.erase n } := by
  simp only [execWatchEntryDrop, hg, hb, hs, holdLimit, Nat.not_lt.2 ht, if_false]

theorem execWatchEntryDrop_store (hb : w.by' = .op m) (hs : w.st = .entered st) (hg : s.watches.get? n = some w)
    (ht : st + 480000 ≤ s.now) : execWatchEntryDrop n s = .next (s.setWatch n w .dropped) := by
  simp only [execWatchEntryDrop, hg, hb, hs, holdLimit, Nat.not_lt.2 ht, if_false]

theorem execWatchEntryDrop_early (hs : w.st = .entered st) (hg : s.watches.get? n = some w) (ht : s.now < st + 480000) :
    execWatchEntryDrop n s = .next s := by
  simp only [execWatchEntryDrop, hg, hs, holdLimit, ht, if_true]

theorem execTokwaitWatchTimeout_ended (hs : w.st = .sent) (hw : (s.slot i).watch = some n) (hg : s.watches.get? n = some w)
    (ht : w.made + 480000 ≤ s.now) : execTokwaitWatchTimeout i s = .next (s.setWatch n w (.answered false)) := by
  simp only [execTokwaitWatchTimeout, hw, hg, hs, holdLimit, ht, if_true]

theorem execTokwaitWatchTimeout_answered (hs : w.st = .answered ok) (hw : (s.slot i).watch = some n)
    (hg : s.watches.get? n = some w) : execTokwaitWatchTimeout i s = .next s := by
  simp only [execTokwaitWatchTimeout, hw, hg, hs]

end

end Sys2Proof.Machine
end

section
open Sys2Proof Sys2Proof.Machine

/-- Settles O53: each event of links, remote targets and watches, by the state it meets. -/
theorem linksTargetsAndWatches : Obligations.LinksTargetsAndWatches := by
  intro port ctr n i j plane pa st loc pkg x dir ok peerKey sig flit hd pl f ent r a c w h e d v t k pte idle idleLink ownKey ownSig
    clear offered given passes raised left live opened reads acked comes at' memory ended asks askWords askFor told answer entry waits
    watch arrives
  have nx : ∀ {a b : State}, a = b → (Host.Outcome.next a : Out) = .next b := fun h => congrArg _ h
  have hkey : ∀ s, exec (.linkKeyExchange port peerKey sig) s = .next (s.exchangeKeys port peerKey sig) := fun _ => rfl
  have hrecv : ∀ s, exec (.flitReceive port flit) s = execFlitReceive port flit s := fun _ => rfl
  have hrekey : ∀ s, exec (.rekeyCounterLimit port dir) s = execRekeyCounterLimit port dir s := fun _ => rfl
  have hreplay : ∀ s, exec (.flitReplay port ctr) s = execFlitReplay port ctr s := fun _ => rfl
  have hretrain : ∀ s, exec (.linkRetrain port) s = execLinkRetrain port s := fun _ => rfl
  have hmgmt : ∀ s, exec (.managementPortRetrain port) s = execManagementPortRetrain port s := fun _ => rfl
  have hdown : ∀ s, exec (.portDown port) s = execPortDown port s := fun _ => rfl
  have hreset : ∀ s, exec (.targetPackageReset n) s = execTargetPackageReset n s := fun _ => rfl
  have hrop : ∀ s, exec (.remoteOpAtTarget n) s = execRemoteOpAtTarget n s := fun _ => rfl
  have hxl : ∀ s, exec (.translationRequest n) s = execTranslationRequest n s := fun _ => rfl
  have hcomb : ∀ s, exec (.switchCombine plane i j) s = execSwitchCombine plane i j s := fun _ => rfl
  have hsplit : ∀ s, exec (.combinedReplySplit plane i) s = execCombinedReplySplit plane i s := fun _ => rfl
  have hinv : ∀ s, exec (.handlerInvocation n) s = execHandlerInvocation n s := fun _ => rfl
  have hhold : ∀ s, exec (.handlerHoldExpiry n) s = execHandlerHoldExpiry n s := fun _ => rfl
  have hdep : ∀ s, exec (.dependentStoreArrival n) s = execDependentStoreArrival n s := fun _ => rfl
  have hland : ∀ s, exec (.landedRecord n) s = execLandedRecord n s := fun _ => rfl
  have harr : ∀ s, exec (.watchArrival n) s = execWatchArrival n s := fun _ => rfl
  have hans : ∀ s, exec (.watchAnswer n) s = execWatchAnswer n s := fun _ => rfl
  have hresend : ∀ s, exec (.watchResend n) s = execWatchResend n s := fun _ => rfl
  have hdrop : ∀ s, exec (.watchEntryDrop n) s = execWatchEntryDrop n s := fun _ => rfl
  have hheld : ∀ s, exec (.heldStoreExpiry n) s = execHeldStoreExpiry n s := fun _ => rfl
  have htok : ∀ s, exec (.tokwaitWatchTimeout i) s = execTokwaitWatchTimeout i s := fun _ => rfl
  have hage : ∀ s, exec (.landedEntryAging n) s = execLandedEntryAging n s := fun _ => rfl
  -- the exchange, whichever way the peer's signature falls
  have exchange : ∀ s, idleLink s → s.exchangeKeys port peerKey sig
      = if passes then (offered s).unacked.foldl (fun s e => (s.sendFlit port e.flit e.dep).getD s) (raised s) else left s := by
    intro s hi
    by_cases hv : passes
    · exact (State.exchangeKeys_raised hi hv).trans (if_pos hv).symm
    · exact (State.exchangeKeys_left hi hv).trans (if_neg hv).symm
  refine ⟨?_, fun s hi => (hkey s).trans (nx (exchange s hi)), fun s hi => (hkey s).trans (nx (State.exchangeKeys_idle hi)),
    ?_, ?_, ?_, ?_, hkey, ?_, ?_, ?_, ?_, ?_, ?_, ?_, ?_, ?_, ?_, ?_, ?_, ?_, ?_, ?_, ?_, ?_, ?_, ?_, ?_, ?_, ?_, ?_, ?_, ?_,
    ?_, ?_, ?_, ?_, ?_, ?_, ?_, ?_, ?_, ?_, ?_, ?_, ?_, ?_, ?_, ?_, ?_, ?_, ?_, ?_, ?_, ?_, ?_, ?_, ?_, ?_, ?_, ?_, ?_, ?_, ?_,
    ?_, ?_, ?_, ?_, ?_, ?_, ?_, ?_, ?_, ?_, ?_, ?_, ?_, ?_, ?_, ?_, ?_, ?_⟩
  · intro s ⟨hi, hu⟩
    refine (hkey s).trans (nx ((exchange s hi).trans ?_))
    rw [hu, List.foldl_nil]
  · exact fun s hu => ⟨Link.offers_unacked rfl rfl, Link.offers_clear_wire hu⟩
  · exact fun s hu hc => ⟨Link.offers_txCtr hu hc, Link.offers_unacked rfl rfl⟩
  · intro s ⟨⟨⟨hp, hu⟩, ho⟩, hr, hk, hx⟩
    exact (hrecv s).trans ((execFlitReceive_control hp hu ho hr (by rw [hk]; decide)).trans (nx (State.linkControl_key hk hx)))
  · intro s ⟨⟨⟨hp, hu⟩, ho⟩, hr, hk, hx, hf⟩
    exact (hrecv s).trans
      ((execFlitReceive_control hp hu ho hr (by rw [hk]; decide)).trans (nx (State.linkControl_signature hk hx hf)))
  · intro s ⟨hu, hc⟩
    rw [hrekey]
    simp only [execRekeyCounterLimit, hu, rekeyAt, hc, decide_true, Bool.and_self, if_true]
  · intro s hu
    rw [hrekey]
    simp only [execRekeyCounterLimit, show (s.link port).up = false from hu, Bool.false_and, Bool.false_eq_true, if_false]
  · exact fun s h => (hrecv s).trans (execFlitReceive_idle h)
  · exact fun s ⟨⟨hp, hu⟩, ho⟩ => (hrecv s).trans (execFlitReceive_failed hp hu ho)
  · exact fun s ⟨⟨⟨hp, hu⟩, ho⟩, hr⟩ => (hrecv s).trans (execFlitReceive_malformed hp hu ho hr)
  · intro s ⟨⟨⟨hp, hu⟩, ho⟩, hr, hk⟩
    exact (hrecv s).trans ((execFlitReceive_control hp hu ho hr (by rw [hk])).trans (nx (State.linkControl_acknowledged hk)))
  · exact fun s ⟨⟨⟨hp, hu⟩, ho⟩, hr, hk⟩ => (hrecv s).trans (execFlitReceive_control hp hu ho hr hk)
  · exact fun s ⟨⟨⟨hp, hu⟩, ho⟩, hr, hk, hd⟩ => (hrecv s).trans ((execFlitReceive_accepted hp hu ho hr hk).trans (nx (if_pos hd)))
  · exact fun s ⟨⟨⟨hp, hu⟩, ho⟩, hr, hk, hd⟩ =>
      (hrecv s).trans ((execFlitReceive_accepted hp hu ho hr hk).trans (nx (if_neg (not_not.2 hd))))
  · exact fun s ⟨hf, hu⟩ => (hreplay s).trans (execFlitReplay_sent hf hu)
  · exact fun s hf => (hreplay s).trans (execFlitReplay_none hf)
  · exact fun s h => (hretrain s).trans (nx (if_pos h))
  · exact fun s h => (hretrain s).trans (nx (if_neg (Nat.not_le.2 h)))
  · exact fun s h => (hmgmt s).trans (nx (if_pos h))
  · exact fun s h => (hmgmt s).trans (nx (if_neg fun ⟨hp, hd⟩ => h.elim (Nat.not_le.2 hp) (ne_true_of_eq_false · hd)))
  · exact fun s h => (hdown s).trans (nx (if_neg (Nat.not_le.2 h)))
  · exact fun s h => (hdown s).trans (nx (if_pos h))
  · exact fun s h => (hreset s).trans (execTargetPackageReset_own h)
  · intro s h
    refine (hreset s).trans ((execTargetPackageReset_other h).trans (nx (congrArg₂ (s.forgetPackage n) ?_ ?_)))
    · exact List.map_congr_left fun k _ => congrArg (Prod.mk k.1) (if_congr (k.2.outstandingTo_iff n) rfl rfl)
    · exact List.map_congr_left fun k _ => congrArg (Prod.mk k.1) (k.2.afterReset_eq n)
  · exact fun s ⟨⟨⟨hc, ho⟩, hh, hp⟩, hk⟩ =>
      (hrop s).trans ((execRemoteOpAtTarget_ok hc (State.letIn_passed ho) hh).trans (nx (State.performRop_load hk hp)))
  · exact fun s ⟨⟨⟨hc, ho⟩, hh, hp⟩, hk, ht⟩ =>
      (hrop s).trans ((execRemoteOpAtTarget_ok hc (State.letIn_passed ho) hh).trans (nx (State.performRop_store hk ht hp)))
  · exact fun s ⟨⟨⟨hc, ho⟩, hh, _⟩, hk⟩ =>
      (hrop s).trans ((execRemoteOpAtTarget_ok hc (State.letIn_passed ho) hh).trans (nx (State.performRop_fadd hk)))
  · exact fun s ⟨⟨hc, ho⟩, hh⟩ => (hrop s).trans (execRemoteOpAtTarget_ok hc (State.letIn_passed ho) hh)
  · exact fun s ⟨⟨hc, ho⟩, hh⟩ => (hrop s).trans (execRemoteOpAtTarget_error hc (State.letIn_passed ho) hh)
  · exact fun ho ht s ⟨hc, hb, hs, hh⟩ =>
      (hrop s).trans (execRemoteOpAtTarget_ok hc ((State.letIn_counted ho ht hb).trans (congrArg some hs)) hh)
  · exact fun ho ht s ⟨hc, hb, hs, hh⟩ =>
      (hrop s).trans (execRemoteOpAtTarget_error hc ((State.letIn_counted ho ht hb).trans (congrArg some hs)) hh)
  · exact fun ho ht s ⟨hc, hb⟩ => (hrop s).trans (execRemoteOpAtTarget_held hc (State.letIn_full ho ht hb))
  · exact fun hk s ⟨⟨hc, ho⟩, hh, hw⟩ =>
      (hrop s).trans ((execRemoteOpAtTarget_ok hc (State.letIn_passed ho) hh).trans (nx (State.performRop_begin_waits hk hw)))
  · exact fun s ⟨hg, h⟩ => (hrop s).trans (execRemoteOpAtTarget_idle hg h)
  · exact fun hk s hg => (hxl s).trans (execTranslationRequest_abroad hg hk)
  · exact fun s ⟨ha, hd, hw, hm, hf⟩ =>
      (hxl s).trans ((execTranslationRequest_here ha hd).trans (nx (State.xlatHere_found hw hm hf)))
  · exact fun s ⟨ha, hd⟩ => (hxl s).trans (execTranslationRequest_here ha hd)
  · exact fun s ⟨ha, hd, hk, hl⟩ => (hxl s).trans (execTranslationRequest_noPlane ha hd hk hl)
  · exact fun s ⟨ha, hd, hk, hl, hs⟩ => (hxl s).trans (execTranslationRequest_asks ha hd hk hl hs)
  · exact fun s hg => (hxl s).trans (execTranslationRequest_none hg)
  · exact fun hao hco hak hck hap hcp hax hcx har hcr hai hci hij had has hle hwin s ⟨hi, hj, hroom⟩ =>
      (hcomb s).trans (execSwitchCombine_combined hi hj ⟨hao, hak, hap, hax, har, hai⟩ ⟨hco, hck, hcp, hcx, hcr, hci⟩ hij had has hle
        hwin hroom)
  · exact fun s ⟨hi, hj, hn⟩ => (hcomb s).trans (execSwitchCombine_apart hi hj hn)
  · exact fun hp hn s ⟨hi, hr⟩ => (hsplit s).trans (execCombinedReplySplit_split hi hr hp hn)
  · exact fun s ⟨hi, hr⟩ => (hsplit s).trans (execCombinedReplySplit_unanswered hi hr)
  · exact fun s ⟨he, hs⟩ => (hinv s).trans (execHandlerInvocation_empty he hs)
  · exact fun s ⟨he, hs⟩ => (hinv s).trans (execHandlerInvocation_updating he hs)
  · exact fun s ⟨he, hs, hl, hr, hp⟩ => (hinv s).trans (execHandlerInvocation_bad he hs ⟨hl, hr⟩ hp)
  · exact fun s ⟨he, hp, hs, hl, hr⟩ => (hinv s).trans (execHandlerInvocation_fires he hs ⟨hl, hr⟩ hp)
  · exact fun hk hn hr hh s ⟨hg, ht, hu⟩ => (hhold s).trans (execHandlerHoldExpiry_expired hg hk hn hr hh ht hu)
  · exact fun s ⟨hg, hh⟩ => (hhold s).trans (execHandlerHoldExpiry_notHeld hg hh)
  · exact fun s ⟨hw, hl, hc⟩ => (hdep s).trans (execDependentStoreArrival_held hw hl hc)
  · exact fun s ⟨hw, he, hl⟩ => (hdep s).trans (execDependentStoreArrival_landed hw he hl)
  · exact fun s ⟨hw, he, hl⟩ => (hdep s).trans (execDependentStoreArrival_failed hw he hl)
  · exact fun ht hr hn hd s ⟨hg, hh, hc, hp, hl⟩ =>
      (hland s).trans ((execLandedRecord_performed ht hr hn hd hg hh hc).trans (nx (State.recordStore_ram hp hl)))
  · exact fun ht hr hn hd s ⟨hg, hh, hc⟩ => (hland s).trans (execLandedRecord_performed ht hr hn hd hg hh hc)
  · exact fun ht hr hn hs s ⟨hg, hh, hl⟩ => (hland s).trans (execLandedRecord_failed ht hr hn hs hg hh hl)
  · exact fun s ⟨⟨hg, hl, hs⟩, ha⟩ => (harr s).trans (execWatchArrival_answered hg hl hs ha)
  · exact fun s ⟨⟨hg, hl, hs⟩, ha, hc⟩ => (harr s).trans (execWatchArrival_refused hg hl hs ha hc)
  · exact fun s ⟨⟨hg, hl, hs⟩, ha, hc⟩ => (harr s).trans (execWatchArrival_entered hg hl hs ha hc)
  · exact fun s ⟨hg, h⟩ => (harr s).trans (execWatchArrival_idle hg h)
  · intro m
    unfold Watch.fate
    cases w.by' <;> rfl
  · exact fun hb hs s hg => (hans s).trans (execWatchAnswer_store hb hs hg)
  · exact fun hb hs s hg => (hans s).trans (execWatchAnswer_thread hb hs hg)
  · exact fun hb hs s hg => (hans s).trans (execWatchAnswer_abroad hb hs hg)
  · exact fun hb hs s hg => (hans s).trans (execWatchAnswer_refusal hb hs hg)
  · exact fun hb hs s ⟨hg, ht⟩ => (hans s).trans ((execWatchAnswer_abroad hb hs hg).trans (nx (State.answerAbroad_sent ht)))
  · exact fun hb hs s ⟨hg, ht, hl⟩ => (hresend s).trans ((execWatchResend_again hb hs hg ht).trans (nx (State.watchAgain_here hl)))
  · exact fun hb hs s ⟨hg, ht⟩ => (hresend s).trans (execWatchResend_again hb hs hg ht)
  · exact fun hb s hg => (hresend s).trans (execWatchResend_idle hb hg)
  · exact fun hb hs s ⟨hg, ht⟩ => (hdrop s).trans (execWatchEntryDrop_abroad hb hs hg ht)
  · exact fun hb hs s ⟨hg, ht⟩ => (hdrop s).trans (execWatchEntryDrop_store hb hs hg ht)
  · exact fun hs s ⟨hg, ht⟩ => (hdrop s).trans (execWatchEntryDrop_early hs hg ht)
  · exact fun hh hd s ⟨hg, hw, ht, ha⟩ => (hheld s).trans (execHeldStoreExpiry_expired hh hd hg hw ht ha)
  · exact fun hh _ s ⟨hg, h⟩ => (hheld s).trans (execHeldStoreExpiry_idle hh hg h)
  · exact fun hs s ⟨hw, hg, ht⟩ => (htok s).trans (execTokwaitWatchTimeout_ended hs hw hg ht)
  · exact fun hs s ⟨hw, hg⟩ => (htok s).trans (execTokwaitWatchTimeout_answered hs hw hg)
  · exact fun s ⟨he, hl, hs, ho⟩ => (hage s).trans (execLandedEntryAging_removed he hl hs ho)
  · exact fun s hl => (hage s).trans (execLandedEntryAging_room hl)
  · exact fun s hl => (hage s).trans (execLandedEntryAging_none hl)

end
